-- ==== Sys2Proof/Word.lean ====
section
/-!
DEFINITION. The word types of the TX8 and the sparse map in which the model holds every array
(registers, memories, tables): a list of key and value pairs in ascending key order.
-/
namespace Sys2Proof

/-- A 64-bit scalar, lane or register (R177, R196, R213). -/
abbrev Word := BitVec 64
/-- One byte of storage (R4). -/
abbrev Byte := BitVec 8
/-- A lane mask: bit l for lane l (R143). -/
abbrev Mask := BitVec 32

/-- A sparse array: key and value pairs, keys rising. -/
abbrev Sparse (α : Type) := List (Nat × α)

/-- The value listed at `k`, if any. -/
def Sparse.get? {α : Type} : Sparse α → Nat → Option α
  | [], _ => none
  | (j, v) :: t, k => if j = k then some v else Sparse.get? t k

/-- `m` with `v` at `k`, keeping the keys in rising order. -/
def Sparse.set {α : Type} : Sparse α → Nat → α → Sparse α
  | [], k, v => [(k, v)]
  | (j, w) :: t, k, v =>
    if k < j then (k, v) :: (j, w) :: t
    else if j = k then (k, v) :: t
    else (j, w) :: Sparse.set t k v

/-- `m` without `k`. -/
def Sparse.erase {α : Type} (m : Sparse α) (k : Nat) : Sparse α :=
  m.filter (fun e => decide (e.1 ≠ k))

/-- The value at `k`, or `d` where `k` is not listed. -/
def Sparse.getD {α : Type} (m : Sparse α) (k : Nat) (d : α) : α :=
  (Sparse.get? m k).getD d

/-- The keys rise strictly. -/
def Sparse.sorted {α : Type} : Sparse α → Bool
  | [] => true
  | [_] => true
  | (j, _) :: (k, w) :: t => decide (j < k) && Sparse.sorted ((k, w) :: t)

end Sys2Proof
end

