-- ==== Sys2Proof/Syntax.lean ====
section
/-!
DEFINITION. The TX8's instructions and device events: one constructor of `Instr` for each row of the
opcode table. A program instruction carries the fields of its format (R180) under the names the
format gives them; what an instruction makes of a field is named by the accessors below (R189 to R191).
An event carries what the outside world or the schedule supplies to it.
-/
namespace Sys2Proof

/-- Integer element types: TYPE of an integer family (R186). -/
inductive IntTy where
  | i8 | i16 | i32 | i64
  deriving DecidableEq, Repr

/-- Float element types: TYPE of a float family (R186). -/
inductive FloatTy where
  | f32 | bf16 | f16
  deriving DecidableEq, Repr

/-- Conditions of `vcmp`, ops 0 to 5 of major 0x22 (R192, R245). -/
inductive IntCmp where
  | eq | ne | lt | le | ltn | len
  deriving DecidableEq, Repr

/-- Conditions of `vfcmp`, ops 6 to 10 of major 0x22 (R192, R245). -/
inductive FloatCmp where
  | eq | ne | lt | le | un
  deriving DecidableEq, Repr

/-- Format V3 (R180). -/
structure V3 where
  p : Nat
  pn : Nat
  vd : Nat
  va : Nat
  vb : Nat
  kind : Nat
  amt : Nat
  deriving DecidableEq, Repr

/-- Format VI (R180). -/
structure VI where
  p : Nat
  pn : Nat
  vd : Nat
  va : Nat
  imm : Nat
  deriving DecidableEq, Repr

/-- Format VS (R180). -/
structure VS where
  p : Nat
  pn : Nat
  vd : Nat
  va : Nat
  sa : Nat
  imm : Nat
  deriving DecidableEq, Repr

/-- Format M (R180). -/
structure MF where
  p : Nat
  pn : Nat
  vd : Nat
  va : Nat
  sbase : Nat
  se : Nat
  slot : Nat
  scope : Nat
  order : Nat
  isc : Nat
  mx : Nat
  deriving DecidableEq, Repr

/-- Format X (R180): `b74` holds bits 7:4, which are SE and SLOT or F5. -/
structure XF where
  p : Nat
  pn : Nat
  f1 : Nat
  f2 : Nat
  f3 : Nat
  b74 : Nat
  f4 : Nat
  deriving DecidableEq, Repr

/-- Format VL (R180). -/
structure VL where
  vd : Nat
  sel : Nat
  imm : Nat
  deriving DecidableEq, Repr

/-- Format SR (R180). -/
structure SR where
  sd : Nat
  sa : Nat
  sb : Nat
  deriving DecidableEq, Repr

/-- Format SI (R180). -/
structure SI where
  sd : Nat
  sa : Nat
  imm : Nat
  deriving DecidableEq, Repr

/-- Format Y (R180, R191). -/
structure YF where
  sd : Nat
  sa : Nat
  code : Nat
  deriving DecidableEq, Repr

/-- Format BR (R180, R188). -/
structure BR where
  cond : Nat
  hint : Nat
  cc : Nat
  p : Nat
  sa : Nat
  off : Nat
  deriving DecidableEq, Repr

/-- Format SP (R180, R224). -/
structure SP where
  p : Nat
  pn : Nat
  join : Nat
  target : Nat
  u : Nat
  deriving DecidableEq, Repr

/-- The guard fields of `exit` (R226). -/
structure EX where
  p : Nat
  pn : Nat
  deriving DecidableEq, Repr

/-- The register windows through which registers are read and written (R376, R379). -/
inductive View where
  /-- BAR0 of function `c`. -/
  | context (c : Nat)
  /-- The privileged window of context `c`. -/
  | privileged (c : Nat)
  /-- The package registers. -/
  | package
  /-- The BAR2 port of region `r` of function `c`. -/
  | benchPort (c r : Nat)
  deriving DecidableEq, Repr

/-- What an access to a register acts on: the first four are aligned writes of eight bytes (R376, R377, R379). -/
inductive Window where
  /-- BAR0 of function `c`. -/
  | context (c : Nat)
  /-- The privileged window of context `c`. -/
  | privileged (c : Nat)
  /-- The package registers. -/
  | package
  /-- Request word of the BAR2 port of region `r` of function `c`. -/
  | benchPort (c r : Nat)
  /-- `n` bytes, at most eight, in the constant window of context `c` on every core, as `sxld` writes it at context creation
  (R17, R367). -/
  | constants (c n : Nat)
  /-- A read or a write of `size` bytes from byte `low` of a register on. -/
  | access (v : View) (read : Bool) (size low : Nat)
  deriving DecidableEq, Repr

/-- The end of a line transfer of the migration engine (R84). -/
inductive LineStatus where
  | good | timeout | linkDown
  deriving DecidableEq, Repr

/-- A unit of storage that can hold an error (R57, R74). -/
inductive Unit_ where
  /-- On-die, a physical unit (R33): the KIND of R57 and the core. Vector registers: quadrant, register of the quadrant, and
  twice the lane plus the 32-bit half; predicates and scalars: group place 0 to 47, number, and 0, or twice the split plus the
  half; shared memory: 0, 0 and the byte of the array; the others as the 0x07 layout has UNIT and OFFSET, with 0 before them. -/
  | onDie (kind core holder unit offset : Nat)
  /-- The 32-byte unit of main memory at this physical address. -/
  | main (pa : Nat)
  deriving DecidableEq, Repr

/-- Who sends a bench request of context `ctx` from outside the cores: the host through its port, or a foreman core with fields
of its own (R330, R379). -/
inductive BenchSource where
  | host (ctx : Nat)
  | foreman (ctx : Nat) (fields : List Word)
  deriving DecidableEq, Repr

/-- The context that a bench request from outside the cores is for. -/
def BenchSource.ctx : BenchSource → Nat
  | .host c => c
  | .foreman c _ => c

/-- A 64-byte flit (R75, R383): part `n mod 4` of the data of request `n / 4` between a base die and a compute die, or the flit
that an Avash Link port of this device has sent under number `n`. -/
inductive FlitId where
  | die (n : Nat)
  | avash (port n : Nat)
  deriving DecidableEq, Repr

/-- The request that a flit of the package belongs to (R75). -/
def FlitId.request : FlitId → Option Nat
  | .die n => some (n / 4)
  | .avash _ _ => none

/-- The context of another device whose journal records this one holds as partner (R334). -/
structure JournalSource where
  dev : Nat
  ctx : Nat
  deriving DecidableEq, Repr

/-- The instructions of a program and the events of the device. -/
inductive Instr where
  /-- Writes the 64-bit sum of two scalars to a scalar. (R214) -/
  | sadd (o : SR)
  /-- Writes the 64-bit difference of two scalars to a scalar. (R214) -/
  | ssub (o : SR)
  /-- Writes the low 64 bits of the product of two scalars. (R214) -/
  | smul (o : SR)
  /-- Writes bits 127:64 of the signed product of two scalars. (R214) -/
  | smulh (o : SR)
  /-- Writes bits 127:64 of the unsigned product of two scalars. (R214) -/
  | smulhn (o : SR)
  /-- Writes the bitwise and of two scalars. (R214) -/
  | sand (o : SR)
  /-- Writes the bitwise or of two scalars. (R214) -/
  | sor (o : SR)
  /-- Writes the bitwise exclusive or of two scalars. (R214) -/
  | sxor (o : SR)
  /-- Shifts a scalar left by a run-time amount, giving 0 for amounts of 64 or more. (R214) -/
  | sshl (o : SR)
  /-- Shifts a scalar right logically by a run-time amount. (R214) -/
  | sshr (o : SR)
  /-- Shifts a scalar right arithmetically by a run-time amount. (R214) -/
  | ssra (o : SR)
  /-- Writes the signed minimum of two scalars. (R214) -/
  | smin (o : SR)
  /-- Writes the signed maximum of two scalars. (R214) -/
  | smax (o : SR)
  /-- Writes the unsigned minimum of two scalars. (R214) -/
  | sminn (o : SR)
  /-- Writes the unsigned maximum of two scalars. (R214) -/
  | smaxn (o : SR)
  /-- Compares two scalars and writes Z, N, C and V into a condition-code set. (R215) -/
  | scmp (o : SR)
  /-- Adds a sign-extended immediate to a scalar. (R214) -/
  | saddi (o : SI)
  /-- Ands a scalar with a sign-extended immediate. (R214) -/
  | sandi (o : SI)
  /-- Ors a scalar with a sign-extended immediate. (R214) -/
  | sori (o : SI)
  /-- Exclusive-ors a scalar with a sign-extended immediate. (R214) -/
  | sxori (o : SI)
  /-- Shifts a scalar left by an immediate amount below 64. (R214) -/
  | sshli (o : SI)
  /-- Shifts a scalar right logically by an immediate amount below 64. (R214) -/
  | sshri (o : SI)
  /-- Shifts a scalar right arithmetically by an immediate amount below 64. (R214) -/
  | ssrai (o : SI)
  /-- Writes a sign-extended 32-bit immediate to a scalar. (R216) -/
  | sli (o : SI)
  /-- Replaces bits 63:32 of a scalar with a 32-bit immediate. (R216) -/
  | slih (o : SI)
  /-- Compares a scalar with a sign-extended immediate and writes a condition-code set. (R215) -/
  | scmpi (o : SI)
  /-- Copies a shifted 64-bit value of one lane of a vector register into a scalar. (R217) -/
  | sgetv (o : XF)
  /-- Writes to a scalar the mask of active lanes in which a predicate is true. (R218) -/
  | sballot (o : XF)
  /-- Writes the number of 1 bits of a scalar. (R219) -/
  | spopc (o : SR)
  /-- Writes the number of leading zero bits of a scalar. (R219) -/
  | sclz (o : SR)
  /-- Writes the index of the lowest 1 bit of a scalar, or 64. (R219) -/
  | sffs (o : SR)
  /-- Reads a special register into a scalar. (R220) -/
  | srd (o : YF)
  /-- Writes a scalar to a writable special register after checking its value. (R221) -/
  | swr (o : YF)
  /-- Branches PC-relative when its condition holds for the split. (R222) -/
  | br (o : BR)
  /-- Branches to a scalar base plus an offset when its condition holds. (R222) -/
  | brx (o : BR)
  /-- Branches PC-relative and writes the return address to a link scalar when taken. (R222) -/
  | call (o : BR)
  /-- Branches to the address held in a scalar when its condition holds. (R222) -/
  | ret (o : BR)
  /-- Divides the issuing split by a predicate into taken and fall-through parts and creates a divergence record. (R224) -/
  | split (o : SP)
  /-- Sends the split to the join address of its youngest divergence record to wait there. (R225) -/
  | join
  /-- Ends the guarded active lanes of the split, completing records they leave. (R226) -/
  | exit (o : EX)
  /-- Sets the split's region entry to its clause header and starts a new region. (R227) -/
  | ient
  /-- Writes an immediate value to the split's format register. (R228) -/
  | fmt (o : YF)
  /-- Changes no state. (R229) -/
  | nop
  /-- Adds integer elements lane by lane. (R242) -/
  | vadd (ty : IntTy) (o : V3)
  /-- Subtracts integer elements lane by lane. (R242) -/
  | vsub (ty : IntTy) (o : V3)
  /-- Writes the low bits of integer element products. (R242) -/
  | vmul (ty : IntTy) (o : V3)
  /-- Writes the high bits of signed integer element products. (R242) -/
  | vmulh (ty : IntTy) (o : V3)
  /-- Writes the high bits of unsigned integer element products. (R242) -/
  | vmulhn (ty : IntTy) (o : V3)
  /-- Bitwise and of integer elements. (R242) -/
  | vand (ty : IntTy) (o : V3)
  /-- Bitwise or of integer elements. (R242) -/
  | vor (ty : IntTy) (o : V3)
  /-- Bitwise exclusive or of integer elements. (R242) -/
  | vxor (ty : IntTy) (o : V3)
  /-- Shifts integer elements left by per-element amounts. (R242) -/
  | vshl (ty : IntTy) (o : V3)
  /-- Shifts integer elements right logically by per-element amounts. (R242) -/
  | vshr (ty : IntTy) (o : V3)
  /-- Shifts integer elements right arithmetically by per-element amounts. (R242) -/
  | vsra (ty : IntTy) (o : V3)
  /-- Signed minimum of integer elements. (R242) -/
  | vmin (ty : IntTy) (o : V3)
  /-- Signed maximum of integer elements. (R242) -/
  | vmax (ty : IntTy) (o : V3)
  /-- Unsigned minimum of integer elements. (R242) -/
  | vminn (ty : IntTy) (o : V3)
  /-- Unsigned maximum of integer elements. (R242) -/
  | vmaxn (ty : IntTy) (o : V3)
  /-- Absolute value of signed integer elements. (R242) -/
  | vabs (ty : IntTy) (o : V3)
  /-- Negates integer elements. (R242) -/
  | vneg (ty : IntTy) (o : V3)
  /-- Counts leading zeros of integer elements. (R242) -/
  | vclz (ty : IntTy) (o : V3)
  /-- Counts 1 bits of integer elements. (R242) -/
  | vpopc (ty : IntTy) (o : V3)
  /-- Adds an immediate to integer elements. (R243) -/
  | vaddi (ty : IntTy) (o : VI)
  /-- Ands integer elements with an immediate. (R243) -/
  | vandi (ty : IntTy) (o : VI)
  /-- Ors integer elements with an immediate. (R243) -/
  | vori (ty : IntTy) (o : VI)
  /-- Exclusive-ors integer elements with an immediate. (R243) -/
  | vxori (ty : IntTy) (o : VI)
  /-- Shifts integer elements left by an immediate. (R243) -/
  | vshli (ty : IntTy) (o : VI)
  /-- Shifts integer elements right logically by an immediate. (R243) -/
  | vshri (ty : IntTy) (o : VI)
  /-- Shifts integer elements right arithmetically by an immediate. (R243) -/
  | vsrai (ty : IntTy) (o : VI)
  /-- Writes a 32-bit immediate into every active lane by one of four forms. (R244) -/
  | vli (o : VL)
  /-- Compares integer elements and writes a predicate per lane. (R245) -/
  | vcmp (c : IntCmp) (ty : IntTy) (o : V3)
  /-- Compares float elements and writes a predicate per lane. (R245) -/
  | vfcmp (c : FloatCmp) (ty : FloatTy) (o : V3)
  /-- Predicate and. (R246) -/
  | pand (o : V3)
  /-- Predicate or. (R246) -/
  | por (o : V3)
  /-- Predicate exclusive or. (R246) -/
  | pxor (o : V3)
  /-- Predicate and-not. (R246) -/
  | pandn (o : V3)
  /-- Predicate not. (R246) -/
  | pnot (o : V3)
  /-- Predicate move. (R246) -/
  | pmov (o : V3)
  /-- Sets a predicate true in the guarded lanes. (R246) -/
  | pset (o : V3)
  /-- Sets a predicate false in the guarded lanes. (R246) -/
  | pclr (o : V3)
  /-- Writes the Z flag of a condition-code set into a predicate. (R246) -/
  | ptest (o : V3)
  /-- Selects between two vector sources per lane by a predicate. (R247) -/
  | vsel (o : V3)
  /-- Copies a vector register in the guarded lanes. (R247) -/
  | vmov (o : V3)
  /-- Writes a scalar into every guarded lane. (R248) -/
  | vbcast (o : VS)
  /-- Broadcasts one lane and sub-element of a register to the guarded lanes. (R248) -/
  | vlane (o : VS)
  /-- Adds float elements with one rounding. (R249) -/
  | vfadd (ty : FloatTy) (o : V3)
  /-- Subtracts float elements with one rounding. (R249) -/
  | vfsub (ty : FloatTy) (o : V3)
  /-- Multiplies float elements with one rounding. (R249) -/
  | vfmul (ty : FloatTy) (o : V3)
  /-- Fused multiply-add into the destination. (R249) -/
  | vfma (ty : FloatTy) (o : V3)
  /-- Fused multiply-subtract from the destination. (R249) -/
  | vfms (ty : FloatTy) (o : V3)
  /-- Negated fused multiply-add. (R249) -/
  | vfnma (ty : FloatTy) (o : V3)
  /-- Float minimum by fmin_num. (R249) -/
  | vfmin (ty : FloatTy) (o : V3)
  /-- Float maximum by fmax_num. (R249) -/
  | vfmax (ty : FloatTy) (o : V3)
  /-- Float absolute value. (R249) -/
  | vfabs (ty : FloatTy) (o : V3)
  /-- Float negation. (R249) -/
  | vfneg (ty : FloatTy) (o : V3)
  /-- Writes a class mask for each float element. (R249) -/
  | vfclass (ty : FloatTy) (o : V3)
  /-- Computes the correctly rounded reciprocal of FP32 elements. (R250) -/
  | vrcp (o : XF)
  /-- Computes the reciprocal square root of FP32 elements. (R250) -/
  | vrsq (o : XF)
  /-- Computes the square root of FP32 elements. (R250) -/
  | vsqrt (o : XF)
  /-- Computes 2 to the power of FP32 elements. (R250) -/
  | vexp2 (o : XF)
  /-- Computes the base-2 logarithm of FP32 elements. (R250) -/
  | vlog2 (o : XF)
  /-- Converts elements between formats, optionally with a scale. (R251) -/
  | vcvt (o : XF)
  /-- Converts a run of registers into narrower elements of one register. (R251) -/
  | vpack (o : XF)
  /-- Converts narrow elements of one register into a run of wider registers. (R251) -/
  | vunpack (o : XF)
  /-- Computes an E8M0 shared scale for each lane. (R253) -/
  | vscl (o : XF)
  /-- Accumulates dot products of 8-bit float elements into FP32. (R254) -/
  | vdot8 (o : XF)
  /-- Accumulates dot products of E2M1 elements into FP32. (R254) -/
  | vdot4 (o : XF)
  /-- Accumulates dot products of INT8 elements into 32-bit integers. (R254) -/
  | vdoti8 (o : XF)
  /-- Multiplies an n-by-n FP32 matrix in the constant window by each lane's vector. (R255) -/
  | tmv (o : XF)
  /-- Shuffles bytes across the lanes of the group. (R256) -/
  | vperm (o : V3)
  /-- Reduces each element position over the guarded lanes by a fixed tree. (R257) -/
  | vred (o : XF)
  /-- Computes inclusive scans of each element position over the guarded lanes. (R257) -/
  | vscan (o : XF)
  /-- Writes for each lane the mask of lower lanes holding the same value. (R258) -/
  | vconf (o : V3)
  /-- Ranks the lanes whose source is nonzero. (R259) -/
  | vcomp (o : V3)
  /-- Loads from block shared memory per lane. (R267) -/
  | lds (o : MF)
  /-- Stores to block shared memory per lane. (R267) -/
  | sts (o : MF)
  /-- Loads from the scratchpad window through the write buffer. (R267) -/
  | ldx (o : MF)
  /-- Stores to the scratchpad window via the write buffer. (R267) -/
  | stx (o : MF)
  /-- Loads from the constant window in broadcast passes. (R267) -/
  | ldc (o : MF)
  /-- Stores a whole register to a spill slot. (R268) -/
  | vspill (o : MF)
  /-- Loads a whole register from a spill slot. (R268) -/
  | vfill (o : MF)
  /-- Gathers per-lane elements from shared memory or scratchpad, faulting failing lanes individually. (R269) -/
  | vgth (o : MF)
  /-- Scatters per-lane elements to shared memory or scratchpad, faulting failing lanes individually. (R269) -/
  | vsct (o : MF)
  /-- Atomic integer add per lane with pre-combining. (R270) -/
  | aadd (o : MF)
  /-- Atomic float add per lane with pre-combining. (R270) -/
  | afadd (o : MF)
  /-- Atomic integer minimum per lane. (R270) -/
  | amin (o : MF)
  /-- Atomic integer maximum per lane. (R270) -/
  | amax (o : MF)
  /-- Atomic bitwise and per lane. (R270) -/
  | aand (o : MF)
  /-- Atomic bitwise or per lane. (R270) -/
  | aor (o : MF)
  /-- Atomic exchange per lane. (R270) -/
  | axchg (o : MF)
  /-- Atomic compare-and-swap per lane. (R270) -/
  | acas (o : MF)
  /-- Arrives at a barrier word and waits for its phase to change. (R274) -/
  | bar (o : MF)
  /-- Arrives at a barrier word and continues. (R274) -/
  | barr (o : MF)
  /-- Waits for a barrier word's phase to change without arriving. (R274) -/
  | barw (o : MF)
  /-- Checks a word against an expected value and arms a monitor, waiting until woken. (R276) -/
  | wmon (o : YF)
  /-- Orders the split's accesses at a scope, draining the write buffer for wide scopes. (R277) -/
  | fence (o : MF)
  /-- Completes once earlier register and shared-memory writes are visible to the matrix and attention engines. (R277) -/
  | fenceOp (o : MF)
  /-- Checks and queues a copy between address spaces into the open copy set. (R278) -/
  | cpy (o : YF)
  /-- Checks and queues a copy-reduction combining source elements into destination elements. (R281) -/
  | cpyr (o : YF)
  /-- Closes the open operations of a class into a numbered batch. (R282) -/
  | bclose (o : YF)
  /-- Waits for batches of a class to complete and reports unreported errors by trap. (R283) -/
  | bwait (o : YF)
  /-- In a handler, drains the write buffer, cancels unstarted copies into replay entries and waits for the rest. (R285) -/
  | cquiesce (o : YF)
  /-- Re-issues recorded replay entries into their batches. (R287) -/
  | cquiesceRst (o : YF)
  /-- Removes the oldest entry of a class's error list and returns it. (R284) -/
  | cstat (o : YF)
  /-- Claims a named operand slot for the group, or is refused. (R289) -/
  | oclaim (o : YF)
  /-- Claims the lowest free operand slot, or is refused. (R289) -/
  | oclaimAny (o : YF)
  /-- Releases an owned operand slot, deferring while readers remain. (R290) -/
  | orel (o : YF)
  /-- Checks and queues a dense matrix multiply-accumulate into a tile. (R293) -/
  | mma (o : XF)
  /-- Checks and queues a 2:4 sparse matrix multiply-accumulate into a tile. (R293) -/
  | mmas (o : XF)
  /-- Queues a matrix operation that writes +0 into a whole tile. (R300) -/
  | mzero (o : YF)
  /-- Reads FP32 elements of a tile into guarded lanes. (R301) -/
  | accrd (o : XF)
  /-- Writes elements of guarded lanes into a tile. (R302) -/
  | accwr (o : XF)
  /-- Requests, replaces or withdraws a lease of n array operations. (R299) -/
  | mlease (o : YF)
  /-- On an odd core, offers the array to the leader through a bond of n paired operations. (R297) -/
  | mleaseFol (o : YF)
  /-- Queues a search for a transposable 2:4 mask over a 32-by-32 block of a slot. (R303) -/
  | smask (o : YF)
  /-- Checks and queues a fresh brim attention operation. (R306) -/
  | attnBrim (o : YF)
  /-- Checks and queues a brim attention operation that resumes from its cursor. (R315) -/
  | attnBrimRes (o : YF)
  /-- Returns per lane the effective status and map entry of a position. (R318) -/
  | kvmap (o : XF)
  /-- Appends or rewrites a token slot of a page under the publication order. (R322) -/
  | kvapp (o : YF)
  /-- Rewrites masked slots of a page after widening its summary. (R321) -/
  | kvreq (o : YF)
  /-- Tightens a page summary to the exact box. (R321) -/
  | kvsum (o : YF)
  /-- Changes a map entry's status along a listed transition. (R323) -/
  | kvlink (o : YF)
  /-- Trims a page passed by the window start to status 3, optionally returning its frame. (R324) -/
  | kvtrim (o : YF)
  /-- Takes a frame from the core's frame cache, posting a refill when empty. (R325) -/
  | pgget (o : YF)
  /-- Inserts a frame into the core's frame cache. (R325) -/
  | pgput (o : YF)
  /-- Deposits a tuple into a bench region, optionally gated on the journal. (R329) -/
  | bdep (o : YF)
  /-- Copies a matching tuple from a bench region, parking or polling. (R329) -/
  | bcpy (o : YF)
  /-- Takes a matching tuple from a bench region, parking or polling. (R329) -/
  | btak (o : YF)
  /-- Journals a staged record into the local buffer and sends it to the partner. (R336) -/
  | jrec (o : YF)
  /-- Returns the acknowledged record number. (R337) -/
  | jack (o : YF)
  /-- Marks acknowledged records of a sequence truncated in the partner's journal. (R337) -/
  | jtrunc (o : YF)
  /-- Computes Philox4x32-10 per guarded lane. (R340) -/
  | rngc (o : XF)
  /-- Validates and writes a range register. (R261) -/
  | bdset (o : YF)
  /-- Reads a range register's descriptor or bounds word. (R261) -/
  | bdget (o : YF)
  /-- Clears the range registers selected by a mask. (R261) -/
  | bdclr (o : YF)
  /-- Enters one spawn item per guarded lane into the core's spawn queue, all or none. (R230) -/
  | spawn (o : XF)
  /-- Checks and launches a child grid from a launch record. (R231) -/
  | glaunch (o : YF)
  /-- Waits until a child grid has retired. (R233) -/
  | gwait (o : YF)
  /-- Raises cause 0x12 with a code. (R234) -/
  | trap (o : YF)
  /-- Ends the split's handler, restores shadowed state and resumes by mode. (R235) -/
  | eret (o : YF)
  /-- Reads a context control register into a scalar. (R236) -/
  | csrr (o : YF)
  /-- Writes a scalar to a writable context control register. (R236) -/
  | csrw (o : YF)
  /-- Halts the split for an attached debugger, or traps with cause 0x11. (R364) -/
  | brk (o : YF)
  /-- Returns and sets the block's barrier watchdog limit. (R238) -/
  | wdog (o : YF)
  /-- Returns the block's watchdog limit without changing it. (R238) -/
  | wdogQ (o : YF)
  /-- At a clause boundary a group scheduler picks a ready group and split and issues its clause. (R165) -/
  | groupPick (core q : Nat)
  /-- A held instruction's hold clears and its split becomes ready to resume the clause remainder. (R168) -/
  | holdClear (gid sid : Nat)
  /-- A variable-latency result is written, releasing its interlock and scoreboard count. (R167) -/
  | resultWriteback (gid idx : Nat)
  /-- A reply to a returning atomic, wmon or bench request arrives at the requester's return slot. (R51) -/
  | returnSlotReply (core idx : Nat)
  /-- A write-buffer entry drains to its home slice on reaching 4,096 cycles since allocation. (R46) -/
  | wbDrainTimeout (core idx : Nat)
  /-- A service group executes the next request of its queue: an atomic, copy-reduction or wmon check-and-arm. (R49) -/
  | serviceGroupExec (die slice : Nat)
  /-- A home service group serves a deposit, copy or take request, matching, parking or storing tuples. (R331) -/
  | benchServe (die slice : Nat)
  /-- A withdraw removes an unserved parked bench request before its split takes an event. (R332) -/
  | benchWithdraw (gid sid : Nat)
  /-- A channel or CXL port scheduler picks and performs one eligible request in a scheduling slot. (R64) -/
  | channelPick (sched : Nat) (eligible : List Nat)
  /-- A tagged completion with status returns to the requester, counting a miss if its slack is negative. (R61) -/
  | memCompletion (id : Nat)
  /-- A channel's thermal state falls after 1 ms below the threshold minus hysteresis. (R67) -/
  | thermalStateFall (ch : Nat)
  /-- After 1 ms since the last switch a channel rises one rate step toward its target. (R68) -/
  | rateRiseTimer (ch : Nat)
  /-- A channel ends its retiming stall and accepts commands again. (R69) -/
  | rateSwitchEnd (ch : Nat)
  /-- After two tREFI without a heartbeat the fallback sequencer takes refresh over and raises an event. (R70) -/
  | fallbackTakeover (stack : Nat)
  /-- A CXL request without a completion fails with timeout status when its time expires. (R78) -/
  | cxlTimeout (id : Nat)
  /-- BUSY clears once removal is done and every request using a removed translation has completed. (R28) -/
  | xlinvcComplete
  /-- A request routed to a migration slot is pulled, forwarded or dual-written per line. (R81) -/
  | migRoutedRequest (slot : Nat) (link : LineStatus)
  /-- The migration engine pulls or copies the next clear line in class 3, entering done when all are set. (R82) -/
  | migBackgroundFill (slot : Nat) (link : LineStatus)
  /-- A batch completes when its writes are performed, making its barrier arrivals and recording errors. (R126) -/
  | copyBatchComplete (gid batch : Nat)
  /-- The engine arbiter selects the next matrix operation when the array is free, under leases and bonds. (R173) -/
  | matrixOpStart (core : Nat)
  /-- A matrix operation finishes writing its tile and releases its slot readers. (R295) -/
  | matrixOpRetire (core : Nat)
  /-- A new 64-cycle window lets the die start limiter grant waiting start requests. (R170) -/
  | startLimitWindow (die : Nat)
  /-- A matrix array becomes idle after 256 cycles without an operation. (R170) -/
  | arrayIdle (core : Nat)
  /-- A lease ends when its holder has had no queued operation for 64 cycles. (R173) -/
  | leaseIdleExpire (core : Nat)
  /-- The attention engine starts an operation, validating the descriptor and running phase 1 or resuming. (R315) -/
  | attnStart (core : Nat)
  /-- The attention engine forms residuals and visits the next page or stops, writing outputs on a stop. (R312) -/
  | attnVisit (core : Nat)
  /-- The distributor places a pending block on a core and starts its static groups. (R162) -/
  | blockPlace (die : Nat)
  /-- A block unplaced for 2^20 cycles reserves the core needing the fewest releases. (R162) -/
  | placementStarvation (bid : Nat)
  /-- A block unplaced for 4,096 cycles chooses victims whose groups take pre-emption traps. (R174) -/
  | evictionSelect (bid : Nat)
  /-- The distributor restores an evicted group as a restore handler once its resources are free. (R357) -/
  | groupRestore (core : Nat)
  /-- A group with no live lane ends once its results and batches complete, freeing slots. (R149) -/
  | groupEnd (gid : Nat)
  /-- A spawn waiting 4,096 cycles for queue room traps with cause 0x16. (R153) -/
  | spawnHoldTimeout (gid sid : Nat)
  /-- A bin whose oldest item has waited 1,024 cycles forms a partial packed group. (R154) -/
  | spawnBinTimeout (core idx : Nat)
  /-- A formed packed group starts once a packed-group slot of its block is free. (R154) -/
  | packedGroupStart (core : Nat)
  /-- A watched barrier phase past its limit raises cause 0x0D in its waiting splits. (R275) -/
  | barrierWatchdogExpire (core idx : Nat)
  /-- A queued replay validates, reads parameters, applies patches and starts root nodes. (R159) -/
  | replayStart (ctx slot : Nat)
  /-- A node launches its grid when its completion word reaches its predecessor count. (R159) -/
  | nodeStart (ctx slot node : Nat)
  /-- A grant tuple taken by the core inserts frames into the frame cache and clears the pending refill. (R104) -/
  | frameGrant (core : Nat)
  /-- A refused parked take for a grant is retried every 4,096 cycles. (R105) -/
  | grantTakeRetry (core : Nat)
  /-- No message from the partner for JTO marks the journal lost and arms cause 0x15. (R334) -/
  | partnerSilence (ctx : Nat)
  /-- The core's copy engine takes a queued copy and performs its reads and destination writes, translating pages and meeting bench-span, range-register and parity checks. (R280) -/
  | copyEngineTransfer (core : Nat)
  /-- A die-to-die flit, or one of an Avash Link port, is received and CRC-checked, re-sent from the replay buffer or delivered as poison. (R75, R383) -/
  | dieFlitReceive (id : FlitId) (crcOk : Bool)
  /-- Patrol scrub reads and corrects a unit once per scrub period. (R74) -/
  | patrolScrub (unit : Nat)
  /-- After 4,096 bursts, in which it has counted `ones` and `toggles`, a channel chooses its DBI mode for the next window. (R66) -/
  | dbiWindowEnd (ch ones toggles : Nat)
  /-- A channel samples its temperature and raises its thermal state when a threshold is reached. (R67) -/
  | thermalSample (ch temp : Nat)
  /-- A base die reset returns every channel to full rate. (R68) -/
  | baseDieReset (stack : Nat)
  /-- At a tREFI boundary with REL set and a fresh heartbeat, refresh returns to the controller core. (R71) -/
  | refreshHandback (stack : Nat)
  /-- The foreman writes REL to request handback of refresh. (R71) -/
  | bdstatRel (stack : Nat)
  /-- A completion arriving after its request timed out is discarded. (R78) -/
  | cxlLateCompletion (id : Nat)
  /-- A CXL port's link goes down, failing outstanding requests and clearing EN. (R79) -/
  | cxlLinkDown (port : Nat)
  /-- A CXL port's link trains and UP is set. (R382) -/
  | cxlLinkTrained (port cap : Nat)
  /-- Firmware writes EN to re-enable a trained CXL port. (R382) -/
  | cxpstatEnable (port : Nat)
  /-- A write to XLINVC starts removal of kept translations for a context range. (R28) -/
  | xlinvcCommand (v : Word)
  /-- CMD arm takes an idle migration slot to armed if its frames are populated. (R82) -/
  | migArm (slot : Nat)
  /-- CMD start takes an armed slot to running and releases waiting requests. (R82) -/
  | migStart (slot : Nat)
  /-- CMD switch takes a dual-write slot in done to switching. (R83) -/
  | migSwitch (slot : Nat)
  /-- CMD finish takes a switching slot to done with all routing to NEW. (R83) -/
  | migFinish (slot : Nat)
  /-- CMD abort poisons clear lines in pull mode or returns a dual-write slot to idle. (R84) -/
  | migAbort (slot : Nat)
  /-- CMD clear returns a done slot to idle. (R82) -/
  | migClear (slot : Nat)
  /-- When USED reaches SLICE the context's resident groups become victims of cause 0x0F. (R380) -/
  | timeSliceExpire (ctx : Nat)
  /-- A write to a task-graph object slot, ignored while replays are queued or running. (R156) -/
  | tgobjWrite (ctx slot : Nat) (v : Word)
  /-- A write to TGKICK queues a replay of a task-graph object or sets ERR or DROP. (R158) -/
  | kick (ctx : Nat) (v : Word)
  /-- JCFG written with EN = 1 binds a partner and sends or resends unacknowledged records. (R334) -/
  | jcfgBind (ctx : Nat) (v : Word)
  /-- JCFG written with EN = 0 unbinds the journal, keeping held deposits held. (R334) -/
  | jcfgDisable (ctx : Nat) (v : Word)
  /-- A write of JBUF sets the buffer and, when unbound with no held deposit, resets numbering and ACKED. (R334) -/
  | jbufWrite (ctx : Nat) (v : Word)
  /-- An acknowledgement raises ACKED, frees buffer space and releases held gated deposits. (R334) -/
  | journalAck (ctx : Nat) (dev n : Nat)
  /-- An idle message from the partner shows it alive. (R334) -/
  | partnerIdleMessage (ctx : Nat) (dev : Nat)
  /-- Link down on the partner's Avash Link port marks the journal lost. (R334) -/
  | avashLinkDown (port : Nat)
  /-- The host deposits a tuple through its bench port. (R379) -/
  | hostBenchDeposit (src : BenchSource) (region : Nat) (w : Word)
  /-- The host polls for a copy of a matching tuple. (R379) -/
  | hostBenchCopy (src : BenchSource) (region : Nat) (w : Word)
  /-- The host polls to take a matching tuple. (R379) -/
  | hostBenchTake (src : BenchSource) (region : Nat) (w : Word)
  /-- A request word with OP 3 is refused with ST 3. (R379) -/
  | hostBenchRefusedOp (ctx region : Nat) (w : Word)
  /-- A host CXL.mem read of HBM within HMLIM, otherwise refused with poison. (R378) -/
  | hostMemRead (pa len : Nat)
  /-- A host CXL.mem write of HBM within HMLIM, otherwise dropped. (R378) -/
  | hostMemWrite (pa : Nat) (bytes : List Byte)
  /-- A foreman core writes a signed attestation report for a mailbox request and deposits the reply. (R385) -/
  | attestationReport (ctx : Nat)
  /-- Writing KILL terminates a context as a request from system software. (R381) -/
  | termrepKill (ctx : Nat) (v : Word)
  /-- Halts the named splits at their next instruction boundary. (R362) -/
  | dbgHalt (v : Word)
  /-- Clears a halt and resumes at the split's PC. (R362) -/
  | dbgResume (v : Word)
  /-- Advances the selected split by one instruction. (R363) -/
  | dbgStep (v : Word)
  /-- Steps each halted live split of the group once in ascending id. (R363) -/
  | dbgStepAll (v : Word)
  /-- Attaches a debugger to a context. (R387) -/
  | dbgAttach (v : Word)
  /-- Detaches the debugger from a context. (R387) -/
  | dbgDetach (v : Word)
  /-- A write to a halted group's control part through the debug window, applied at resume. (R387) -/
  | debugWindowWrite (off : Nat) (v : Word)
  /-- Package reset runs signature verification of the foreman, base-die and service images. (R384) -/
  | boot (foreman baseDie service : Bool)
  /-- A write to any register without behaviour of its own, through a window or view. (R377) -/
  | registerWrite (win : Window) (num : Nat) (v : Word)
  /-- An Avash Link port finishes training and its UP bit is set. (R383) -/
  | avashLinkTrained (port peer : Nat)
  /-- Acting as partner, the device receives a journal record over Avash Link, stores it in ascending number order and acknowledges it, holding acknowledgements back while its journal region is full. (R334) -/
  | journalRecordReceive (src : JournalSource) (num : Nat) (rec : List Byte)
  /-- Acting as partner, the device receives a truncation request, marks the acknowledged records of a sequence and reclaims space in ascending record number. (R337) -/
  | journalTruncateReceive (src : JournalSource) (seq upto : Nat)
  /-- A refresh interval of a stack expires, and a refresh command is issued ahead of every request, or caught up by the fallback sequencer at the thermal-state interval. (R70) -/
  | refreshDue (stack : Nat)
  /-- A stored bit of an on-die array or an HBM unit is corrupted in place, leaving an error that the next read detects or corrects. (R33) -/
  | storageError (u : Unit_) (bits : Nat)
  deriving DecidableEq, Repr

/-- `z`, the register that reads zero and discards writes (R181). -/
def zReg : Nat := 2047

/-- SE of an X format word (R190). -/
def XF.se (o : XF) : Nat := o.b74 / 8
/-- SLOT of an X format word (R190). -/
def XF.slot (o : XF) : Nat := o.b74 % 8
/-- The scoreboard slot an X format word names, if any. -/
def XF.sb (o : XF) : Option Nat := if o.b74 / 8 = 1 then some (o.b74 % 8) else none
/-- SA in bits 13:8 (R190). -/
def XF.sa (o : XF) : Nat := o.f3 % 64
/-- Tile of `mma` and `mmas`: bits 40:38 (R190). -/
def XF.mtile (o : XF) : Nat := o.f1 / 256
/-- Slot A: bits 37:34 (R190). -/
def XF.slotA (o : XF) : Nat := o.f1 / 16 % 16
/-- Slot B: bits 33:30 (R190). -/
def XF.slotB (o : XF) : Nat := o.f1 % 16
/-- PAIR: bit 18 (R190). -/
def XF.pair (o : XF) : Bool := decide (o.f3 / 1024 = 1)
/-- Format of `mma` and `mmas`: bits 17:14 (R190). -/
def XF.mfmt (o : XF) : Nat := o.f3 / 64 % 16
/-- Tile of `accrd` and `accwr`: bits 18:16 (R190). -/
def XF.atile (o : XF) : Nat := o.f3 / 256
/-- The scoreboard slot an M format word names, if any (R189). -/
def MF.sb (o : MF) : Option Nat := if o.se = 1 then some o.slot else none

end Sys2Proof
end

