-- ==== Sys2Proof/Machine/Checks.lean ====
section
/-!
DEFINITION. The checks of the encoding chapter on the fields of one instruction (R181 to R193):
`zeroBad` is REASON 3 (a field that must be zero is not), `rangeBad` is REASON 4 (an illegal field value).
-/
namespace Sys2Proof.Checks

/-- An 11-bit vector register field: 0..1535 or `z` (R181). -/
def vreg (n : Nat) : Bool := decide (n ≤ 1535) || decide (n = 2047)

/-- A run of `k` registers from `n`; `z` cannot start it (R181). -/
def run (n k : Nat) : Bool := decide (n + k ≤ 1536)

/-- A 7-bit predicate field (R182). -/
def pred (n : Nat) : Bool := decide (n ≤ 95)

/-- The upper four bits of an 11-bit field that names a predicate are zero (R182). -/
def predZero (n : Nat) : Bool := decide (n / 128 = 0)

/-- An 11-bit field that names a predicate: its low seven bits (R182). -/
def pred11 (n : Nat) : Bool := decide (n % 128 ≤ 95)

/-- KIND and AMT of a lane pattern (R184). -/
def pattern (kind amt : Nat) : Bool :=
  match kind with
  | 0 => decide (amt = 0)
  | 1 => true
  | 2 => decide (amt = 0)
  | 3 => decide (amt ≤ 7)
  | 4 => true
  | _ => false

/-- SE and SLOT: no slot without SE, none with destination `z` (R190, R193). -/
def slotZero (se slot vd : Nat) : Bool :=
  (decide (se = 1) || decide (slot = 0)) && (decide (se = 0) || decide (vd ≠ zReg))

/-- P and PN are zero. -/
def noGuard (p pn : Nat) : Bool := decide (p = 0) && decide (pn = 0)

/-- Unused fields of the unary V3 forms (R192). -/
def unaryZero (o : V3) : Bool := decide (o.vb = 0) && decide (o.kind = 0) && decide (o.amt = 0)

/-- The register and pattern ranges of a V3 form whose operands are vector registers. -/
def v3Range (o : V3) : Bool :=
  pred o.p && vreg o.vd && vreg o.va && vreg o.vb && pattern o.kind o.amt

/-- As `v3Range` for a unary form. -/
def v3Unary (o : V3) : Bool := pred o.p && vreg o.vd && vreg o.va

/-- Element width of an integer type. -/
def intWidth : IntTy → Nat
  | .i8 => 8
  | .i16 => 16
  | .i32 => 32
  | .i64 => 64

/-- Widths of the format codes of R190. -/
def fmtWidth : Nat → Nat
  | 0 => 32
  | 1 => 16
  | 2 => 16
  | 3 => 8
  | 4 => 8
  | 5 => 4
  | 6 => 32
  | 7 => 16
  | 8 => 8
  | 9 => 4
  | _ => 8

/-- A scaled format: E4M3, E5M2, E2M1, INT8 or INT4 (R252). -/
def scaledFmt (f : Nat) : Bool := f == 3 || f == 4 || f == 5 || f == 8 || f == 9

/-- FP32, BF16 or FP16. -/
def wideFmt (f : Nat) : Bool := decide (f ≤ 2)

/-- A scale register is named only where exactly one side is scaled and the other wide (R252). -/
def scaleOk (o : XF) : Bool :=
  decide (o.f3 = zReg) ||
    (scaledFmt o.b74 && wideFmt o.f4) || (wideFmt o.b74 && scaledFmt o.f4)

/-- The common ranges of `vcvt`, `vpack` and `vunpack` (R251, R252). -/
def cvtRange (o : XF) : Bool :=
  pred o.p && vreg o.f3 && decide (o.b74 ≤ 9) && decide (o.f4 ≤ 9) && scaleOk o

/-- The number of registers that hold an n-element FP32 vector, two to a lane (R255). -/
def tmvRegs (f4 : Nat) : Nat := (f4 + 2) / 2

/-- Orders and scopes of an access (R112, R185): plain needs SCOPE 0 (REASON 3). -/
def orderZero (scope order : Nat) : Bool := decide (order ≠ 0) || decide (scope = 0)

/-- `.rmt` is legal on an acquire or acq_rel access of scope `.clus` or wider (R117, R185). -/
def rmtOk (rmt scope order : Nat) : Bool :=
  decide (rmt = 0) || ((decide (order = 1) || decide (order = 3)) && decide (2 ≤ scope))

/-- Everything but SBASE is zero, as in the barrier forms (R189). -/
def onlySbase (o : MF) : Bool :=
  noGuard o.p o.pn && decide (o.vd = 0) && decide (o.va = 0) && decide (o.se = 0) && decide (o.slot = 0) &&
  decide (o.scope = 0) && decide (o.order = 0) && decide (o.isc = 0) && decide (o.mx = 0)

/-- Everything but SCOPE and ORDER is zero, as in the fences (R189). -/
def onlyFence (o : MF) : Bool :=
  noGuard o.p o.pn && decide (o.vd = 0) && decide (o.va = 0) && decide (o.sbase = 0) && decide (o.se = 0) &&
  decide (o.slot = 0) && decide (o.isc = 0) && decide (o.mx = 0)

/-- Zero fields of an atomic (R189). -/
def atomicZero (o : MF) : Bool :=
  decide (o.sbase % 8 = 0) && slotZero o.se o.slot o.vd && decide (o.mx = 0) && orderZero o.scope o.order

/-- Ranges of an atomic whose element types are `0..maxIsc` (R189, R270). -/
def atomicRange (o : MF) (maxIsc : Nat) (destRun : Bool) : Bool :=
  pred o.p && decide (o.sbase / 16 ≠ 3) && run o.va 2 &&
  (if destRun then run o.vd 2 else vreg o.vd) &&
  decide (o.isc ≤ maxIsc) && decide (o.scope ≤ 4) && rmtOk (o.sbase / 8 % 2) o.scope o.order

/-- Special registers readable with `srd` (R220). -/
def srdNumber (n : Nat) : Bool := decide (n ≤ 0x00E) || (decide (0x010 ≤ n) && decide (n ≤ 0x015))

/-- Special registers that `swr` may name (R220). -/
def swrNumber (n : Nat) : Bool := n == 0x00B || n == 0x00C || n == 0x011 || n == 0x012

/-- Context control registers of the unprivileged view (R236). -/
def csrNumber (n : Nat) : Bool :=
  (decide (0x100 ≤ n) && decide (n ≤ 0x104)) || (decide (0x110 ≤ n) && decide (n ≤ 0x123)) ||
  (decide (0x130 ≤ n) && decide (n ≤ 0x151))

/-- FMT values that `fmt` and `swr %fmt` may write (R221, R228). -/
def fmtValue (v : Nat) : Bool :=
  decide (v / 256 = 0) && (v / 16 == 3 || v / 16 == 4) && decide (v / 4 % 2 = 0)

/-- Space codes of a copy that may be a source (R278). -/
def copySrc (c : Nat) : Bool := c == 0 || c == 1 || c == 3 || c == 4

/-- OP and TYPE pairs of `cpyr` (R281). -/
def cpyrPair (op ty : Nat) : Bool :=
  (decide (op ≤ 2) && decide (ty ≤ 6)) || ((op == 3 || op == 4) && decide (ty ≤ 3))

/-- Index of the highest set bit of a 7-bit mask plus 1 (R329). -/
def maskTop (m : Nat) : Nat :=
  if 64 ≤ m then 7 else if 32 ≤ m then 6 else if 16 ≤ m then 5 else if 8 ≤ m then 4
  else if 4 ≤ m then 3 else if 2 ≤ m then 2 else m

/-- CODE of a copy: zero bits (R278). -/
def copyZero (o : YF) (reduce : Bool) : Bool :=
  decide (o.sd = 0) && decide (o.code / 2 ^ 20 = 0) && decide (o.code / 2 ^ 13 % 2 = 0) &&
  (reduce || decide (o.code / 2 ^ 14 = 0)) &&
  (decide (o.code / 8 % 8 = 1) || decide (o.code / 2 ^ 8 % 4 = 0)) &&
  (decide (o.code % 8 = 1) || decide (o.code / 2 ^ 6 % 4 = 0))

/-- CODE of `bcpy` and `btak`: zero bits (R329). -/
def matchZero (o : YF) : Bool := decide (o.code / 2 ^ 15 = 0) && decide (o.code / 16 % 8 = 0)

/-- Scalar runs of `bcpy` and `btak` (R329). -/
def matchRange (o : YF) : Bool := decide (o.sa + maskTop (o.code / 2 ^ 8 % 128) ≤ 63) && decide (o.sd ≤ 56)

/-- CODE of `attn.brim`: zero bits (R306). -/
def attnZero (o : YF) : Bool :=
  decide (o.sd = 0) && decide (o.code / 2 ^ 15 = 0) && decide (o.code / 8 % 2 = 0)

/-- Zero fields of a result of an X format word with SE and SLOT. -/
def xSlot (o : XF) : Bool := slotZero o.se o.slot o.f1

/-- REASON 3: a zero bit or unused field is not zero, or a slot stands where none may (R193). -/
def zeroOk : Instr → Bool
  | .scmp o => decide (o.sd / 4 = 0)
  | .spopc o | .sclz o | .sffs o => decide (o.sb = 0)
  | .scmpi o => decide (o.sd / 4 = 0)
  | .sli o | .slih o => decide (o.sa = 0)
  | .sgetv o =>
    noGuard o.p o.pn && decide (o.f1 / 64 = 0) && decide (o.f3 / 512 = 0) && decide (o.b74 = 0) && decide (o.f4 = 0)
  | .sballot o =>
    noGuard o.p o.pn && decide (o.f1 / 64 = 0) && predZero o.f2 && decide (o.f3 = 0) && decide (o.b74 = 0) &&
    decide (o.f4 = 0)
  | .srd o => decide (o.sa = 0) && decide (o.code / 2 ^ 12 = 0)
  | .swr o => decide (o.sd = 0) && decide (o.code / 2 ^ 12 = 0)
  | .br o | .brx o | .call o | .ret o =>
    (decide (o.cond ≤ 12) || decide (15 ≤ o.cond) || decide (o.cc = 0)) && (decide (13 ≤ o.cond) || decide (o.p = 0)) &&
    (decide (o.cond ≠ 0) || decide (o.cc = 0))
  | .fmt o => decide (o.sd = 0) && decide (o.sa = 0) && decide (o.code / 256 = 0)
  | .vabs _ o | .vneg _ o | .vclz _ o | .vpopc _ o => unaryZero o
  | .vfabs _ o | .vfneg _ o | .vfclass _ o => unaryZero o
  | .vmov o | .vconf o | .vcomp o => unaryZero o
  | .vli o => decide (o.sel % 16 = 0)
  | .vcmp _ _ o => predZero o.vd
  | .vfcmp _ _ o => predZero o.vd
  | .pand o | .por o | .pxor o | .pandn o => predZero o.vd && predZero o.va && predZero o.vb
  | .pnot o | .pmov o => predZero o.vd && predZero o.va && unaryZero o
  | .pset o | .pclr o => predZero o.vd && decide (o.va = 0) && unaryZero o
  | .ptest o => decide (o.vd / 4 = 0) && predZero o.va && unaryZero o
  | .vbcast o => decide (o.va = 0) && decide (o.imm = 0)
  | .vrcp o | .vrsq o | .vsqrt o | .vexp2 o | .vlog2 o => decide (o.f3 = 0) && decide (o.f4 = 0) && xSlot o
  | .vscl o => decide (o.f3 = 0)
  | .vdot8 o | .vdot4 o | .vdoti8 o => decide (o.f4 = 0) && xSlot o
  | .tmv o => decide (o.f3 / 64 = 0) && xSlot o
  | .vred o | .vscan o => decide (o.f3 / 64 = 0) && decide (o.f4 = 0) && xSlot o
  | .lds o | .ldx o => slotZero o.se o.slot o.vd && decide (o.mx / 2 = 0) && orderZero o.scope o.order
  | .sts o | .stx o => decide (o.se = 0) && decide (o.slot = 0) && decide (o.mx = 0) && orderZero o.scope o.order
  | .ldc o => slotZero o.se o.slot o.vd && decide (o.mx = 0) && decide (o.scope = 0) && decide (o.order = 0)
  | .vspill o =>
    noGuard o.p o.pn && decide (o.sbase = 0) && decide (o.se = 0) && decide (o.slot = 0) && decide (o.scope = 0) &&
    decide (o.order = 0) && decide (o.isc = 0) && decide (o.mx = 0)
  | .vfill o =>
    noGuard o.p o.pn && decide (o.sbase = 0) && slotZero o.se o.slot o.vd && decide (o.scope = 0) &&
    decide (o.order = 0) && decide (o.isc = 0) && decide (o.mx = 0)
  | .vgth o => slotZero o.se o.slot o.vd && decide (o.scope = 0) && decide (o.order = 0) && decide (o.mx % 2 = 0)
  | .vsct o =>
    decide (o.se = 0) && decide (o.slot = 0) && decide (o.scope = 0) && decide (o.order = 0) && decide (o.mx % 2 = 0)
  | .aadd o | .afadd o | .amin o | .amax o | .aand o | .aor o | .axchg o | .acas o => atomicZero o
  | .bar o | .barr o | .barw o => onlySbase o
  | .fence o => onlyFence o
  | .fenceOp o => onlyFence o && decide (o.order = 0)
  | .wmon o => decide (o.code / 8 % 32 = 0) && decide (o.code / 2 ^ 14 = 0)
  | .cpy o => copyZero o false
  | .cpyr o => copyZero o true
  | .bclose o => decide (o.sa = 0) && decide (o.code / 4 = 0)
  | .bwait o => decide (o.sd = 0) && decide (o.code / 4 = 0)
  | .cstat o => decide (o.sa = 0) && decide (o.code / 4 = 0)
  | .cquiesce o => decide (o.code = 0)
  | .cquiesceRst o => decide (o.code = 1)
  | .oclaim o => decide (o.sa = 0) && decide (o.code / 16 = 0)
  | .oclaimAny o => decide (o.sa = 0) && decide (o.code = 16)
  | .orel o => decide (o.sd = 0) && decide (o.sa = 0) && decide (o.code / 16 = 0)
  | .mma o => noGuard o.p o.pn && decide (o.f2 = 0) && decide (o.b74 = 0) && decide (o.f4 = 0)
  | .mmas o => noGuard o.p o.pn && decide (o.b74 = 0)
  | .mzero o => decide (o.sd = 0) && decide (o.sa = 0) && decide (o.code / 8 = 0)
  | .accrd o => decide (o.f2 = 0) && decide (o.f3 / 64 % 4 = 0) && xSlot o && decide (o.f4 = 0)
  | .accwr o => decide (o.f1 = 0) && decide (o.f3 / 64 % 4 = 0) && decide (o.b74 = 0) && decide (o.f4 = 0)
  | .mlease o => decide (o.sd = 0) && decide (o.sa = 0) && decide (o.code / 128 = 0)
  | .mleaseFol o => decide (o.sd = 0) && decide (o.code / 128 = 1)
  | .smask o => decide (o.sd = 0) && decide (o.code = 0)
  | .attnBrim o => attnZero o && decide (o.code / 2 ^ 14 = 0)
  | .attnBrimRes o => attnZero o && decide (o.code / 2 ^ 14 = 1)
  | .kvmap o => decide (o.f3 / 64 = 0) && xSlot o && decide (o.f4 = 0)
  | .kvapp o | .kvreq o | .kvsum o => decide (o.code = 0)
  | .kvlink o => decide (o.code / 8 = 0)
  | .kvtrim o => decide (o.code / 2 = 0)
  | .pgget o => decide (o.sa = 0) && decide (o.code = 0)
  | .pgput o => decide (o.sd = 0) && decide (o.code = 0)
  | .bdep o =>
    decide (o.code / 2 ^ 22 = 0) && decide (o.code / 2 ^ 8 % 128 = 0) &&
    (decide (o.code / 2 ^ 15 % 2 = 1) || decide (o.code / 2 ^ 16 = 0))
  | .bcpy o | .btak o => matchZero o
  | .jrec o => decide (o.code = 0)
  | .jack o => decide (o.sa = 0) && decide (o.code = 0)
  | .jtrunc o => decide (o.code = 0)
  | .rngc o => decide (o.f3 / 64 = 0) && xSlot o && decide (o.f4 = 0)
  | .bdset o => decide (o.code / 32 = 0)
  | .bdget o => decide (o.sa = 0) && decide (o.code / 64 = 0)
  | .bdclr o => decide (o.sd = 0) && decide (o.sa = 0)
  | .spawn o => decide (o.f1 = 0) && decide (o.f3 / 64 = 0) && decide (o.b74 = 0) && decide (o.f4 = 0)
  | .glaunch o => decide (o.code = 0)
  | .gwait o => decide (o.sd = 0) && decide (o.code = 0)
  | .trap o | .brk o => decide (o.sd = 0) && decide (o.sa = 0) && decide (o.code / 2 ^ 16 = 0)
  | .eret o => decide (o.sd = 0) && decide (o.sa = 0) && decide (o.code / 4 = 0)
  | .csrr o => decide (o.sa = 0) && decide (o.code / 2 ^ 12 = 0)
  | .csrw o => decide (o.sd = 0) && decide (o.code / 2 ^ 12 = 0)
  | .wdog o => decide (o.code = 0)
  | .wdogQ o => decide (o.sa = 0) && decide (o.code = 1)
  | _ => true

/-- The extra zero fields of the branch forms: `br` has no SA, `ret` no OFF (R188). -/
def branchZero : Instr → Bool
  | .br o => decide (o.sa = 0)
  | .ret o => decide (o.off = 0)
  | _ => true

/-- REASON 4: every field holds a legal value (R181 to R190 and the instruction chapters). -/
def rangeOk : Instr → Bool
  | .sshli o | .sshri o | .ssrai o => decide (o.imm < 64)
  | .sgetv o => vreg o.f2
  | .sballot o => pred11 o.f2
  | .srd o => srdNumber o.code
  | .swr o => swrNumber o.code
  | .br o | .brx o | .call o | .ret o => decide (o.cond ≤ 14) && pred o.p
  | .split o => pred o.p
  | .exit o => pred o.p
  | .fmt o => fmtValue o.code
  | .vadd _ o | .vsub _ o | .vmul _ o | .vmulh _ o | .vmulhn _ o | .vand _ o | .vor _ o | .vxor _ o
  | .vshl _ o | .vshr _ o | .vsra _ o | .vmin _ o | .vmax _ o | .vminn _ o | .vmaxn _ o => v3Range o
  | .vabs _ o | .vneg _ o | .vclz _ o | .vpopc _ o => v3Unary o
  | .vaddi _ o | .vandi _ o | .vori _ o | .vxori _ o => pred o.p && vreg o.vd && vreg o.va
  | .vshli t o | .vshri t o | .vsrai t o =>
    pred o.p && vreg o.vd && vreg o.va && decide (o.imm < intWidth t)
  | .vli o => vreg o.vd
  | .vcmp _ _ o => pred o.p && pred11 o.vd && vreg o.va && vreg o.vb && pattern o.kind o.amt
  | .vfcmp _ _ o => pred o.p && pred11 o.vd && vreg o.va && vreg o.vb && pattern o.kind o.amt
  | .pand o | .por o | .pxor o | .pandn o =>
    pred o.p && pred11 o.vd && pred11 o.va && pred11 o.vb && pattern o.kind o.amt
  | .pnot o | .pmov o => pred o.p && pred11 o.vd && pred11 o.va
  | .pset o | .pclr o => pred o.p && pred11 o.vd
  | .ptest o => pred o.p && pred11 o.va
  | .vsel o | .vperm o => v3Range o
  | .vmov o | .vconf o | .vcomp o => v3Unary o
  | .vbcast o => pred o.p && vreg o.vd
  | .vlane o => pred o.p && vreg o.vd && vreg o.va
  | .vfadd _ o | .vfsub _ o | .vfmul _ o | .vfma _ o | .vfms _ o | .vfnma _ o | .vfmin _ o | .vfmax _ o => v3Range o
  | .vfabs _ o | .vfneg _ o | .vfclass _ o => v3Unary o
  | .vrcp o | .vrsq o | .vsqrt o | .vexp2 o | .vlog2 o => pred o.p && vreg o.f1 && vreg o.f2
  | .vcvt o => cvtRange o && vreg o.f1 && vreg o.f2
  | .vpack o =>
    cvtRange o && decide (fmtWidth o.f4 < fmtWidth o.b74) && vreg o.f1 &&
    run o.f2 (fmtWidth o.b74 / fmtWidth o.f4)
  | .vunpack o =>
    cvtRange o && decide (fmtWidth o.b74 < fmtWidth o.f4) && vreg o.f2 &&
    run o.f1 (fmtWidth o.f4 / fmtWidth o.b74)
  | .vscl o => pred o.p && vreg o.f1 && vreg o.f2 && decide (o.b74 ≤ 2) && scaledFmt o.f4
  | .vdot8 o | .vdot4 o | .vdoti8 o => pred o.p && vreg o.f1 && vreg o.f2 && vreg o.f3
  | .tmv o => pred o.p && decide (o.f4 ≤ 7) && run o.f1 (tmvRegs o.f4) && run o.f2 (tmvRegs o.f4)
  | .vred o | .vscan o =>
    pred o.p && vreg o.f1 && vreg o.f2 &&
    (decide (o.f3 / 32 = 0) || (decide (o.f3 / 4 % 8 ≤ 2) && decide (o.f3 % 4 ≤ 2)))
  | .lds o | .ldx o =>
    pred o.p && vreg o.vd && vreg o.va && decide (o.scope ≤ 4) && decide (o.order ≤ 1) &&
    rmtOk (o.mx % 2) o.scope o.order
  | .sts o | .stx o =>
    pred o.p && vreg o.vd && vreg o.va && decide (o.scope ≤ 4) && (decide (o.order = 0) || decide (o.order = 2))
  | .ldc o | .vgth o | .vsct o => pred o.p && vreg o.vd && vreg o.va
  | .vspill o | .vfill o => vreg o.vd && decide (o.va ≤ 511)
  | .aadd o | .aand o | .aor o | .axchg o => atomicRange o 1 false
  | .afadd o => atomicRange o 2 false
  | .amin o | .amax o => atomicRange o 3 false
  | .acas o => atomicRange o 1 true
  | .fence o => decide (o.scope ≤ 4) && decide (o.order ≠ 0)
  | .fenceOp o => decide (o.scope ≤ 4)
  | .wmon o => decide (o.code % 4 ≠ 3)
  | .cpy o =>
    decide (o.sa ≤ 60) && decide (o.code % 8 ≤ 4) && copySrc (o.code / 8 % 8)
  | .cpyr o =>
    decide (o.sa ≤ 60) && (o.code % 8 == 0 || o.code % 8 == 1 || o.code % 8 == 4) && copySrc (o.code / 8 % 8) &&
    cpyrPair (o.code / 2 ^ 14 % 8) (o.code / 2 ^ 17 % 8)
  | .bclose o | .bwait o => decide (o.code ≠ 3)
  | .cstat o => decide (o.code ≠ 3) && decide (o.sd ≤ 62)
  | .mma o => decide (o.mtile ≤ 4) && decide (1 ≤ o.mfmt) && decide (o.mfmt ≤ 5) && decide (o.sa ≤ 62)
  | .mmas o =>
    decide (o.mtile ≤ 4) && decide (1 ≤ o.mfmt) && decide (o.mfmt ≤ 5) && decide (o.sa ≤ 62) && run o.f2 1 &&
    decide (o.f4 ≤ 1)
  | .mzero o => decide (o.code ≤ 4)
  | .accrd o => pred o.p && vreg o.f1 && decide (o.atile ≤ 4)
  | .accwr o => pred o.p && vreg o.f2 && decide (o.atile ≤ 4)
  | .mlease o => decide (o.code ≤ 64)
  | .mleaseFol o => decide (o.code % 128 ≤ 64)
  | .attnBrim o | .attnBrimRes o => decide (o.code % 8 ≤ 4)
  | .kvmap o => pred o.p && vreg o.f1 && vreg o.f2
  | .kvapp o | .kvreq o => decide (o.sa ≤ 60)
  | .kvlink o => decide (o.sa ≤ 61)
  | .kvsum o | .kvtrim o => decide (o.sa ≤ 62)
  | .bdep o => decide (o.sa + o.code / 16 % 8 ≤ 63)
  | .bcpy o | .btak o => matchRange o
  | .jtrunc o => decide (o.sa ≤ 62)
  | .rngc o => pred o.p && run o.f1 2 && run o.f2 2
  | .spawn o => pred o.p && run o.f2 2
  | .eret o => decide (o.code ≤ 2)
  | .csrr o | .csrw o => csrNumber o.code
  | _ => true

/-- The REASON of R193 for the fields of an instruction: 0 none, 3 or 4. -/
def reason (i : Instr) : Nat :=
  if !(zeroOk i && branchZero i) then 3 else if !rangeOk i then 4 else 0

end Sys2Proof.Checks
end

