-- ==== Sys2Proof/WellFormed.lean ====
section
/-!
DEFINITION. Well-formed instructions: every field fits its place in the word (R180) and the checks of
R193 find nothing; an event names agents that exist.
-/
namespace Sys2Proof

/-- Every field of format V3 fits its bits (R180). -/
def V3.fits (o : V3) : Bool :=
  decide (o.p < 2 ^ 7) && decide (o.pn < 2 ^ 1) && decide (o.vd < 2 ^ 11) && decide (o.va < 2 ^ 11) && decide (o.vb < 2 ^ 11) && decide (o.kind < 2 ^ 3) && decide (o.amt < 2 ^ 5)

/-- Every field of format VI fits its bits (R180). -/
def VI.fits (o : VI) : Bool :=
  decide (o.p < 2 ^ 7) && decide (o.pn < 2 ^ 1) && decide (o.vd < 2 ^ 11) && decide (o.va < 2 ^ 11) && decide (o.imm < 2 ^ 19)

/-- Every field of format VS fits its bits (R180). -/
def VS.fits (o : VS) : Bool :=
  decide (o.p < 2 ^ 7) && decide (o.pn < 2 ^ 1) && decide (o.vd < 2 ^ 11) && decide (o.va < 2 ^ 11) && decide (o.sa < 2 ^ 6) && decide (o.imm < 2 ^ 13)

/-- Every field of format MF fits its bits (R180). -/
def MF.fits (o : MF) : Bool :=
  decide (o.p < 2 ^ 7) && decide (o.pn < 2 ^ 1) && decide (o.vd < 2 ^ 11) && decide (o.va < 2 ^ 11) && decide (o.sbase < 2 ^ 6) && decide (o.se < 2 ^ 1) && decide (o.slot < 2 ^ 3) && decide (o.scope < 2 ^ 3) && decide (o.order < 2 ^ 2) && decide (o.isc < 2 ^ 2) && decide (o.mx < 2 ^ 2)

/-- Every field of format XF fits its bits (R180). -/
def XF.fits (o : XF) : Bool :=
  decide (o.p < 2 ^ 7) && decide (o.pn < 2 ^ 1) && decide (o.f1 < 2 ^ 11) && decide (o.f2 < 2 ^ 11) && decide (o.f3 < 2 ^ 11) && decide (o.b74 < 2 ^ 4) && decide (o.f4 < 2 ^ 4)

/-- Every field of format VL fits its bits (R180). -/
def VL.fits (o : VL) : Bool :=
  decide (o.vd < 2 ^ 11) && decide (o.sel < 2 ^ 6) && decide (o.imm < 2 ^ 32)

/-- Every field of format SR fits its bits (R180). -/
def SR.fits (o : SR) : Bool :=
  decide (o.sd < 2 ^ 6) && decide (o.sa < 2 ^ 6) && decide (o.sb < 2 ^ 6)

/-- Every field of format SI fits its bits (R180). -/
def SI.fits (o : SI) : Bool :=
  decide (o.sd < 2 ^ 6) && decide (o.sa < 2 ^ 6) && decide (o.imm < 2 ^ 32)

/-- Every field of format YF fits its bits (R180). -/
def YF.fits (o : YF) : Bool :=
  decide (o.sd < 2 ^ 6) && decide (o.sa < 2 ^ 6) && decide (o.code < 2 ^ 32)

/-- Every field of format BR fits its bits (R180). -/
def BR.fits (o : BR) : Bool :=
  decide (o.cond < 2 ^ 4) && decide (o.hint < 2 ^ 2) && decide (o.cc < 2 ^ 2) && decide (o.p < 2 ^ 7) && decide (o.sa < 2 ^ 6) && decide (o.off < 2 ^ 28)

/-- Every field of format SP fits its bits (R180). -/
def SP.fits (o : SP) : Bool :=
  decide (o.p < 2 ^ 7) && decide (o.pn < 2 ^ 1) && decide (o.join < 2 ^ 20) && decide (o.target < 2 ^ 20) && decide (o.u < 2 ^ 1)

/-- Every field of format EX fits its bits (R180). -/
def EX.fits (o : EX) : Bool :=
  decide (o.p < 2 ^ 7) && decide (o.pn < 2 ^ 1)

/-- A register window of an existing function (R376). -/
def View.fits : View → Bool
  | .context c => decide (c ≤ 192)
  | .privileged c => decide (c ≤ 192)
  | .package => true
  | .benchPort c r => decide (c ≤ 192) && decide (r < 16)

/-- A flit of an existing port (R383). -/
def FlitId.fits : FlitId → Bool
  | .die _ => true
  | .avash port _ => decide (port < 4)

/-- An access to a register window of an existing function (R376). -/
def Window.fits : Window → Bool
  | .context c => decide (c ≤ 192)
  | .privileged c => decide (c ≤ 192)
  | .package => true
  | .benchPort c r => decide (c ≤ 192) && decide (r < 16)
  | .constants c n => decide (c ≤ 192) && decide (n ≤ 8)
  | .access v _ size low => v.fits && decide (low < 8) && decide (size ≤ 64)

/-- The fields of an instruction fit; the agents an event names exist. -/
def Instr.fits : Instr → Bool
  | .sadd o => o.fits
  | .ssub o => o.fits
  | .smul o => o.fits
  | .smulh o => o.fits
  | .smulhn o => o.fits
  | .sand o => o.fits
  | .sor o => o.fits
  | .sxor o => o.fits
  | .sshl o => o.fits
  | .sshr o => o.fits
  | .ssra o => o.fits
  | .smin o => o.fits
  | .smax o => o.fits
  | .sminn o => o.fits
  | .smaxn o => o.fits
  | .scmp o => o.fits
  | .saddi o => o.fits
  | .sandi o => o.fits
  | .sori o => o.fits
  | .sxori o => o.fits
  | .sshli o => o.fits
  | .sshri o => o.fits
  | .ssrai o => o.fits
  | .sli o => o.fits
  | .slih o => o.fits
  | .scmpi o => o.fits
  | .sgetv o => o.fits
  | .sballot o => o.fits
  | .spopc o => o.fits
  | .sclz o => o.fits
  | .sffs o => o.fits
  | .srd o => o.fits
  | .swr o => o.fits
  | .br o => o.fits
  | .brx o => o.fits
  | .call o => o.fits
  | .ret o => o.fits
  | .split o => o.fits
  | .join => true
  | .exit o => o.fits
  | .ient => true
  | .fmt o => o.fits
  | .nop => true
  | .vadd _ o => o.fits
  | .vsub _ o => o.fits
  | .vmul _ o => o.fits
  | .vmulh _ o => o.fits
  | .vmulhn _ o => o.fits
  | .vand _ o => o.fits
  | .vor _ o => o.fits
  | .vxor _ o => o.fits
  | .vshl _ o => o.fits
  | .vshr _ o => o.fits
  | .vsra _ o => o.fits
  | .vmin _ o => o.fits
  | .vmax _ o => o.fits
  | .vminn _ o => o.fits
  | .vmaxn _ o => o.fits
  | .vabs _ o => o.fits
  | .vneg _ o => o.fits
  | .vclz _ o => o.fits
  | .vpopc _ o => o.fits
  | .vaddi _ o => o.fits
  | .vandi _ o => o.fits
  | .vori _ o => o.fits
  | .vxori _ o => o.fits
  | .vshli _ o => o.fits
  | .vshri _ o => o.fits
  | .vsrai _ o => o.fits
  | .vli o => o.fits
  | .vcmp _ _ o => o.fits
  | .vfcmp _ _ o => o.fits
  | .pand o => o.fits
  | .por o => o.fits
  | .pxor o => o.fits
  | .pandn o => o.fits
  | .pnot o => o.fits
  | .pmov o => o.fits
  | .pset o => o.fits
  | .pclr o => o.fits
  | .ptest o => o.fits
  | .vsel o => o.fits
  | .vmov o => o.fits
  | .vbcast o => o.fits
  | .vlane o => o.fits
  | .vfadd _ o => o.fits
  | .vfsub _ o => o.fits
  | .vfmul _ o => o.fits
  | .vfma _ o => o.fits
  | .vfms _ o => o.fits
  | .vfnma _ o => o.fits
  | .vfmin _ o => o.fits
  | .vfmax _ o => o.fits
  | .vfabs _ o => o.fits
  | .vfneg _ o => o.fits
  | .vfclass _ o => o.fits
  | .vrcp o => o.fits
  | .vrsq o => o.fits
  | .vsqrt o => o.fits
  | .vexp2 o => o.fits
  | .vlog2 o => o.fits
  | .vcvt o => o.fits
  | .vpack o => o.fits
  | .vunpack o => o.fits
  | .vscl o => o.fits
  | .vdot8 o => o.fits
  | .vdot4 o => o.fits
  | .vdoti8 o => o.fits
  | .tmv o => o.fits
  | .vperm o => o.fits
  | .vred o => o.fits
  | .vscan o => o.fits
  | .vconf o => o.fits
  | .vcomp o => o.fits
  | .lds o => o.fits
  | .sts o => o.fits
  | .ldx o => o.fits
  | .stx o => o.fits
  | .ldc o => o.fits
  | .vspill o => o.fits
  | .vfill o => o.fits
  | .vgth o => o.fits
  | .vsct o => o.fits
  | .aadd o => o.fits
  | .afadd o => o.fits
  | .amin o => o.fits
  | .amax o => o.fits
  | .aand o => o.fits
  | .aor o => o.fits
  | .axchg o => o.fits
  | .acas o => o.fits
  | .bar o => o.fits
  | .barr o => o.fits
  | .barw o => o.fits
  | .wmon o => o.fits
  | .fence o => o.fits
  | .fenceOp o => o.fits
  | .cpy o => o.fits
  | .cpyr o => o.fits
  | .bclose o => o.fits
  | .bwait o => o.fits
  | .cquiesce o => o.fits
  | .cquiesceRst o => o.fits
  | .cstat o => o.fits
  | .oclaim o => o.fits
  | .oclaimAny o => o.fits
  | .orel o => o.fits
  | .mma o => o.fits
  | .mmas o => o.fits
  | .mzero o => o.fits
  | .accrd o => o.fits
  | .accwr o => o.fits
  | .mlease o => o.fits
  | .mleaseFol o => o.fits
  | .smask o => o.fits
  | .attnBrim o => o.fits
  | .attnBrimRes o => o.fits
  | .kvmap o => o.fits
  | .kvapp o => o.fits
  | .kvreq o => o.fits
  | .kvsum o => o.fits
  | .kvlink o => o.fits
  | .kvtrim o => o.fits
  | .pgget o => o.fits
  | .pgput o => o.fits
  | .bdep o => o.fits
  | .bcpy o => o.fits
  | .btak o => o.fits
  | .jrec o => o.fits
  | .jack o => o.fits
  | .jtrunc o => o.fits
  | .rngc o => o.fits
  | .bdset o => o.fits
  | .bdget o => o.fits
  | .bdclr o => o.fits
  | .spawn o => o.fits
  | .glaunch o => o.fits
  | .gwait o => o.fits
  | .trap o => o.fits
  | .eret o => o.fits
  | .csrr o => o.fits
  | .csrw o => o.fits
  | .brk o => o.fits
  | .wdog o => o.fits
  | .wdogQ o => o.fits
  | .groupPick core q => decide (core < 96) && decide (q < 4)
  | .holdClear _ sid => decide (sid < 4)
  | .resultWriteback _ _ => true
  | .returnSlotReply core _ => decide (core < 96)
  | .wbDrainTimeout core _ => decide (core < 96)
  | .serviceGroupExec die slice => decide (die < 4) && decide (slice < 24)
  | .benchServe die slice => decide (die < 4) && decide (slice < 24)
  | .benchWithdraw _ sid => decide (sid < 4)
  | .channelPick sched _ => decide (sched < 386)
  | .memCompletion _ => true
  | .dieFlitReceive id _ => id.fits
  | .patrolScrub _ => true
  | .dbiWindowEnd ch _ _ => decide (ch < 384)
  | .thermalSample ch _ => decide (ch < 384)
  | .thermalStateFall ch => decide (ch < 384)
  | .rateRiseTimer ch => decide (ch < 384)
  | .rateSwitchEnd ch => decide (ch < 384)
  | .baseDieReset stack => decide (stack < 12)
  | .fallbackTakeover stack => decide (stack < 12)
  | .refreshHandback stack => decide (stack < 12)
  | .bdstatRel stack => decide (stack < 12)
  | .cxlTimeout _ => true
  | .cxlLateCompletion _ => true
  | .cxlLinkDown port => decide (port < 2)
  | .cxlLinkTrained port _ => decide (port < 2)
  | .cxpstatEnable port => decide (port < 2)
  | .xlinvcCommand _ => true
  | .xlinvcComplete => true
  | .migArm slot => decide (slot < 64)
  | .migStart slot => decide (slot < 64)
  | .migSwitch slot => decide (slot < 64)
  | .migFinish slot => decide (slot < 64)
  | .migAbort slot => decide (slot < 64)
  | .migClear slot => decide (slot < 64)
  | .migRoutedRequest slot _ => decide (slot < 64)
  | .migBackgroundFill slot _ => decide (slot < 64)
  | .copyBatchComplete _ _ => true
  | .matrixOpStart core => decide (core < 96)
  | .matrixOpRetire core => decide (core < 96)
  | .startLimitWindow die => decide (die < 4)
  | .arrayIdle core => decide (core < 96)
  | .leaseIdleExpire core => decide (core < 96)
  | .attnStart core => decide (core < 96)
  | .attnVisit core => decide (core < 96)
  | .blockPlace die => decide (die < 4)
  | .placementStarvation _ => true
  | .evictionSelect _ => true
  | .groupRestore core => decide (core < 96)
  | .timeSliceExpire ctx => decide (ctx ≤ 192)
  | .groupEnd _ => true
  | .spawnHoldTimeout _ sid => decide (sid < 4)
  | .spawnBinTimeout core _ => decide (core < 96)
  | .packedGroupStart core => decide (core < 96)
  | .barrierWatchdogExpire core _ => decide (core < 96)
  | .tgobjWrite ctx slot _ => decide (ctx ≤ 192) && decide (slot < 16)
  | .kick ctx _ => decide (ctx ≤ 192)
  | .replayStart ctx slot => decide (ctx ≤ 192) && decide (slot < 16)
  | .nodeStart ctx slot _ => decide (ctx ≤ 192) && decide (slot < 16)
  | .frameGrant core => decide (core < 96)
  | .grantTakeRetry core => decide (core < 96)
  | .jcfgBind ctx _ => decide (ctx ≤ 192)
  | .jcfgDisable ctx _ => decide (ctx ≤ 192)
  | .jbufWrite ctx _ => decide (ctx ≤ 192)
  | .journalAck ctx _ _ => decide (ctx ≤ 192)
  | .partnerIdleMessage ctx _ => decide (ctx ≤ 192)
  | .partnerSilence ctx => decide (ctx ≤ 192)
  | .avashLinkDown port => decide (port < 4)
  | .hostBenchDeposit src region _ => decide (src.ctx ≤ 192) && decide (region < 16)
  | .hostBenchCopy src region _ => decide (src.ctx ≤ 192) && decide (region < 16)
  | .hostBenchTake src region _ => decide (src.ctx ≤ 192) && decide (region < 16)
  | .hostBenchRefusedOp ctx region _ => decide (ctx ≤ 192) && decide (region < 16)
  | .hostMemRead _ _ => true
  | .hostMemWrite _ _ => true
  | .attestationReport ctx => decide (ctx ≤ 192)
  | .termrepKill ctx _ => decide (ctx ≤ 192)
  | .dbgHalt _ => true
  | .dbgResume _ => true
  | .dbgStep _ => true
  | .dbgStepAll _ => true
  | .dbgAttach _ => true
  | .dbgDetach _ => true
  | .debugWindowWrite _ _ => true
  | .boot _ _ _ => true
  | .registerWrite win _ _ => win.fits
  | .copyEngineTransfer core => decide (core < 96)
  | .avashLinkTrained port _ => decide (port < 4)
  | .journalRecordReceive src _ _ => decide (src.ctx ≤ 192)
  | .journalTruncateReceive src _ _ => decide (src.ctx ≤ 192)
  | .refreshDue stack => decide (stack < 12)
  | .storageError _ _ => true

/-- A well-formed instruction. -/
def Instr.wf (i : Instr) : Bool := i.fits && Checks.zeroOk i && Checks.branchZero i && Checks.rangeOk i

end Sys2Proof
end

