-- ==== Sys2Proof/Decode.lean ====
section
/-!
DEFINITION. Decoding of one 64-bit instruction word (R177 to R193), total on any bits and refusing by
REASON, the clause header (R178), and the encoder written from the same layouts.
-/
namespace Sys2Proof.Decode

/-- Bits `lo + n - 1 .. lo` of `w`. -/
def fld (w lo n : Nat) : Nat := w / 2 ^ lo % 2 ^ n

/-- Sign extension of an n-bit field to an integer (R187). -/
def sext (n v : Nat) : Int := if v < 2 ^ (n - 1) then (v : Int) else (v : Int) - (2 : Int) ^ n

/-- A decoded word: the switch marker S and the instruction (R177). -/
abbrev Decoded := Bool × Instr

/-- The fields of format V3 in word `w` (R180). -/
def getV3 (w : Nat) : V3 :=
  ⟨fld w 42 7, fld w 41 1, fld w 30 11, fld w 19 11, fld w 8 11, fld w 5 3, fld w 0 5⟩

/-- Bits 48:0 of a word of format V3 (R180). -/
def putV3 (o : V3) : Nat :=
  o.p * 2 ^ 42 + o.pn * 2 ^ 41 + o.vd * 2 ^ 30 + o.va * 2 ^ 19 + o.vb * 2 ^ 8 + o.kind * 2 ^ 5 + o.amt

/-- The fields of format VI in word `w` (R180). -/
def getVI (w : Nat) : VI :=
  ⟨fld w 42 7, fld w 41 1, fld w 30 11, fld w 19 11, fld w 0 19⟩

/-- Bits 48:0 of a word of format VI (R180). -/
def putVI (o : VI) : Nat :=
  o.p * 2 ^ 42 + o.pn * 2 ^ 41 + o.vd * 2 ^ 30 + o.va * 2 ^ 19 + o.imm

/-- The fields of format VS in word `w` (R180). -/
def getVS (w : Nat) : VS :=
  ⟨fld w 42 7, fld w 41 1, fld w 30 11, fld w 19 11, fld w 13 6, fld w 0 13⟩

/-- Bits 48:0 of a word of format VS (R180). -/
def putVS (o : VS) : Nat :=
  o.p * 2 ^ 42 + o.pn * 2 ^ 41 + o.vd * 2 ^ 30 + o.va * 2 ^ 19 + o.sa * 2 ^ 13 + o.imm

/-- The fields of format MF in word `w` (R180). -/
def getMF (w : Nat) : MF :=
  ⟨fld w 42 7, fld w 41 1, fld w 30 11, fld w 19 11, fld w 13 6, fld w 12 1, fld w 9 3, fld w 6 3, fld w 4 2, fld w 2 2, fld w 0 2⟩

/-- Bits 48:0 of a word of format MF (R180). -/
def putMF (o : MF) : Nat :=
  o.p * 2 ^ 42 + o.pn * 2 ^ 41 + o.vd * 2 ^ 30 + o.va * 2 ^ 19 + o.sbase * 2 ^ 13 + o.se * 2 ^ 12 + o.slot * 2 ^ 9 + o.scope * 2 ^ 6 + o.order * 2 ^ 4 + o.isc * 2 ^ 2 + o.mx

/-- The fields of format XF in word `w` (R180). -/
def getXF (w : Nat) : XF :=
  ⟨fld w 42 7, fld w 41 1, fld w 30 11, fld w 19 11, fld w 8 11, fld w 4 4, fld w 0 4⟩

/-- Bits 48:0 of a word of format XF (R180). -/
def putXF (o : XF) : Nat :=
  o.p * 2 ^ 42 + o.pn * 2 ^ 41 + o.f1 * 2 ^ 30 + o.f2 * 2 ^ 19 + o.f3 * 2 ^ 8 + o.b74 * 2 ^ 4 + o.f4

/-- The fields of format VL in word `w` (R180). -/
def getVL (w : Nat) : VL :=
  ⟨fld w 38 11, fld w 32 6, fld w 0 32⟩

/-- Bits 48:0 of a word of format VL (R180). -/
def putVL (o : VL) : Nat :=
  o.vd * 2 ^ 38 + o.sel * 2 ^ 32 + o.imm

/-- The fields of format SR in word `w` (R180). -/
def getSR (w : Nat) : SR :=
  ⟨fld w 43 6, fld w 37 6, fld w 31 6⟩

/-- Bits 48:0 of a word of format SR (R180). -/
def putSR (o : SR) : Nat :=
  o.sd * 2 ^ 43 + o.sa * 2 ^ 37 + o.sb * 2 ^ 31

/-- The fields of format SI in word `w` (R180). -/
def getSI (w : Nat) : SI :=
  ⟨fld w 43 6, fld w 37 6, fld w 0 32⟩

/-- Bits 48:0 of a word of format SI (R180). -/
def putSI (o : SI) : Nat :=
  o.sd * 2 ^ 43 + o.sa * 2 ^ 37 + o.imm

/-- The fields of format YF in word `w` (R180). -/
def getYF (w : Nat) : YF :=
  ⟨fld w 43 6, fld w 37 6, fld w 0 32⟩

/-- Bits 48:0 of a word of format YF (R180). -/
def putYF (o : YF) : Nat :=
  o.sd * 2 ^ 43 + o.sa * 2 ^ 37 + o.code

/-- The fields of format BR in word `w` (R180). -/
def getBR (w : Nat) : BR :=
  ⟨fld w 45 4, fld w 43 2, fld w 41 2, fld w 34 7, fld w 28 6, fld w 0 28⟩

/-- Bits 48:0 of a word of format BR (R180). -/
def putBR (o : BR) : Nat :=
  o.cond * 2 ^ 45 + o.hint * 2 ^ 43 + o.cc * 2 ^ 41 + o.p * 2 ^ 34 + o.sa * 2 ^ 28 + o.off

/-- The fields of format SP in word `w` (R180). -/
def getSP (w : Nat) : SP :=
  ⟨fld w 42 7, fld w 41 1, fld w 21 20, fld w 1 20, fld w 0 1⟩

/-- Bits 48:0 of a word of format SP (R180). -/
def putSP (o : SP) : Nat :=
  o.p * 2 ^ 42 + o.pn * 2 ^ 41 + o.join * 2 ^ 21 + o.target * 2 ^ 1 + o.u

/-- The fields of format EX in word `w` (R180). -/
def getEX (w : Nat) : EX :=
  ⟨fld w 42 7, fld w 41 1⟩

/-- Bits 48:0 of a word of format EX (R180). -/
def putEX (o : EX) : Nat :=
  o.p * 2 ^ 42 + o.pn * 2 ^ 41

/-- TYPE of an integer family (R186). -/
def intTy : Nat → IntTy
  | 0 => .i8
  | 1 => .i16
  | 2 => .i32
  | _ => .i64

/-- The TYPE code of an integer type (R186). -/
def intTyCode : IntTy → Nat
  | .i8 => 0
  | .i16 => 1
  | .i32 => 2
  | .i64 => 3

/-- TYPE of a float family; TYPE 3 is an unassigned minor (R186). -/
def floatTy : Nat → Option FloatTy
  | 0 => some .f32
  | 1 => some .bf16
  | 2 => some .f16
  | _ => none

/-- The TYPE code of a float type (R186). -/
def floatTyCode : FloatTy → Nat
  | .f32 => 0
  | .bf16 => 1
  | .f16 => 2

/-- The op index of a `vcmp` condition (R192). -/
def intCmpCode : IntCmp → Nat
  | .eq => 0
  | .ne => 1
  | .lt => 2
  | .le => 3
  | .ltn => 4
  | .len => 5

/-- The op index of a `vfcmp` condition (R192). -/
def floatCmpCode : FloatCmp → Nat
  | .eq => 6
  | .ne => 7
  | .lt => 8
  | .le => 9
  | .un => 10

/-- Minors of major 0x00 (R192). -/
def major00 (minor w : Nat) : Option Instr :=
  match minor with
  | 0 => some (.sadd (getSR w))
  | 1 => some (.ssub (getSR w))
  | 2 => some (.smul (getSR w))
  | 3 => some (.smulh (getSR w))
  | 4 => some (.smulhn (getSR w))
  | 5 => some (.sand (getSR w))
  | 6 => some (.sor (getSR w))
  | 7 => some (.sxor (getSR w))
  | 8 => some (.sshl (getSR w))
  | 9 => some (.sshr (getSR w))
  | 10 => some (.ssra (getSR w))
  | 11 => some (.smin (getSR w))
  | 12 => some (.smax (getSR w))
  | 13 => some (.sminn (getSR w))
  | 14 => some (.smaxn (getSR w))
  | 15 => some (.scmp (getSR w))
  | _ => none

/-- Minors of major 0x01 (R192). -/
def major01 (minor w : Nat) : Option Instr :=
  match minor with
  | 0 => some (.saddi (getSI w))
  | 1 => some (.sandi (getSI w))
  | 2 => some (.sori (getSI w))
  | 3 => some (.sxori (getSI w))
  | 4 => some (.sshli (getSI w))
  | 5 => some (.sshri (getSI w))
  | 6 => some (.ssrai (getSI w))
  | 7 => some (.sli (getSI w))
  | 8 => some (.slih (getSI w))
  | 9 => some (.scmpi (getSI w))
  | _ => none

/-- Minors of major 0x02 (R192). -/
def major02 (minor w : Nat) : Option Instr :=
  match minor with
  | 0 => some (.sgetv (getXF w))
  | 1 => some (.sballot (getXF w))
  | 2 => some (.spopc (getSR w))
  | 3 => some (.sclz (getSR w))
  | 4 => some (.sffs (getSR w))
  | 5 => some (.srd (getYF w))
  | 6 => some (.swr (getYF w))
  | _ => none

/-- Minors of major 0x10 (R192). -/
def major10 (minor w : Nat) : Option Instr :=
  match minor with
  | 0 => some (.br (getBR w))
  | 1 => some (.brx (getBR w))
  | 2 => some (.call (getBR w))
  | 3 => some (.ret (getBR w))
  | 4 => some (.split (getSP w))
  | 5 => some .join
  | 6 => some (.exit (getEX w))
  | _ => none

/-- Minors of major 0x11 (R192). -/
def major11 (minor w : Nat) : Option Instr :=
  match minor with
  | 0 => some .ient
  | 1 => some (.fmt (getYF w))
  | 2 => some .nop
  | _ => none

/-- Minors of major 0x20 (R192). -/
def major20 (minor w : Nat) : Option Instr :=
  match minor / 4 with
  | 0 => some (.vadd (intTy (minor % 4)) (getV3 w))
  | 1 => some (.vsub (intTy (minor % 4)) (getV3 w))
  | 2 => some (.vmul (intTy (minor % 4)) (getV3 w))
  | 3 => some (.vmulh (intTy (minor % 4)) (getV3 w))
  | 4 => some (.vmulhn (intTy (minor % 4)) (getV3 w))
  | 5 => some (.vand (intTy (minor % 4)) (getV3 w))
  | 6 => some (.vor (intTy (minor % 4)) (getV3 w))
  | 7 => some (.vxor (intTy (minor % 4)) (getV3 w))
  | 8 => some (.vshl (intTy (minor % 4)) (getV3 w))
  | 9 => some (.vshr (intTy (minor % 4)) (getV3 w))
  | 10 => some (.vsra (intTy (minor % 4)) (getV3 w))
  | 11 => some (.vmin (intTy (minor % 4)) (getV3 w))
  | 12 => some (.vmax (intTy (minor % 4)) (getV3 w))
  | 13 => some (.vminn (intTy (minor % 4)) (getV3 w))
  | 14 => some (.vmaxn (intTy (minor % 4)) (getV3 w))
  | 15 => some (.vabs (intTy (minor % 4)) (getV3 w))
  | 16 => some (.vneg (intTy (minor % 4)) (getV3 w))
  | 17 => some (.vclz (intTy (minor % 4)) (getV3 w))
  | 18 => some (.vpopc (intTy (minor % 4)) (getV3 w))
  | _ => none

/-- Minors of major 0x21 (R192). -/
def major21 (minor w : Nat) : Option Instr :=
  if minor = 28 then some (.vli (getVL w))
  else
    match minor / 4 with
    | 0 => some (.vaddi (intTy (minor % 4)) (getVI w))
    | 1 => some (.vandi (intTy (minor % 4)) (getVI w))
    | 2 => some (.vori (intTy (minor % 4)) (getVI w))
    | 3 => some (.vxori (intTy (minor % 4)) (getVI w))
    | 4 => some (.vshli (intTy (minor % 4)) (getVI w))
    | 5 => some (.vshri (intTy (minor % 4)) (getVI w))
    | 6 => some (.vsrai (intTy (minor % 4)) (getVI w))
    | _ => none

/-- Minors of major 0x22 (R192). -/
def major22 (minor w : Nat) : Option Instr :=
  match minor / 4 with
  | 0 => some (.vcmp .eq (intTy (minor % 4)) (getV3 w))
  | 1 => some (.vcmp .ne (intTy (minor % 4)) (getV3 w))
  | 2 => some (.vcmp .lt (intTy (minor % 4)) (getV3 w))
  | 3 => some (.vcmp .le (intTy (minor % 4)) (getV3 w))
  | 4 => some (.vcmp .ltn (intTy (minor % 4)) (getV3 w))
  | 5 => some (.vcmp .len (intTy (minor % 4)) (getV3 w))
  | 6 => (floatTy (minor % 4)).map (fun t => .vfcmp .eq t (getV3 w))
  | 7 => (floatTy (minor % 4)).map (fun t => .vfcmp .ne t (getV3 w))
  | 8 => (floatTy (minor % 4)).map (fun t => .vfcmp .lt t (getV3 w))
  | 9 => (floatTy (minor % 4)).map (fun t => .vfcmp .le t (getV3 w))
  | 10 => (floatTy (minor % 4)).map (fun t => .vfcmp .un t (getV3 w))
  | _ => none

/-- Minors of major 0x23 (R192). -/
def major23 (minor w : Nat) : Option Instr :=
  match minor with
  | 0 => some (.pand (getV3 w))
  | 1 => some (.por (getV3 w))
  | 2 => some (.pxor (getV3 w))
  | 3 => some (.pandn (getV3 w))
  | 4 => some (.pnot (getV3 w))
  | 5 => some (.pmov (getV3 w))
  | 6 => some (.pset (getV3 w))
  | 7 => some (.pclr (getV3 w))
  | 8 => some (.ptest (getV3 w))
  | _ => none

/-- Minors of major 0x24 (R192). -/
def major24 (minor w : Nat) : Option Instr :=
  match minor with
  | 0 => some (.vsel (getV3 w))
  | 1 => some (.vmov (getV3 w))
  | 2 => some (.vbcast (getVS w))
  | 3 => some (.vlane (getVS w))
  | _ => none

/-- Minors of major 0x40 (R192). -/
def major40 (minor w : Nat) : Option Instr :=
  match floatTy (minor % 4) with
  | none => none
  | some t =>
    match minor / 4 with
    | 0 => some (.vfadd t (getV3 w))
    | 1 => some (.vfsub t (getV3 w))
    | 2 => some (.vfmul t (getV3 w))
    | 3 => some (.vfma t (getV3 w))
    | 4 => some (.vfms t (getV3 w))
    | 5 => some (.vfnma t (getV3 w))
    | 6 => some (.vfmin t (getV3 w))
    | 7 => some (.vfmax t (getV3 w))
    | 8 => some (.vfabs t (getV3 w))
    | 9 => some (.vfneg t (getV3 w))
    | 10 => some (.vfclass t (getV3 w))
    | _ => none

/-- Minors of major 0x41 (R192). -/
def major41 (minor w : Nat) : Option Instr :=
  match minor with
  | 0 => some (.vrcp (getXF w))
  | 1 => some (.vrsq (getXF w))
  | 2 => some (.vsqrt (getXF w))
  | 3 => some (.vexp2 (getXF w))
  | 4 => some (.vlog2 (getXF w))
  | _ => none

/-- Minors of major 0x50 (R192). -/
def major50 (minor w : Nat) : Option Instr :=
  match minor with
  | 0 => some (.vcvt (getXF w))
  | 1 => some (.vpack (getXF w))
  | 2 => some (.vunpack (getXF w))
  | 3 => some (.vscl (getXF w))
  | _ => none

/-- Minors of major 0x51 (R192). -/
def major51 (minor w : Nat) : Option Instr :=
  match minor with
  | 0 => some (.vdot8 (getXF w))
  | 1 => some (.vdot4 (getXF w))
  | 2 => some (.vdoti8 (getXF w))
  | _ => none

/-- Minors of major 0x52 (R192). -/
def major52 (minor w : Nat) : Option Instr :=
  match minor with
  | 0 => some (.tmv (getXF w))
  | _ => none

/-- Minors of major 0x58 (R192). -/
def major58 (minor w : Nat) : Option Instr :=
  match minor with
  | 0 => some (.vperm (getV3 w))
  | 1 => some (.vred (getXF w))
  | 2 => some (.vscan (getXF w))
  | 3 => some (.vconf (getV3 w))
  | 4 => some (.vcomp (getV3 w))
  | _ => none

/-- Minors of major 0x60 (R192). -/
def major60 (minor w : Nat) : Option Instr :=
  match minor with
  | 0 => some (.lds (getMF w))
  | 1 => some (.sts (getMF w))
  | 2 => some (.ldx (getMF w))
  | 3 => some (.stx (getMF w))
  | 4 => some (.ldc (getMF w))
  | 5 => some (.vspill (getMF w))
  | 6 => some (.vfill (getMF w))
  | 7 => some (.vgth (getMF w))
  | 8 => some (.vsct (getMF w))
  | _ => none

/-- Minors of major 0x6C (R192). -/
def major6C (minor w : Nat) : Option Instr :=
  match minor with
  | 0 => some (.aadd (getMF w))
  | 1 => some (.afadd (getMF w))
  | 2 => some (.amin (getMF w))
  | 3 => some (.amax (getMF w))
  | 4 => some (.aand (getMF w))
  | 5 => some (.aor (getMF w))
  | 6 => some (.axchg (getMF w))
  | 7 => some (.acas (getMF w))
  | _ => none

/-- Minors of major 0x6D (R192). -/
def major6D (minor w : Nat) : Option Instr :=
  match minor with
  | 0 => some (.bar (getMF w))
  | 1 => some (.barr (getMF w))
  | 2 => some (.barw (getMF w))
  | 3 => some (.wmon (getYF w))
  | 4 => some (.fence (getMF w))
  | 5 => some (.fenceOp (getMF w))
  | _ => none

/-- Minors of major 0x70 (R192). -/
def major70 (minor w : Nat) : Option Instr :=
  match minor with
  | 0 => some (.cpy (getYF w))
  | 1 => some (.cpyr (getYF w))
  | 2 => some (.bclose (getYF w))
  | 3 => some (.bwait (getYF w))
  | 4 => some (if w % 2 = 1 then .cquiesceRst (getYF w) else .cquiesce (getYF w))
  | 5 => some (.cstat (getYF w))
  | _ => none

/-- Minors of major 0x74 (R192). -/
def major74 (minor w : Nat) : Option Instr :=
  match minor with
  | 0 => some (if w / 16 % 2 = 1 then .oclaimAny (getYF w) else .oclaim (getYF w))
  | 1 => some (.orel (getYF w))
  | 2 => some (.mma (getXF w))
  | 3 => some (.mmas (getXF w))
  | 4 => some (.mzero (getYF w))
  | 5 => some (.accrd (getXF w))
  | 6 => some (.accwr (getXF w))
  | 7 => some (if w / 128 % 2 = 1 then .mleaseFol (getYF w) else .mlease (getYF w))
  | 8 => some (.smask (getYF w))
  | _ => none

/-- Minors of major 0x78 (R192). -/
def major78 (minor w : Nat) : Option Instr :=
  match minor with
  | 0 => some (if w / 2 ^ 14 % 2 = 1 then .attnBrimRes (getYF w) else .attnBrim (getYF w))
  | 1 => some (.kvmap (getXF w))
  | 2 => some (.kvapp (getYF w))
  | 3 => some (.kvreq (getYF w))
  | 4 => some (.kvsum (getYF w))
  | 5 => some (.kvlink (getYF w))
  | 6 => some (.kvtrim (getYF w))
  | 7 => some (.pgget (getYF w))
  | 8 => some (.pgput (getYF w))
  | _ => none

/-- Minors of major 0x7A (R192). -/
def major7A (minor w : Nat) : Option Instr :=
  match minor with
  | 0 => some (.bdep (getYF w))
  | 1 => some (.bcpy (getYF w))
  | 2 => some (.btak (getYF w))
  | 3 => some (.jrec (getYF w))
  | 4 => some (.jack (getYF w))
  | 5 => some (.jtrunc (getYF w))
  | 6 => some (.rngc (getXF w))
  | _ => none

/-- Minors of major 0x7B (R192). -/
def major7B (minor w : Nat) : Option Instr :=
  match minor with
  | 0 => some (.bdset (getYF w))
  | 1 => some (.bdget (getYF w))
  | 2 => some (.bdclr (getYF w))
  | _ => none

/-- Minors of major 0x7C (R192). -/
def major7C (minor w : Nat) : Option Instr :=
  match minor with
  | 0 => some (.spawn (getXF w))
  | 1 => some (.glaunch (getYF w))
  | 2 => some (.gwait (getYF w))
  | _ => none

/-- Minors of major 0x7D (R192). -/
def major7D (minor w : Nat) : Option Instr :=
  match minor with
  | 0 => some (.trap (getYF w))
  | 1 => some (.eret (getYF w))
  | 2 => some (.csrr (getYF w))
  | 3 => some (.csrw (getYF w))
  | 4 => some (.brk (getYF w))
  | 5 => some (if w % 2 = 1 then .wdogQ (getYF w) else .wdog (getYF w))
  | _ => none

/-- The opcode map: `none` for an unassigned major, `some none` for an unassigned minor (R192). -/
def table (major minor w : Nat) : Option (Option Instr) :=
  match major with
  | 0x00 => some (major00 minor w)
  | 0x01 => some (major01 minor w)
  | 0x02 => some (major02 minor w)
  | 0x10 => some (major10 minor w)
  | 0x11 => some (major11 minor w)
  | 0x20 => some (major20 minor w)
  | 0x21 => some (major21 minor w)
  | 0x22 => some (major22 minor w)
  | 0x23 => some (major23 minor w)
  | 0x24 => some (major24 minor w)
  | 0x40 => some (major40 minor w)
  | 0x41 => some (major41 minor w)
  | 0x50 => some (major50 minor w)
  | 0x51 => some (major51 minor w)
  | 0x52 => some (major52 minor w)
  | 0x58 => some (major58 minor w)
  | 0x60 => some (major60 minor w)
  | 0x6C => some (major6C minor w)
  | 0x6D => some (major6D minor w)
  | 0x70 => some (major70 minor w)
  | 0x74 => some (major74 minor w)
  | 0x78 => some (major78 minor w)
  | 0x7A => some (major7A minor w)
  | 0x7B => some (major7B minor w)
  | 0x7C => some (major7C minor w)
  | 0x7D => some (major7D minor w)
  | _ => none

/-- Major and minor of an instruction; an event of the device has none (R192). -/
def opcode : Instr → Option (Nat × Nat)
  | .sadd _ => some (0x00, 0)
  | .ssub _ => some (0x00, 1)
  | .smul _ => some (0x00, 2)
  | .smulh _ => some (0x00, 3)
  | .smulhn _ => some (0x00, 4)
  | .sand _ => some (0x00, 5)
  | .sor _ => some (0x00, 6)
  | .sxor _ => some (0x00, 7)
  | .sshl _ => some (0x00, 8)
  | .sshr _ => some (0x00, 9)
  | .ssra _ => some (0x00, 10)
  | .smin _ => some (0x00, 11)
  | .smax _ => some (0x00, 12)
  | .sminn _ => some (0x00, 13)
  | .smaxn _ => some (0x00, 14)
  | .scmp _ => some (0x00, 15)
  | .saddi _ => some (0x01, 0)
  | .sandi _ => some (0x01, 1)
  | .sori _ => some (0x01, 2)
  | .sxori _ => some (0x01, 3)
  | .sshli _ => some (0x01, 4)
  | .sshri _ => some (0x01, 5)
  | .ssrai _ => some (0x01, 6)
  | .sli _ => some (0x01, 7)
  | .slih _ => some (0x01, 8)
  | .scmpi _ => some (0x01, 9)
  | .sgetv _ => some (0x02, 0)
  | .sballot _ => some (0x02, 1)
  | .spopc _ => some (0x02, 2)
  | .sclz _ => some (0x02, 3)
  | .sffs _ => some (0x02, 4)
  | .srd _ => some (0x02, 5)
  | .swr _ => some (0x02, 6)
  | .br _ => some (0x10, 0)
  | .brx _ => some (0x10, 1)
  | .call _ => some (0x10, 2)
  | .ret _ => some (0x10, 3)
  | .split _ => some (0x10, 4)
  | .join => some (0x10, 5)
  | .exit _ => some (0x10, 6)
  | .ient => some (0x11, 0)
  | .fmt _ => some (0x11, 1)
  | .nop => some (0x11, 2)
  | .vadd t _ => some (0x20, 0 * 4 + intTyCode t)
  | .vsub t _ => some (0x20, 1 * 4 + intTyCode t)
  | .vmul t _ => some (0x20, 2 * 4 + intTyCode t)
  | .vmulh t _ => some (0x20, 3 * 4 + intTyCode t)
  | .vmulhn t _ => some (0x20, 4 * 4 + intTyCode t)
  | .vand t _ => some (0x20, 5 * 4 + intTyCode t)
  | .vor t _ => some (0x20, 6 * 4 + intTyCode t)
  | .vxor t _ => some (0x20, 7 * 4 + intTyCode t)
  | .vshl t _ => some (0x20, 8 * 4 + intTyCode t)
  | .vshr t _ => some (0x20, 9 * 4 + intTyCode t)
  | .vsra t _ => some (0x20, 10 * 4 + intTyCode t)
  | .vmin t _ => some (0x20, 11 * 4 + intTyCode t)
  | .vmax t _ => some (0x20, 12 * 4 + intTyCode t)
  | .vminn t _ => some (0x20, 13 * 4 + intTyCode t)
  | .vmaxn t _ => some (0x20, 14 * 4 + intTyCode t)
  | .vabs t _ => some (0x20, 15 * 4 + intTyCode t)
  | .vneg t _ => some (0x20, 16 * 4 + intTyCode t)
  | .vclz t _ => some (0x20, 17 * 4 + intTyCode t)
  | .vpopc t _ => some (0x20, 18 * 4 + intTyCode t)
  | .vaddi t _ => some (0x21, 0 * 4 + intTyCode t)
  | .vandi t _ => some (0x21, 1 * 4 + intTyCode t)
  | .vori t _ => some (0x21, 2 * 4 + intTyCode t)
  | .vxori t _ => some (0x21, 3 * 4 + intTyCode t)
  | .vshli t _ => some (0x21, 4 * 4 + intTyCode t)
  | .vshri t _ => some (0x21, 5 * 4 + intTyCode t)
  | .vsrai t _ => some (0x21, 6 * 4 + intTyCode t)
  | .vli _ => some (0x21, 28)
  | .vcmp c t _ => some (0x22, intCmpCode c * 4 + intTyCode t)
  | .vfcmp c t _ => some (0x22, floatCmpCode c * 4 + floatTyCode t)
  | .pand _ => some (0x23, 0)
  | .por _ => some (0x23, 1)
  | .pxor _ => some (0x23, 2)
  | .pandn _ => some (0x23, 3)
  | .pnot _ => some (0x23, 4)
  | .pmov _ => some (0x23, 5)
  | .pset _ => some (0x23, 6)
  | .pclr _ => some (0x23, 7)
  | .ptest _ => some (0x23, 8)
  | .vsel _ => some (0x24, 0)
  | .vmov _ => some (0x24, 1)
  | .vbcast _ => some (0x24, 2)
  | .vlane _ => some (0x24, 3)
  | .vfadd t _ => some (0x40, 0 * 4 + floatTyCode t)
  | .vfsub t _ => some (0x40, 1 * 4 + floatTyCode t)
  | .vfmul t _ => some (0x40, 2 * 4 + floatTyCode t)
  | .vfma t _ => some (0x40, 3 * 4 + floatTyCode t)
  | .vfms t _ => some (0x40, 4 * 4 + floatTyCode t)
  | .vfnma t _ => some (0x40, 5 * 4 + floatTyCode t)
  | .vfmin t _ => some (0x40, 6 * 4 + floatTyCode t)
  | .vfmax t _ => some (0x40, 7 * 4 + floatTyCode t)
  | .vfabs t _ => some (0x40, 8 * 4 + floatTyCode t)
  | .vfneg t _ => some (0x40, 9 * 4 + floatTyCode t)
  | .vfclass t _ => some (0x40, 10 * 4 + floatTyCode t)
  | .vrcp _ => some (0x41, 0)
  | .vrsq _ => some (0x41, 1)
  | .vsqrt _ => some (0x41, 2)
  | .vexp2 _ => some (0x41, 3)
  | .vlog2 _ => some (0x41, 4)
  | .vcvt _ => some (0x50, 0)
  | .vpack _ => some (0x50, 1)
  | .vunpack _ => some (0x50, 2)
  | .vscl _ => some (0x50, 3)
  | .vdot8 _ => some (0x51, 0)
  | .vdot4 _ => some (0x51, 1)
  | .vdoti8 _ => some (0x51, 2)
  | .tmv _ => some (0x52, 0)
  | .vperm _ => some (0x58, 0)
  | .vred _ => some (0x58, 1)
  | .vscan _ => some (0x58, 2)
  | .vconf _ => some (0x58, 3)
  | .vcomp _ => some (0x58, 4)
  | .lds _ => some (0x60, 0)
  | .sts _ => some (0x60, 1)
  | .ldx _ => some (0x60, 2)
  | .stx _ => some (0x60, 3)
  | .ldc _ => some (0x60, 4)
  | .vspill _ => some (0x60, 5)
  | .vfill _ => some (0x60, 6)
  | .vgth _ => some (0x60, 7)
  | .vsct _ => some (0x60, 8)
  | .aadd _ => some (0x6C, 0)
  | .afadd _ => some (0x6C, 1)
  | .amin _ => some (0x6C, 2)
  | .amax _ => some (0x6C, 3)
  | .aand _ => some (0x6C, 4)
  | .aor _ => some (0x6C, 5)
  | .axchg _ => some (0x6C, 6)
  | .acas _ => some (0x6C, 7)
  | .bar _ => some (0x6D, 0)
  | .barr _ => some (0x6D, 1)
  | .barw _ => some (0x6D, 2)
  | .wmon _ => some (0x6D, 3)
  | .fence _ => some (0x6D, 4)
  | .fenceOp _ => some (0x6D, 5)
  | .cpy _ => some (0x70, 0)
  | .cpyr _ => some (0x70, 1)
  | .bclose _ => some (0x70, 2)
  | .bwait _ => some (0x70, 3)
  | .cquiesce _ => some (0x70, 4)
  | .cquiesceRst _ => some (0x70, 4)
  | .cstat _ => some (0x70, 5)
  | .oclaim _ => some (0x74, 0)
  | .oclaimAny _ => some (0x74, 0)
  | .orel _ => some (0x74, 1)
  | .mma _ => some (0x74, 2)
  | .mmas _ => some (0x74, 3)
  | .mzero _ => some (0x74, 4)
  | .accrd _ => some (0x74, 5)
  | .accwr _ => some (0x74, 6)
  | .mlease _ => some (0x74, 7)
  | .mleaseFol _ => some (0x74, 7)
  | .smask _ => some (0x74, 8)
  | .attnBrim _ => some (0x78, 0)
  | .attnBrimRes _ => some (0x78, 0)
  | .kvmap _ => some (0x78, 1)
  | .kvapp _ => some (0x78, 2)
  | .kvreq _ => some (0x78, 3)
  | .kvsum _ => some (0x78, 4)
  | .kvlink _ => some (0x78, 5)
  | .kvtrim _ => some (0x78, 6)
  | .pgget _ => some (0x78, 7)
  | .pgput _ => some (0x78, 8)
  | .bdep _ => some (0x7A, 0)
  | .bcpy _ => some (0x7A, 1)
  | .btak _ => some (0x7A, 2)
  | .jrec _ => some (0x7A, 3)
  | .jack _ => some (0x7A, 4)
  | .jtrunc _ => some (0x7A, 5)
  | .rngc _ => some (0x7A, 6)
  | .bdset _ => some (0x7B, 0)
  | .bdget _ => some (0x7B, 1)
  | .bdclr _ => some (0x7B, 2)
  | .spawn _ => some (0x7C, 0)
  | .glaunch _ => some (0x7C, 1)
  | .gwait _ => some (0x7C, 2)
  | .trap _ => some (0x7D, 0)
  | .eret _ => some (0x7D, 1)
  | .csrr _ => some (0x7D, 2)
  | .csrw _ => some (0x7D, 3)
  | .brk _ => some (0x7D, 4)
  | .wdog _ => some (0x7D, 5)
  | .wdogQ _ => some (0x7D, 5)
  | _ => none

/-- Bits 48:0 of an instruction (R180). -/
def body : Instr → Nat
  | .sadd o => putSR o
  | .ssub o => putSR o
  | .smul o => putSR o
  | .smulh o => putSR o
  | .smulhn o => putSR o
  | .sand o => putSR o
  | .sor o => putSR o
  | .sxor o => putSR o
  | .sshl o => putSR o
  | .sshr o => putSR o
  | .ssra o => putSR o
  | .smin o => putSR o
  | .smax o => putSR o
  | .sminn o => putSR o
  | .smaxn o => putSR o
  | .scmp o => putSR o
  | .saddi o => putSI o
  | .sandi o => putSI o
  | .sori o => putSI o
  | .sxori o => putSI o
  | .sshli o => putSI o
  | .sshri o => putSI o
  | .ssrai o => putSI o
  | .sli o => putSI o
  | .slih o => putSI o
  | .scmpi o => putSI o
  | .sgetv o => putXF o
  | .sballot o => putXF o
  | .spopc o => putSR o
  | .sclz o => putSR o
  | .sffs o => putSR o
  | .srd o => putYF o
  | .swr o => putYF o
  | .br o => putBR o
  | .brx o => putBR o
  | .call o => putBR o
  | .ret o => putBR o
  | .split o => putSP o
  | .join => 0
  | .exit o => putEX o
  | .ient => 0
  | .fmt o => putYF o
  | .nop => 0
  | .vadd _ o => putV3 o
  | .vsub _ o => putV3 o
  | .vmul _ o => putV3 o
  | .vmulh _ o => putV3 o
  | .vmulhn _ o => putV3 o
  | .vand _ o => putV3 o
  | .vor _ o => putV3 o
  | .vxor _ o => putV3 o
  | .vshl _ o => putV3 o
  | .vshr _ o => putV3 o
  | .vsra _ o => putV3 o
  | .vmin _ o => putV3 o
  | .vmax _ o => putV3 o
  | .vminn _ o => putV3 o
  | .vmaxn _ o => putV3 o
  | .vabs _ o => putV3 o
  | .vneg _ o => putV3 o
  | .vclz _ o => putV3 o
  | .vpopc _ o => putV3 o
  | .vaddi _ o => putVI o
  | .vandi _ o => putVI o
  | .vori _ o => putVI o
  | .vxori _ o => putVI o
  | .vshli _ o => putVI o
  | .vshri _ o => putVI o
  | .vsrai _ o => putVI o
  | .vli o => putVL o
  | .vcmp _ _ o => putV3 o
  | .vfcmp _ _ o => putV3 o
  | .pand o => putV3 o
  | .por o => putV3 o
  | .pxor o => putV3 o
  | .pandn o => putV3 o
  | .pnot o => putV3 o
  | .pmov o => putV3 o
  | .pset o => putV3 o
  | .pclr o => putV3 o
  | .ptest o => putV3 o
  | .vsel o => putV3 o
  | .vmov o => putV3 o
  | .vbcast o => putVS o
  | .vlane o => putVS o
  | .vfadd _ o => putV3 o
  | .vfsub _ o => putV3 o
  | .vfmul _ o => putV3 o
  | .vfma _ o => putV3 o
  | .vfms _ o => putV3 o
  | .vfnma _ o => putV3 o
  | .vfmin _ o => putV3 o
  | .vfmax _ o => putV3 o
  | .vfabs _ o => putV3 o
  | .vfneg _ o => putV3 o
  | .vfclass _ o => putV3 o
  | .vrcp o => putXF o
  | .vrsq o => putXF o
  | .vsqrt o => putXF o
  | .vexp2 o => putXF o
  | .vlog2 o => putXF o
  | .vcvt o => putXF o
  | .vpack o => putXF o
  | .vunpack o => putXF o
  | .vscl o => putXF o
  | .vdot8 o => putXF o
  | .vdot4 o => putXF o
  | .vdoti8 o => putXF o
  | .tmv o => putXF o
  | .vperm o => putV3 o
  | .vred o => putXF o
  | .vscan o => putXF o
  | .vconf o => putV3 o
  | .vcomp o => putV3 o
  | .lds o => putMF o
  | .sts o => putMF o
  | .ldx o => putMF o
  | .stx o => putMF o
  | .ldc o => putMF o
  | .vspill o => putMF o
  | .vfill o => putMF o
  | .vgth o => putMF o
  | .vsct o => putMF o
  | .aadd o => putMF o
  | .afadd o => putMF o
  | .amin o => putMF o
  | .amax o => putMF o
  | .aand o => putMF o
  | .aor o => putMF o
  | .axchg o => putMF o
  | .acas o => putMF o
  | .bar o => putMF o
  | .barr o => putMF o
  | .barw o => putMF o
  | .wmon o => putYF o
  | .fence o => putMF o
  | .fenceOp o => putMF o
  | .cpy o => putYF o
  | .cpyr o => putYF o
  | .bclose o => putYF o
  | .bwait o => putYF o
  | .cquiesce o => putYF o
  | .cquiesceRst o => putYF o
  | .cstat o => putYF o
  | .oclaim o => putYF o
  | .oclaimAny o => putYF o
  | .orel o => putYF o
  | .mma o => putXF o
  | .mmas o => putXF o
  | .mzero o => putYF o
  | .accrd o => putXF o
  | .accwr o => putXF o
  | .mlease o => putYF o
  | .mleaseFol o => putYF o
  | .smask o => putYF o
  | .attnBrim o => putYF o
  | .attnBrimRes o => putYF o
  | .kvmap o => putXF o
  | .kvapp o => putYF o
  | .kvreq o => putYF o
  | .kvsum o => putYF o
  | .kvlink o => putYF o
  | .kvtrim o => putYF o
  | .pgget o => putYF o
  | .pgput o => putYF o
  | .bdep o => putYF o
  | .bcpy o => putYF o
  | .btak o => putYF o
  | .jrec o => putYF o
  | .jack o => putYF o
  | .jtrunc o => putYF o
  | .rngc o => putXF o
  | .bdset o => putYF o
  | .bdget o => putYF o
  | .bdclr o => putYF o
  | .spawn o => putXF o
  | .glaunch o => putYF o
  | .gwait o => putYF o
  | .trap o => putYF o
  | .eret o => putYF o
  | .csrr o => putYF o
  | .csrw o => putYF o
  | .brk o => putYF o
  | .wdog o => putYF o
  | .wdogQ o => putYF o
  | _ => 0

/-- The word of an instruction with switch marker `sw` (R177); none for an event. -/
def encode (sw : Bool) (i : Instr) : Option Nat :=
  (opcode i).map (fun mm => (if sw then 2 ^ 63 else 0) + mm.1 * 2 ^ 56 + mm.2 * 2 ^ 49 + body i)

/-- Decoding of a 64-bit word where an instruction is expected: the instruction, or the lowest REASON
of R193 that the word alone shows (1 to 5; 7 to 9 depend on its place in the clause). A word whose
fields do not make it up again has a nonzero bit where its format has zero (REASON 3). -/
def decode (w : Nat) : Except Nat Decoded :=
  let major := fld w 56 7
  let minor := fld w 49 7
  if major = 0x7F then .error 5
  else
    match table major minor w with
    | none => .error 1
    | some none => .error 2
    | some (some i) =>
      let sw := decide (fld w 63 1 = 1)
      if encode sw i ≠ some (w % 2 ^ 64) then .error 3
      else
        match Checks.reason i with
        | 0 => .ok (sw, i)
        | r => .error r

/-- The fields of a valid clause header: COUNT, CLASS and WAIT; none for any other word (R178). -/
def header (w : Nat) : Option (Nat × Nat × Nat) :=
  if fld w 56 7 = 0x7F ∧ fld w 63 1 = 0 ∧ fld w 50 2 ≠ 3 ∧ fld w 0 42 = 0 then
    some (fld w 52 4, fld w 50 2, fld w 42 8)
  else none

/-- The word of a clause header (R178). -/
def encodeHeader (count cls wait : Nat) : Nat :=
  0x7F * 2 ^ 56 + count * 2 ^ 52 + cls * 2 ^ 50 + wait * 2 ^ 42

/-- The majors a clause of class `cls` permits (R179). -/
def classOk (cls major : Nat) : Bool :=
  match major with
  | 0x00 | 0x01 | 0x02 | 0x10 | 0x11 => true
  | 0x60 | 0x6C | 0x6D | 0x70 => cls == 1
  | 0x74 | 0x78 | 0x7A => cls == 2
  | _ => cls == 0

/-- Instructions that must end their clause: major 0x10 and `eret` (R179). -/
def mustEnd (w : Nat) : Bool :=
  fld w 56 7 == 0x10 || (fld w 56 7 == 0x7D && fld w 49 7 == 1)

/-- The instruction at a place of a clause, with the place's own reasons: S before the last word (7),
a control transfer before the last word (8), a major the class does not permit (9) (R179, R193). -/
def decodeAt (cls : Nat) (last : Bool) (w : Nat) : Except Nat Decoded :=
  match decode w with
  | .error r => .error r
  | .ok (sw, i) =>
    if sw && !last then .error 7
    else if mustEnd w && !last then .error 8
    else if !classOk cls (fld w 56 7) then .error 9
    else .ok (sw, i)

end Sys2Proof.Decode

namespace Sys2Proof

/-- The instruction the decoder reads from a word whose bits are `w`: a TX8 instruction is one 64-bit
word, so bits above `nbits` are zero and the table's numbering is the word's own (R177). -/
def decodeTableWord (nbits w : Nat) : Option Instr :=
  match Decode.decode (w % 2 ^ (min nbits 64)) with
  | .ok d => some d.2
  | .error _ => none

end Sys2Proof
end

