-- ==== Sys2Proof/Config.lean ====
section
/-!
DEFINITION. What the specification leaves open: the free values (R6), and what an implementation fixes.
A free value has no body, so nothing can be proved of it; each is applied to a number that names the
occasion and to a key that names the place.
-/
namespace Sys2Proof.Config

/-- An undefined 64-bit value (R6): assumption log 3. -/
opaque freeWord : Nat → Nat → Word

/-- An undefined byte (R6): assumption log 3. -/
opaque freeByte : Nat → Nat → Byte

/-- An undefined truth value, as of a predicate at group start (R35): assumption log 3. -/
opaque freeBit : Nat → Nat → Bool

/-- A choice the device may make either way, such as the use of a kept translation (R24, R29): assumption log 7. -/
opaque freeChoice : Nat → Nat → Bool

/-- The device's own identifier (R385): assumption log 3. -/
opaque deviceId : Word

/-- Bytes of an attestation report that rest on the images and the device key (R384, R385): assumption log 3. -/
opaque attestByte : Nat → Nat → Byte

/-- Cycles of the arithmetic clock in one count of DLCLK, 64 ns at 2.25 GHz (R3, R63). -/
def dlclkCycles : Nat := 144

/-- Cycles of the arithmetic clock in 1 ms (R3, R67). -/
def msCycles : Nat := 2250000

/-- Cycles of the arithmetic clock in `ns` nanoseconds, rounded up (R3). -/
def nsCycles (ns : Nat) : Nat := (ns * 9 + 3) / 4

/-- A refresh interval tREFI of the HBM4E standard (R70) in cycles, which the specification does not
give: assumption log 9. -/
opaque trefiCycles : Nat

/-- Refresh commands the HBM4E standard lets a base die postpone (R70), which the specification does not
give: assumption log 9. -/
opaque refreshAllowance : Nat

/-- PKGW at a moment, in W (R386), which the specification derives from nothing: assumption log 93. -/
opaque packageWatts : Nat → BitVec 16

/-- DIEMAX at a moment, in degrees Celsius (R386), which the specification derives from nothing: assumption log 93. -/
opaque dieHottest : Nat → BitVec 8

/-- Depth of a core's copy, matrix and attention queues (R168), which the specification does not give:
assumption log 14. -/
opaque engineQueueDepth : Nat

/-- Bytes of the journal region that a device keeps for the records of its partners (R334 gives none; assumption log 133). -/
opaque journalRegion : Nat

end Sys2Proof.Config
end

