-- ==== Sys2Proof/Machine/State.lean ====
section
/-!
DEFINITION. The state of the TX8 as plain data: everything the specification gives the machine, with the
model's own fields `agenda`, `turn`, `fresh` and `nextId` (assumption log 3 to 5). Registers are held in
banks keyed by the numbers of R236 and R377; a register not listed holds its reset value.
-/
namespace Sys2Proof.Machine

/-- Why exec does not answer a next state though the instruction is modelled. -/
inductive Fault where
  /-- Raised by the meaning of a program instruction when no split stands at an instruction. `step`
  asks for a program instruction only of an issuing split, so no step raises it. Safe. -/
  | noIssuingSplit
  deriving DecidableEq, Repr

/-- Why an instruction has no meaning. -/
inductive Refusal where
  /-- Raised by an arm of `exec` that has no meaning yet. Safe. -/
  | notModelled (mnemonic : String)
  deriving DecidableEq, Repr

/-- A scheduled event: the cycles that pass before it, and the event (assumption log 4). -/
structure Scheduled where
  delay : Nat
  event : Instr
  deriving DecidableEq, Repr

/-- Byte storage. `seed = none`: an unlisted byte reads 0. `seed = some n`: the start contents are
undefined, and an unlisted byte reads as the free byte of occasion `n` (R13, R14, R53). -/
structure Memory where
  seed : Option Nat
  cells : List Host.Cell
  deriving DecidableEq, Repr

/-- One condition-code set (R213). -/
structure CC where
  z : Bool
  n : Bool
  c : Bool
  v : Bool
  deriving DecidableEq, Repr

/-- The six trap registers of a split (R342). TRAPC is held as CAUSE, HND and PEND. -/
structure TrapRegs where
  cause : BitVec 8
  hnd : Bool
  pend : BitVec 8
  trape : Word
  trapi : Word
  trapm : Word
  trapx : Word
  traps : Word
  deriving DecidableEq, Repr

/-- A trap to be taken: cause, TRAPI, TRAPM and TRAPX (R343). -/
structure TrapReq where
  cause : Nat
  pc : Word
  mask : Mask
  x : Word
  deriving DecidableEq, Repr

/-- What a trap entry saves for `eret`: lane mask, FMT, `c0`-`c3` and `s60`-`s63` (R343), and the barrier wait that
`eret.retry` takes up again after cause 0x0D (R348): offset, PHASE and whether it is a `bar`. -/
structure Shadow where
  mask : Mask
  fmt : BitVec 8
  cc : Sparse CC
  scalars : List Word
  barrier : Option (Nat × Nat × Bool)
  deriving DecidableEq, Repr

/-- Completion status (R60). -/
inductive MemStatus where
  | good | poison | timeout | linkDown
  deriving DecidableEq, Repr

/-- A request for one 64-byte line of the CXL tier by a cache instruction or an attention operation: its number, the port, the virtual
address of the line, and how it has ended (R60, R78). -/
structure TierAsk where
  id : Nat
  port : Nat
  va : Nat
  status : Option MemStatus
  deriving DecidableEq, Repr

/-- What a split waits for (R164). -/
inductive Wait where
  | none
  /-- A hold at issue (R168), with the cycle in which it began. -/
  | hold (since : Nat)
  /-- `bar` or `barw`: the word's offset and the PHASE it must differ from (R274); `watched` is false
  after the watchdog has given it up (R348); `bar` is false for `barw` (R360). -/
  | barrier (off phase : Nat) (watched bar : Bool)
  /-- `wmon` (R276) on shared memory or the scratchpad, its destination, and what it returns once it has. -/
  | wmon (spd : Bool) (sd : Nat) (ret : Option Nat)
  /-- A blocking or polling bench request (R330): whether it returns a tuple, its SD, and its reply once it has arrived:
  status and fields, or `none` inside for a refusal with cause 0x14. -/
  | bench (id : Nat) (got : Bool) (sd : Nat) (reply : Option (Option (List Word)))
  /-- `gwait` on a grid, by its unique number (R233). -/
  | gwait (uid : Nat)
  /-- `bwait` on the batches of a class up to a number (R283). -/
  | batch (cls n : Nat)
  /-- `cquiesce` for copies that are writing (R285): entries written so far, and the copy it stands at. -/
  | quiesce (k next : Nat)
  /-- A hold of `cquiesce.rst` for queue room (R168, R287): the entries it has queued. -/
  | replay (k : Nat)
  /-- A change of cache context (R103, R325), with the frame that a `kvtrim.ret` has yet to insert and its SD (R324). -/
  | frames (got : Option (Nat × Nat))
  /-- The accesses of a cache instruction to the CXL tier (R78, R319): its requests, and how they have ended. -/
  | tier (asks : List TierAsk)
  deriving DecidableEq, Repr

/-- A split (R143). `hdr` is the address of the header of its clause, `code` the instruction words of that
clause not yet issued (R165); `mid` says
that the PC names a word inside a clause whose remainder is to be issued (R235). `restarted` says that its one restart of the
region is used, `paritySeen` that it has consumed a parity error in it (R349, R354); `readyTime` is its ready time and `wasReady`
whether it was ready at the last step (R164); `roomSince` is the cycle since which it
holds for queue room at a `spawn` (R153, R168), and `checking` the result whose check it waits for (R263). -/
structure Split where
  pc : Word
  hdr : Word
  code : List Word
  cls : Nat
  mid : Bool
  mask : Mask
  fmt : BitVec 8
  seed : Nat
  s : Sparse Word
  cc : Sparse CC
  youngest : Option Nat
  atRecord : Bool
  region : Word
  restarted : Bool
  paritySeen : Bool
  wait : Wait
  awake : Bool
  parked : Bool
  trap : TrapRegs
  shadow : Option Shadow
  pendTrap : Option TrapReq
  restartPend : Bool
  watchdog : Option Word
  haltReq : Bool
  halted : Bool
  stepping : Bool
  pendFault : Option TrapReq
  readyTime : Nat
  wasReady : Bool
  roomSince : Option Nat
  checking : Option Nat
  deriving DecidableEq, Repr

/-- What the parts of a division have of their own beside lanes and PC (R143, R227, R342): scalars, condition codes, trap
registers, region with its restart marks, and the shadow of a handler. -/
structure SplitPart where
  seed : Nat
  s : Sparse Word
  cc : Sparse CC
  trap : TrapRegs
  region : Word
  restarted : Bool
  paritySeen : Bool
  shadow : Option Shadow
  deriving DecidableEq, Repr

/-- A divergence record (R143, R145): `entry` is what a serial record kept at the `split` for its fall-through part, `taken` what
its taken part had when it arrived. -/
structure DivRec where
  join : Word
  fmt : BitVec 8
  members : Mask
  parent : Nat
  older : Option Nat
  serial : Bool
  fallMask : Mask
  fallPc : Word
  fallStarted : Bool
  takenMask : Mask
  entry : SplitPart
  taken : SplitPart
  deriving DecidableEq, Repr

/-- A float format (R197): exponent and mantissa bits, bias, largest finite and canonical NaN patterns, infinity. -/
structure Fmt where
  eb : Nat
  mb : Nat
  bias : Nat
  maxFin : Nat
  nan : Option Nat
  inf : Option Nat
  deriving DecidableEq, Repr

/-- A part of an instruction's result: register `reg` in lane `lane`, of which the first `cnt` elements of format
`fmt` are checked (R262). -/
structure Part where
  reg : Nat
  lane : Nat
  fmt : Fmt
  cnt : Nat
  word : Word
  deriving DecidableEq, Repr

/-- A variable-latency result on its way to its destination (R37, R167). `data` lists the lane values by
register key; `need` counts the replies still to come; `undef` holds the lanes in which an overlapping write has
made the destination undefined (R240, R268); `checks` are the parts of it that range registers check when it is written (R262), and
`pc` the address of its instruction. -/
structure Pend where
  id : Nat
  sid : Nat
  regs : List Nat
  lanes : Mask
  data : Sparse Word
  need : Nat
  sb : Option Nat
  ret : Bool
  flags : BitVec 6
  undef : Mask
  checks : List Part
  pc : Word
  deriving DecidableEq, Repr

/-- An operation of a batch class: copy, matrix or attention (R282), until a `bwait` has covered it.
`batch = 0` while it is open; `done` when it has completed. `tiles` are the tiles it uses, by core and physical number,
and `regs` the vector registers it reads; `uses` are the bytes an attention operation uses, as space (0 shared memory,
1 scratchpad), start and length (R308); `spoilt` says that another agent wrote one of them meanwhile (R127, R128, R308). -/
structure OpRec where
  id : Nat
  cls : Nat
  batch : Nat
  done : Bool
  tiles : List (Nat × Nat)
  regs : List Nat
  uses : List (Nat × Nat × Nat)
  spoilt : Bool
  deriving DecidableEq, Repr

/-- An error of a batch not yet reported (R283). Cause 0 stands for a range-register retry (R263). -/
structure BatchErr where
  cls : Nat
  op : Nat
  batch : Nat
  cause : Nat
  trapx : Word
  deriving DecidableEq, Repr

/-- An entry of an error list (R284). -/
structure ErrEntry where
  cause : Nat
  batch : Nat
  trapx : Word
  deriving DecidableEq, Repr

/-- The save or restore handler a group runs (R352, R357). -/
structure Handler where
  restore : Bool
  whole : Bool
  cause : Nat
  stage : Nat
  stageOff : Nat
  record : Nat
  recordVa : Nat
  blockVa : Nat
  deriving DecidableEq, Repr

/-- Where a group stands in its life (R149, R174, R356). -/
inductive GroupStatus where
  | running
  | ending
  | ended
  | evicting
  | saving
  | evicted
  deriving DecidableEq, Repr

/-- A program group (R136, R141). `base` is the first register of its run in its quadrant (R34); `evictedAt` orders evicted
groups (R172); `saved` is the record and staging area an eviction uses (R352), `savedRecs` its divergence records, of whose
taken parts the group record holds only scalars and condition codes, and `lateDogs` the watched words whose limit has expired
since, each with its phase and TRAPX (R275). `readySince` is its ready time and `wasReady` whether it was ready (R164). `opDirty` lists, for a split and a register, the lanes
it has written since its last `fence.op` (R127). -/
structure Group where
  ctx : Nat
  core : Nat
  bid : Nat
  grid : Nat
  gridId : Nat
  slot : Nat
  quad : Nat
  base : Nat
  order : Nat
  pri : Nat
  nregs : Nat
  nspill : Nat
  packed : Bool
  status : GroupStatus
  started : Nat
  seed : Nat
  v : Sparse Word
  p : Sparse Bool
  spill : Sparse Word
  bd : Sparse (Word × Word)
  gst : BitVec 6
  hintOn : Bool
  sb : Sparse Nat
  outs : List Pend
  counters : Sparse Nat
  ops : List OpRec
  errs : List BatchErr
  errLists : Sparse (List ErrEntry)
  overflow : Sparse Bool
  recs : Sparse DivRec
  splits : Sparse Split
  handler : Option Handler
  armed : Bool
  deferred : List Nat
  opDirty : List (Nat × Nat × Mask)
  evictedAt : Nat
  saved : Option Handler
  savedRecs : Sparse DivRec
  lateDogs : List (Nat × Nat × Word)
  readySince : Nat
  wasReady : Bool
  deriving DecidableEq, Repr

/-- A block checkpoint (R360): the control state of its groups, its shared memory, and what the span
already preserves. -/
structure Checkpoint where
  groups : Sparse Group
  shm : Memory
  used : Nat
  regsKept : List (Nat × Nat)
  linesKept : List Nat
  valid : Bool
  failed : Bool
  deriving DecidableEq, Repr

/-- Row state of an attention partition: e_ref (none: unset) and S (R311). -/
structure AttnRow where
  eref : Option Int
  sum : BitVec 32
  deriving DecidableEq, Repr

/-- A physical accumulator tile and its attention partition (R54, R55). `busy` counts the operations in
flight that use it; `spoilt` says that it was written while an operation on it was not yet waited for, which leaves it
undefined (R128). -/
structure Tile where
  owner : Option Nat
  seed : Nat
  data : Sparse (BitVec 32)
  rows : Sparse AttnRow
  busy : Nat
  spoilt : Bool
  deriving DecidableEq, Repr

/-- What a query has left at a stop with phase 1 complete: the bytes of its descriptor, its query rows, its tile with the partition, and
its work area. A resumption that finds anything else, SCALE, TAU and BUDGET apart, has undefined outputs (R315). -/
structure QueryMark where
  desc : List Byte
  query : List (List Nat)
  tile : Tile
  work : List Nat
  deriving DecidableEq, Repr

/-- A placed block (R161). `rolling` says that a rollback waits for its batches (R361). `tiles` lists the physical tiles of `acc0` upward (R54);
`quads` and `bases` give for each group slot its quadrant and the first register of its run (R34), `rows` the 256-byte rows
of its shared memory and `spillRows` those of each slot's spill stack (R33); `queries` is what its queries have left (R315). -/
structure Block where
  ctx : Nat
  grid : Nat
  x : Nat
  y : Nat
  z : Nat
  core : Nat
  shmKiB : Nat
  shm : Memory
  tiles : List Nat
  quads : List Nat
  bases : List Nat
  rows : List Nat
  spillRows : List (List Nat)
  nregs : Nat
  nspill : Nat
  statics : Nat
  packedSlots : Nat
  pri : Nat
  rb : Bool
  limit : Nat
  begun : Bool
  evicting : Bool
  evicted : Bool
  blockVa : Nat
  rolling : Bool
  checkpoint : Option Checkpoint
  queries : List QueryMark := []
  deriving DecidableEq, Repr

/-- Grid states (R150). -/
inductive GridState where
  | pending | running | draining | retired
  deriving DecidableEq, Repr

/-- A grid (R136 to R140, R150). `next` is the linear index of the next block to place. -/
structure Grid where
  ctx : Nat
  id : Nat
  depth : Nat
  parent : Option Nat
  entry : Word
  gx : Nat
  gy : Nat
  gz : Nat
  config : Word
  params : List Word
  st : GridState
  next : Nat
  retired : Nat
  waitSince : Nat
  reserved : Option Nat
  evictedFor : List Nat
  node : Option (Nat × Nat)
  deriving DecidableEq, Repr

/-- A fault of an access: its cause and its TRAPX. -/
structure XErr where
  cause : Nat
  x : Word
  deriving DecidableEq, Repr

/-- A completed translation: physical address and the leaf's low eight flag bits (R22). -/
structure Xl where
  pa : Nat
  flags : Nat
  level : Nat
  deriving DecidableEq, Repr

/-- What the translation of a page has given a copy, which takes it once (R24). -/
inductive PageX where
  | ok (x : Xl)
  /-- A leaf that lacks what the copy needs (R25): its frame is known. -/
  | denied (x : Xl) (e : XErr)
  | err (e : XErr)
  deriving DecidableEq, Repr

/-- A byte on its way through a copy: `bad` when it carries poison or failed parity at its source, `free` when the
destination is to be undefined (R26, R57, R79, R280). -/
structure CopyByte where
  b : Byte
  bad : Bool
  free : Bool
  deriving DecidableEq, Repr

/-- A queued or running copy or copy-reduction (R278). `srcX` and `dstX` list, by virtual page number, the translations it
took when its engine began it (R24); `wrote` says that a write of it to its destination has been performed (R285);
`waiting` counts its requests that have not come back. -/
structure CopyOp where
  id : Nat
  gid : Nat
  sid : Nat
  ctx : Nat
  core : Nat
  bid : Nat
  reduce : Bool
  code : Nat
  dst : Word
  src : Word
  len : Nat
  bar : Word
  begun : Bool
  wrote : Bool
  finished : Bool
  waiting : Nat
  failedLines : List (Nat × Nat)
  srcX : List (Nat × PageX)
  dstX : List (Nat × PageX)
  deriving DecidableEq, Repr

/-- Which matrix operation (R293, R300, R303). -/
inductive MatKind where
  | mma | mmas | mzero | smask
  deriving DecidableEq, Repr

/-- A bond of a follower (R297). -/
structure Bond where
  gid : Nat
  ctx : Nat
  count : Nat
  tile : Nat
  slot : Nat
  deriving DecidableEq, Repr

/-- A queued matrix operation (R293); `bond` is the bond it runs under once a paired operation has started. -/
structure MatOp where
  id : Nat
  kind : MatKind
  gid : Nat
  core : Nat
  bid : Nat
  pri : Nat
  grpSlot : Nat
  arrival : Nat
  tile : Nat
  slotA : Nat
  slotB : Nat
  pair : Bool
  fmt : Nat
  shape : Word
  layout : Word
  mdata : List (List Word)
  sel : Nat
  bond : Option Bond
  deriving DecidableEq, Repr

/-- A queued attention operation (R306); `tier` lists its requests to the CXL tier and how they have ended (R77, R78). -/
structure AttnOp where
  id : Nat
  gid : Nat
  core : Nat
  bid : Nat
  ctx : Nat
  tile : Nat
  slotQ : Nat
  desc : Nat
  work : Word
  resume : Bool
  tier : List TierAsk
  deriving DecidableEq, Repr

/-- An attention operation that has started (R308, R315): its fields and progress, the bytes of its descriptor and its query rows as it
started; `shm` is the shared memory that holds
its work area once its block has been terminated (R346). -/
structure AttnRun where
  op : AttnOp
  rows : Nat
  len : Nat
  wstart : Nat
  scale : BitVec 32
  tau : BitVec 32
  budget : Nat
  mapb : Nat
  np : Nat
  visits : Nat
  desc : List Byte
  query : List (List Nat)
  shm : Option Memory
  deriving DecidableEq, Repr

/-- Operand slot states (R53). -/
inductive SlotState where
  | free | claimed | engaged
  deriving DecidableEq, Repr

/-- An operand slot (R53). `prev` lists the bytes that a copy has overwritten while the slot is Engaged: a reader sees
either. -/
structure Slot where
  st : SlotState
  owner : Nat
  readers : Nat
  rel : Bool
  mem : Memory
  prev : Sparse Byte
  deriving DecidableEq, Repr

/-- A write-buffer entry: die-linear line, masked bytes, allocation time (R46). -/
structure WbEntry where
  line : Nat
  bytes : Sparse Byte
  alloc : Nat
  deriving DecidableEq, Repr

/-- An armed `wmon` (R43, R50): the word by address, its bytes, and who waits. -/
structure Monitor where
  addr : Nat
  size : Nat
  bid : Nat
  gid : Nat
  sid : Nat
  deriving DecidableEq, Repr

/-- A watched barrier phase (R275). -/
structure Watch where
  bid : Nat
  off : Nat
  start : Nat
  limit : Nat
  deriving DecidableEq, Repr

/-- A spawn item (R153). -/
structure SpawnItem where
  pc : Word
  w0 : Word
  w1 : Word
  bid : Nat
  time : Nat
  deriving DecidableEq, Repr

/-- A formed packed group waiting for a slot (R154). -/
structure Formed where
  bid : Nat
  pc : Word
  items : List SpawnItem
  deriving DecidableEq, Repr

/-- A kept translation (R24): one 64 KiB virtual page, its frame and the flags of the leaf as walked. -/
structure Kept where
  ctx : Nat
  vpn : Nat
  frame : Nat
  flags : Nat
  level : Nat
  deriving DecidableEq, Repr

/-- A lease on a core's array (R173, R299). -/
structure Lease where
  gid : Nat
  count : Nat
  idleSince : Nat
  deriving DecidableEq, Repr

/-- The frame cache of a core (R103, R104); the last frame of the list was inserted last. `refill` is the context a
refill is pending for, `taking` says that a take for a grant is on its way or parked, `grants` holds the fields of grants taken and not yet inserted,
and `sends` counts the deposits of returned frames not yet accepted. -/
structure FrameCache where
  ctx : Option Nat
  frames : List Nat
  refill : Option Nat
  taking : Bool
  grants : List (Nat × List Word)
  sends : Nat
  deriving DecidableEq, Repr

/-- A reply on its way to a return slot or a suspended split (R51). -/
inductive Reply where
  /-- Old values of an atomic, by lane. -/
  | atomic (gid pend : Nat) (lanes : Sparse Word)
  /-- A `wmon` return. -/
  | wmon (gid sid ret : Nat)
  /-- A bench reply: status and fields, or a refusal with cause 0x14 and its TRAPX. -/
  | bench (gid sid id : Nat) (words : Option (List Word)) (x : Word)
  deriving DecidableEq, Repr

/-- One lane's element of an atomic (R270): lane, element address, operand, compare value. -/
structure Elem where
  lane : Nat
  addr : Nat
  b : Word
  cmp : Word
  deriving DecidableEq, Repr

/-- The element operations of atomics and reductions (R72). -/
inductive AtomOp where
  | add (w : Nat)
  | fadd (t : FloatTy)
  | fmin (t : FloatTy)
  | fmax (t : FloatTy)
  | min (w : Nat) (signed : Bool)
  | max (w : Nat) (signed : Bool)
  | and (w : Nat)
  | or (w : Nat)
  | xchg (w : Nat)
  | cas (w : Nat)
  deriving DecidableEq, Repr

/-- Who sent a bench request (R330, R379, R105). -/
inductive Requester where
  | split (gid sid : Nat)
  | host (ctx region : Nat)
  | foreman
  /-- A foreman core's take of a request for an attestation report (R385). -/
  | attest (ctx : Nat)
  | frameCache (core : Nat)
  deriving DecidableEq, Repr

/-- Bench operations (R329). -/
inductive BenchOp where
  | dep | cpy | tak
  deriving DecidableEq, Repr

/-- A bench request (R329). -/
structure BenchReq where
  id : Nat
  op : BenchOp
  ctx : Nat
  region : Nat
  tag : Nat
  mask : Nat
  fields : List Word
  poll : Bool
  gate : Option Nat
  who : Requester
  deriving DecidableEq, Repr

/-- A stored tuple (R327). -/
structure Tuple where
  ctx : Nat
  region : Nat
  tag : Nat
  fields : List Word
  age : Nat
  deriving DecidableEq, Repr

/-- A held gated deposit (R134); `seq` is its order of acceptance. -/
structure Held where
  ctx : Nat
  region : Nat
  tag : Nat
  fields : List Word
  gate : Nat
  seq : Nat
  deriving DecidableEq, Repr

/-- A request in a service group's queue (R49). -/
inductive SvcReq where
  /-- An atomic: its requester, the address of the instruction, the result that awaits it, and its elements. -/
  | atomic (core gid sid : Nat) (pc : Word) (pend : Option Nat) (op : AtomOp) (elems : List Elem)
  /-- Elements of a copy-reduction (R281). -/
  | reduce (copy : Nat) (op : AtomOp) (elems : List Elem)
  | wmon (gid sid addr size : Nat) (expect : Word)
  | bench (r : BenchReq)
  /-- A withdraw of the parked request of a split (R332). -/
  | withdraw (gid sid id : Nat)
  deriving DecidableEq, Repr

/-- A scratchpad slice's service group (R48 to R50, R331): its queue of at most 256 entries, and the requests that the die
network holds back while it is full, in their order (R49). -/
structure Slice where
  queue : List SvcReq
  net : List SvcReq
  parked : List BenchReq
  monitors : List Monitor
  tuples : List Tuple
  counter : Nat
  held : List Held
  heldSeq : Nat
  deriving DecidableEq, Repr

/-- The start limiter of a die (R170). -/
structure Limiter where
  window : Nat
  grants : Nat
  waiting : List (List Nat)
  deriving DecidableEq, Repr

/-- A compute die: scratchpad bytes by die-linear address, its slices, its start limiter. -/
structure Die where
  scratch : Memory
  slices : Sparse Slice
  limiter : Limiter
  deriving DecidableEq, Repr

/-- A matrix array (R170, R295). `chosen` is the paired operation of the leader, by its id, that the arbiter of a follower has
selected: it keeps both arrays until it begins (R171). -/
structure ArrayState where
  busy : Option MatOp
  chosen : Option Nat
  slaved : Bool
  active : Bool
  lastUse : Nat
  requested : Bool
  granted : Bool
  deriving DecidableEq, Repr

/-- A core's storage and engines (R33). -/
structure Core where
  const : Memory
  slots : Sparse Slot
  tiles : Sparse Tile
  wbuf : List WbEntry
  monitors : List Monitor
  watch : List Watch
  replies : List Reply
  matQ : List MatOp
  attnQ : List AttnOp
  attnRun : Option AttnRun
  array : ArrayState
  lease : Option Lease
  leaseReqs : List (Nat × Nat)
  bond : Option Bond
  bondReqs : List Bond
  frames : FrameCache
  spawnQ : List SpawnItem
  bins : List Formed
  formed : List Formed
  tlb : List Kept
  deriving DecidableEq, Repr

/-- Where a main-memory request is served: an HBM channel, a CXL port, or a migration slot (R60, R81). -/
inductive Route where
  | channel (n : Nat)
  | port (n : Nat)
  | mig (slot : Nat)
  deriving DecidableEq, Repr

/-- Who reaches the CXL tier for a program: a cache instruction of a split, or the attention engine of a core (R77, R78). -/
inductive Prober where
  | split (gid sid : Nat)
  | attn (core id : Nat)
  deriving DecidableEq, Repr

/-- What a main-memory request does (R60, R72). -/
inductive MemOp where
  /-- Elements of an atomic. -/
  | atomic (gid : Nat) (pend : Option Nat) (sid : Nat) (op : AtomOp) (elems : List Elem)
  /-- Read of `len` bytes for a copy, to be delivered at destination offset `off`. -/
  | read (copy off len : Nat)
  /-- Write of bytes by a copy; `bad` lists the offsets that carry poison (R75). -/
  | write (copy off : Nat) (bytes : List Byte) (bad : List Nat)
  /-- Reduction of elements by a copy-reduction; as `write`, with the offsets `free` written as they are (R26, R280). -/
  | reduce (copy off : Nat) (op : AtomOp) (bytes : List Byte) (bad free : List Nat)
  /-- An access to one line of the CXL tier by a cache instruction or the attention engine: the line is read or written once the
  request has completed. -/
  | probe (who : Prober)
  /-- Part of a host read: the number of the access, and offset and length of the part (R378). -/
  | hostRead (acc off len : Nat)
  /-- Part of a host write (R378). -/
  | hostWrite (bytes : List Byte)
  /-- Patrol scrub of one 32-byte unit (R74). -/
  | scrub
  deriving DecidableEq, Repr

/-- A main-memory request (R60). `lost` marks one whose timeout has been reported (R78); `leaves` lists the leaves it was
translated through, as virtual page number and level (R28); `spoilt` is the unit of an atomic whose operands a flit has
delivered as poison (R75). -/
structure MemReq where
  id : Nat
  route : Route
  pa : Nat
  va : Nat
  op : MemOp
  core : Nat
  ctx : Nat
  cls : Nat
  stamp : Nat
  sent : Nat
  lost : Bool
  leaves : List (Nat × Nat)
  spoilt : Option Nat
  deriving DecidableEq, Repr

/-- A completion on its way to the requester (R61): read data with the offsets that are poison and those that are undefined, or old
values of an atomic by lane; `x` is the TRAPX of the unit that a request could not read, and `missed` says that its slack was negative
when the completion was sent (R63, R76). -/
structure Completion where
  req : MemReq
  status : MemStatus
  data : List Byte
  bad : List Nat
  free : List Nat
  old : Sparse Word
  x : Word
  missed : Bool
  deriving DecidableEq, Repr

/-- A flit whose CRC check has failed (R75, R383), and the transmissions made. -/
structure Flit where
  id : FlitId
  tries : Nat
  deriving DecidableEq, Repr

/-- Error of an HBM unit (R74, R76): correctable, uncorrectable, or the poison pattern, with ORIGIN. -/
inductive UnitErr where
  | correctable
  | uncorrectable
  | poison (origin : Nat)
  deriving DecidableEq, Repr

/-- Rate states of a channel (R68). -/
inductive Rate where
  | full | mid | low
  deriving DecidableEq, Repr

/-- An HBM channel (R64, R66 to R69), or the scheduler of a CXL port. `below` lists by level k the cycle since which the
temperature has stayed below THk - HYS; `acted` is the thermal state that the rate machine acted on last (R68); `bursts`,
`ones`, `trans` and `lastBeat` are the counters of the coding window and the last beat on the lines (R66). -/
structure Channel where
  cur : Nat
  quota : Nat
  temp : Nat
  thermal : Nat
  below : Sparse Nat
  rate : Rate
  lastSwitch : Nat
  switching : Bool
  acted : Nat
  bursts : Nat
  ones : Nat
  trans : Nat
  lastBeat : Nat
  deriving DecidableEq, Repr

/-- Refresh ownership of a stack (R70, R71), and how many units patrol scrub has read (R74). -/
structure BaseDie where
  beatSeen : Bool
  missed : Nat
  postponed : Nat
  issued : Nat
  corrected : Nat
  lastBoundary : Nat
  scrubbed : Nat := 0
  deriving DecidableEq, Repr

/-- A migration slot's engine state (R80 to R84): lines whose bit is set, routed requests, and whether
CMD = finish has been given. -/
structure Mig where
  bits : List Nat
  queue : List MemReq
  finished : Bool
  last : List Nat
  deriving DecidableEq, Repr

/-- A journal record of a context (R333, R336). -/
structure JRec where
  num : Nat
  bytes : List Byte
  truncated : Bool
  deriving DecidableEq, Repr

/-- The journal of a context (R333, R334). STATE and ACKED are held in JSTAT; `head` is the place in the local buffer that the
next record takes. -/
structure Journal where
  made : Nat
  head : Nat
  recs : List JRec
  sent : List Nat
  partner : Option (Nat × Nat)
  resendTo : Nat
  lastMsg : Nat
  deriving DecidableEq, Repr

/-- A node of a running replay (R159): its record as validated, and the parameter copy of this replay. -/
structure Node where
  image : List Byte
  params : List Word
  started : Bool
  retired : Bool
  deriving DecidableEq, Repr

/-- A replay in progress (R159). -/
structure Replay where
  obj : Nat
  nodes : List Node
  deriving DecidableEq, Repr

/-- A task-graph slot: kicks waiting, oldest first, and the replay that is running (R158). -/
structure TgSlot where
  kicks : List Word
  replay : Option Replay
  deriving DecidableEq, Repr

/-- A host bench port: request words 1..7, reply word and fields (R379). -/
structure HostPort where
  words : Sparse Word
  reply : Word
  fields : Sparse Word
  deriving DecidableEq, Repr

/-- A context (R31): its registers by number (R236, R377), journal, task-graph slots, host ports. -/
structure Context where
  regs : Sparse Word
  journal : Journal
  tg : Sparse TgSlot
  ports : Sparse HostPort
  attached : Bool
  recordsUsed : List Nat
  stagesUsed : List (Nat × Nat)
  deriving DecidableEq, Repr

/-- A record of a context of another device, whose partner this device is (R334, R337): source device and context, number,
bytes, mark, whether it has found room in the journal region, and whether its context has begun a new numbering since. -/
structure PartnerRec where
  src : Nat
  ctx : Nat
  num : Nat
  bytes : List Byte
  truncated : Bool
  stored : Bool
  past : Bool
  deriving DecidableEq, Repr

/-- The answer of the last host read of memory: bytes, or CXL poison (R378). -/
inductive HostRead where
  | none
  | data (bytes : List Byte)
  | poison
  deriving DecidableEq, Repr

/-- A host read of memory whose parts wait at their channels (R69, R378): its number, the parts still out, the bytes that have come
back by offset, and whether one came back as poison. -/
structure HostWait where
  id : Nat
  left : Nat
  got : Sparse Byte
  bad : Bool
  deriving DecidableEq, Repr

/-- Interrupts raised to the host (R381): function 0, vector, context. -/
structure Msix where
  vector : Nat
  ctx : Nat
  deriving DecidableEq, Repr

/-- What reaches the foreman cores: an event (R68, R70, R334), the reply to a bench request of theirs by its number (R330), or
the fields of a request for an attestation report (R385). -/
inductive ForemanEvent where
  | thermal (ch : Nat)
  | takeover (stack : Nat)
  | partnerLost (ctx : Nat)
  | cxlDown (port : Nat)
  | reply (id st : Nat) (fields : List Word)
  | asked (ctx : Nat) (fields : List Word)
  deriving DecidableEq, Repr

/-- The machine. -/
structure State where
  time : Nat
  pkg : Sparse Word
  main : Memory
  unitErrs : Sparse UnitErr
  parity : List Unit_
  ctxs : Sparse Context
  cores : Sparse Core
  dies : Sparse Die
  grids : Sparse Grid
  blocks : Sparse Block
  groups : Sparse Group
  sched : Sparse (Nat × Nat)
  copies : List CopyOp
  requests : List MemReq
  completions : List Completion
  flits : List Flit
  channels : Sparse Channel
  baseDies : Sparse BaseDie
  migs : Sparse Mig
  xlinv : Option (List Nat)
  partnerRecs : List PartnerRec
  partnerAcks : List (Nat × Nat × Nat)
  hostRead : HostRead
  hostWaits : List HostWait
  msix : List Msix
  foreman : List ForemanEvent
  windowWrites : Sparse Byte
  booted : Bool
  agenda : List Scheduled
  turn : Nat
  fresh : Nat
  nextId : Nat
  deriving DecidableEq, Repr

/-- The machine right after package reset: every register bank empty, so every register holds its reset
value (`Machine.ctxReset`, `Machine.pkgReset`); nothing launched; memory with nothing listed (log 1, 2). -/
def State.reset : State where
  time := 0
  pkg := []
  main := ⟨none, []⟩
  unitErrs := []
  parity := []
  ctxs := []
  cores := []
  dies := []
  grids := []
  blocks := []
  groups := []
  sched := []
  copies := []
  requests := []
  completions := []
  flits := []
  channels := []
  baseDies := []
  migs := []
  xlinv := none
  partnerRecs := []
  partnerAcks := []
  hostRead := .none
  hostWaits := []
  msix := []
  foreman := []
  windowWrites := []
  booted := false
  agenda := []
  turn := 0
  fresh := 0
  nextId := 0

end Sys2Proof.Machine
end

