-- ==== Sys2Proof/Machine/Base.lean ====
section
/-!
DEFINITION. The named operations under every meaning: bit fields, byte memories, register banks, and
reading and replacing the parts of the state. Every other file goes through these.
-/
namespace Sys2Proof.Machine

/-! ### Bit fields -/

/-- Bits `lo + n - 1 .. lo` of a word as a number (R4). -/
def bits (w : Word) (lo n : Nat) : Nat := w.toNat / 2 ^ lo % 2 ^ n

/-- `w` with bits `lo + n - 1 .. lo` replaced by `v`. -/
def setBits (w : Word) (lo n v : Nat) : Word :=
  BitVec.ofNat 64 (w.toNat - bits w lo n * 2 ^ lo + v % 2 ^ n * 2 ^ lo)

/-- The word of a number. -/
def w64 (n : Nat) : Word := BitVec.ofNat 64 n

/-- All ones, the refusal value of several instructions. -/
def allOnes : Word := BitVec.allOnes 64

/-- A truth value as 0 or 1. -/
def b2n (b : Bool) : Nat := if b then 1 else 0

/-- `n` saturated at `top`. -/
def satAt (top n : Nat) : Nat := if top < n then top else n

/-- The number of set bits among the low `n` bits of `w`. -/
def popcount : Nat → Nat → Nat
  | 0, _ => 0
  | n + 1, w => w % 2 + popcount n (w / 2)

/-- The index of the lowest set bit of `w` among `n` bits, or `n`. -/
def lowestBit (n w : Nat) : Nat :=
  ((List.range n).find? (fun i => w.testBit i)).getD n

/-- The index of the highest set bit of `w` among `n` bits, if any. -/
def highestBit (n w : Nat) : Option Nat :=
  (List.range n).reverse.find? (fun i => w.testBit i)

/-- The first `k` of a list's numbers as indices of the elements that satisfy `p`. -/
def indicesOf {α : Type} (p : α → Bool) (l : List α) : List Nat :=
  ((List.range l.length).zip l).filterMap (fun e => if p e.2 then some e.1 else none)

/-- `l` without its element number `k`. -/
def dropAt {α : Type} : Nat → List α → List α
  | _, [] => []
  | 0, _ :: t => t
  | k + 1, a :: t => a :: dropAt k t

/-- `l` with its element number `k` replaced. -/
def putAt {α : Type} : Nat → α → List α → List α
  | _, _, [] => []
  | 0, b, _ :: t => b :: t
  | k + 1, b, a :: t => a :: putAt k b t

/-- The element of a list with the least key, the first among equals. -/
def minBy {α : Type} (key : α → Nat) : List α → Option α
  | [] => none
  | a :: t =>
    match minBy key t with
    | none => some a
    | some b => if key b < key a then some b else some a

/-- `a` inserted into a list ordered by `le`, after its equals. -/
def insertBy {α : Type} (le : α → α → Bool) (a : α) : List α → List α
  | [] => [a]
  | b :: t => if le b a then b :: insertBy le a t else a :: b :: t

/-- A list in the order of `le`; equals keep their order. -/
def sortBy {α : Type} (le : α → α → Bool) (l : List α) : List α :=
  l.foldl (fun acc a => insertBy le a acc) []

/-! ### Byte memories (R4) -/

/-- What the byte at `a` reads as. -/
def Memory.read (m : Memory) (a : Nat) : Byte :=
  match Sparse.get? m.cells a with
  | some b => b
  | none =>
    match m.seed with
    | none => 0
    | some n => Config.freeByte n a

/-- `m` with byte `b` at `a`; the value an unlisted byte reads as is not listed. -/
def Memory.write (m : Memory) (a : Nat) (b : Byte) : Memory :=
  if m.seed = none ∧ b = 0 then { m with cells := Sparse.erase m.cells a }
  else { m with cells := Sparse.set m.cells a b }

/-- The canonical form: addresses rise strictly, and no entry equals what an unlisted address reads as. -/
def Memory.wf (m : Memory) : Bool :=
  Sparse.sorted m.cells && (m.seed.isSome || m.cells.all (fun c => decide (c.2 ≠ 0)))

/-- The bytes at `a .. a + n - 1`. -/
def Memory.readBytes (m : Memory) (a : Nat) : Nat → List Byte
  | 0 => []
  | n + 1 => m.read a :: m.readBytes (a + 1) n

/-- `m` with the bytes `l` from `a` on. -/
def Memory.writeBytes (m : Memory) (a : Nat) : List Byte → Memory
  | [] => m
  | b :: t => (m.write a b).writeBytes (a + 1) t

/-- The little-endian number of a list of bytes (R4). -/
def leNat : List Byte → Nat
  | [] => 0
  | b :: t => b.toNat + 256 * leNat t

/-- The `n` little-endian bytes of a number (R4). -/
def leBytes : Nat → Nat → List Byte
  | 0, _ => []
  | n + 1, v => BitVec.ofNat 8 v :: leBytes n (v / 256)

/-- The little-endian number at `a .. a + n - 1`. -/
def Memory.readN (m : Memory) (a n : Nat) : Nat := leNat (m.readBytes a n)

/-- `m` with the `n` little-endian bytes of `v` from `a` on. -/
def Memory.writeN (m : Memory) (a n v : Nat) : Memory := m.writeBytes a (leBytes n v)

/-! ### Free values (R6) -/

/-- The occasion of the undefined values an instruction reads. -/
def State.occ (s : State) : Nat := 4 * s.fresh

/-- A new occasion for storage whose start contents are undefined, and the state that has used it. -/
def State.newSeed (s : State) : Nat × State := (4 * s.fresh + 1, { s with fresh := s.fresh + 1 })

/-- The occasion of the undefined result of an outstanding operation. -/
def pendOcc (id : Nat) : Nat := 4 * id + 2

/-- A new number for a request, copy, block or grid. -/
def State.newId (s : State) : Nat × State := (s.nextId, { s with nextId := s.nextId + 1 })

/-! ### Register banks -/

/-- Reset values of the registers of a context, by the numbers of R236 and R377 (R62, R333). -/
def ctxReset (n : Nat) : Word :=
  match n with
  | 0x122 => 0x0000FFF400080010    -- MQOS
  | 0x167 => 100000                 -- JCFG.JTO
  | _ => 0

/-- Reset values of the package registers, by the numbers of R377 (R64, R66, R67, R78, R378). -/
def pkgReset (n : Nat) : Word :=
  if n = 0x000 then 0x00000FFF01020408            -- MWRR
  else if n = 0x001 then 0x00000000_04645C55      -- MTHERM: HYS 4, TH3 100, TH2 92, TH1 85
  else if n = 0x006 then 0x00000300_00000000      -- HMLIM: SIZE 768
  else if 0x010 ≤ n ∧ n ≤ 0x01B then 0x0101       -- DBICFG: WAC 1, WDC 1
  else if n = 0x030 ∨ n = 0x031 then 50000        -- CXLTO
  else 0

/-- A context with every register at its reset value. -/
def Context.init : Context where
  regs := []
  journal := ⟨0, 0, [], [], none, 0, 0⟩
  tg := []
  ports := []
  attached := false
  recordsUsed := []
  stagesUsed := []

/-- A host bench port after reset: DONE is 1 (R379). -/
def HostPort.init : HostPort := ⟨[], w64 (2 ^ 63), []⟩

/-- An operand slot that nobody owns (R53); its contents are undefined once claimed. -/
def Slot.init : Slot := ⟨.free, 0, 0, false, ⟨none, []⟩, []⟩

/-- A tile that no block holds (R54). -/
def Tile.init : Tile := ⟨none, 0, [], [], 0, false⟩

/-- An idle core with empty storage. -/
def Core.init : Core where
  const := ⟨none, []⟩
  slots := []
  tiles := []
  wbuf := []
  monitors := []
  watch := []
  replies := []
  matQ := []
  attnQ := []
  attnRun := none
  array := ⟨none, none, false, false, 0, false, false⟩
  lease := none
  leaseReqs := []
  bond := none
  bondReqs := []
  frames := ⟨none, [], none, false, [], 0⟩
  spawnQ := []
  bins := []
  formed := []
  tlb := []

/-- An idle slice. -/
def Slice.init : Slice := ⟨[], [], [], [], [], 0, [], 0⟩

/-- The requests of a slice in the order it serves them (R49). -/
def Slice.all (x : Slice) : List SvcReq := x.queue ++ x.net

/-- The slice after a request arrives: its queue takes 256 entries, and the die network holds back the rest (R49). -/
def Slice.send (x : Slice) (q : SvcReq) : Slice :=
  if x.queue.length < 256 && x.net.isEmpty then { x with queue := x.queue ++ [q] } else { x with net := x.net ++ [q] }

/-- The slice after the head of its queue has been served: a request held back takes the room (R49). -/
def Slice.pop (x : Slice) : Slice := { x with queue := x.queue.tail ++ x.net.take 1, net := x.net.drop 1 }

/-- The slice without the requests that do not satisfy `p`. -/
def Slice.keepReqs (x : Slice) (p : SvcReq → Bool) : Slice :=
  let l := x.all.filter p
  { x with queue := l.take 256, net := l.drop 256 }

/-- An idle die. -/
def Die.init : Die := ⟨⟨none, []⟩, [], ⟨0, 0, []⟩⟩

/-- A channel after reset: class 0 with the quota W0 resets to, full rate, thermal state 0 (R64, R67, R68). -/
def Channel.init : Channel := ⟨0, 8, 0, 0, [], .full, 0, false, 0, 0, 0, 0, 0⟩

/-- A base die after reset. -/
def BaseDie.init : BaseDie := ⟨false, 0, 0, 0, 0, 0, 0⟩

/-- A migration slot after reset. -/
def Mig.init : Mig := ⟨[], [], false, []⟩

/-- A task-graph slot after reset. -/
def TgSlot.init : TgSlot := ⟨[], none⟩

/-- Context `c`. -/
def State.ctx (s : State) (c : Nat) : Context := s.ctxs.getD c Context.init
/-- `s` with context `c` replaced. -/
def State.setCtx (s : State) (c : Nat) (x : Context) : State := { s with ctxs := s.ctxs.set c x }
/-- Register number `n` of context `c` (R236, R377). -/
def State.ctxReg (s : State) (c n : Nat) : Word := (s.ctx c).regs.getD n (ctxReset n)
/-- `s` with register `n` of context `c` replaced. -/
def State.setCtxReg (s : State) (c n : Nat) (v : Word) : State :=
  s.setCtx c { s.ctx c with regs := (s.ctx c).regs.set n v }
/-- Package register number `n` (R377). -/
def State.pkgReg (s : State) (n : Nat) : Word := s.pkg.getD n (pkgReset n)
/-- `s` with package register `n` replaced. -/
def State.setPkgReg (s : State) (n : Nat) (v : Word) : State := { s with pkg := s.pkg.set n v }

/-- Core `k` of the package (R142). -/
def State.core (s : State) (k : Nat) : Core := s.cores.getD k Core.init
/-- `s` with core `k` replaced. -/
def State.setCore (s : State) (k : Nat) (c : Core) : State := { s with cores := s.cores.set k c }
/-- `s` with core `k` changed by `f`. -/
def State.modCore (s : State) (k : Nat) (f : Core → Core) : State := s.setCore k (f (s.core k))
/-- Die `d`. -/
def State.die (s : State) (d : Nat) : Die := s.dies.getD d Die.init
/-- `s` with die `d` replaced. -/
def State.setDie (s : State) (d : Nat) (x : Die) : State := { s with dies := s.dies.set d x }
/-- `s` with die `d` changed by `f`. -/
def State.modDie (s : State) (d : Nat) (f : Die → Die) : State := s.setDie d (f (s.die d))
/-- Slice `k` of die `d` (R15). -/
def State.slice (s : State) (d k : Nat) : Slice := (s.die d).slices.getD k Slice.init
/-- `s` with slice `k` of die `d` replaced. -/
def State.setSlice (s : State) (d k : Nat) (x : Slice) : State :=
  s.modDie d (fun y => { y with slices := y.slices.set k x })
/-- `s` with slice `k` of die `d` changed by `f`. -/
def State.modSlice (s : State) (d k : Nat) (f : Slice → Slice) : State := s.setSlice d k (f (s.slice d k))
/-- Channel `n`. -/
def State.channel (s : State) (n : Nat) : Channel := s.channels.getD n Channel.init
/-- `s` with channel `n` replaced. -/
def State.setChannel (s : State) (n : Nat) (c : Channel) : State := { s with channels := s.channels.set n c }
/-- Base die of stack `n`. -/
def State.baseDie (s : State) (n : Nat) : BaseDie := s.baseDies.getD n BaseDie.init
/-- `s` with base die `n` replaced. -/
def State.setBaseDie (s : State) (n : Nat) (b : BaseDie) : State := { s with baseDies := s.baseDies.set n b }
/-- Migration slot `n`. -/
def State.mig (s : State) (n : Nat) : Mig := s.migs.getD n Mig.init
/-- `s` with migration slot `n` replaced. -/
def State.setMig (s : State) (n : Nat) (m : Mig) : State := { s with migs := s.migs.set n m }
/-- Operand slot `k` of core `c` (R53). -/
def State.slotOf (s : State) (c k : Nat) : Slot := (s.core c).slots.getD k Slot.init
/-- `s` with operand slot `k` of core `c` replaced. -/
def State.setSlot (s : State) (c k : Nat) (x : Slot) : State :=
  s.modCore c (fun y => { y with slots := y.slots.set k x })
/-- Physical tile `k` of core `c` (R54). -/
def State.tileOf (s : State) (c k : Nat) : Tile := (s.core c).tiles.getD k Tile.init
/-- `s` with physical tile `k` of core `c` replaced. -/
def State.setTile (s : State) (c k : Nat) (x : Tile) : State :=
  s.modCore c (fun y => { y with tiles := y.tiles.set k x })
/-- Task-graph slot `k` of context `c`. -/
def State.tgSlot (s : State) (c k : Nat) : TgSlot := (s.ctx c).tg.getD k TgSlot.init
/-- `s` with task-graph slot `k` of context `c` replaced. -/
def State.setTgSlot (s : State) (c k : Nat) (x : TgSlot) : State :=
  s.setCtx c { s.ctx c with tg := (s.ctx c).tg.set k x }
/-- `s` with the journal of context `c` replaced. -/
def State.setJournal (s : State) (c : Nat) (j : Journal) : State :=
  s.setCtx c { s.ctx c with journal := j }

/-! ### Blocks, groups and splits -/

/-- `s` with group `gid` replaced. -/
def State.setGroup (s : State) (gid : Nat) (g : Group) : State := { s with groups := s.groups.set gid g }
/-- `s` with group `gid` changed by `f`, if it lives. -/
def State.modGroup (s : State) (gid : Nat) (f : Group → Group) : State :=
  match s.groups.get? gid with
  | none => s
  | some g => s.setGroup gid (f g)
/-- `s` with split `sid` of group `gid` changed by `f`, if it lives. -/
def State.modSplit (s : State) (gid sid : Nat) (f : Split → Split) : State :=
  s.modGroup gid (fun g =>
    match g.splits.get? sid with
    | none => g
    | some sp => { g with splits := g.splits.set sid (f sp) })
/-- Split `sid` of group `gid`, if it lives. -/
def State.split? (s : State) (gid sid : Nat) : Option (Group × Split) :=
  match s.groups.get? gid with
  | none => none
  | some g => (g.splits.get? sid).map (fun sp => (g, sp))
/-- `s` with block `bid` replaced. -/
def State.setBlock (s : State) (bid : Nat) (b : Block) : State := { s with blocks := s.blocks.set bid b }
/-- `s` with block `bid` changed by `f`, if it is there. -/
def State.modBlock (s : State) (bid : Nat) (f : Block → Block) : State :=
  match s.blocks.get? bid with
  | none => s
  | some b => s.setBlock bid (f b)
/-- `s` with grid `uid` changed by `f`, if it is live. -/
def State.modGrid (s : State) (uid : Nat) (f : Grid → Grid) : State :=
  match s.grids.get? uid with
  | none => s
  | some g => { s with grids := s.grids.set uid (f g) }

/-- A split as it issues an instruction: its group's number, its id, the group and the split. -/
structure Issue where
  gid : Nat
  sid : Nat
  g : Group
  sp : Split
  deriving DecidableEq, Repr

/-- The split that issues on the scheduler whose turn it is (R165). -/
def State.issuer (s : State) : Option Issue :=
  match s.sched.get? s.turn with
  | none => none
  | some (gid, sid) => (s.split? gid sid).map (fun e => ⟨gid, sid, e.1, e.2⟩)

/-- `s` with the issuing group replaced by `g` and its split by `sp`. -/
def Issue.put (i : Issue) (s : State) (g : Group) (sp : Split) : State :=
  s.setGroup i.gid { g with splits := g.splits.set i.sid sp }

/-- The meaning `f` of a program instruction, run for the split that issues. -/
def onIssue (s : State) (f : State → Issue → State) : Host.Outcome State Fault Refusal :=
  match s.issuer with
  | none => .fault .noIssuingSplit
  | some i => .next (f s i)

/-- The split after an instruction that does not transfer control (R179): the next word, or the next
clause header after the last word of a clause. -/
def Split.advance (sp : Split) : Split :=
  { sp with pc := sp.pc + 8, code := sp.code.tail, wait := .none, awake := false, roomSince := none }

/-- The split sent to `pc`, where a clause header is expected (R222). -/
def Split.jump (sp : Split) (pc : Word) : Split :=
  { sp with pc := pc, code := [], mid := false, wait := .none, awake := false, roomSince := none }

/-- Scalar `k` of a split; undefined until written (R213). -/
def Split.get (sp : Split) (k : Nat) : Word := sp.s.getD k (Config.freeWord sp.seed k)
/-- The split with scalar `k` written. -/
def Split.put (sp : Split) (k : Nat) (v : Word) : Split := { sp with s := sp.s.set k v }
/-- Scalar `k` read as signed. -/
def Split.getInt (sp : Split) (k : Nat) : Int := (sp.get k).toInt
/-- The split with the scalars `k, k + 1, ...` written. -/
def Split.putAll (sp : Split) (k : Nat) : List Word → Split
  | [] => sp
  | v :: t => (sp.put k v).putAll (k + 1) t

/-- Condition-code set `k` (R213): every flag 0 until written. -/
def Split.ccGet (sp : Split) (k : Nat) : CC := sp.cc.getD k ⟨false, false, false, false⟩

/-- Lane `l` is in the mask. -/
def lane (m : Mask) (l : Nat) : Bool := m.getLsbD l
/-- The lane numbers of a mask, ascending. -/
def lanesOf (m : Mask) : List Nat := (List.range 32).filter (lane m)
/-- The mask of the lanes that satisfy `p`. -/
def maskOf (p : Nat → Bool) : Mask :=
  BitVec.ofNat 32 ((List.range 32).foldl (fun a l => a + (if p l then 2 ^ l else 0)) 0)
/-- The mask of a list of lanes. -/
def maskList (ls : List Nat) : Mask := maskOf (fun l => ls.contains l)
/-- All 32 lanes. -/
def allLanes : Mask := BitVec.allOnes 32

/-- The key of lane `l` of register or predicate `r`. -/
def vkey (r l : Nat) : Nat := r * 32 + l
/-- Lane `l` of register `r` as it stands; `z` reads zero (R181); undefined until written (R35). -/
def Group.v? (g : Group) (r l : Nat) : Word :=
  if r = zReg then 0 else g.v.getD (vkey r l) (Config.freeWord g.seed (vkey r l))
/-- Predicate `p` in lane `l`; `p0` reads true (R35). -/
def Group.pget (g : Group) (p l : Nat) : Bool :=
  if p = 0 then true else g.p.getD (vkey p l) (Config.freeBit g.seed (vkey p l))
/-- Writes predicate `p` in the given lanes; `p0` discards its write (R182). -/
def Group.pputs (g : Group) (p : Nat) (f : Nat → Bool) : List Nat → Group
  | [] => g
  | l :: t => if p = 0 then g else ({ g with p := g.p.set (vkey p l) (f l) } : Group).pputs p f t

/-- The die of a core (R142). -/
def dieOf (core : Nat) : Nat := core / 24
/-- The issuing split's die. -/
def Issue.die (i : Issue) : Nat := dieOf i.g.core
/-- Block of the issuing group, if it is there. -/
def State.blockOf (s : State) (g : Group) : Option Block := s.blocks.get? g.bid
/-- The live split ids of a group, ascending. -/
def Group.liveIds (g : Group) : List Nat := g.splits.map (fun e => e.1)
/-- The union of the lane masks of a group's splits. -/
def Group.liveLanes (g : Group) : Mask := g.splits.foldl (fun m e => m ||| e.2.mask) 0

/-- The groups of a block, with their numbers. -/
def State.groupsOf (s : State) (bid : Nat) : List (Nat × Group) := s.groups.filter (fun e => e.2.bid == bid)
/-- The splits that satisfy `p` become awake, ready from now on (R164). -/
def State.wake (s : State) (p : Nat → Group → Nat → Split → Bool) : State :=
  { s with groups := s.groups.map (fun e =>
      (e.1, { e.2 with splits := e.2.splits.map (fun f =>
        (f.1, if p e.1 e.2 f.1 f.2 && !f.2.awake then { f.2 with awake := true, readyTime := s.time } else f.2)) })) }

/-- DLCLK, the 16-bit deadline clock (R63). -/
def State.dlclk (s : State) : Nat := s.time / Config.dlclkCycles % 65536
/-- The signed slack of a stamp (R63). -/
def State.slack (s : State) (d : Nat) : Int :=
  let x := (d + 65536 - s.dlclk) % 65536
  if 32768 ≤ x then (x : Int) - 65536 else x
/-- The deadline budget of class `c` in context `ctx` (R62). -/
def State.budget (s : State) (ctx c : Nat) : Nat := bits (s.ctxReg ctx 0x122) (12 * c) 12
/-- The default service class of a context (R62). -/
def State.defaultClass (s : State) (ctx : Nat) : Nat := bits (s.ctxReg ctx 0x122) 48 2
/-- The stamp of a request sent now (R62). -/
def State.stamp (s : State) (ctx c : Nat) : Nat := (s.dlclk + s.budget ctx c) % 65536

/-! ### Elements (R196) -/

/-- Element `j` of width `w` of a lane. -/
def getE (w j : Nat) (x : Word) : Nat := x.toNat / 2 ^ (w * j) % 2 ^ w
/-- The lane whose elements of width `w` are `f 0, f 1, ...`. -/
def packE (w : Nat) (f : Nat → Nat) : Word :=
  w64 ((List.range (64 / w)).foldl (fun a j => a + f j % 2 ^ w * 2 ^ (w * j)) 0)
/-- An element read as signed. -/
def sE (w n : Nat) : Int := Decode.sext w n
/-- An integer as an element. -/
def toE (w : Nat) (x : Int) : Nat := (x % (2 : Int) ^ w).toNat

end Sys2Proof.Machine
end

