-- ==== Sys2Proof/Machine/Flags.lean ====
section
/-!
DEFINITION. Flags and conditions: the condition-code sets (R215), the branch conditions (R188) and the sticky
status `%gst` (R201).
-/
namespace Sys2Proof.Machine

/-- The four flags of a comparison of two 64-bit patterns (R215). -/
def compare (a b : Word) : CC :=
  let r := a - b
  { z := r == 0
    n := r.msb
    c := decide (b.toNat ≤ a.toNat)
    v := (a.msb != b.msb) && (r.msb != a.msb) }

/-- A condition on a condition-code set, COND 1 to 12 (R188). -/
def CC.holds (f : CC) (cond : Nat) : Bool :=
  match cond with
  | 1 => f.z
  | 2 => !f.z
  | 3 => f.n != f.v
  | 4 => f.n == f.v
  | 5 => !f.z && (f.n == f.v)
  | 6 => f.z || (f.n != f.v)
  | 7 => !f.c
  | 8 => f.c
  | 9 => f.c && !f.z
  | 10 => !f.c || f.z
  | 11 => f.v
  | 12 => !f.v
  | _ => true

/-- The branch condition of a BR form for a split (R188, R222). -/
def Issue.taken (i : Issue) (o : BR) : Bool :=
  if o.cond = 13 then !(lanesOf i.sp.mask).any (i.g.pget o.p)
  else if o.cond = 14 then (lanesOf i.sp.mask).any (i.g.pget o.p)
  else (i.sp.ccGet o.cc).holds o.cond

/-- The sticky status of one result (R201). -/
structure Flags where
  sf : Bool := false
  nv : Bool := false
  dz : Bool := false
  of : Bool := false
  uf : Bool := false
  nx : Bool := false
  deriving DecidableEq, Repr

/-- Bits 5..0 of `%gst` (R201). -/
def Flags.bits (f : Flags) : BitVec 6 :=
  BitVec.ofNat 6 (b2n f.sf * 32 + b2n f.nv * 16 + b2n f.dz * 8 + b2n f.of * 4 + b2n f.uf * 2 + b2n f.nx)

/-- Flags of two results together. -/
def Flags.or (a b : Flags) : Flags :=
  ⟨a.sf || b.sf, a.nv || b.nv, a.dz || b.dz, a.of || b.of, a.uf || b.uf, a.nx || b.nx⟩

/-- No flag. -/
def noFlags : Flags := {}

/-- `s` with flags of group `gid` set by OR (R201). -/
def State.orGst (s : State) (gid : Nat) (f : BitVec 6) : State :=
  if f = 0 then s else s.modGroup gid (fun g => { g with gst := g.gst ||| f })

end Sys2Proof.Machine
end

