-- ==== Sys2Proof/Machine/Translate.lean ====
section
/-!
DEFINITION. Main memory and translation: the physical map (R19), the walk (R20 to R23), kept translations
(R24), the needs of each access (R25), and the TRAPX layouts of causes 0x05, 0x06 and 0x07 (R27, R76).
-/
namespace Sys2Proof.Machine

/-- The first physical address beyond HBM (R19). -/
def hbmEnd : Nat := 0xC000000000

/-- The first physical address of CXL port `p` (R19). -/
def portBase (p : Nat) : Nat := if p = 0 then 0x40000000000 else 0x80000000000

/-- Populated bytes behind CXL port `p`: CXPSTAT.CAP in GiB (R19, R382). -/
def State.portBytes (s : State) (p : Nat) : Nat := bits (s.pkgReg (0x032 + p)) 32 16 * 2 ^ 30

/-- Bytes of the range of a CXL port (R19). -/
def portRange : Nat := 0x40000000000

/-- `size` bytes at `pa` lie in HBM. -/
def inHbm (pa size : Nat) : Bool := decide (pa + size ≤ hbmEnd)

/-- The CXL port whose range holds `pa`, if any (R19). -/
def portOf (pa : Nat) : Option Nat :=
  if 0x40000000000 ≤ pa ∧ pa < 0x80000000000 then some 0
  else if 0x80000000000 ≤ pa ∧ pa < 0xC0000000000 then some 1
  else none

/-- `size` bytes at `pa` lie in populated memory (R19, R80). -/
def State.populated (s : State) (pa size : Nat) : Bool :=
  inHbm pa size ||
  (List.range 2).any (fun p =>
    decide (portBase p ≤ pa) && decide (pa + size ≤ portBase p + min portRange (s.portBytes p)))

/-- The port's link is up and enabled (R79, R382). -/
def State.portUp (s : State) (p : Nat) : Bool := (s.pkgReg (0x032 + p)).getLsbD 62

/-- A physical address behind a port that is down (R79). -/
def State.paDown (s : State) (pa : Nat) : Bool :=
  match portOf pa with
  | some p => !s.portUp p
  | none => false

/-- Stack, channel and channel address of an HBM byte (R59). -/
def hbmPlace (pa : Nat) : Nat × Nat × Nat :=
  let g := pa / 256
  let lg := g / 12
  (g % 12, lg % 32, lg / 32 * 256 + pa % 256)

/-- The scheduler that serves a physical address (R60): channels 0..383, then the two ports. -/
def schedOf (pa : Nat) : Nat :=
  match portOf pa with
  | some p => 384 + p
  | none => (hbmPlace pa).1 * 32 + (hbmPlace pa).2.1

/-- What an access needs of its leaf (R25). -/
inductive Need where
  | hbm | q | w | x | a
  deriving DecidableEq, Repr

/-- The agents of R27; attention reports through cause 0x13 (R26). -/
inductive Agent where
  | fetch | atomic | copy | attention
  deriving DecidableEq, Repr

/-- The AGENT code of R27. -/
def Agent.code : Agent → Nat
  | .fetch => 0
  | .atomic => 1
  | .copy => 2
  | .attention => 3

/-- TRAPX of causes 0x05 and 0x06 (R27). -/
def tfault (cause : Nat) (a : Agent) (level sub va : Nat) : XErr :=
  ⟨cause, w64 (a.code * 2 ^ 62 + level * 2 ^ 59 + sub * 2 ^ 52 + va % 2 ^ 52)⟩

/-- TRAPX of cause 0x07 from main memory (R76). -/
def poisonX (origin pa : Nat) : Word :=
  let source := match portOf pa with
    | some p => 12 + p
    | none => (hbmPlace pa).1
  w64 (15 * 2 ^ 60 + origin * 2 ^ 58 + source * 2 ^ 52 + pa / 32 * 32)

/-- The ORIGIN of the error met in the 32-byte units that hold `n` bytes at `pa`, with the unit's address:
the lowest-addressed unit that is poisoned or uncorrectable (R74, R76). -/
def State.unitError (s : State) (pa n : Nat) : Option (Nat × Nat) :=
  (s.unitErrs.filter (fun e => decide (pa / 32 ≤ e.1) && decide (e.1 * 32 < pa + n))).findSome? (fun e =>
    match e.2 with
    | .correctable => none
    | .uncorrectable => some (0, e.1 * 32)
    | .poison o => some (o, e.1 * 32))

/-- Bytes a page maps at a level (R21). -/
def pageBytes (level : Nat) : Nat :=
  match level with
  | 2 => 2 ^ 30
  | 1 => 2 ^ 21
  | _ => 2 ^ 16

/-- Size and alignment of a table (R21). -/
def tableBytes (level : Nat) : Nat :=
  match level with
  | 3 => 65536
  | 2 => 4096
  | 1 => 4096
  | _ => 256

/-- The index of a virtual address at a level (R21). -/
def vaIndex (va level : Nat) : Nat :=
  match level with
  | 3 => va / 2 ^ 39 % 8192
  | 2 => va / 2 ^ 30 % 512
  | 1 => va / 2 ^ 21 % 512
  | _ => va / 2 ^ 16 % 32

/-- The first need a leaf at `pa` with flags `f` does not meet, as its SUB code (R23, R25). -/
def unmet (pa f : Nat) : List Need → Option Nat
  | [] => none
  | .hbm :: t => if inHbm pa 1 then unmet pa f t else some 6
  | .q :: t => if f.testBit 2 then unmet pa f t else some 3
  | .w :: t => if f.testBit 3 then unmet pa f t else some 4
  | .x :: t => if f.testBit 4 then unmet pa f t else some 5
  | .a :: t => if f.testBit 5 then unmet pa f t else some 6

/-- The walk of R23 from a table at the levels given. -/
def State.walk (s : State) (a : Agent) (need : List Need) (va : Nat) : List Nat → Nat → Except XErr Xl
  | [], _ => .error (tfault 5 a 0 1 va)
  | level :: rest, table =>
    let ea := table + 8 * vaIndex va level
    match s.unitError ea 8 with
    | some (o, u) => .error ⟨7, poisonX o u⟩
    | none =>
      let pte := s.main.readN ea 8
      if pte % 2 = 0 then .error (tfault 5 a level 0 va)
      else if pte / 2 ^ 44 ≠ 0 then .error (tfault 5 a level 1 va)
      else
        let addr := pte / 256 * 256
        if pte / 2 % 2 = 0 then
          if level = 0 ∨ pte % 256 / 4 ≠ 0 then .error (tfault 5 a level 1 va)
          else if addr % tableBytes (level - 1) ≠ 0 then .error (tfault 5 a level 1 va)
          else if hbmEnd ≤ addr then .error (tfault 5 a level 2 va)
          else s.walk a need va rest addr
        else
          let size := pageBytes level
          if level = 3 ∨ addr % size ≠ 0 then .error (tfault 5 a level 1 va)
          else if !s.populated addr size then .error (tfault 5 a level 2 va)
          else if a = .fetch ∧ inHbm addr 1 = false then .error (tfault 5 a level 2 va)
          else
            match unmet addr (pte % 256) need with
            | some sub => .error (tfault 6 a level sub va)
            | none => .ok ⟨addr + va % size, pte % 256, level⟩

/-- A translation from the root of context `ctx`, nothing kept (R20, R23). -/
def State.fresh? (s : State) (ctx : Nat) (a : Agent) (need : List Need) (va : Nat) : Except XErr Xl :=
  if va / 2 ^ 52 ≠ 0 then .error ⟨4, w64 va⟩
  else if bits (s.ctxReg ctx 0x160) 0 1 = 0 then .error (tfault 5 a 3 0 va)
  else s.walk a need va [3, 2, 1, 0] (bits (s.ctxReg ctx 0x160) 16 28 * 2 ^ 16)

/-- The entries that a walk reads, from a table at the levels given, in order (R23). -/
def State.walkPas (s : State) (va : Nat) : List Nat → Nat → List Nat
  | [], _ => []
  | level :: rest, table =>
    let ea := table + 8 * vaIndex va level
    let pte := s.main.readN ea 8
    if (s.unitError ea 8).isNone ∧ pte % 256 = 1 ∧ pte / 2 ^ 44 = 0 ∧ level ≠ 0 ∧ pte / 256 * 256 < hbmEnd then
      ea :: s.walkPas va rest (pte / 256 * 256)
    else [ea]

/-- The entries that a translation from the root of context `ctx` reads (R20, R23). -/
def State.rootPas (s : State) (ctx va : Nat) : List Nat :=
  if va / 2 ^ 52 ≠ 0 ∨ bits (s.ctxReg ctx 0x160) 0 1 = 0 then []
  else s.walkPas va [3, 2, 1, 0] (bits (s.ctxReg ctx 0x160) 16 28 * 2 ^ 16)

/-- The translation core `c` keeps for a page, if any (R24). -/
def State.kept? (s : State) (c ctx va : Nat) : Option Kept :=
  (s.core c).tlb.find? (fun k => k.ctx == ctx && k.vpn == va / 2 ^ 16)

/-- An access under a kept translation: its flags as walked (R24); a fetch needs its page in HBM (R25). -/
def Kept.use (k : Kept) (a : Agent) (need : List Need) (va : Nat) : Except XErr Xl :=
  if a = .fetch ∧ inHbm k.frame 1 = false then .error (tfault 5 a k.level 2 va)
  else
  match unmet k.frame k.flags need with
  | some sub => .error (tfault 6 a k.level sub va)
  | none => .ok ⟨k.frame + va % 2 ^ 16, k.flags, k.level⟩

/-- Whether a kept translation serves where it differs from the walk: one choice for a page (R24, R29; assumption log 7). -/
def State.keptServes (s : State) (va : Nat) : Bool := Config.freeChoice s.occ (2 ^ 40 + va / 2 ^ 16)

/-- A translation by the unit of core `c`: the walk, or a kept translation where one is held; where the
two differ, which of them serves is open (R24, R29; assumption log 7). -/
def State.translate (s : State) (c ctx : Nat) (a : Agent) (need : List Need) (va : Nat) : Except XErr Xl :=
  if va / 2 ^ 52 ≠ 0 then .error ⟨4, w64 va⟩
  else
    match s.kept? c ctx va with
    | none => s.fresh? ctx a need va
    | some k =>
      match k.use a need va, s.fresh? ctx a need va with
      | .ok x, .ok y => if x = y ∨ s.keptServes va then .ok x else .ok y
      | .ok x, .error e => if s.keptServes va then .ok x else .error e
      | .error e, .ok y => if s.keptServes va then .error e else .ok y
      | .error e, .error e' => if e = e' ∨ s.keptServes va then .error e else .error e'

/-- The parts of `n` bytes at `pa`: address and length, split at every `g` bytes. -/
def partsOf (g pa n : Nat) : List (Nat × Nat) :=
  if n = 0 then []
  else
    (List.range ((pa + n - 1) / g - pa / g + 1)).map (fun i =>
      let lo := max pa ((pa / g + i) * g)
      let hi := min (pa + n) ((pa / g + i + 1) * g)
      (lo, hi - lo))

/-- The 64 KiB pages that `n` bytes at `va` touch, each as its first touched address and the bytes in it (R24). -/
def pagesOf (va n : Nat) : List (Nat × Nat) := partsOf 65536 va n

/-- The line pieces of `n` bytes at `pa`, split at every 256 bytes (R60, R80). -/
def linesOf (pa n : Nat) : List (Nat × Nat) := partsOf 256 pa n

/-! ### Schedulers and the counters of interface coding (R64, R66) -/

/-- Weight of a class (R64). -/
def State.weight (s : State) (c : Nat) : Nat := bits (s.pkgReg 0) (8 * c) 8

/-- The search for a class with quota and an eligible request, `n` tries from class and quota (R64). -/
def pickClass (w : Nat → Nat) (has : Nat → Bool) : Nat → Nat × Nat → Nat × Nat
  | 0, cq => cq
  | n + 1, (cur, quota) =>
    if 0 < quota ∧ has cur then (cur, quota) else pickClass w has n ((cur + 1) % 4, w ((cur + 1) % 4))

/-- The class a scheduler picks from, and its quota before the pick (R64). -/
def Channel.choose (ch : Channel) (w : Nat → Nat) (has : Nat → Bool) : Nat × Nat :=
  let (cur, quota) := pickClass w has 5 (ch.cur, ch.quota)
  if has cur then (cur, quota) else (((List.range 4).find? has).getD 0, 1)

/-- A refresh command that can no longer be postponed comes before the request that a scheduler of the stack serves (R64, R70). -/
def State.refreshFirst (s : State) (stack : Nat) : State :=
  let b := s.baseDie stack
  if 0 < b.postponed && (b.beatSeen || (s.pkgReg (0x020 + stack)).getLsbD 63) && decide (Config.refreshAllowance ≤ b.postponed) then
    s.setBaseDie stack { b with issued := b.issued + b.postponed, postponed := 0 }
  else s

/-- The eight beats of a burst of 64 bytes on the 64 lines of a channel (R59, R66). -/
def beatsOf (bs : List Byte) : List Nat := (List.range 8).map (fun i => leNat ((bs.drop (8 * i)).take 8))

/-- A channel after a burst has passed its lines (R66). -/
def Channel.burst (c : Channel) (beats : List Nat) : Channel :=
  beats.foldl (fun c b => { c with
    ones := c.ones + popcount 64 b, trans := c.trans + popcount 64 (Nat.xor b c.lastBeat), lastBeat := b })
    { c with bursts := c.bursts + 1 }

/-- The counters of a window start again (R66). -/
def Channel.restart (c : Channel) : Channel := { c with bursts := 0, ones := 0, trans := 0 }

/-- The end of a window of channel `ch` (R66): its counts are reported, the mode of the next one is chosen, and the counters
restart. -/
def State.windowEnd (s : State) (ch : Nat) : State :=
  let cfg := s.pkgReg (0x010 + ch / 32)
  let c := s.channel ch
  let t := c.trans * bits cfg 8 8
  let o := c.ones * bits cfg 0 8
  let mode := if o < t then 1 else if t < o then 0 else bits (s.pkgReg (0x400 + ch)) 63 1
  (s.setPkgReg (0x400 + ch) (w64 (mode * 2 ^ 63 + c.trans % 2 ^ 22 * 2 ^ 32 + c.ones % 2 ^ 22))).setChannel ch c.restart

/-- The window of channel `ch` ends where its last burst has passed (R66). -/
def State.closeWindow (s : State) (ch : Nat) : State := if 4096 ≤ (s.channel ch).bursts then s.windowEnd ch else s

/-- `s` after the 64-byte blocks that hold `n` bytes of HBM at `pa` pass their channel, one burst each (R59, R66). -/
def State.bursts (s : State) (pa n : Nat) : State :=
  if !inHbm pa n then s
  else
    (partsOf 64 pa n).foldl (fun t p =>
      let k := schedOf p.1
      let t := State.closeWindow t k
      State.setChannel t k ((State.channel t k).burst (beatsOf (t.main.readBytes (p.1 / 64 * 64) 64)))) s

/-- The schedulers of `n` bytes at `pa` accept commands: no channel of them changes its rate (R69). -/
def State.canServe (s : State) (pa n : Nat) : Bool := (linesOf pa n).all (fun l => !(s.channel (schedOf l.1)).switching)

/-- `s` after the scheduler of `pa` picks a request of class `cls` in a slot in which no other request is eligible (R64). -/
def State.pickOne (s : State) (cls pa : Nat) : State :=
  let k := schedOf pa
  let t := if inHbm pa 1 then s.refreshFirst (k / 32) else s
  let (cur, quota) := (t.channel k).choose t.weight (fun c => c == cls)
  t.setChannel k { t.channel k with cur := cur, quota := quota - 1 }

/-- The requests for `n` bytes at `pa`: one to each granule of HBM, or to each line of the CXL tier (R60). -/
def requestsOf (pa n : Nat) : List (Nat × Nat) := partsOf (if inHbm pa 1 then 256 else 64) pa n

/-- `s` after requests of class `cls` for `n` bytes at `pa` are sent, picked and served in the step that sends them (R60 to R64;
assumption log 111). The slack of each is then its budget, which is not negative: none is missed (R63, R65). -/
def State.serve (s : State) (cls pa n : Nat) : State :=
  (requestsOf pa n).foldl (fun t l => (State.pickOne t cls l.1).bursts l.1 l.2) s

/-- Correctable units among `n` bytes at `pa` are rewritten and logged by their base die (R74). -/
def State.correct (s : State) (pa n : Nat) : State :=
  let mine := fun (e : Nat × UnitErr) => decide (pa / 32 ≤ e.1) && decide (e.1 * 32 < pa + n) && e.2 == UnitErr.correctable
  let fixed := s.unitErrs.filter mine
  if fixed.isEmpty then s
  else
    fixed.foldl (fun (t : State) (e : Nat × UnitErr) =>
      let k := (hbmPlace (e.1 * 32)).1
      State.setBaseDie t k { State.baseDie t k with corrected := (State.baseDie t k).corrected + 1 })
      { s with unitErrs := s.unitErrs.filter (fun e => !mine e) }

/-- `s` after a read of `n` bytes at `pa` is served in the step that sends it. -/
def State.serveRead (s : State) (cls pa n : Nat) : State := (s.correct pa n).serve cls pa n

/-- `s` after core `c` has translated `va` for a request of class `cls`: the entries of a walk are read; a completed walk is
kept, a faulted one is not (R24, R62). -/
def State.keep (s : State) (c ctx cls va : Nat) (r : Except XErr Xl) : State :=
  let s := if (s.kept? c ctx va).isSome then s else (s.rootPas ctx va).foldl (fun t a => State.serveRead t cls a 8) s
  match r with
  | .error _ => s
  | .ok x =>
    let k : Kept := ⟨ctx, va / 2 ^ 16, x.pa / 2 ^ 16 * 2 ^ 16, x.flags, x.level⟩
    s.modCore c (fun y =>
      { y with tlb := k :: y.tlb.filter (fun j => !(j.ctx == ctx && j.vpn == k.vpn)) })

/-- The channels that a walk for `va` reads accept commands, or core `c` keeps the translation (R24, R69). -/
def State.walkReady (s : State) (c ctx va : Nat) : Bool :=
  (s.kept? c ctx va).isSome || (s.rootPas ctx va).all (fun a => s.canServe a 8)

/-! ### Migration slots (R80 to R84) -/

/-- STATE of migration slot `k`: 0 idle, 1 armed, 2 running, 3 switching, 4 done (R80). -/
def State.migState (s : State) (k : Nat) : Nat := bits (s.pkgReg (0x080 + k)) 61 3
/-- `s` with STATE of slot `k` set. -/
def State.setMigState (s : State) (k v : Nat) : State :=
  s.setPkgReg (0x080 + k) (setBits (s.pkgReg (0x080 + k)) 61 3 v)
/-- Bytes of the page of slot `k` (R80). -/
def State.migBytes (s : State) (k : Nat) : Nat := if bits (s.pkgReg (0x080 + k)) 60 1 = 1 then 2 ^ 21 else 2 ^ 16
/-- Slot `k` is in dual-write mode (R80). -/
def State.migDual (s : State) (k : Nat) : Bool := bits (s.pkgReg (0x080 + k)) 59 1 == 1
/-- OLD of slot `k` as a physical address (R80). -/
def State.migOld (s : State) (k : Nat) : Nat := bits (s.pkgReg (0x040 + k)) 0 28 * 2 ^ 16
/-- NEW of slot `k` as a physical address (R80). -/
def State.migNew (s : State) (k : Nat) : Nat := bits (s.pkgReg (0x040 + k)) 32 28 * 2 ^ 16

/-- No channel of the package changes its rate, and no migration slot is armed or has requests in its queue: a step in which the device
reads and writes main memory of its own waits for this (R69, R80, R81; assumption log 111). -/
def State.memOpen (s : State) : Bool :=
  s.channels.all (fun e => !e.2.switching) && s.migs.all (fun e => s.migState e.1 != 1 && e.2.queue.isEmpty)

/-- The slot a routed request to `pa` reaches, with the byte offset in its page (R81). -/
def State.migFind (s : State) (pa : Nat) : Option (Nat × Nat) :=
  (List.range 64).findSome? (fun k =>
    let n := s.migBytes k
    if s.migState k = 0 ∨ 4 < s.migState k then none
    else if s.migNew k ≤ pa ∧ pa < s.migNew k + n then some (k, pa - s.migNew k)
    else if s.migOld k ≤ pa ∧ pa < s.migOld k + n then some (k, pa - s.migOld k)
    else none)

/-- The parts of a write that cover only part of their 32-byte unit: a read-modify-write (R60). -/
def partUnits (pa n : Nat) : List (Nat × Nat) := (partsOf 32 pa n).filter (fun p => decide (p.2 < 32))

/-- The error of the lowest unit that a write of `n` bytes at `pa` must read and cannot (R60, R76). -/
def State.writeError (s : State) (pa n : Nat) : Option (Nat × Nat) :=
  if s.unitErrs.isEmpty then none else (partUnits pa n).findSome? (fun p => s.unitError p.1 p.2)

/-- `s` with one part of a write performed: a unit covered whole loses its error mark; one covered in part is corrected
first, or left as it is when it cannot be read (R57, R60, R74, R76). -/
def State.writeUnit (s : State) (pa : Nat) (bs : List Byte) : State :=
  if bs.length = 32 ∧ pa % 32 = 0 then
    { s with main := s.main.writeBytes pa bs, unitErrs := s.unitErrs.filter (fun e => e.1 != pa / 32) }
  else if (s.unitError pa bs.length).isSome then s
  else
    let t := s.correct pa bs.length
    { t with main := t.main.writeBytes pa bs }

/-- `s` with `bs` written at `pa`. -/
def State.writePa (s : State) (pa : Nat) (bs : List Byte) : State :=
  if s.unitErrs.isEmpty then { s with main := s.main.writeBytes pa bs }
  else (partsOf 32 pa bs.length).foldl (fun t p => State.writeUnit t p.1 ((bs.drop (p.1 - pa)).take p.2)) s

/-- `s` with the 32-byte units of `n` bytes at `pa` marked as poison (R57, R74). -/
def State.poisonPa (s : State) (pa n origin : Nat) : State :=
  { s with unitErrs := (List.range ((n + 31) / 32)).foldl (fun m j => m.set (pa / 32 + j) (.poison origin)) s.unitErrs }

/-- `s` after the 256 bytes `bs` read at `src` are written at `dst`, poisoned units as poison (R84). -/
def State.copyLine (s : State) (src dst : Nat) (bs : List Byte) : State :=
  let t := s.writePa dst bs
  let bad := s.unitErrs.filter (fun e =>
    decide (src / 32 ≤ e.1) && decide (e.1 < src / 32 + 8) && decide (e.2 ≠ UnitErr.correctable))
  let errs : Sparse UnitErr := bad.foldl (fun m e => Sparse.set m (dst / 32 + (e.1 - src / 32)) (.poison 2)) t.unitErrs
  { t with unitErrs := errs }

/-- `s` with the bit of `line` set in slot `k`; when every line is set the slot is done and EVT is set (R82, R83). -/
def State.migMark (s : State) (k line : Nat) : State :=
  let m := s.mig k
  if m.bits.contains line then s
  else
    let t := s.setMig k { m with bits := line :: m.bits }
    let n := m.bits.length + 1
    let t := t.setPkgReg (0x080 + k) (setBits (t.pkgReg (0x080 + k)) 0 14 n)
    if n = s.migBytes k / 256 ∧ s.migState k = 2 then
      (t.setMigState k 4).setPkgReg (0x080 + k) (setBits ((t.setMigState k 4).pkgReg (0x080 + k)) 58 1 1)
    else t

/-- The leaf routes reads through the migration engine: T without S (R81). -/
def Xl.routesRead (x : Xl) : Bool := x.flags.testBit 7 && !x.flags.testBit 6
/-- The leaf routes writes through the migration engine: T (R81). -/
def Xl.routesWrite (x : Xl) : Bool := x.flags.testBit 7

/-! ### Bytes of main memory under a copy that is in flight (R125) -/

/-- Fields of the CODE of a copy (R278). -/
def CopyOp.dsp (c : CopyOp) : Nat := c.code % 8
/-- Source space of a copy. -/
def CopyOp.ssp (c : CopyOp) : Nat := c.code / 8 % 8
/-- Destination die of a copy. -/
def CopyOp.ddie (c : CopyOp) : Nat := c.code / 64 % 4
/-- Source die of a copy. -/
def CopyOp.sdie (c : CopyOp) : Nat := c.code / 256 % 4
/-- Service class of a copy. -/
def CopyOp.cls (c : CopyOp) : Nat := c.code / 1024 % 4
/-- ARR of a copy. -/
def CopyOp.arr (c : CopyOp) : Bool := c.code / 4096 % 2 == 1

/-- The copy that a request belongs to. -/
def MemReq.copyId (r : MemReq) : Option Nat :=
  match r.op with
  | .read c _ _ => some c
  | .write c _ _ _ => some c
  | .reduce c _ _ _ _ _ => some c
  | _ => none

/-- The copy that a request of a service group belongs to (R281). -/
def SvcReq.copyId : SvcReq → Option Nat
  | .reduce c _ _ => some c
  | _ => none

/-- `s` with a missed request counted for its core and its context; one of the host has no core, and patrol scrub no context (R65;
assumption log 141). -/
def State.countMiss (s : State) (r : MemReq) : State :=
  let up := fun (w : Word) => setBits w (16 * r.cls) 16 (satAt 0xFFFF (bits w (16 * r.cls) 16 + 1))
  let t := if r.core < 96 then s.setPkgReg (0x100 + r.core) (up (s.pkgReg (0x100 + r.core))) else s
  if r.op = .scrub then t else t.setCtxReg r.ctx 0x123 (up (t.ctxReg r.ctx 0x123))

/-- `s` without the copies of a list and the requests they have on their way (R285, R346); completions already sent count where they
were missed (R65). -/
def State.dropCopies (s : State) (ids : List Nat) : State :=
  let mine := fun (o : Option Nat) => match o with
    | some c => ids.contains c
    | none => false
  if ids.isEmpty then s
  else
    let s := (s.completions.filter (fun c => c.missed && mine c.req.copyId)).foldl (fun t c => State.countMiss t c.req) s
    { s with
    copies := s.copies.filter (fun x => !ids.contains x.id)
    requests := s.requests.filter (fun r => !mine r.copyId)
    completions := s.completions.filter (fun r => !mine r.req.copyId)
    migs := s.migs.map (fun e => (e.1, { e.2 with queue := e.2.queue.filter (fun r => !mine r.copyId) }))
    dies := s.dies.map (fun d => (d.1, { d.2 with slices := d.2.slices.map (fun k =>
      (k.1, k.2.keepReqs (fun q => !mine q.copyId))) })) }

/-- The batch of a copy has not completed (R125). -/
def State.copyOpen (s : State) (c : CopyOp) : Bool :=
  match s.groups.get? c.gid with
  | some g => g.ops.any (fun o => o.id == c.id && o.cls == 0 && !o.done)
  | none => !c.finished

/-- Two byte ranges meet. -/
def meets (a n b m : Nat) : Bool := decide (a < b + m) && decide (b < a + n)

/-- The permissions of a main-memory atomic (R25). -/
def atomNeed : List Need := [.q, .w, .a, .hbm]

/-- What the pages of a copy need (R25). -/
def CopyOp.need (c : CopyOp) (write : Bool) : List Need := if !write then [.q] else if c.reduce then atomNeed else [.w]

/-- A translation of a main-memory access that the migration engine may have to route: a request routed by its leaf
whose frame no slot names is a translation fault (R81). -/
def State.translateRouted (s : State) (c ctx : Nat) (a : Agent) (need : List Need) (write : Bool) (va : Nat) : Except XErr Xl :=
  match s.translate c ctx a need va with
  | .error e => .error e
  | .ok x =>
    if (if write then x.routesWrite else x.routesRead) && (s.migFind x.pa).isNone then .error (tfault 5 a x.level 2 va)
    else .ok x

/-- The translation behind a page of a copy, whether or not it permits the access. -/
def PageX.frame : PageX → Option Xl
  | .ok x => some x
  | .denied x _ => some x
  | .err _ => none

/-- The fault of a page of a copy. -/
def PageX.fault : PageX → Option XErr
  | .ok _ => none
  | .denied _ e => some e
  | .err e => some e

/-- What the translation of a page gives a copy: as its engine took it, or as it is now (R24). A page whose leaf is found but which
does not permit the access, or which no slot routes (R81), is known by its frame (assumption log 124). -/
def State.copyPage (s : State) (c : CopyOp) (write : Bool) (vpn : Nat) : PageX :=
  match Sparse.get? (if write then c.dstX else c.srcX) vpn with
  | some p => p
  | none => match s.translateRouted c.core c.ctx .copy (c.need write) write (vpn * 65536) with
    | .ok x => .ok x
    | .error e =>
      match s.translate c.core c.ctx .copy [] (vpn * 65536) with
      | .ok x => .denied x e
      | .error _ => .err e

/-- The frames that writes to a translated page reach: those of its slot where they are routed, else its own (R81). -/
def State.framesOf (s : State) (x : Xl) : List Nat :=
  if x.routesWrite then (match s.migFind x.pa with
    | some (k, off) => [s.migOld k + off, s.migNew k + off]
    | none => [x.pa])
  else [x.pa]

/-- Some of `n` bytes of main memory at `pa` is a destination of a copy, other than copy `own`, whose batch has not
completed (R125). -/
def State.flightMem (s : State) (own : Option Nat) (pa n : Nat) : Bool :=
  s.copies.any (fun c => c.dsp == 4 && own != some c.id && s.copyOpen c &&
    (pagesOf c.dst.toNat c.len).any (fun p => match (s.copyPage c true (p.1 / 65536)).frame with
      | some x => (s.framesOf x).any (fun f => meets (f + p.1 % 65536) p.2 pa n)
      | none => false))

/-- `s` as an element operation sees the bytes under copy-reductions: what each has combined so far (R73, R281). -/
def State.withoutReductions (s : State) : State := { s with copies := s.copies.filter (fun c => !c.reduce) }

/-- `n` bytes of main memory as a request of copy `own`, or of another agent, reads them: undefined under a copy that is
in flight (R125). -/
def State.memRead (s : State) (own : Option Nat) (pa n : Nat) : List Byte :=
  if s.flightMem own pa n then
    (List.range n).map (fun j =>
      if s.flightMem own (pa + j) 1 then Config.freeByte s.occ (8 * (pa + j) + 6) else s.main.read (pa + j))
  else s.main.readBytes pa n

/-- The offsets among `n` bytes of main memory at `pa` that are undefined for a request of copy `own` (R125). -/
def State.flightOffsets (s : State) (own : Option Nat) (pa n : Nat) : List Nat :=
  if s.flightMem own pa n then (List.range n).filter (fun j => s.flightMem own (pa + j) 1) else []

/-! ### The migration engine at work (R81 to R84) -/

/-- Some of these physical addresses lies behind a CXL port that is down (R79). -/
def State.anyDown (s : State) (pas : List Nat) : Bool := pas.any s.paDown

/-- `n` bytes of main memory as a line transfer of the migration engine reads them: bytes that it has routed itself as they stand, and
those of a copy in flight that writes past it undefined (R80, R125). -/
def State.lineRead (s : State) (pa n : Nat) : List Byte :=
  ({ s with copies := s.copies.filter (fun c => !((pagesOf c.dst.toNat c.len).any (fun p =>
      (s.copyPage c true (p.1 / 65536)).frame.any Xl.routesWrite))) } : State).memRead none pa n

/-- `s` with a failed line transfer of slot `k`: its bit is clear, ERRS rises, EVT is set, and it is tried again after
every other clear line (R84). -/
def State.migFail (s : State) (k line : Nat) : State :=
  let m := s.mig k
  let left := m.bits.filter (fun l => l != line)
  let t := s.setMig k { m with bits := left, last := m.last.filter (fun l => l != line) ++ [line] }
  let w := t.pkgReg (0x080 + k)
  let w := setBits (setBits w 32 16 (satAt 0xFFFF (bits w 32 16 + 1))) 58 1 1
  t.setPkgReg (0x080 + k) (setBits w 0 14 left.length)

/-- OLD is copied to NEW in `line` of slot `k` by requests of class `cls`, and its bit is set; a port that is down fails the transfer
(R82 to R84). -/
def State.migCopy (s : State) (k line cls : Nat) : State :=
  let old := s.migOld k + line * 256
  let new := s.migNew k + line * 256
  if s.anyDown [old, new] then s.migFail k line
  else
    let t := s.serveRead cls old 256
    ((t.copyLine old new (t.lineRead old 256)).serve cls new 256).migMark k line

/-- `s` after slot `k` has transferred `line` from OLD to NEW with requests of class `cls`, if its bit was clear (R82). -/
def State.migPull (s : State) (k line cls : Nat) : State := if (s.mig k).bits.contains line then s else s.migCopy k line cls

/-- An access to page offset `off` of slot `k` first pulls the line: pull mode, running, its bit clear, unless a write covers the whole
line (R82). -/
def State.pullDue (s : State) (k off : Nat) (whole : Bool) : Bool :=
  !s.migDual k && decide (s.migState k = 2) && !(s.mig k).bits.contains (off / 256) && !whole

/-- The physical addresses that an access to page offset `off` of slot `k` reads or writes, after any pull: OLD while a slot is armed or
a dual-write one is not finished, where a write goes to both frames, else NEW (R82, R83). -/
def State.slotTargets (s : State) (k off : Nat) (write : Bool) : List Nat :=
  let old := s.migOld k + off
  let new := s.migNew k + off
  if s.migDual k then
    if (s.mig k).finished then [new] else if write && decide (s.migState k ≠ 0) then [old, new] else [old]
  else if s.migState k = 1 then [old]
  else [new]

/-- The physical addresses that an access touches, with those of a pull (R82, R83). -/
def State.slotPas (s : State) (k off : Nat) (write whole : Bool) : List Nat :=
  if s.pullDue k off whole then [s.migOld k + off, s.migNew k + off] else s.slotTargets k off write

/-- `s` after `n` bytes at `pa` could not be written by timeout or a link that is down: those in the CXL tier are undefined (R79). -/
def State.lostWrite (s : State) (pa n : Nat) : State :=
  let lo := pa / 64 * 64
  s.writePa lo ((List.range ((pa + n + 63) / 64 * 64 - lo)).map (fun j => Config.freeByte s.occ (8 * (lo + j) + 3)))

/-- `s` with bytes written at a physical address by a request of class `cls` served at once; a port that is down fails it
(R79). -/
def State.putPa (s : State) (cls pa : Nat) (bs : List Byte) : State :=
  if s.paDown pa then s.lostWrite pa bs.length else (s.writePa pa bs).serve cls pa bs.length

/-- A routed write of bytes inside one line (R82, R83): after its pull, or lost with it. -/
def State.migWrite (s : State) (k off cls : Nat) (bs : List Byte) : State :=
  let whole := decide (off % 256 = 0) && decide (bs.length = 256)
  let t := if s.pullDue k off whole then s.migPull k (off / 256) cls else s
  if t.pullDue k off whole then (if inHbm (t.migNew k + off) 1 then t else t.lostWrite (t.migNew k + off) bs.length)
  else
    let u := (t.slotTargets k off true).foldl (fun u a => State.putPa u cls a bs) t
    if whole && !t.migDual k && decide (t.migState k = 2) && !t.paDown (t.migNew k + off) then u.migMark k (off / 256) else u

/-- The migration slot that serves an access to one line of a translated page, with the page offset (R81). -/
def State.lineSlot (s : State) (routed : Bool) (pa : Nat) : Option (Nat × Nat) := if routed then s.migFind pa else none

/-- The physical addresses that a read at `pa` of a translated page touches (R81 to R83). -/
def State.readPas (s : State) (x : Xl) (pa : Nat) : List Nat :=
  match s.lineSlot x.routesRead pa with
  | some (k, off) => s.slotPas k off false false
  | none => [pa]

/-- Those that a write at `pa` touches, `whole` if it covers a line (R81 to R83). -/
def State.writePas (s : State) (x : Xl) (pa : Nat) (whole : Bool) : List Nat :=
  match s.lineSlot x.routesWrite pa with
  | some (k, off) => s.slotPas k off true whole
  | none => [pa]

/-- The physical address that a read at `pa` of a translated page takes its bytes from (R82, R83). A line not yet pulled
is pulled first where the read takes effect (`readTouch`); before that it reads as OLD holds it. -/
def State.readAt (s : State) (x : Xl) (pa : Nat) : Nat := (s.readPas x pa).headD pa

/-- The page offset of a routed request in slot `k` (R81). -/
def State.migOffset (s : State) (k : Nat) (r : MemReq) : Nat :=
  if s.migNew k ≤ r.pa ∧ r.pa < s.migNew k + s.migBytes k then r.pa - s.migNew k else r.pa - s.migOld k

/-- An access to `n` bytes of a translated page can be served now: no slot that routes it is armed or has an earlier request for the
line, and every channel accepts commands (R69, R80, R81). -/
def State.accessReady (s : State) (x : Xl) (write : Bool) (n : Nat) : Bool :=
  (linesOf x.pa n).all (fun l =>
    (match s.lineSlot (if write then x.routesWrite else x.routesRead) l.1 with
      | some (k, off) => decide (s.migState k ≠ 1) && (s.mig k).queue.all (fun r => s.migOffset k r / 256 != off / 256)
      | none => true) &&
    (if write then s.writePas x l.1 false else s.readPas x l.1).all (fun a => s.canServe a 1))

/-- `s` after requests of class `cls` read `n` bytes of a translated page: lines are pulled that need it, and errors that
can be corrected are (R60, R74, R82). A line that lies behind a port that is down, or of which a 64-byte part in `lost`, offsets in the
page's frame, has failed, is not read, and a pull that it needs has failed (R79, R84). -/
def State.readTouch (s : State) (cls : Nat) (x : Xl) (n : Nat) (lost : List Nat) : State :=
  (linesOf x.pa n).foldl (fun t l =>
    let gone := lost.any (fun a => meets a 64 l.1 l.2)
    match State.lineSlot t x.routesRead l.1 with
    | some (k, off) =>
      if State.pullDue t k off false then
        if gone then State.migFail t k (off / 256)
        else
          let u := State.migPull t k (off / 256) cls
          if u.pullDue k off false then u else u.serveRead cls (u.readAt x l.1) l.2
      else if gone || State.anyDown t (State.readPas t x l.1) then t else t.serveRead cls (State.readAt t x l.1) l.2
    | none => if gone || State.paDown t l.1 then t else t.serveRead cls l.1 l.2) s

/-- `s` after the pulls that a write of `n` bytes to a translated page needs (R82). -/
def State.pullFor (s : State) (cls : Nat) (x : Xl) (n : Nat) : State :=
  (linesOf x.pa n).foldl (fun t l =>
    match State.lineSlot t x.routesWrite l.1 with
    | some (k, off) => if State.pullDue t k off (decide (l.2 = 256)) then State.migPull t k (off / 256) cls else t
    | none => t) s

/-! ### Reads and writes of translated pages -/

/-- The fault of an access to a port whose link is down (R79). -/
def linkFault (va : Nat) : XErr := ⟨0x0C, w64 (va % 2 ^ 52 / 64 * 64 + 1)⟩

/-- The bytes a read of a translated range returns, or its fault: a routed request that meets no slot (R81), a link that is
down (R79), or poison (R76). -/
def State.readXl (s : State) (a : Agent) (va : Nat) (x : Xl) (n : Nat) : Except XErr (List Byte) :=
  if x.routesRead && (s.migFind x.pa).isNone then .error (tfault 5 a x.level 2 va)
  else
    (linesOf x.pa n).foldl (fun acc ln =>
      match acc with
      | .error e => .error e
      | .ok bs =>
        let pa := s.readAt x ln.1
        if s.anyDown (s.readPas x ln.1) then .error (linkFault (va + (ln.1 - x.pa)))
        else
          match s.unitError pa ln.2 with
          | some (o, u) => .error ⟨7, poisonX o u⟩
          | none => .ok (bs ++ s.memRead none pa ln.2)) (.ok [])

/-- `s` after requests of class `cls` write bytes to a translated range, through the migration engine where the leaf says so. -/
def State.writeXl (s : State) (a : Agent) (cls va : Nat) (x : Xl) (bs : List Byte) : Except XErr State :=
  if x.routesWrite && (s.migFind x.pa).isNone then .error (tfault 5 a x.level 2 va)
  else
    .ok ((linesOf x.pa bs.length).foldl (fun t ln =>
      let part := (bs.drop (ln.1 - x.pa)).take ln.2
      match State.lineSlot t x.routesWrite ln.1 with
      | some (k, off) => State.migWrite t k off cls part
      | none => t.putPa cls ln.1 part) s)

/-! ### Instruction fetch (R25, R81, R177) -/

/-- Fetch of one code word: translated with X in HBM, and routed as its leaf says. A word that a store has changed since is
fetched as written (assumption log 112), and one under a copy in flight is undefined (R125). -/
def State.fetch (s : State) (c ctx : Nat) (va : Word) : Except XErr Word :=
  match s.translate c ctx .fetch [.x] va.toNat with
  | .error e => .error e
  | .ok x =>
    if x.routesRead && (s.migFind x.pa).isNone then .error (tfault 5 .fetch x.level 2 va.toNat)
    else
      let pa := s.readAt x x.pa
      if s.anyDown (s.readPas x x.pa) then .error (linkFault va.toNat)
      else
      match s.unitError pa 8 with
      | some (o, u) => .error ⟨7, poisonX o u⟩
      | none => .ok (w64 (leNat (s.memRead none pa 8)))

/-- The fetch of `n` bytes of code can be served now, page by page (R69, R81). -/
def State.fetchReady (s : State) (c ctx va n : Nat) : Bool :=
  (pagesOf va n).all (fun p => s.walkReady c ctx p.1 &&
    (match s.translate c ctx .fetch [.x] p.1 with
      | .ok x => s.accessReady x false p.2
      | .error _ => true))

/-- The 64-byte lines of the CXL tier that an access to `n` bytes of a translated page reaches: port, and offset of the line from the
first byte (R60, R81). -/
def State.tierLines (s : State) (x : Xl) (write : Bool) (n : Nat) : List (Nat × Nat) :=
  (linesOf x.pa n).flatMap (fun l =>
    let ports := (if write then s.writePas x l.1 (decide (l.2 = 256)) else s.readPas x l.1).filterMap portOf
    (partsOf 64 l.1 l.2).flatMap (fun p => ports.map (fun q => (q, p.1 - x.pa))))

/-- `s` after `n` bytes of code have been fetched by requests of the context's default class (R62): translations are kept,
and the requests served. -/
def State.fetchTouch (s : State) (c ctx va n : Nat) : State :=
  (pagesOf va n).foldl (fun t p =>
    let r := State.translate t c ctx .fetch [.x] p.1
    let u := State.keep t c ctx (t.defaultClass ctx) p.1 r
    match r with
    | .ok x => u.readTouch (u.defaultClass ctx) x p.2 []
    | .error _ => u) s

end Sys2Proof.Machine
end

