-- ==== Sys2Proof/Machine/Store.lean ====
section
/-!
DEFINITION. On-die storage: windows and bench spans (R15 to R18), shared memory, the write buffer (R46, R47),
slices, the constant store, operand slots and spill slots, monitors (R43, R50), and integrity marks (R56 to R58).
-/
namespace Sys2Proof.Machine

/-! ### Windows and spans -/

/-- Bytes of a slice (R15). -/
def sliceBytes : Nat := 3 * 2 ^ 20
/-- The home slice of a die-linear address (R15). -/
def homeSlice (lin : Nat) : Nat := lin / sliceBytes
/-- Die-linear start of the window of a context on a die (R16). -/
def State.spBase (s : State) (ctx die : Nat) : Nat := bits (s.ctxReg ctx (0x100 + die)) 0 11 * 65536
/-- Extent of the window of a context on a die: 0 when BASE + SIZE > 1152 (R16). -/
def State.spExtent (s : State) (ctx die : Nat) : Nat :=
  let w := s.ctxReg ctx (0x100 + die)
  if 1152 < bits w 0 11 + bits w 16 11 then 0 else bits w 16 11 * 65536
/-- Start of the constant window (R17). -/
def State.cnBase (s : State) (ctx : Nat) : Nat := bits (s.ctxReg ctx 0x104) 0 8 * 1024
/-- Extent of the constant window: 0 when BASE + SIZE > 256 (R17). -/
def State.cnExtent (s : State) (ctx : Nat) : Nat :=
  let w := s.ctxReg ctx 0x104
  if 256 < bits w 0 8 + bits w 16 9 then 0 else bits w 16 9 * 1024

/-- The descriptor of bench region `r` (R18). -/
def State.benchd (s : State) (ctx r : Nat) : Word := s.ctxReg ctx (0x110 + r)
/-- Slices of a descriptor, ascending (R18). -/
def benchSlices (d : Word) : List Nat := (List.range 24).filter (fun k => (bits d 24 24).testBit k)
/-- The span of a descriptor in slice `k`: die-linear start and bytes (R18). -/
def benchSpan (d : Word) (k : Nat) : Nat × Nat := (k * sliceBytes + bits d 0 6 * 65536, bits d 8 6 * 65536)
/-- The descriptor of region `r` is usable (R18). -/
def State.benchUsable (s : State) (ctx r : Nat) : Bool :=
  let d := s.benchd ctx r
  let die := bits d 56 2
  d.getLsbD 63 && decide (bits d 24 24 ≠ 0) && decide (1 ≤ bits d 8 6) && decide (bits d 0 6 + bits d 8 6 ≤ 48) &&
  (benchSlices d).all (fun k =>
    decide (s.spBase ctx die ≤ (benchSpan d k).1) &&
    decide ((benchSpan d k).1 + (benchSpan d k).2 ≤ s.spBase ctx die + s.spExtent ctx die))
/-- The lowest die-linear address among `n` bytes from `lin` that falls in a span of a usable descriptor (R18). -/
def State.spanHit (s : State) (ctx die lin n : Nat) : Option Nat :=
  let hits := (List.range 16).flatMap (fun r =>
    if s.benchUsable ctx r && decide (bits (s.benchd ctx r) 56 2 = die) then
      (benchSlices (s.benchd ctx r)).filterMap (fun k =>
        let sp := benchSpan (s.benchd ctx r) k
        let lo := max lin sp.1
        if lo < min (lin + n) (sp.1 + sp.2) then some lo else none)
    else [])
  minBy id hits
/-- Some byte of the range falls in a span (R18). -/
def State.inSpan (s : State) (ctx die lin n : Nat) : Bool := (s.spanHit ctx die lin n).isSome

/-- On-die spaces of an access. -/
inductive Space where
  | shm | spd | cns
  deriving DecidableEq, Repr

/-- Why an on-die access fails its checks, in the rank order of R12. -/
inductive Fail where
  | bounds | span | align
  deriving DecidableEq, Repr

/-- The extent of an on-die space for a group (R10). -/
def State.extent (s : State) (g : Group) : Space → Nat
  | .shm => match s.blockOf g with
    | some b => b.shmKiB * 1024
    | none => 0
  | .spd => s.spExtent g.ctx (dieOf g.core)
  | .cns => s.cnExtent g.ctx

/-- The check of one on-die access of `n` bytes at offset `o` (R11, R12, R18, R269). -/
def State.check (s : State) (g : Group) (sp : Space) (o : Int) (n : Nat) : Option Fail :=
  if o < 0 ∨ (s.extent g sp : Int) < o + n then some .bounds
  else if sp = .spd ∧ s.inSpan g.ctx (dieOf g.core) (s.spBase g.ctx (dieOf g.core) + o.toNat) n then some .span
  else if o.toNat % n ≠ 0 then some .align
  else none

/-- Cause of a failed check (R12). -/
def Fail.cause : Fail → Nat
  | .bounds => 4
  | .span => 6
  | .align => 3

/-! ### Integrity marks (R56 to R58) -/

/-- The lowest-offset marked unit among `n` bytes or items from `lo` of one array. -/
def State.parityHit (s : State) (kind core holder unit lo n : Nat) : Option Unit_ :=
  minBy (fun u => match u with
    | .onDie _ _ _ _ o => o
    | .main p => p)
    (s.parity.filter (fun u => match u with
      | .onDie k c h v o => k == kind && c == core && h == holder && v == unit && decide (lo ≤ o) && decide (o < lo + n)
      | .main _ => false))
/-- `s` with fresh parity on `n` items from `lo` of one array (R56). -/
def State.parityClear (s : State) (kind core holder unit lo n : Nat) : State :=
  { s with parity := s.parity.filter (fun u => match u with
      | .onDie k c h v o => !(k == kind && c == core && h == holder && v == unit && decide (lo ≤ o) && decide (o < lo + n))
      | .main _ => true) }
/-- `s` with parity inverted on `n` items from `lo` of one array (R56). -/
def State.parityMark (s : State) (kind core holder unit lo n : Nat) : State :=
  { s with parity := (List.range n).map (fun j => Unit_.onDie kind core holder unit (lo + j)) ++
      (s.parityClear kind core holder unit lo n).parity }

/-- Place of a group among the 48 of its core (R33, R34). -/
def Group.place (g : Group) : Nat := g.quad * 12 + g.order

/-- The marked unit in lane `l` of register `r` of a group, as R57 reports it. -/
def State.regHit (s : State) (g : Group) (r l : Nat) : Option Unit_ :=
  (s.parityHit 0 g.core g.quad (g.base + r) (2 * l) 2).map (fun _ => .onDie 0 g.core 0 r l)
/-- `s` with fresh parity on lane `l` of register `r` of a group (R56). -/
def State.regClear (s : State) (g : Group) (r l : Nat) : State := s.parityClear 0 g.core g.quad (g.base + r) (2 * l) 2

/-- The marked unit of predicate `p` of a group, one unit for all lanes (R33), as a read in lanes `m` meets it; its lowest lane is
reported. -/
def State.predHit (s : State) (g : Group) (p : Nat) (m : Mask) : Option Unit_ :=
  if m = 0 then none
  else (s.parityHit 1 g.core g.place p 0 1).map (fun _ => .onDie 1 g.core 0 p (lowestBit 32 m.toNat))
/-- `s` with fresh parity on predicate `p` of a group: a write of some lanes reads the unit and merges (R56). -/
def State.predClear (s : State) (g : Group) (p : Nat) : State := s.parityClear 1 g.core g.place p 0 1

/-- The marked unit of scalar `k` of a split, as R57 reports it. -/
def State.scalHit (s : State) (g : Group) (sid k : Nat) : Option Unit_ :=
  (s.parityHit 2 g.core g.place k (2 * sid) 2).map (fun _ => .onDie 2 g.core 0 k sid)
/-- `s` with fresh parity on `n` scalars of a split from `k` on (R56). -/
def State.scalClear (s : State) (g : Group) (sid k n : Nat) : State :=
  if s.parity.isEmpty then s
  else (List.range n).foldl (fun t i => State.parityClear t 2 g.core g.place (k + i) (2 * sid) 2) s

/-- `s` with fresh parity on every scalar of splits `sids` of a group (R56). -/
def State.splitClear (s : State) (g : Group) (sids : List Nat) : State :=
  if s.parity.isEmpty then s
  else { s with parity := s.parity.filter (fun u => match u with
      | .onDie 2 c h _ o => !(c == g.core && h == g.place && sids.contains (o / 2))
      | _ => true) }
/-- `s` with fresh parity on registers `rs`, every predicate, and every scalar of splits `sids` of a group (R56). -/
def State.groupClear (s : State) (g : Group) (rs sids : List Nat) : State :=
  let t := s.splitClear g sids
  if t.parity.isEmpty then t
  else { t with parity := t.parity.filter (fun u => match u with
      | .onDie 0 c h r _ => !(c == g.core && h == g.quad && rs.any (fun k => g.base + k == r))
      | .onDie 1 c h _ _ => !(c == g.core && h == g.place)
      | _ => true) }
/-- `s` with fresh parity on the scalars of the splits of `new` that differ from those of `old`: they have been copied from
another split or from a record (R56, R144, R145). -/
def State.copiedClear (s : State) (old new : Group) : State :=
  s.splitClear new ((new.splits.filter (fun e => match old.splits.get? e.1 with
    | some sp => decide (sp.s ≠ e.2.s)
    | none => true)).map (fun e => e.1))

/-- The byte of the shared memory array that holds byte `o` of a list of rows (R33). -/
def rowByte (rows : List Nat) (o : Nat) : Nat := rows.getD (o / 256) 2048 * 256 + o % 256
/-- The byte of a list of rows that byte `a` of the array holds, if one. -/
def byteOfRow (rows : List Nat) (a : Nat) : Option Nat :=
  ((indicesOf (fun (r : Nat) => r == a / 256) rows).head?).map (fun i => i * 256 + a % 256)

/-- The lowest marked byte among `n` at `o` of the shared memory of a block (R57). -/
def State.shmHit (s : State) (bid o n : Nat) : Option Unit_ :=
  if s.parity.isEmpty then none
  else
    match s.blocks.get? bid with
    | none => none
    | some b =>
      let marks := s.parity.filterMap (fun u => match u with
        | .onDie 3 c _ _ a => if c = b.core then byteOfRow b.rows a else none
        | _ => none)
      (minBy (fun (a : Nat) => a) (marks.filter (fun a => decide (o ≤ a) && decide (a < o + n)))).map (fun a => .onDie 3 b.core 0 0 a)
/-- `s` with fresh parity on `n` bytes at `o` of the shared memory of a block (R56). -/
def State.shmClear (s : State) (b : Block) (o n : Nat) : State :=
  if s.parity.isEmpty then s
  else { s with parity := s.parity.filter (fun u => match u with
      | .onDie 3 c _ _ a => !(c == b.core && (match byteOfRow b.rows a with
        | some j => decide (o ≤ j) && decide (j < o + n)
        | none => false))
      | _ => true) }

/-- `s` with inverted parity on the bytes of a list of offsets from `o` on of the shared memory of a block (R56). -/
def State.shmMark (s : State) (bid o : Nat) (bad : List Nat) : State :=
  match s.blocks.get? bid with
  | none => s
  | some b => bad.foldl (fun t j => State.parityMark t 3 b.core 0 0 (rowByte b.rows (o + j)) 1) s

/-- The row that holds spill slot `k` of a group (R14, R33). -/
def State.spillRow (s : State) (g : Group) (k : Nat) : Nat :=
  match s.blocks.get? g.bid with
  | some b => (b.spillRows.getD g.slot []).getD k 2048
  | none => 2048
/-- The lowest marked byte of spill slot `k` of a group (R57). -/
def State.spillHit (s : State) (g : Group) (k : Nat) : Option Unit_ :=
  if s.parity.isEmpty then none
  else (s.parityHit 3 g.core 0 0 (s.spillRow g k * 256) 256).map (fun u => match u with
    | .onDie _ c _ _ a => .onDie 3 c 0 0x7FFF (a % 256)
    | u => u)
/-- `s` with fresh parity on spill slot `k` of a group (R56). -/
def State.spillClear (s : State) (g : Group) (k : Nat) : State :=
  if s.parity.isEmpty then s else s.parityClear 3 g.core 0 0 (s.spillRow g k * 256) 256

/-- OFFSET as R57 reports it: the byte within a spill slot, else as held. -/
def parityOffset (kind unit off : Nat) : Nat := if kind = 3 ∧ unit = 0x7FFF then off % 256 else off

/-- TRAPX of cause 0x07 from on-die storage (R57). -/
def parityX : Unit_ → Word
  | .onDie kind core _ unit off =>
    w64 (kind * 2 ^ 60 + core * 2 ^ 47 + unit * 2 ^ 32 + parityOffset kind unit off % 2 ^ 32)
  | .main pa => poisonX 0 pa

/-- `s` after one consumption of a marked unit is logged in PARLOG and PARCNT (R58) of the core that holds the unit
(assumption log 117). -/
def State.parityLog (s : State) : Unit_ → State
  | .main _ => s
  | .onDie kind core _ unit off =>
    let l := s.pkgReg (0x160 + core)
    let l' := if l.getLsbD 63 then setBits l 62 1 1
      else w64 (2 ^ 63 + bits l 62 1 * 2 ^ 62 + kind % 16 * 2 ^ 58 + unit % 2 ^ 15 * 2 ^ 43 +
        parityOffset kind unit off % 2 ^ 32)
    let t := s.setPkgReg (0x160 + core) l'
    t.setPkgReg (0x1C0 + core) (w64 (satAt 0xFFFFFFFF (bits (t.pkgReg (0x1C0 + core)) 0 32 + 1)))

/-- TRAPX of cause 0x07 that names main memory (R76). -/
def isPoisonX (cause : Nat) (x : Word) : Bool := cause == 7 && bits x 60 4 == 15

/-- `s` after core `core` has consumed a unit of main memory that could not be read: PARLOG takes KIND, UNIT and OFFSET
from the places they have in TRAPX (R58, R76). -/
def State.poisonLog (s : State) (core : Nat) (x : Word) : State :=
  s.parityLog (.onDie 15 core 0 (bits x 32 15) (bits x 0 32))

/-! ### Bytes under a copy that is in flight (R17, R125) -/

/-- A copy's operation has neither completed nor is its copy queued or running: `cquiesce` has cancelled it (R285). -/
def State.opCancelled (s : State) (o : OpRec) : Bool :=
  o.cls == 0 && !o.done && !s.copies.any (fun c => c.id == o.id)

/-- An operation does not keep its group from ending: it is done, or a copy that has been cancelled, or that has
finished though no close has put it into a batch or its batch holds a cancelled copy (R149, R285, R358). -/
def State.opSettled (s : State) (g : Group) (o : OpRec) : Bool :=
  o.done || s.opCancelled o || (o.cls == 0 && s.copies.any (fun c => c.id == o.id && c.finished) &&
    (o.batch == 0 || g.ops.any (fun p => p.batch == o.batch && s.opCancelled p)))

/-- Some byte of `n` shared-memory bytes at `o` of block `bid` is a destination of an incomplete batch. -/
def State.flightShm (s : State) (bid o n : Nat) : Bool :=
  s.copies.any (fun c => c.dsp == 0 && c.bid == bid && meets c.dst.toNat c.len o n && s.copyOpen c)
/-- As `flightShm` for die-linear bytes of die `d`. -/
def State.flightSpd (s : State) (d lin n : Nat) : Bool :=
  s.copies.any (fun c => c.dsp == 1 && c.ddie == d && meets (s.spBase c.ctx d + c.dst.toNat) c.len lin n && s.copyOpen c)
/-- As `flightShm` for the constant store of core `k`, until the batch has been waited for (R17). -/
def State.flightCns (s : State) (k a n : Nat) : Bool :=
  s.copies.any (fun c => c.dsp == 2 && c.core == k && meets (s.cnBase c.ctx + c.dst.toNat) c.len a n)

/-! ### Bytes that an attention operation uses (R308) -/

/-- The batch of an operation has not completed (R126). -/
def Group.batchOpen (g : Group) (o : OpRec) : Bool :=
  !o.done || o.batch == 0 || g.ops.any (fun p => p.cls == o.cls && p.batch == o.batch && !p.done)

/-- An operation uses some of `n` bytes at `lo` of a space. -/
def OpRec.touches (o : OpRec) (space lo n : Nat) : Bool := o.uses.any (fun u => u.1 == space && meets u.2.1 u.2.2 lo n)

/-- The groups whose operations use the bytes of block `key`, or of die `key`. -/
def inSpace (space key : Nat) (g : Group) : Bool := if space = 0 then g.bid == key else dieOf g.core == key

/-- Some byte of `n` at `lo` is in use by an attention operation whose batch has not completed, or is an output of one that
was spoilt and that no `bwait` has covered. -/
def State.attnUses (s : State) (space key lo n : Nat) : Bool :=
  s.groups.any (fun e => inSpace space key e.2 && e.2.ops.any (fun o => o.touches space lo n && (e.2.batchOpen o || o.spoilt)))

/-- `s` after another agent writes `n` bytes at `lo`: operations that use them are spoilt. -/
def State.spoilUses (s : State) (space key lo n : Nat) : State :=
  if s.attnUses space key lo n then
    { s with groups := s.groups.map (fun e =>
        if inSpace space key e.2 then (e.1, { e.2 with ops := e.2.ops.map (fun o =>
          if o.touches space lo n && e.2.batchOpen o then { o with spoilt := true } else o) }) else e) }
  else s

/-- The operation uses tile `k` of a core for attention. -/
def OpRec.hasTile (o : OpRec) (core k : Nat) : Bool := o.cls == 2 && o.tiles.contains (core, k)

/-- An attention operation whose batch has not completed uses tile `k` of a core (R308). -/
def State.tileTaken (s : State) (core k : Nat) : Bool :=
  s.groups.any (fun e => e.2.ops.any (fun o => o.hasTile core k && e.2.batchOpen o))

/-- `s` after another agent writes tile `k` of a core: attention operations that use it are spoilt (R308). -/
def State.spoilTile (s : State) (core k : Nat) : State :=
  if s.tileTaken core k then
    { s with groups := s.groups.map (fun e => (e.1, { e.2 with ops := e.2.ops.map (fun o =>
        if o.hasTile core k && e.2.batchOpen o then { o with spoilt := true } else o) })) }
  else s

/-- `s` as attention operation `id` of group `gid` itself sees it. -/
def State.ownView (s : State) (gid id : Nat) : State :=
  match s.groups.get? gid with
  | none => s
  | some g => s.setGroup gid { g with ops := g.ops.map (fun o => if o.id = id then { o with uses := [] } else o) }

/-! ### Shared memory -/

/-- Some of `n` bytes of shared memory at `o` is undefined for a reader: under a copy, or in use by the attention
engine (R125, R308). -/
def State.shmOpen (s : State) (bid o n : Nat) : Bool := s.flightShm bid o n || s.attnUses 0 bid o n

/-- `n` bytes of shared memory of block `bid` at `o`: undefined where `shmOpen` says so. -/
def State.shmRead (s : State) (bid o n : Nat) : List Byte :=
  match s.blocks.get? bid with
  | none => List.replicate n 0
  | some b =>
    if s.shmOpen bid o n then
      (List.range n).map (fun j =>
        if s.shmOpen bid (o + j) 1 then Config.freeByte s.occ (8 * (o + j)) else b.shm.read (o + j))
    else b.shm.readBytes o n

/-- Some byte of the word at `addr` differs between the old and the new bytes at `lo`. -/
def changed (lo : Nat) (old new : List Byte) (addr size : Nat) : Bool :=
  ((old.zip new).zip (List.range old.length)).any (fun e =>
    decide (addr ≤ lo + e.2) && decide (lo + e.2 < addr + size) && decide (e.1.1 ≠ e.1.2))

/-- Split `sid` of group `gid` gets the return value of its `wmon` and is ready to complete it (R276). -/
def State.wmonReturn (s : State) (gid sid ret : Nat) : State :=
  s.modSplit gid sid (fun sp =>
    match sp.wait with
    | .wmon b d none => { sp with wait := .wmon b d (some ret), awake := true, readyTime := s.time }
    | _ => sp)

/-- `s` with bytes written to shared memory of block `bid` at `o`, by whatever agent; armed words whose bytes change
wake their waiters (R40, R43, R56). -/
def State.shmPut (s : State) (bid o : Nat) (bs : List Byte) : State :=
  match s.blocks.get? bid with
  | none => s
  | some b =>
    let old := b.shm.readBytes o bs.length
    let t := (s.setBlock bid { b with shm := b.shm.writeBytes o bs }).shmClear b o bs.length
    let hit := fun (m : Monitor) => m.bid == bid && changed o old bs m.addr m.size
    let woken := (t.core b.core).monitors.filter hit
    if woken.isEmpty then t
    else woken.foldl (fun u m => u.wmonReturn m.gid m.sid 1)
      (t.modCore b.core (fun c => { c with monitors := c.monitors.filter (fun m => !hit m) }))

/-- `s` with bytes written to shared memory by another agent than the attention engine (R308). -/
def State.shmWrite (s : State) (bid o : Nat) (bs : List Byte) : State := (s.spoilUses 0 bid o bs.length).shmPut bid o bs

/-! ### The scratchpad and the write buffer -/

/-- As `shmOpen` for die-linear bytes of die `d`. -/
def State.spdOpen (s : State) (d lin n : Nat) : Bool := s.flightSpd d lin n || s.attnUses 1 d lin n

/-- `n` bytes of die `d` at die-linear `lin` as the slices hold them; undefined where `spdOpen` says so. -/
def State.sliceRead (s : State) (d lin n : Nat) : List Byte :=
  if s.spdOpen d lin n then
    (List.range n).map (fun j =>
      if s.spdOpen d (lin + j) 1 then Config.freeByte s.occ (8 * (lin + j) + 1) else (s.die d).scratch.read (lin + j))
  else (s.die d).scratch.readBytes lin n

/-- A reply enters the return slots of the core of a group (R51). -/
def State.replyTo (s : State) (gid : Nat) (r : Reply) : State :=
  match s.groups.get? gid with
  | none => s
  | some g => s.modCore g.core (fun c => { c with replies := c.replies ++ [r] })

/-- `s` with bytes written to the slices of die `d` at die-linear `lin`, by whatever agent; armed words whose bytes
change wake their `wmon` (R50, R56). The bytes may lie in several slices. -/
def State.slicePut (s : State) (d lin : Nat) (bs : List Byte) : State :=
  let old := (s.die d).scratch.readBytes lin bs.length
  let t := s.modDie d (fun x => { x with scratch := x.scratch.writeBytes lin bs })
  let ks := if bs.isEmpty then []
    else (List.range (homeSlice (lin + bs.length - 1) - homeSlice lin + 1)).map (fun j => homeSlice lin + j)
  ks.foldl (fun u k =>
    let u := u.parityClear 4 (d * 24 + k) 0 k lin bs.length
    let hit := fun (m : Monitor) => changed lin old bs m.addr m.size
    let woken := (u.slice d k).monitors.filter hit
    if woken.isEmpty then u
    else woken.foldl (fun v m => v.replyTo m.gid (.wmon m.gid m.sid 1))
      (u.modSlice d k (fun x => { x with monitors := x.monitors.filter (fun m => !hit m) }))) t

/-- `s` with bytes written to the slices by another agent than the attention engine (R308). -/
def State.sliceWrite (s : State) (d lin : Nat) (bs : List Byte) : State := (s.spoilUses 1 d lin bs.length).slicePut d lin bs

/-- The write-buffer entry of core `c` that holds line `l`, if any (R46). -/
def State.wbEntry (s : State) (c l : Nat) : Option WbEntry := (s.core c).wbuf.find? (fun e => e.line == l)

/-- `n` bytes at die-linear `lin` as core `c` reads them: undefined where `spdOpen` says so (R125, R308), else buffered bytes, else the
slices' (R47). -/
def State.spdRead (s : State) (c lin n : Nat) : List Byte :=
  let base := s.sliceRead (dieOf c) lin n
  let free := s.spdOpen (dieOf c) lin n
  if (s.core c).wbuf.isEmpty then base
  else (base.zip (List.range n)).map (fun e =>
    let a := lin + e.2
    if free && s.spdOpen (dieOf c) a 1 then e.1
    else match s.wbEntry c (a / 64 * 64) with
    | none => e.1
    | some w => (w.bytes.get? (a % 64)).getD e.1)

/-- The runs of buffered bytes of an entry: address and bytes, one byte each. -/
def WbEntry.cells (e : WbEntry) : List (Nat × Byte) := e.bytes.map (fun b => (e.line + b.1, b.2))

/-- `s` after entry number `k` of core `c` has drained to its home slice; bytes of a marked entry are
written with inverted parity, each consumption logged with the number of the entry (R46, R57, R58; assumption log 118). -/
def State.wbDrain (s : State) (c k : Nat) : State :=
  match (s.core c).wbuf[k]? with
  | none => s
  | some e =>
    let t := s.modCore c (fun x => { x with wbuf := dropAt k x.wbuf })
    e.cells.foldl (fun u b =>
      let v := u.slicePut (dieOf c) b.1 [b.2]
      match s.parityHit 9 c 0 0 b.1 1 with
      | none => v
      | some x =>
        let h := homeSlice b.1
        ((v.parityClear 9 c 0 0 b.1 1).parityLog (match x with
          | .onDie 9 c h _ a => .onDie 9 c h k a
          | x => x)).parityMark 4 (dieOf c * 24 + h) 0 h b.1 1) t

/-- `s` after the entry of core `c` that holds line `l` has drained, if there is one (R46). -/
def State.wbDrainLine (s : State) (c l : Nat) : State :=
  match indicesOf (fun (e : WbEntry) => e.line == l) (s.core c).wbuf with
  | [] => s
  | k :: _ => s.wbDrain c k

/-- `s` after the write buffer of core `c` has drained whole. -/
def State.wbDrainAll (s : State) (c : Nat) : State :=
  (s.core c).wbuf.foldl (fun t _ => t.wbDrain c 0) s

/-- `s` after the entries of core `c` whose lines meet `n` bytes at `lin` have drained (R46, R124). -/
def State.wbDrainRange (s : State) (c lin n : Nat) : State :=
  ((s.core c).wbuf.filter (fun e => meets e.line 64 lin n)).foldl (fun t e => t.wbDrainLine c e.line) s

/-- `s` after `bs` at die-linear `lin`, within one line, have entered the write buffer of core `c` (R46). -/
def State.wbPut (s : State) (c lin : Nat) (bs : List Byte) : State :=
  let l := lin / 64 * 64
  let add := fun (e : WbEntry) =>
    { e with bytes := (bs.zip (List.range bs.length)).foldl (fun m b => Sparse.set m (lin % 64 + b.2) b.1) e.bytes }
  let t := (s.spoilUses 1 (dieOf c) lin bs.length).parityClear 9 c 0 0 lin bs.length
  match s.wbEntry c l with
  | some _ => t.modCore c (fun x => { x with wbuf := x.wbuf.map (fun e => if e.line = l then add e else e) })
  | none => t.modCore c (fun x => { x with wbuf := x.wbuf ++ [add ⟨l, [], s.time⟩] })

/-- The stores at these die-linear addresses find room in the write buffer of core `c` (R46). -/
def State.wbRoom (s : State) (c : Nat) (addrs : List Nat) : Bool :=
  let lines := (addrs.map (fun a => a / 64 * 64)).eraseDups
  let fresh := lines.filter (fun l => (s.wbEntry c l).isNone)
  decide ((s.core c).wbuf.length + fresh.length ≤ 32)

/-- The marked unit a read of `n` bytes at die-linear `lin` by core `c` meets (R57); a write-buffer entry is numbered by its place
in the order of allocation (assumption log 118). -/
def State.spdParity (s : State) (c lin n : Nat) : Option Unit_ :=
  if s.parity.isEmpty then none
  else
    ((List.range n).findSome? (fun j =>
      let a := lin + j
      match s.wbEntry c (a / 64 * 64) with
      | some w =>
        if (w.bytes.get? (a % 64)).isSome then s.parityHit 9 c 0 0 a 1
        else s.parityHit 4 (dieOf c * 24 + homeSlice a) 0 (homeSlice a) a 1
      | none => s.parityHit 4 (dieOf c * 24 + homeSlice a) 0 (homeSlice a) a 1)).map (fun u =>
        match u with
        | .onDie 9 k h _ o =>
          .onDie 9 k h ((indicesOf (fun (e : WbEntry) => e.line == o / 64 * 64) (s.core c).wbuf).headD 0) o
        | u => u)

/-- `s` with every element of a tile undefined. -/
def State.tileUndef (s : State) (core k : Nat) : State :=
  let (seed, t) := s.newSeed
  t.setTile core k { t.tileOf core k with seed := seed, data := [] }

/-- Undefined rows of an attention partition (R308). -/
def State.rowsUndef (s : State) (c k : Nat) : State :=
  let (seed, t) := s.newSeed
  let row := fun (i : Nat) => (⟨if Config.freeBit seed (8 * i) then none
    else some ((Config.freeWord seed (8 * i + 1)).setWidth 12).toInt, (Config.freeWord seed (8 * i + 2)).setWidth 32⟩ : AttnRow)
  t.setTile c k { t.tileOf c k with rows := (List.range 128).map (fun i => (i, row i)) }

/-- `s` after the outputs of an attention operation that was spoilt are left undefined: its tile and partition, its work area
and the output fields of its descriptor (R308). -/
def State.usesUndef (s : State) (g : Group) (o : OpRec) : State :=
  let free := fun (t : State) (lo n : Nat) => (List.range n).map (fun j => Config.freeByte t.occ (8 * (lo + j) + 4))
  let t := o.uses.foldl (fun t u =>
    if u.1 = 0 then State.shmPut t g.bid u.2.1 (free t u.2.1 u.2.2)
    else State.slicePut t (dieOf g.core) u.2.1 (free t u.2.1 u.2.2)) s
  o.tiles.foldl (fun t k => (State.tileUndef t k.1 k.2).rowsUndef k.1 k.2) t

/-! ### Constant store, slots, spill -/

/-- `n` bytes of the constant store of core `k` at `a`; undefined under a copy not waited for (R17). -/
def State.cnsRead (s : State) (k a n : Nat) : List Byte :=
  if s.flightCns k a n then
    (List.range n).map (fun j =>
      if s.flightCns k (a + j) 1 then Config.freeByte s.occ (8 * (a + j) + 2) else (s.core k).const.read (a + j))
  else (s.core k).const.readBytes a n
/-- `s` with bytes written to the constant store of core `k`. -/
def State.cnsWrite (s : State) (k a : Nat) (bs : List Byte) : State :=
  (s.modCore k (fun c => { c with const := c.const.writeBytes a bs })).parityClear 5 k 0 0 a bs.length
/-- `s` with bytes written to operand slot `j` of core `k`. -/
def State.slotWrite (s : State) (k j a : Nat) (bs : List Byte) : State :=
  let x := s.slotOf k j
  (s.setSlot k j { x with mem := x.mem.writeBytes a bs }).parityClear 6 k 0 j a bs.length

/-- `s` remembering `n` bytes of an Engaged slot that a copy is about to overwrite (R53). -/
def State.slotKeep (s : State) (k j a n : Nat) : State :=
  let x := s.slotOf k j
  if x.st = .engaged then
    s.setSlot k j { x with prev := (List.range n).foldl (fun m i =>
      if (m.get? (a + i)).isSome then m else Sparse.set m (a + i) (x.mem.read (a + i))) x.prev }
  else s

/-- Some of `n` bytes of operand slot `j` of core `k` at `a` is a destination of a copy whose batch has not completed (R125). -/
def State.flightSlot (s : State) (k j a n : Nat) : Bool :=
  s.copies.any (fun c => c.dsp == 3 && c.core == k && c.dst.toNat / 65536 % 16 == j && meets (c.dst.toNat % 65536) c.len a n &&
    s.copyOpen c)

/-- `n` bytes of operand slot `j` of core `k` at `a` as a copy reads them: undefined under a copy that is in flight (R125). -/
def State.slotRead (s : State) (k j a n : Nat) : List Byte :=
  if s.flightSlot k j a n then
    (List.range n).map (fun i =>
      if s.flightSlot k j (a + i) 1 then Config.freeByte s.occ (8 * (j * 65536 + a + i) + 7) else (s.slotOf k j).mem.read (a + i))
  else (s.slotOf k j).mem.readBytes a n

/-- Byte `a` of operand slot `j` of core `k` as an engine reads it: where a copy has written it meanwhile, the old or
the new byte (R53); elsewhere undefined under a copy that is in flight (R125). -/
def State.slotByte (s : State) (k j a : Nat) : Byte :=
  let x := s.slotOf k j
  match x.prev.get? a with
  | none => (s.slotRead k j a 1).headD 0
  | some b => if Config.freeChoice s.occ (j * 65536 + a) then b else x.mem.read a

/-- Lane `l` of spill slot `k` of a group; undefined until written (R14). -/
def Group.spillGet (g : Group) (k l : Nat) : Word :=
  g.spill.getD (vkey k l) (Config.freeWord g.seed (2 ^ 20 + vkey k l))

end Sys2Proof.Machine
end

