-- ==== Sys2Proof/Machine/BenchOps.lean ====
section
/-!
DEFINITION. Benches as their home service groups run them: homing (R328), serving and offering (R331),
parking and withdrawal (R332), held deposits (R134), and the mailbox traffic of frame caches (R103 to R105).
-/
namespace Sys2Proof.Machine

/-- The slice of a region that homes a tag (R328). -/
def homeOf (desc : Word) (tag : Nat) : Nat :=
  let h := tag * 0x6F4B2D35 % 2 ^ 32 / 2 ^ 16
  let ks := benchSlices desc
  ks.getD (h % ks.length) 0

/-- The tag is reserved for management traffic (R105). -/
def reservedTag (tag : Nat) : Bool := decide (0xFFFF0000 ≤ tag)

/-- ACKED of a context's journal (R333). -/
def State.acked (s : State) (ctx : Nat) : Nat := bits (s.ctxReg ctx 0x168) 0 48
/-- STATE of a context's journal: 0 unbound, 1 bound, 2 lost, 3 resending (R333). -/
def State.jstate (s : State) (ctx : Nat) : Nat := bits (s.ctxReg ctx 0x168) 62 2
/-- The journal is enabled for a context (R338). -/
def State.journalOn (s : State) (ctx : Nat) : Bool :=
  decide (bits (s.ctxReg ctx 0x166) 52 12 ≠ 0) && decide (s.jstate ctx ≠ 0)

/-- The mailbox region of a context (R85, R105). -/
def State.mailbox (s : State) (ctx : Nat) : Nat := bits (s.ctxReg ctx 0x120) 52 4

/-- Tuples a slice of the region holds at most (R327). -/
def State.benchRoom (s : State) (ctx r : Nat) : Nat := bits (s.benchd ctx r) 8 6 * 1024 - 16

/-- Field `i` of a tuple: 0 at or beyond NF (R327). -/
def fieldOf (fields : List Word) (i : Nat) : Word := fields.getD i 0

/-- A tuple's tag and fields meet a request's pattern (R327). -/
def BenchReq.matches (r : BenchReq) (tag : Nat) (fields : List Word) : Bool :=
  r.tag == tag && (List.range 7).all (fun i => !r.mask.testBit i || fieldOf fields i == fieldOf r.fields i)

/-- The slice has a place for one more tuple of the region, counting held deposits (R327). -/
def State.hasPlace (s : State) (d k ctx r : Nat) : Bool :=
  let x := s.slice d k
  decide ((x.tuples.filter (fun t => t.ctx == ctx && t.region == r)).length +
    (x.held.filter (fun t => t.ctx == ctx && t.region == r)).length < s.benchRoom ctx r)

/-- `s` after a deposit of a core's frame cache has been accepted; a change of cache context that waits for the last one
goes on (R103). -/
def State.sendDone (s : State) (core : Nat) : State :=
  let t := s.modCore core (fun c => { c with frames := { c.frames with sends := c.frames.sends - 1 } })
  if (t.core core).frames.sends = 0 then t.wake (fun _ g _ sp => g.core == core && (match sp.wait with
    | .frames _ => true
    | _ => false)) else t

/-- Delivers a reply: ST, then the tuple obtained if any (R329, R379, R104, R385). -/
def State.benchReply (s : State) (r : BenchReq) (st : Nat) (got : Option (List Word)) : State :=
  let fields := (got.getD [])
  let seven := (List.range 7).map (fieldOf fields)
  match r.who with
  | .split gid sid =>
    s.replyTo gid (.bench gid sid r.id (some (w64 (st * 2 ^ 62 + fields.length) :: seven)) 0)
  | .host ctx region =>
    let c := s.ctx ctx
    let p := c.ports.getD region HostPort.init
    let p' : HostPort := ⟨p.words, w64 (2 ^ 63 + st * 2 ^ 61 + fields.length),
      (List.range 7).map (fun i => (i, fieldOf fields i))⟩
    s.setCtx ctx { c with ports := c.ports.set region p' }
  | .foreman => { s with foreman := s.foreman ++ [.reply r.id st fields] }
  | .attest ctx => if st = 0 then { s with foreman := s.foreman ++ [.asked ctx fields] } else s
  | .frameCache core =>
    match r.op with
    | .dep => s.sendDone core
    | _ => s.modCore core (fun c =>
        { c with frames := { c.frames with taking := false, grants := c.frames.grants ++ [(r.ctx, fields)] } })

/-- Refuses a blocking request that finds the parked-request table full: cause 0x14 for a split (R332), a
later retry for the take of a frame cache (R105); a deposit of a frame cache is lost (assumption log 15). -/
def State.benchFull (s : State) (r : BenchReq) (k : Nat) : State :=
  match r.who with
  | .split gid sid => s.replyTo gid (.bench gid sid r.id none (w64 (r.region + k * 256)))
  | .frameCache core =>
    match r.op with
    | .dep => s.sendDone core
    | _ => s.modCore core (fun c => { c with frames := { c.frames with taking := false } })
  | _ => s

/-- Parks a blocking request (R332). -/
def State.benchPark (s : State) (d k : Nat) (r : BenchReq) : State :=
  let x := s.slice d k
  if 256 ≤ x.parked.length + x.monitors.length then s.benchFull r k
  else s.setSlice d k { x with parked := x.parked ++ [r] }

/-- Stores a tuple with its age (R331). -/
def State.benchStore (s : State) (d k ctx r tag : Nat) (fields : List Word) : State :=
  s.modSlice d k (fun x => { x with
    tuples := x.tuples ++ [⟨ctx, r, tag, fields, x.counter⟩], counter := x.counter + 1 })

/-- Replies to the parked copies that precede the first matching take, and to that take (R331): the state,
and whether the tuple was taken. `ps` are the parked requests in arrival order. -/
def State.benchGive (s : State) (d k ctx r tag : Nat) (fields : List Word) : List BenchReq → State × Bool
  | [] => (s, false)
  | p :: ps =>
    if p.ctx = ctx ∧ p.region = r ∧ p.op ≠ .dep ∧ p.matches tag fields then
      let t := (s.modSlice d k (fun x => { x with parked := x.parked.filter (fun q => q.id != p.id) })).benchReply
        p 0 (some fields)
      if p.op = .tak then (t, true) else t.benchGive d k ctx r tag fields ps
    else s.benchGive d k ctx r tag fields ps

/-- A matching take is parked for this tuple. -/
def State.takerWaits (s : State) (d k ctx r tag : Nat) (fields : List Word) : Bool :=
  (s.slice d k).parked.any (fun p => p.ctx == ctx && p.region == r && p.op == .tak && p.matches tag fields)

/-- Offers a tuple that becomes matchable (R331). -/
def State.benchOffer (s : State) (d k ctx r tag : Nat) (fields : List Word) : State :=
  match s.benchGive d k ctx r tag fields (s.slice d k).parked with
  | (t, true) => t
  | (t, false) => t.benchStore d k ctx r tag fields

/-- Accepts a deposit if it can be held, stored or taken: `none` where it needs a place and the slice has none. -/
def State.benchAccept (s : State) (d k : Nat) (r : BenchReq) : Option State :=
  match r.gate with
  | some j =>
    if s.acked r.ctx < j then
      if s.hasPlace d k r.ctx r.region then
        some (s.modSlice d k (fun x => { x with
          held := x.held ++ [⟨r.ctx, r.region, r.tag, r.fields, j, x.heldSeq⟩], heldSeq := x.heldSeq + 1 }))
      else none
    else if s.takerWaits d k r.ctx r.region r.tag r.fields || s.hasPlace d k r.ctx r.region then
      some (s.benchOffer d k r.ctx r.region r.tag r.fields)
    else none
  | none =>
    if s.takerWaits d k r.ctx r.region r.tag r.fields || s.hasPlace d k r.ctx r.region then
      some (s.benchOffer d k r.ctx r.region r.tag r.fields)
    else none

/-- Wakes parked deposits in arrival order, each while room exists for its tuple (R331). -/
def State.benchWake (s : State) (d k : Nat) : Nat → State
  | 0 => s
  | n + 1 =>
    match (s.slice d k).parked.find? (fun p => p.op == .dep && s.hasPlace d k p.ctx p.region) with
    | none => s
    | some p =>
      let t := s.modSlice d k (fun x => { x with parked := x.parked.filter (fun q => q.id != p.id) })
      match t.benchAccept d k p with
      | none => s
      | some u => (u.benchReply p 0 none).benchWake d k n

/-- The oldest stored tuple that meets a request (R331). -/
def State.benchFind (s : State) (d k : Nat) (r : BenchReq) : Option Tuple :=
  minBy (fun t => t.age)
    ((s.slice d k).tuples.filter (fun t => t.ctx == r.ctx && t.region == r.region && r.matches t.tag t.fields))

/-- The service group of slice `k` of die `d` executes a bench request (R331). -/
def State.benchExec (s : State) (d k : Nat) (r : BenchReq) : State :=
  match r.op with
  | .dep =>
    match s.benchAccept d k r with
    | some t => (t.benchReply r 0 none).benchWake d k 256
    | none => if r.poll then s.benchReply r 2 none else s.benchPark d k r
  | _ =>
    match s.benchFind d k r with
    | some t =>
      if r.op = .tak then
        ((s.modSlice d k (fun x => { x with tuples := x.tuples.filter (fun u => u != t) })).benchReply
          r 0 (some t.fields)).benchWake d k 256
      else s.benchReply r 0 (some t.fields)
    | none => if r.poll then s.benchReply r 1 none else s.benchPark d k r

/-- A request enters the queue of the home slice of its tag (R49, R330). -/
def State.benchSend (s : State) (r : BenchReq) : State :=
  let d := s.benchd r.ctx r.region
  s.modSlice (bits d 56 2) (homeOf d r.tag) (fun x => x.send (.bench r))

/-- Releases the held deposits of a context whose gate ACKED has reached, in the order of R134. -/
def State.releaseHeld (s : State) (ctx : Nat) : State :=
  let ready := s.dies.flatMap (fun e => e.2.slices.flatMap (fun f =>
    (f.2.held.filter (fun h => h.ctx == ctx && decide (h.gate ≤ s.acked ctx))).map (fun h => (e.1, f.1, h))))
  let order := sortBy (fun a b => decide (a.2.2.gate < b.2.2.gate) ||
    (decide (a.2.2.gate = b.2.2.gate) && decide (a.2.2.seq ≤ b.2.2.seq))) ready
  order.foldl (fun t e =>
    let (d, k, h) := e
    ((t.modSlice d k (fun x => { x with held := x.held.filter (fun g => g != h) })).benchOffer
      d k h.ctx h.region h.tag h.fields).benchWake d k 256) s

/-- The parked request of a split is withdrawn (R332). -/
def State.benchRemove (s : State) (d k gid sid : Nat) : State :=
  s.modSlice d k (fun x => { x with parked := x.parked.filter (fun p => p.who != .split gid sid) })

/-- Core hardware deposits a management tuple in the mailbox of a context; a mailbox that no usable
descriptor names loses it (R105; assumption log 15). -/
def State.mailSend (s : State) (core ctx tag : Nat) (fields : List Word) : State :=
  if s.benchUsable ctx (s.mailbox ctx) then
    let (id, t) := s.newId
    (t.modCore core (fun c => { c with frames := { c.frames with sends := c.frames.sends + 1 } })).benchSend
      ⟨id, .dep, ctx, s.mailbox ctx, tag, 0, fields, false, none, .frameCache core⟩
  else s

/-- Return tuples for frames, six to a tuple (R105). -/
def State.returnFrames (s : State) (core ctx : Nat) (frames : List Nat) : Nat → State
  | 0 => s
  | n + 1 =>
    if frames.isEmpty then s
    else
      (s.mailSend core ctx 0xFFFF0002 (w64 core :: (List.range 6).map (fun i =>
        match frames[i]? with
        | some f => w64 (2 ^ 63 + f)
        | none => 0))).returnFrames core ctx (frames.drop 6) n

/-- The cache returns all its entries to the mailbox of its context (R103). -/
def State.emptyCache (s : State) (core : Nat) : State :=
  let f := (s.core core).frames
  match f.ctx with
  | none => s
  | some ctx =>
    (s.modCore core (fun c => { c with frames := { c.frames with ctx := none, frames := [] } })).returnFrames
      core ctx f.frames 8

/-- The parked take for a grant (R105). -/
def State.grantTake (s : State) (core ctx : Nat) : State :=
  if s.benchUsable ctx (s.mailbox ctx) then
    let (id, t) := s.newId
    (t.modCore core (fun c => { c with frames := { c.frames with taking := true } })).benchSend
      ⟨id, .tak, ctx, s.mailbox ctx, 0xFFFF0100 + core, 0, [], false, none, .frameCache core⟩
  else s

/-- A refill request for the free entries of the cache, with the take for its grant (R104, R105). -/
def State.postRefill (s : State) (core ctx : Nat) : State :=
  let f := (s.core core).frames
  if f.refill.isSome then s
  else
    ((s.modCore core (fun c => { c with frames := { c.frames with refill := some ctx } })).mailSend core ctx 0xFFFF0001
      [w64 core, w64 (32 - f.frames.length)]).grantTake core ctx

/-- Inserts frames in order; those beyond the free entries are returned (R104). -/
def State.insertFrames (s : State) (core ctx : Nat) (fs : List Nat) : State :=
  let f := (s.core core).frames
  let room := 32 - f.frames.length
  (s.modCore core (fun c => { c with frames := { c.frames with frames := f.frames ++ fs.take room } })).returnFrames
    core ctx (fs.drop room) 8

end Sys2Proof.Machine
end

