-- ==== Sys2Proof/Machine/Float.lean ====
section
/-!
DEFINITION. Number formats and rounding (R196 to R208): exact values as sign, magnitude and power of two, one
rounding step, sums, products, conversions, shared scales and the special functions.
-/
namespace Sys2Proof.Machine

/-! ### Formats (R197) -/

/-- FP32 (R197). -/
def fp32 : Fmt := ⟨8, 23, 127, 0x7F7FFFFF, some 0x7FC00000, some 0x7F800000⟩
/-- BF16. -/
def bf16 : Fmt := ⟨8, 7, 127, 0x7F7F, some 0x7FC0, some 0x7F80⟩
/-- FP16. -/
def fp16 : Fmt := ⟨5, 10, 15, 0x7BFF, some 0x7E00, some 0x7C00⟩
/-- E4M3: no infinity, NaN 0x7F and 0xFF. -/
def e4m3 : Fmt := ⟨4, 3, 7, 0x7E, some 0x7F, none⟩
/-- E5M2. -/
def e5m2 : Fmt := ⟨5, 2, 15, 0x7B, some 0x7E, some 0x7C⟩
/-- E2M1: neither infinity nor NaN. -/
def e2m1 : Fmt := ⟨2, 1, 1, 0x7, none, none⟩

/-- Float formats by the codes of R190. -/
def fmtOf (code : Nat) : Fmt :=
  match code with
  | 0 => fp32
  | 1 => bf16
  | 2 => fp16
  | 3 => e4m3
  | 4 => e5m2
  | _ => e2m1

/-- The format of a float element type (R186). -/
def tyFmt : FloatTy → Fmt
  | .f32 => fp32
  | .bf16 => bf16
  | .f16 => fp16

/-- Width of a format. -/
def Fmt.width (f : Fmt) : Nat := f.eb + f.mb + 1
/-- The sign bit's weight. -/
def Fmt.signBit (f : Fmt) : Nat := 2 ^ (f.eb + f.mb)

/-- A value: NaN (signalling or not), infinity, or a finite magnitude `m × 2^e`, with its sign. -/
inductive FVal where
  | nan (sig : Bool)
  | inf (neg : Bool)
  | fin (neg : Bool) (m : Nat) (e : Int)
  deriving DecidableEq, Repr

/-- The value of an element's bits (R197, R198). -/
def Fmt.val (f : Fmt) (x : Nat) : FVal :=
  let neg := decide (f.signBit ≤ x % 2 ^ f.width)
  let mag := x % f.signBit
  let ex := mag / 2 ^ f.mb
  let man := mag % 2 ^ f.mb
  if f.maxFin < mag then
    if f.inf = some mag then .inf neg else .nan (decide (man < 2 ^ (f.mb - 1)))
  else if ex = 0 then .fin neg man (1 - (f.bias : Int) - f.mb)
  else .fin neg (man + 2 ^ f.mb) ((ex : Int) - f.bias - f.mb)

/-- The value is a NaN. -/
def FVal.isNan : FVal → Bool
  | .nan _ => true
  | _ => false
/-- The value is a signalling NaN. -/
def FVal.isSig : FVal → Bool
  | .nan s => s
  | _ => false
/-- The value is infinite. -/
def FVal.isInf : FVal → Bool
  | .inf _ => true
  | _ => false
/-- The value is a zero. -/
def FVal.isZero : FVal → Bool
  | .fin _ m _ => m == 0
  | _ => false
/-- The sign of a value. -/
def FVal.neg? : FVal → Bool
  | .nan _ => false
  | .inf n => n
  | .fin n _ _ => n
/-- The negated value. -/
def FVal.negate : FVal → FVal
  | .nan s => .nan s
  | .inf n => .inf (!n)
  | .fin n m e => .fin (!n) m e

/-- Bits of a NaN result: the canonical NaN (R198); a format without NaN gives 0. -/
def Fmt.nanBits (f : Fmt) : Nat := f.nan.getD 0
/-- Bits of a magnitude with a sign. -/
def Fmt.signed (f : Fmt) (neg : Bool) (mag : Nat) : Nat := if neg then f.signBit + mag else mag

/-- Bits an integer magnitude has. -/
def bitLen (m : Nat) : Nat := if m = 0 then 0 else Nat.log2 m + 1

/-- `m / 2^d` rounded to an integer under a mode (0 RNE, 1 RZ, 2 RU, 3 RD), and whether it was inexact (R202). -/
def roundShift (mode : Nat) (neg : Bool) (m d : Nat) : Nat × Bool :=
  let q := m / 2 ^ d
  let r := m % 2 ^ d
  let up := match mode with
    | 0 => decide (2 ^ d < 2 * r) || (decide (2 * r = 2 ^ d) && decide (q % 2 = 1))
    | 1 => false
    | 2 => !neg && decide (r ≠ 0)
    | _ => neg && decide (r ≠ 0)
  (if up then q + 1 else q, decide (r ≠ 0))

/-- `m × 2^e` in units of `2^q`, rounded. -/
def roundAt (mode : Nat) (neg : Bool) (m : Nat) (e q : Int) : Nat × Bool :=
  if q ≤ e then (m * 2 ^ (e - q).toNat, false) else roundShift mode neg m (q - e).toNat

/-- `overflow_value` of R202; `ofInf` says that the exact value is an infinity. -/
def Fmt.overflow (f : Fmt) (sat : Bool) (mode : Nat) (neg ofInf : Bool) : Nat :=
  let toMax := sat || f == e2m1 ||
    (!(ofInf && f.inf.isSome) && (mode == 1 || (mode == 2 && neg) || (mode == 3 && !neg)))
  if toMax then f.signed neg f.maxFin
  else match f.inf with
    | some x => f.signed neg x
    | none => f.nanBits

/-- A nonzero finite value rounded into a format (R202), with OF, UF and NX (R201). -/
def Fmt.roundFin (f : Fmt) (sat : Bool) (mode : Nat) (neg : Bool) (m : Nat) (e : Int) : Nat × Flags :=
  let top : Int := e + bitLen m - 1
  let low : Int := 1 - (f.bias : Int) - f.mb
  let q := max (top - f.mb) low
  let (n, inexact) := roundAt mode neg m e q
  let mag := if n < 2 ^ f.mb then n else ((q - low).toNat + 1) * 2 ^ f.mb + (n - 2 ^ f.mb)
  if f.maxFin < mag then (f.overflow sat mode neg false, { of := true, nx := true })
  else
    let n' := (roundAt mode neg m e (top - f.mb)).1
    let tiny := decide (top - f.mb < low) && !(decide (n' = 2 ^ (f.mb + 1)) && decide (top - f.mb + 1 = low))
    (f.signed neg mag, { uf := inexact && tiny, nx := inexact })

/-- A value rounded into a format (R202): a NaN result raises NV where `nv` says so. -/
def Fmt.round (f : Fmt) (sat : Bool) (mode : Nat) (v : FVal) (nv : Bool) : Nat × Flags :=
  match v with
  | .nan _ => (f.nanBits, { nv := nv })
  | .inf n => (f.overflow sat mode n true, { nv := nv })
  | .fin n 0 _ => (f.signed n 0, { nv := nv })
  | .fin n (m + 1) e =>
    let r := f.roundFin sat mode n (m + 1) e
    (r.1, { r.2 with nv := nv })

/-! ### Exact sums and products -/

/-- The exact product (R249): a NaN for 0 × ∞. -/
def fmul (a b : FVal) : FVal :=
  match a, b with
  | .nan s, _ => .nan s
  | _, .nan s => .nan s
  | .inf n, .inf k => .inf (n != k)
  | .inf n, .fin k m _ => if m = 0 then .nan false else .inf (n != k)
  | .fin n m _, .inf k => if m = 0 then .nan false else .inf (n != k)
  | .fin n m e, .fin k l d => .fin (n != k) (m * l) (e + d)

/-- The least exponent of a list of finite values. -/
def minExp : List FVal → Int
  | [] => 0
  | [.fin _ _ e] => e
  | .fin _ _ e :: t => min e (minExp t)
  | _ :: t => minExp t

/-- The exact sum of values, with the sign rules of an exact zero (R198); ∞ − ∞ and NaN terms give a NaN. -/
def fsum (mode : Nat) (l : List FVal) : FVal :=
  if l.any FVal.isNan then .nan false
  else if l.any FVal.isInf then
    if l.any (fun v => v == .inf true) && l.any (fun v => v == .inf false) then .nan false
    else .inf (l.any (fun v => v == .inf true))
  else
    let e := minExp l
    let s : Int := l.foldl (fun a v => match v with
      | .fin n m x => a + (if n then -1 else 1) * ((m * 2 ^ (x - e).toNat : Nat) : Int)
      | _ => a) 0
    if s = 0 then
      if l.all FVal.neg? then .fin true 0 0
      else if l.all (fun v => !v.neg?) then .fin false 0 0
      else .fin (mode == 3) 0 0
    else .fin (decide (s < 0)) s.natAbs e

/-- NV of an operation on values with result `r` (R201): a signalling operand, or a NaN from none. -/
def invalid (ops : List FVal) (r : FVal) : Bool :=
  ops.any FVal.isSig || (r.isNan && !ops.any FVal.isNan)

/-- Float add of two elements under a mode (R249). -/
def faddBits (f : Fmt) (mode a b : Nat) : Nat × Flags :=
  let x := f.val a
  let y := f.val b
  let r := fsum mode [x, y]
  f.round false mode r (invalid [x, y] r)

/-- `d + a × b` with the signs given, rounded once (R249). NV is set for 0 × ∞ whatever the addend. -/
def ffma (f : Fmt) (mode : Nat) (nd np : Bool) (d a b : Nat) : Nat × Flags :=
  let x := f.val d
  let y := f.val a
  let z := f.val b
  let p := fmul y z
  let x' := if nd then x.negate else x
  let p' := if np then p.negate else p
  let r := fsum mode [x', p']
  let zeroInf := p.isNan && !y.isNan && !z.isNan
  f.round false mode r (zeroInf || [x, y, z].any FVal.isSig || (r.isNan && !([x, y, z].any FVal.isNan)))

/-- Exact compare of two values that are not NaN: `a < b`, with −0 = +0. -/
def flt (a b : FVal) : Bool :=
  match a, b with
  | .inf n, .inf k => n && !k
  | .inf n, .fin _ _ _ => n
  | .fin _ _ _, .inf k => !k
  | .fin n m e, .fin k l d =>
    let x := min e d
    let v := (if n then -1 else 1) * ((m * 2 ^ (e - x).toNat : Nat) : Int)
    let w := (if k then -1 else 1) * ((l * 2 ^ (d - x).toNat : Nat) : Int)
    decide (v < w)
  | _, _ => false

/-- Numeric equality of two values, −0 = +0 and no NaN equal to anything (R245). -/
def feq (a b : FVal) : Bool := !a.isNan && !b.isNan && !flt a b && !flt b a

/-- The order of `fmin_num` and `fmax_num`: as `flt`, with −0 below +0 (R206). -/
def fless (a b : FVal) : Bool := flt a b || (a.isZero && b.isZero && a.neg? && !b.neg?)

/-- `fmin_num` (`mx` false) or `fmax_num` of two elements (R206). -/
def fminmax (f : Fmt) (mx : Bool) (a b : Nat) : Nat × Flags :=
  let x := f.val a
  let y := f.val b
  let fl : Flags := { nv := x.isSig || y.isSig }
  if x.isNan && y.isNan then (f.nanBits, fl)
  else if x.isNan then (b, fl)
  else if y.isNan then (a, fl)
  else if mx then (if fless x y then b else a, fl)
  else (if fless y x then b else a, fl)

/-- The class mask of `vfclass` (R249). -/
def fclass (f : Fmt) (a : Nat) : Nat :=
  match f.val a with
  | .nan s => if s then 2 ^ 8 else 2 ^ 9
  | .inf n => if n then 2 ^ 0 else 2 ^ 7
  | .fin n m _ =>
    if m = 0 then (if n then 2 ^ 3 else 2 ^ 4)
    else if m < 2 ^ f.mb then (if n then 2 ^ 2 else 2 ^ 5)
    else (if n then 2 ^ 1 else 2 ^ 6)

/-! ### Conversions (R203, R205) -/

/-- A conversion into a float format: R202 with SAT, and SF where a larger magnitude became ±max (R201, R203);
a format that has an infinity represents one exactly, whatever SAT holds (R203; assumption log 20). -/
def toFloat (f : Fmt) (sat : Bool) (mode : Nat) (v : FVal) : Nat × Flags :=
  match v with
  | .nan s => if f.nan.isSome then (f.nanBits, { nv := s }) else (0, { nv := true })
  | .inf n =>
    let r := f.overflow (sat && f.inf.isNone) mode n true
    (r, { sf := r % f.signBit == f.maxFin, nv := f.nan == some r })
  | v =>
    let r := f.round sat mode v false
    (r.1, { r.2 with sf := r.2.of && r.1 % f.signBit == f.maxFin })

/-- A conversion into a signed integer of width `w` (R203): rounded under the mode, saturated; NaN gives 0. -/
def toInt (w mode : Nat) (v : FVal) : Nat × Flags :=
  let hi : Int := 2 ^ (w - 1) - 1
  let lo : Int := -(2 ^ (w - 1))
  match v with
  | .nan _ => (0, { nv := true })
  | .inf n => (toE w (if n then lo else hi), { nv := true })
  | .fin n m e =>
    if (200 : Int) < e ∧ m ≠ 0 then (toE w (if n then lo else hi), { nv := true })
    else
      let (k, inexact) := roundAt mode n m e 0
      let x : Int := if n then -(k : Int) else k
      if hi < x then (toE w hi, { nv := true })
      else if x < lo then (toE w lo, { nv := true })
      else (toE w x, { nx := inexact })

/-- An integer as an exact value. -/
def ofInt (x : Int) : FVal := .fin (decide (x < 0)) x.natAbs 0

/-- The format code is an integer format: 6 INT32, 7 INT16, 8 INT8, 9 INT4 (R190). -/
def intFmt (c : Nat) : Bool := decide (6 ≤ c)

/-- The exact value of an element of format code `c`. -/
def codeVal (c x : Nat) : FVal :=
  if intFmt c then ofInt (sE (Checks.fmtWidth c) x) else (fmtOf c).val x

/-- A value converted into format code `c` (R203). -/
def convert (c : Nat) (sat : Bool) (mode : Nat) (v : FVal) : Nat × Flags :=
  if intFmt c then toInt (Checks.fmtWidth c) mode v else toFloat (fmtOf c) sat mode v

/-- A value times a power of two. -/
def FVal.scale (v : FVal) (k : Int) : FVal :=
  match v with
  | .fin n m e => .fin n m (e + k)
  | v => v

/-- Element `x` of format `src` converted into format `dst`, with the scale byte if one is given (R203, R205, R251, R252). -/
def convertElem (src dst : Nat) (sat : Bool) (mode : Nat) (scale : Option Nat) (x : Nat) : Nat × Flags :=
  let v := codeVal src x
  match scale with
  | none => convert dst sat mode v
  | some sc =>
    if Checks.scaledFmt dst then
      if sc = 0xFF ∨ v.isNan then
        if dst = 3 ∨ dst = 4 then ((fmtOf dst).nanBits, { nv := v.isSig }) else (0, { nv := true })
      else convert dst sat mode (v.scale (127 - (sc : Int)))
    else if sc = 0xFF ∨ v.isNan then ((fmtOf dst).nanBits, { nv := v.isSig })
    else convert dst sat mode (v.scale ((sc : Int) - 127))

/-- `floor_log2` of a nonzero magnitude `m × 2^e`. -/
def floorLog2 (m : Nat) (e : Int) : Int := e + bitLen m - 1

/-- The emax of an element format (R204). -/
def emaxOf (c : Nat) : Int :=
  match c with
  | 3 => 8
  | 4 => 15
  | 5 => 2
  | 8 => 6
  | _ => 2

/-- `scale_byte` (R204) of the largest magnitude among values. -/
def scaleByte (l : List FVal) (emax : Int) : Nat :=
  if l.any (fun v => v.isNan || v.isInf) then 0xFF
  else
    let tops := l.filterMap (fun v => match v with
      | .fin _ m e => if m = 0 then none else some (floorLog2 m e)
      | _ => none)
    match tops with
    | [] => 0
    | t :: ts => (max (-127) (min 127 (ts.foldl max t - emax)) + 127).toNat

/-! ### Special functions (R207) -/

/-- The integer square root, by `n` binary digits from the top. -/
def isqrt (x : Nat) : Nat → Nat → Nat
  | 0, r => r
  | n + 1, r => if (r + 2 ^ n) * (r + 2 ^ n) ≤ x then isqrt x n (r + 2 ^ n) else isqrt x n r

/-- A magnitude with one more digit that says whether something lies beyond it. -/
def sticky (q : Nat) (more : Bool) (e : Int) : Nat × Int := (2 * q + b2n more, e - 1)

/-- 1/x of a nonzero magnitude. -/
def rcpMag (m : Nat) (e : Int) : Nat × Int := sticky (2 ^ 80 / m) (decide (2 ^ 80 % m ≠ 0)) (-80 - e)
/-- √x of a nonzero magnitude. -/
def sqrtMag (m : Nat) (e : Int) : Nat × Int :=
  let (m, e) := if e % 2 = 0 then (m, e) else (2 * m, e - 1)
  let r := isqrt (m * 2 ^ 80) 60 0
  sticky r (decide (r * r ≠ m * 2 ^ 80)) (e / 2 - 40)
/-- 1/√x of a nonzero magnitude. -/
def rsqMag (m : Nat) (e : Int) : Nat × Int :=
  let (m, e) := if e % 2 = 0 then (m, e) else (2 * m, e - 1)
  let r := isqrt (2 ^ 160 / m) 84 0
  sticky r (decide (r * r * m ≠ 2 ^ 160)) (-80 - e / 2)

/-- Binary digits of the fixed-point arithmetic behind `vexp2` (assumption log 19). -/
def fixP : Nat := 200
/-- ln 2 in units of 2^−200, from the series of 1/(k 2^k). -/
def ln2Fix : Nat := (List.range 220).foldl (fun a k => a + 2 ^ fixP / ((k + 1) * 2 ^ (k + 1))) 0
/-- e^y in units of 2^−200 for 0 ≤ y < 1 in the same units. -/
def expFix (y : Nat) : Nat :=
  ((List.range 60).foldl (fun (a : Nat × Nat) k =>
    let t := a.2 * y / 2 ^ fixP / (k + 1)
    (a.1 + t, t)) (2 ^ fixP, 2 ^ fixP)).1

/-- `vexp2` of a finite nonzero value: exact for integers, else 2^x from fixed-point arithmetic with a digit that
says that the value is not exact (R207). -/
def exp2Val (neg : Bool) (m : Nat) (e : Int) : FVal :=
  if 8 < floorLog2 m e then (if neg then .fin false 1 (-1000) else .fin false 1 1000)
  else
    let k := (max 0 (-e)).toNat
    let x : Int := (if neg then -1 else 1) * ((m * 2 ^ (max 0 e).toNat : Nat) : Int)
    let n := x / (2 : Int) ^ k
    let f := (x % (2 : Int) ^ k).toNat
    if f = 0 then .fin false 1 n
    else
      let y := f * ln2Fix / 2 ^ k
      let q := sticky (min (expFix y) (2 ^ (fixP + 1) - 1)) true (n - fixP)
      .fin false q.1 q.2

/-- `k` binary digits of log2 of `t / 2^256`, for 1 ≤ t / 2^256 < 2, by repeated squaring. -/
def log2Digits : Nat → Nat → Nat → Nat
  | 0, _, acc => acc
  | k + 1, t, acc =>
    let u := t * t / 2 ^ 256
    if 2 ^ 257 ≤ u then log2Digits k (u / 2) (2 * acc + 1) else log2Digits k u (2 * acc)

/-- `vlog2` of a positive magnitude (R207). -/
def log2Val (m : Nat) (e : Int) : FVal :=
  let top := floorLog2 m e
  let t := m * 2 ^ (256 - (bitLen m - 1))
  if t = 2 ^ 256 then .fin (decide (top < 0)) top.natAbs 0
  else
    let v : Int := top * (2 : Int) ^ 100 + (log2Digits 100 t 0 : Nat)
    if 0 ≤ v then .fin false (2 * v.natAbs + 1) (-101) else .fin true (2 * v.natAbs - 1) (-101)

/-- The five special functions. -/
inductive Sfu where
  | rcp | rsq | sqrt | exp2 | log2
  deriving DecidableEq, Repr

/-- The special-function result of an FP32 element, rounded once under RNE, and its flags (R201, R207). -/
def sfu (k : Sfu) (x : Nat) : Nat × Flags :=
  let v := fp32.val x
  let nan : Nat × Flags := (fp32.nanBits, { nv := true })
  let mag := fun (neg : Bool) (r : Nat × Int) => fp32.roundFin false 0 neg r.1 r.2
  match v with
  | .nan s => (fp32.nanBits, { nv := s })
  | .inf n =>
    match k with
    | .rcp => (fp32.signed n 0, {})
    | .rsq => if n then nan else (0, {})
    | .sqrt => if n then nan else (0x7F800000, {})
    | .exp2 => if n then (0, {}) else (0x7F800000, {})
    | .log2 => if n then nan else (0x7F800000, {})
  | .fin n m e =>
    if m = 0 then
      match k with
      | .rcp | .rsq => (fp32.signed n 0x7F800000, { dz := true })
      | .sqrt => (fp32.signed n 0, {})
      | .exp2 => (0x3F800000, {})
      | .log2 => (0xFF800000, { dz := true })
    else
      match k with
      | .rcp => mag n (rcpMag m e)
      | .rsq => if n then nan else mag false (rsqMag m e)
      | .sqrt => if n then nan else mag false (sqrtMag m e)
      | .exp2 => fp32.round false 0 (exp2Val n m e) false
      | .log2 => if n then nan else fp32.round false 0 (log2Val m e) false

/-! ### Probability format and fixed-point exponents (R208) -/

/-- A QP value: zero, or `2^i × (1 + f/4)`. -/
inductive QP where
  | zero
  | pow (i : Int) (f : Nat)
  deriving DecidableEq, Repr

/-- `floor_q16` of a finite value (R208). -/
def floorQ16 (v : FVal) : Int :=
  match v with
  | .fin n m e =>
    let k := e + 16
    let big := decide (60 < floorLog2 m k) && decide (m ≠ 0)
    let x : Int := if big then 2 ^ 61 else if 0 ≤ k then (m * 2 ^ k.toNat : Nat) else 0
    let y : Int :=
      if big then (if n then -x else x)
      else if 0 ≤ k then (if n then -x else x)
      else (if n then -((m : Int)) else m) / (2 : Int) ^ (-k).toNat
    max (-(2 ^ 27)) (min (2 ^ 27 - 1) y)
  | .inf n => if n then -(2 ^ 27) else 2 ^ 27 - 1
  | .nan _ => 0

/-- `qp_from_q16` (R208). -/
def qpOf (x : Int) : QP :=
  let i := x / 65536
  let phi := x % 65536
  let (i, f) := if phi < 11136 then (i, 0) else if phi < 30109 then (i, 1) else if phi < 45904 then (i, 2)
    else if phi < 59434 then (i, 3) else (i + 1, 0)
  if i < -126 then .zero else .pow i f

/-- A QP value as an exact value: `(4 + f) × 2^(i − 2)`. -/
def QP.val : QP → FVal
  | .zero => .fin false 0 0
  | .pow i f => .fin false (4 + f) (i - 2)

end Sys2Proof.Machine
end

