-- ==== Sys2Proof/Machine/Check.lean ====
section
/-!
DEFINITION. The check of written elements by range registers (R260, R262 to R264): layout of a range register, the check of an
element, and the verdict on the results of an instruction, an engine or a copy.
-/
namespace Sys2Proof.Machine

/-! ### Layout (R260) -/

/-- MODE of a descriptor. -/
def bdMode (d : Word) : Nat := bits d 58 3
/-- KIND of a descriptor. -/
def bdKind (d : Word) : Nat := bits d 53 2
/-- FIRST of a descriptor. -/
def bdFirst (d : Word) : Nat := bits d 0 11
/-- LAST of a descriptor. -/
def bdLast (d : Word) : Nat := bits d 12 11

/-- A range register covers register, tile or slot number `n` (R260, R262). -/
def bdCovers (d : Word) (kind n : Nat) : Bool :=
  decide (bdMode d ≠ 0) && decide (bits d 53 3 = kind) && decide (bdFirst d ≤ n) &&
  decide (n ≤ if kind = 0 then bdLast d else bdFirst d)

/-- The descriptor lies within R260. -/
def bdValid (d : Word) : Bool :=
  decide (bits d 61 3 = 0) && decide (bdMode d ≤ 4) && decide (bits d 53 3 ≤ 2) && decide (bits d 27 26 = 0) &&
  decide (bits d 11 1 = 0) &&
  (match bits d 53 3 with
    | 0 => decide (bits d 23 4 = 0) && decide (bdFirst d ≤ bdLast d) && decide (bdLast d ≤ 1535)
    | 1 => decide (bits d 23 4 = 0) && decide (bdLast d = 0) && decide (bdFirst d ≤ 4)
    | _ => decide (bits d 23 4 ≤ 5) && decide (bdLast d = 0) && decide (bdFirst d ≤ 15))

/-- The bounds are numbers in order (R260). -/
def bdBounds (b : Word) : Bool :=
  let lo := fp32.val (bits b 0 32)
  let hi := fp32.val (bits b 32 32)
  !lo.isNan && !hi.isNan && !flt hi lo

/-! ### The check (R262) -/

/-- A cause that an element raised: 8, 9, or 0 for a retry; the range register, the lane, the element, the
destination, and the unchecked bits (R264). -/
structure Raise where
  cause : Nat
  bd : Nat
  lane : Nat
  elem : Nat
  dest : Nat
  value : Nat
  deriving DecidableEq, Repr

/-- The outcome of checks: the value written, the range registers hit, and what was raised. -/
structure Checked where
  value : Nat
  hits : List Nat := []
  raised : List (Nat × Nat) := []
  deriving DecidableEq, Repr

/-- One range register's check of an element (R262). -/
def checkOne (f : Fmt) (c : Checked) (k : Nat) (d b : Word) : Checked :=
  let x := f.val c.value
  let lo := fp32.val (bits b 0 32)
  let hi := fp32.val (bits b 32 32)
  if x.isNan || x.isInf then
    if d.getLsbD 57 then { c with raised := c.raised ++ [(9, k)] } else { c with hits := k :: c.hits }
  else if flt x lo || flt hi x then
    match bdMode d with
    | 1 => { c with hits := k :: c.hits }
    | 2 => { c with hits := k :: c.hits, value := (f.round false 0 (if flt x lo then lo else hi) false).1 }
    | 3 => { c with raised := c.raised ++ [(8, k)] }
    | _ => { c with raised := c.raised ++ [(0, k)] }
  else c

/-- The check of an element written in format `f` to destination `n` of a kind (R262). -/
def Group.checkElem (g : Group) (kind n : Nat) (f : Fmt) (x : Nat) : Checked :=
  g.bd.foldl (fun c e => if bdCovers e.2.1 kind n then checkOne f c e.1 e.2.1 e.2.2 else c) { value := x }

/-- The checks of a part: the word written, hits and raises. -/
def Group.checkPart (g : Group) (kind dest : Nat) (p : Part) : Word × List Nat × List Raise :=
  let w := p.fmt.width
  (List.range p.cnt).foldl (fun acc e =>
    let x := getE w e acc.1
    let c := g.checkElem kind dest p.fmt x
    (w64 (acc.1.toNat - x * 2 ^ (w * e) + c.value % 2 ^ w * 2 ^ (w * e)), c.hits ++ acc.2.1,
      acc.2.2 ++ c.raised.map (fun r => ⟨r.1, r.2, p.lane, e, dest, x⟩))) (p.word, [], [])

/-- What an instruction's checked results come to (R263). -/
inductive Verdict where
  | write (parts : List Part) (hits : List Nat)
  | raise (cause : Nat) (lanes : Mask) (x : Word)
  | retry
  deriving DecidableEq, Repr

/-- TRAPX of causes 0x08 and 0x09 (R264). -/
def raiseX (r : Raise) : Word :=
  w64 (r.bd * 2 ^ 59 + r.elem % 16 * 2 ^ 55 + r.dest % 2 ^ 11 * 2 ^ 44 + r.value % 2 ^ 32)

/-- The first of several raises, in the order of R264. -/
def firstRaise (rs : List Raise) : Option Raise :=
  minBy (fun r => r.lane * 2 ^ 30 + r.dest * 2 ^ 16 + r.elem * 2 ^ 8 + r.bd) rs

/-- The verdict on the raises of a result; `seen` says that the split has been restarted by a retry (R263). -/
def judge (seen : Bool) (rs : List Raise) : Option Verdict :=
  let pick := fun (cause kind : Nat) =>
    let mine := rs.filter (fun r => r.cause == kind)
    (firstRaise mine).map (fun r => Verdict.raise cause (maskList (mine.map (fun q => q.lane))) (raiseX r))
  (pick 8 8).or ((pick 9 9).or (if rs.isEmpty then none else if seen then pick 8 0 else some .retry))

/-- The verdict on the parts of an instruction's result, written to destinations of a kind; `seen` says that the split has been
restarted in its region (R262, R263). -/
def Group.verdict (g : Group) (seen : Bool) (kind : Nat) (dest : Part → Nat) (ps : List Part) : Verdict :=
  if g.bd.isEmpty then .write ps []
  else
    let cs := ps.map (fun p => (p, g.checkPart kind (dest p) p))
    match judge seen (cs.flatMap (fun c => c.2.2.2)) with
    | some v => v
    | none => .write (cs.map (fun c => { c.1 with word := c.2.1 })) (cs.flatMap (fun c => c.2.2.1))

/-- The verdict on the parts of the result of the issuing split. -/
def Issue.verdict (i : Issue) (g : Group) (kind : Nat) (dest : Part → Nat) (ps : List Part) : Verdict :=
  g.verdict i.sp.restarted kind dest ps

/-- The group with HIT set in range registers (R263). -/
def Group.markHits (g : Group) (hits : List Nat) : Group :=
  { g with bd := hits.foldl (fun m k =>
      let b := Sparse.getD m k (0, 0)
      Sparse.set m k (setBits b.1 56 1 1, b.2)) g.bd }

/-- The registers of a result, `z` left out, in order of their first part. -/
def partRegs (ps : List Part) : List Nat := ((ps.map (fun p => p.reg)).filter (fun r => r != zReg)).eraseDups

/-- The words of a result by register key, `z` left out. -/
def partData (ps : List Part) : Sparse Word :=
  (ps.filter (fun q => q.reg != zReg)).map (fun q => (vkey q.reg q.lane, q.word))

/-- A range register whose check can trap or restart covers a checked part of the result, so that the split holds until the check
is done (R263). -/
def Group.guards (g : Group) (ps : List Part) : Bool :=
  g.bd.any (fun e => (decide (3 ≤ bdMode e.2.1) || e.2.1.getLsbD 57) &&
    ps.any (fun p => decide (0 < p.cnt) && bdCovers e.2.1 0 p.reg))

/-- The verdict of R263 at the batch of an engine or copy write (KIND 1 and 2): elements with their format, written
as the check returns them, with the lowest cause raised and its TRAPX. -/
def Group.checkWrites (g : Group) (kind dest : Nat) (f : Fmt) (xs : List Nat) : List Nat × List Nat × Option (Nat × Word) :=
  if g.bd.isEmpty then (xs, [], none)
  else
    let cs := xs.map (fun x => (x, g.checkElem kind dest f x))
    let rs := cs.flatMap (fun c => c.2.raised.map (fun r => (⟨r.1, r.2, 0, 0, dest, c.1⟩ : Raise)))
    let pick := fun (kind : Nat) => ((rs.filter (fun r => r.cause == kind)).head?).map (fun r => (kind, raiseX r))
    (cs.map (fun c => c.2.value), cs.flatMap (fun c => c.2.hits), (pick 8).or ((pick 9).or (pick 0)))

end Sys2Proof.Machine
end

