-- ==== Sys2Proof/Machine/Ops.lean ====
section
/-!
DEFINITION. The shared operations of the machine: results and their write-back (R37, R167), the end of blocks
and grids (R149, R150), termination (R346), rollback (R360, R361), taking a trap (R343) and returning (R345).
-/
namespace Sys2Proof.Machine

/-! ### Memory of a context, reached by the device itself (R132, R140) -/

/-- `n` bytes at virtual `va`, translated from the root of the context with Q (R25, R140). -/
def State.readCtx (s : State) (ctx va n : Nat) : Except XErr (List Byte) :=
  (pagesOf va n).foldl (fun acc pg =>
    match acc with
    | .error e => .error e
    | .ok bs =>
      match s.fresh? ctx .copy [.q] pg.1 with
      | .error e => .error e
      | .ok x =>
        match s.readXl .copy pg.1 x pg.2 with
        | .error e => .error e
        | .ok b => .ok (bs ++ b)) (.ok [])

/-- `s` after the device has walked to `va` in context `ctx`, with requests of its default class. -/
def State.walkTouch (s : State) (ctx va : Nat) : State :=
  (s.rootPas ctx va).foldl (fun t a => State.serveRead t (State.defaultClass t ctx) a 8) s

/-- `s` after the requests of `readCtx` have been served (R60 to R64, R74). -/
def State.touchCtx (s : State) (ctx va n : Nat) : State :=
  (pagesOf va n).foldl (fun t pg =>
    let u := State.walkTouch t ctx pg.1
    match State.fresh? t ctx .copy [.q] pg.1 with
    | .error _ => u
    | .ok x => u.readTouch (u.defaultClass ctx) x pg.2 []) s

/-- `s` after the device writes bytes at virtual `va` with W. -/
def State.writeCtx (s : State) (ctx va : Nat) (bs : List Byte) : Except XErr State :=
  (pagesOf va bs.length).foldl (fun acc pg =>
    match acc with
    | .error e => .error e
    | .ok t =>
      match s.fresh? ctx .copy [.w] pg.1 with
      | .error e => .error e
      | .ok x => (t.walkTouch ctx pg.1).writeXl .copy (t.defaultClass ctx) pg.1 x ((bs.drop (pg.1 - va)).take pg.2)) (.ok s)

/-! ### Checkpoint bookkeeping (R360) -/

/-- Bytes of the rollback span of a core in a context (R359). -/
def State.rbBytes (s : State) (ctx core : Nat) : Nat :=
  let w := s.ctxReg ctx 0x164
  let off := bits w 0 6
  let size := bits w 8 6
  let lo := core % 24 * sliceBytes + off * 65536
  let base := s.spBase ctx (dieOf core)
  if 48 < off + size ∨ lo < base ∨ base + s.spExtent ctx (dieOf core) < lo + size * 65536 then 0 else size * 65536

/-- `s` after register `r` of group `gid` is about to be written: the first write since the checkpoint takes
256 bytes of the span, and a full span makes the checkpoint invalid. -/
def State.keepReg (s : State) (gid r : Nat) : State :=
  match s.groups.get? gid with
  | none => s
  | some g =>
    match s.blocks.get? g.bid with
    | none => s
    | some b =>
      match b.checkpoint with
      | none => s
      | some c =>
        if c.regsKept.contains (gid, r) then s
        else
          let used := c.used + 256
          s.setBlock g.bid { b with checkpoint := some { c with
            regsKept := (gid, r) :: c.regsKept, used := used
            valid := c.valid && decide (used ≤ s.rbBytes b.ctx b.core) } }

/-- As `keepReg` for the 128-byte lines that `n` bytes of shared memory at `o` touch. -/
def State.keepLines (s : State) (bid o n : Nat) : State :=
  match s.blocks.get? bid with
  | none => s
  | some b =>
    match b.checkpoint with
    | none => s
    | some c =>
      let ls := ((List.range ((o + n + 127) / 128 - o / 128)).map (fun j => o / 128 + j)).filter
        (fun l => !c.linesKept.contains l)
      let used := c.used + 128 * ls.length
      s.setBlock bid { b with checkpoint := some { c with
        linesKept := ls ++ c.linesKept, used := used
        valid := c.valid && decide (used ≤ s.rbBytes b.ctx b.core) } }

/-- A store to shared memory by an instruction or a copy: the checkpoint keeps the lines, then the write. -/
def State.shmStore (s : State) (bid o : Nat) (bs : List Byte) : State :=
  if bs.isEmpty then s else (s.keepLines bid o bs.length).shmWrite bid o bs

/-! ### Atomics on their way (R106, R113) -/

/-- The atomics of a group that wait at a service group, as die and elements (R49). -/
def State.svcAtomics (s : State) (gid : Nat) : List (Nat × AtomOp × List Elem) :=
  s.dies.flatMap (fun d => d.2.slices.flatMap (fun k => k.2.all.filterMap (fun q => match q with
    | .atomic _ g _ _ _ op es => if g = gid then some (d.1, op, es) else none
    | _ => none)))

/-- The operation is an atomic of this group. -/
def MemReq.atomicOf (r : MemReq) (gid : Nat) : Bool :=
  match r.op with
  | .atomic g _ _ _ _ => g == gid
  | _ => false

/-- Requests of main memory on their way, routed ones and those whose completion has not arrived included (R61, R81). -/
def State.inFlight (s : State) : List MemReq :=
  s.requests ++ s.migs.flatMap (fun m => m.2.queue) ++ s.completions.map (fun c => c.req)

/-- A release or fence of a split, or a merge or serial switch of its group (R120), waits (R113): an atomic of the group has not
been performed, or a main-memory atomic or reduction of the group has not completed. Splits divide and merge, and the order goes with their lanes (R106, R120), so every
split of the group waits, which only delays it (assumption log 113). -/
def State.unperformed (s : State) (gid : Nat) : Bool :=
  !(s.svcAtomics gid).isEmpty || s.inFlight.any (fun r => !r.lost && r.atomicOf gid) ||
  s.copies.any (fun c => c.gid == gid && c.reduce && c.dsp == 4 && !c.finished)

/-! ### Outstanding results (R37, R167) -/

/-- The result belongs to split `sid`: lanes of it lie there now, or, where no split has them, the split issued it (R144, R145). -/
def Pend.of (p : Pend) (g : Group) (sid : Nat) (sp : Split) : Bool :=
  if g.splits.any (fun e => decide (e.2.mask &&& p.lanes ≠ 0)) then decide (sp.mask &&& p.lanes ≠ 0) else p.sid == sid

/-- The lowest split that has lanes of `m`; `sid` where none has (R144, R145). -/
def Group.splitOf (g : Group) (sid : Nat) (m : Mask) : Nat :=
  ((g.splits.find? (fun e => decide (e.2.mask &&& m ≠ 0))).map (fun e => e.1)).getD sid

/-- The split that a result belongs to, the lowest. -/
def Group.owner (g : Group) (p : Pend) : Nat := g.splitOf p.sid p.lanes

/-- The split has a result outstanding that a park or a trap waits for (R167). -/
def Group.outstanding (g : Group) (sid : Nat) : Bool :=
  match g.splits.get? sid with
  | none => false
  | some sp => g.outs.any (fun p => p.of g sid sp)

/-- Return slots in use on a core (R51). -/
def State.retSlots (s : State) (core : Nat) : Nat :=
  (s.groups.filter (fun e => e.2.core == core)).foldl (fun n e =>
    n + (e.2.outs.filter (fun p => p.ret)).length +
    (e.2.splits.filter (fun f => match f.2.wait with
      | .bench _ _ _ none => true
      | .wmon true _ none => true
      | _ => false)).length) 0

/-- Writes lanes of vector registers, by register key (R37). -/
def Group.vputs (g : Group) : Sparse Word → Group
  | [] => g
  | (k, w) :: t => Group.vputs { g with v := g.v.set k w } t

/-- What the lanes of a result become: its data, or free values where an overlapping write has made the
destination undefined (R240), in those lanes. -/
def Pend.values (p : Pend) : Sparse Word :=
  if p.undef = 0 then p.data
  else p.data.map (fun e => (e.1, if lane p.undef (e.1 % 32) then Config.freeWord (pendOcc p.id) e.1 else e.2))

/-- Lanes `m` of registers have been written by split `sid`, no `fence.op` since (R127): the last write of a lane counts. -/
def dirtied (d : List (Nat × Nat × Mask)) (sid : Nat) (regs : List Nat) (m : Mask) : List (Nat × Nat × Mask) :=
  regs.foldl (fun a r =>
    let old := a.foldl (fun (x : Mask) e => if e.1 = sid ∧ e.2.1 = r then x ||| e.2.2 else x) 0
    let rest := a.filterMap (fun e =>
      if e.2.1 ≠ r then some e
      else if e.1 = sid ∨ e.2.2 &&& ~~~ m = 0 then none
      else some (e.1, r, e.2.2 &&& ~~~ m))
    (sid, r, old ||| m) :: rest) d

/-- What splits `ks` have written in lanes `m` counts as written by `k`, which goes on with those lanes (R127, R144, R145). -/
def moveDirty (d : List (Nat × Nat × Mask)) (ks : List Nat) (m : Mask) (k : Nat) : List (Nat × Nat × Mask) :=
  d.flatMap (fun e =>
    if ks.contains e.1 ∧ e.2.2 &&& m ≠ 0 then
      (k, e.2.1, e.2.2 &&& m) :: (if e.2.2 &&& ~~~ m = 0 then [] else [(e.1, e.2.1, e.2.2 &&& ~~~ m)])
    else [e])

/-- An operation of the group that no `bwait` has covered reads register `r` (R128). -/
def Group.engineReg (g : Group) (r : Nat) : Bool := g.ops.any (fun o => o.regs.contains r)

/-- The group after registers that its engine operations read are written: what those operations read, and what the
registers hold, is undefined (R127, R128). -/
def Group.spoil (g : Group) (regs : List Nat) : Group :=
  if g.ops.any (fun o => o.regs.any regs.contains) then
    { g with ops := g.ops.map (fun o => if o.regs.any regs.contains then { o with spoilt := true } else o) }
  else g

/-! ### Slots, blocks, grids -/

/-- An operand slot after its owner releases it or ends: deferred while readers remain (R53). -/
def Slot.release (x : Slot) : Slot := if x.readers = 0 then Slot.init else { x with rel := true }

/-- `s` after every operand slot of group `gid` is released (R53, R149). -/
def State.releaseSlots (s : State) (core gid : Nat) : State :=
  s.modCore core (fun c => { c with slots := c.slots.map (fun e =>
    (e.1, if e.2.st ≠ .free ∧ e.2.owner = gid then e.2.release else e.2)) })

/-- The first waiting lease request is granted when no lease is active (R173). -/
def State.leaseNext (s : State) (core : Nat) : State :=
  let c := s.core core
  match c.lease, c.leaseReqs with
  | none, (gid, n) :: rest => s.setCore core { c with lease := some ⟨gid, n, s.time⟩, leaseReqs := rest }
  | _, _ => s

/-- The first waiting bond becomes active when no bond is (R297). -/
def State.bondNext (s : State) (core : Nat) : State :=
  let c := s.core core
  match c.bond, c.bondReqs with
  | none, b :: rest => s.setCore core { c with bond := some b, bondReqs := rest }
  | _, _ => s

/-- `s` without what the engine arbiter and the monitor tables hold for group `gid`; a lease or bond that waited becomes active
(R173, R297). -/
def State.forgetGroup (s : State) (core gid : Nat) : State :=
  let t := s.modCore core (fun c => { c with
    lease := match c.lease with
      | some l => if l.gid = gid then none else some l
      | none => none
    leaseReqs := c.leaseReqs.filter (fun r => r.1 != gid)
    bond := match c.bond with
      | some b => if b.gid = gid then none else some b
      | none => none
    bondReqs := c.bondReqs.filter (fun b => b.gid != gid)
    monitors := c.monitors.filter (fun m => m.gid != gid)
    replies := c.replies.filter (fun r => match r with
      | .wmon g _ _ => g != gid
      | _ => true) })
  let t := (t.leaseNext core).bondNext core
  t.modDie (dieOf core) (fun d => { d with slices := d.slices.map (fun e =>
    (e.1, { e.2.keepReqs (fun q => match q with
        | .wmon g _ _ _ _ => g != gid
        | _ => true) with monitors := e.2.monitors.filter (fun m => m.gid != gid) })) })

/-- USED of VFSLICE returns to 0 when the context has no resident group (R380). -/
def State.sliceUnused (s : State) (ctx : Nat) : State :=
  if bits (s.ctxReg ctx 0x16B) 32 32 = 0 ∨ s.groups.any (fun e => e.2.ctx == ctx && e.2.status != .evicted) then s
  else s.setCtxReg ctx 0x16B (setBits (s.ctxReg ctx 0x16B) 32 32 0)

/-- `s` after the save record and the staging area that a group still has are free (R352). -/
def State.freePlaces (s : State) (g : Group) : State :=
  match g.handler.or (if g.status == .evicted then none else g.saved) with
  | none => s
  | some h =>
    let c := s.ctx g.ctx
    s.setCtx g.ctx { c with
      recordsUsed := c.recordsUsed.filter (fun r => r != h.record)
      stagesUsed := c.stagesUsed.filter (fun e => e != (dieOf g.core, h.stage)) }

/-- `s` without group `gid` (R149): its slots are released, the places of an eviction that it has not come to are free, and its copies
are forgotten once they have finished. -/
def State.removeGroup (s : State) (gid : Nat) : State :=
  match s.groups.get? gid with
  | none => s
  | some g =>
    let t := ((s.releaseSlots g.core gid).forgetGroup g.core gid).freePlaces g
    State.sliceUnused { t with
      groups := t.groups.erase gid
      copies := t.copies.filter (fun c => !(c.gid == gid && c.finished)) } g.ctx

/-- A tile after its block has gone: free, or kept until the operations that use it retire (R149, R346). -/
def Tile.drop (x : Tile) : Tile := if x.busy = 0 then Tile.init else x

/-- `s` without block `bid`: its tiles, watched phases, spawn items, bins and formed groups (R149). An attention operation of
it that runs on keeps its work area (R346). -/
def State.removeBlock (s : State) (bid : Nat) : State :=
  match s.blocks.get? bid with
  | none => s
  | some b =>
    let t := s.modCore b.core (fun c => { c with
      tiles := c.tiles.map (fun e => (e.1, if e.2.owner = some bid then e.2.drop else e.2))
      monitors := c.monitors.filter (fun m => m.bid != bid)
      watch := c.watch.filter (fun w => w.bid != bid)
      spawnQ := c.spawnQ.filter (fun x => x.bid != bid)
      bins := c.bins.filter (fun x => x.bid != bid)
      formed := c.formed.filter (fun x => x.bid != bid)
      attnRun := c.attnRun.map (fun r => if r.op.bid = bid then { r with shm := some b.shm } else r) })
    { t with blocks := t.blocks.erase bid }

/-- Byte address of node `j`'s completion word (R157). -/
def completionAt (obj j : Nat) : Nat := obj + 0x40 + 128 * j + 0x40

/-- `s` after the grid of node `node` of a replay has retired: each successor's completion word rises by 1 (R132, R159). SUCC and
the successors are read again; an entry that cannot be read counts as node 0 (assumption log 120). -/
def State.nodeRetired (s : State) (ctx slot node : Nat) : State :=
  let x := s.tgSlot ctx slot
  match x.replay with
  | none => s
  | some r =>
    let nodes := (r.nodes.zip (List.range r.nodes.length)).map (fun e =>
      if e.2 = node then { e.1 with retired := true } else e.1)
    let t := s.setTgSlot ctx slot { x with replay := some { r with nodes := nodes } }
    let rec128 := (r.nodes.map (fun n => n.image)).getD node []
    let nsucc := leNat ((rec128.drop 0x4A).take 2)
    let first := leNat ((rec128.drop 0x4C).take 4)
    let succ := match t.readCtx ctx (r.obj + 8) 8 with
      | .ok bs => leNat bs
      | .error _ => 0
    let t := (t.touchCtx ctx (r.obj + 8) 8).touchCtx ctx (r.obj + succ + 2 * first) (2 * nsucc)
    (List.range nsucc).foldl (fun u k =>
      let j := match u.readCtx ctx (r.obj + succ + 2 * (first + k)) 2 with
        | .ok bs => leNat bs
        | .error _ => 0
      match u.readCtx ctx (completionAt r.obj j) 8 with
      | .error _ => u
      | .ok bs =>
        match u.writeCtx ctx (completionAt r.obj j) (leBytes 8 (leNat bs + 1)) with
        | .ok v => v
        | .error _ => u) t

/-- TGSTAT of a slot (R160). -/
def tgstat (slot : Nat) : Nat := 0x140 + slot

/-- `s` with the replay of a slot ended: DONE rises, and ERR is set with a CODE unless it is 0 (R160). -/
def State.replayEnd (s : State) (ctx slot code node : Nat) : State :=
  let w := s.ctxReg ctx (tgstat slot)
  let w := setBits w 0 32 (bits w 0 32 + 1)
  let w := if code = 0 then w else setBits (setBits (setBits w 63 1 1) 58 4 code) 42 11 node
  let x := s.tgSlot ctx slot
  let w := setBits w 53 3 (x.kicks.length - 1)
  (s.setCtxReg ctx (tgstat slot) w).setTgSlot ctx slot ⟨x.kicks.tail, none⟩

/-- `s` after the replay of a slot ends if every node's grid has retired (R159). -/
def State.replayCheck (s : State) (ctx slot : Nat) : State :=
  match (s.tgSlot ctx slot).replay with
  | none => s
  | some r => if r.nodes.all (fun n => n.retired) then s.replayEnd ctx slot 0 0 else s

/-- Splits that wait in `gwait` on grid `uid` become ready (R233). -/
def State.wakeGwait (s : State) (uid : Nat) : State :=
  s.wake (fun _ _ _ sp => match sp.wait with
    | .gwait u => u == uid
    | _ => false)

/-- Grid `uid` has a live child. -/
def State.liveChild (s : State) (uid : Nat) : Bool := s.grids.any (fun e => e.2.parent == some uid)

/-- Blocks of a grid. -/
def Grid.total (g : Grid) : Nat := g.gx * g.gy * g.gz

/-- `s` after grid `uid`, all of whose blocks have retired, drains or retires, and its parents after it (R150). -/
def State.gridDone (s : State) (uid : Nat) : Nat → State
  | 0 => s
  | n + 1 =>
    match s.grids.get? uid with
    | none => s
    | some g =>
      if s.liveChild uid then s.modGrid uid (fun x => { x with st := .draining })
      else
        let t := State.wakeGwait { s with grids := s.grids.erase uid } uid
        let t := match g.node with
          | some (slot, node) => (t.nodeRetired g.ctx slot node).replayCheck g.ctx slot
          | none => t
        match g.parent with
        | none => t
        | some p =>
          match t.grids.get? p with
          | some pg => if pg.st = .draining then t.gridDone p n else t
          | none => t

/-- `s` after block `bid` retires (R149). -/
def State.blockRetire (s : State) (bid : Nat) : State :=
  match s.blocks.get? bid with
  | none => s
  | some b =>
    let t := (s.removeBlock bid).modGrid b.grid (fun g => { g with retired := g.retired + 1 })
    match t.grids.get? b.grid with
    | none => t
    | some g => if g.retired = g.total then t.gridDone b.grid 11 else t

/-- `s` after block `bid` retires if every group has ended and no spawned item or packed group waits (R149). -/
def State.blockCheck (s : State) (bid : Nat) : State :=
  match s.blocks.get? bid with
  | none => s
  | some b =>
    let c := s.core b.core
    if b.begun && (s.groupsOf bid).isEmpty && !c.spawnQ.any (fun x => x.bid == bid) &&
        !c.bins.any (fun x => x.bid == bid) && !c.formed.any (fun x => x.bid == bid) then s.blockRetire bid
    else s

/-! ### Termination (R346) -/

/-- `s` after the batch operation `id` of group `gid` counts as complete. -/
def State.opDone (s : State) (gid id : Nat) : State :=
  s.modGroup gid (fun g => { g with ops := g.ops.map (fun o => if o.id = id then { o with done := true } else o) })

/-- A slot after one reading operation retires (R53). -/
def Slot.readerDone (x : Slot) : Slot :=
  let n := x.readers - 1
  if n = 0 then (if x.rel then Slot.init else { x with readers := 0, st := .claimed, prev := [] }) else { x with readers := n }

/-- M of a shape word (R293). -/
def shM (w : Word) : Nat := bits w 0 9

/-- The operand slots of a matrix operation. -/
def MatOp.slots (o : MatOp) : List Nat :=
  match o.kind with
  | .mzero => []
  | .smask => [o.slotA]
  | _ => if o.slotA = o.slotB then [o.slotA] else [o.slotA, o.slotB]

/-- `s` after tile `k` of core `c` is used by one operation less; a tile whose block has gone is freed. -/
def State.tileDone (s : State) (c k : Nat) : State :=
  let x := s.tileOf c k
  let x := { x with busy := x.busy - 1 }
  let gone : Bool := match x.owner with
    | some b => (s.blocks.get? b).isNone
    | none => true
  s.setTile c k (if x.busy == 0 && gone then Tile.init else x)

/-- `s` after a matrix operation lets go of its slots and its tile, and of its follower's when paired. -/
def State.matRelease (s : State) (o : MatOp) : State :=
  let t := o.slots.foldl (fun u k => u.setSlot o.core k (u.slotOf o.core k).readerDone) s
  let t := match o.kind with
    | .smask => t
    | _ => t.tileDone o.core o.tile
  match o.bond with
  | some b =>
    let u := t.setSlot (o.core + 1) b.slot (t.slotOf (o.core + 1) b.slot).readerDone
    if 128 < shM o.shape then u.tileDone (o.core + 1) b.tile else u
  | none => t

/-- `s` after an attention operation lets go of its slot and tile. -/
def State.attnRelease (s : State) (o : AttnOp) : State :=
  (s.setSlot o.core o.slotQ (s.slotOf o.core o.slotQ).readerDone).tileDone o.core o.tile

/-- `s` after the queued matrix and attention operations of context `ctx` on core `k` are cancelled (R346). -/
def State.cancelEngines (s : State) (ctx : Nat) (gids : List Nat) (k : Nat) : State :=
  let mine := (s.core k).matQ.filter (fun o => gids.contains o.gid)
  let attn := (s.core k).attnQ.filter (fun o => o.ctx == ctx)
  let t := s.modCore k (fun c => { c with
    matQ := c.matQ.filter (fun o => !gids.contains o.gid)
    attnQ := c.attnQ.filter (fun o => o.ctx != ctx) })
  attn.foldl (fun v o => State.attnRelease v o) (mine.foldl (fun v o => State.matRelease v o) t)

/-- A slice after the bench requests of groups that wait in its queue or its table, and the held deposits of a context, are gone
(R346). -/
def Slice.forget (x : Slice) (ctx : Nat) (gids : List Nat) : Slice :=
  { x.keepReqs (fun q => match q with
      | .bench r => (match r.who with
        | .split gid _ => !gids.contains gid
        | _ => true)
      | .withdraw gid _ _ => !gids.contains gid
      | _ => true) with
    parked := x.parked.filter (fun p => match p.who with
      | .split gid _ => !gids.contains gid
      | _ => true)
    held := x.held.filter (fun h => h.ctx != ctx) }

/-- Ends the work of context `ctx` (R346): its groups, blocks, grids, queued operations that have not begun
writing, parked requests, held deposits, frame caches and replays. -/
def State.stopContext (s : State) (ctx : Nat) : State :=
  let gids := (s.groups.filter (fun e => e.2.ctx == ctx)).map (fun e => e.1)
  let bids := (s.blocks.filter (fun e => e.2.ctx == ctx)).map (fun e => e.1)
  let cores := s.cores.map (fun e => e.1)
  let s := s.dropCopies ((s.copies.filter (fun c => c.ctx == ctx && !(c.wrote && !c.finished))).map (fun c => c.id))
  let t : State := { s with
    grids := s.grids.filter (fun e => e.2.ctx != ctx)
    dies := s.dies.map (fun e =>
      (e.1, { e.2 with slices := e.2.slices.map (fun f => (f.1, f.2.forget ctx gids)) })) }
  let t := cores.foldl (fun u k => u.cancelEngines ctx gids k) t
  let t := gids.foldl (fun u g => State.removeGroup u g) t
  let t := bids.foldl (fun u b => State.removeBlock u b) t
  let t := cores.foldl (fun u k => if (u.core k).frames.ctx = some ctx then u.emptyCache k else u) t
  let t := (t.ctx ctx).tg.foldl (fun u e => if e.2.replay.isSome then State.replayEnd u ctx e.1 5 0 else u) t
  t.setCtx ctx { t.ctx ctx with recordsUsed := [], stagesUsed := [] }

/-- Terminates a context and reports it in TERMREP (R346, R381). -/
def State.terminate (s : State) (ctx why cause : Nat) (pc x ts : Word) : State :=
  let v := s.ctxReg ctx 0x16C
  let w0 := w64 (2 ^ 63 + (if v.getLsbD 63 then 2 ^ 61 else bits v 61 1 * 2 ^ 61) + why * 256 + cause % 256)
  let t := (((s.setCtxReg ctx 0x16C w0).setCtxReg ctx 0x16D pc).setCtxReg ctx 0x16E x).setCtxReg ctx 0x16F ts
  State.stopContext { t with msix := t.msix ++ [⟨1, ctx⟩] } ctx

/-! ### Taking a trap (R343) and returning from one (R345) -/

/-- TRAPS of a split (R342). -/
def Group.identity (g : Group) (sid : Nat) : Word :=
  let sibs := (g.liveIds.filter (fun i => i != sid)).foldl (fun a i => a + 2 ^ i) 0
  w64 (g.core * 2 ^ 50 + g.gridId * 2 ^ 38 + g.slot * 2 ^ 34 + sibs * 2 ^ 30 + sid * 2 ^ 28)

/-- The trap registers of a split at a trap or halt (R342, R343); HND as it stands. -/
def Split.record (sp : Split) (g : Group) (sid : Nat) (r : TrapReq) : Split :=
  { sp with trap := { sp.trap with
      cause := BitVec.ofNat 8 r.cause
      trape := sp.region
      trapi := r.pc
      trapm := r.mask.setWidth 64
      trapx := r.x
      traps := g.identity sid } }

/-- The shadow of a split at trap entry (R343). -/
def Split.save (sp : Split) : Shadow :=
  ⟨sp.mask, sp.fmt, sp.cc, (List.range 4).map (fun k => sp.get (60 + k)),
    match sp.wait with
    | .barrier off ph _ bar => some (off, ph, bar)
    | _ => none⟩

/-- Entry of a handler (R343): shadow saved, HND set, FMT 0x38, PC at the vector. -/
def Split.enter (sp : Split) (vec : Word) : Split :=
  { sp.jump (w64 (bits vec 3 49 * 8)) with
    shadow := some sp.save
    fmt := 0x38
    trap := { sp.trap with hnd := true }
    parked := false, atRecord := false }

/-- A group as a rollback leaves it: registers, predicates and control state of the checkpoint `k`, with the
spill slots, unreported deferred events and armed causes of `g` (R361). -/
def Group.rolledBack (g k : Group) : Group :=
  { k with
    spill := g.spill, sb := [], outs := [], errs := [], opDirty := [], armed := g.armed, deferred := g.deferred
    ops := k.ops.map (fun o => { o with done := true }) }

/-- Rollback of a block to its checkpoint once its results and batches are complete (R361): registers, shared
memory and control state return, what is restored with fresh parity (R56), and every split resumes as released from the checkpoint's
`bar`. -/
def State.rollCheck (s : State) (bid : Nat) : State :=
  match s.blocks.get? bid with
  | none => s
  | some b =>
    match b.rolling, b.checkpoint with
    | true, some c =>
      if (s.groupsOf bid).all (fun e => e.2.outs.isEmpty && e.2.ops.all (s.opSettled e.2)) then
        let t := (s.groupsOf bid).foldl (fun u e =>
          match c.groups.get? e.1 with
          | some k =>
            let kept := (c.regsKept.filter (fun q => q.1 == e.1)).map (fun q => q.2)
            State.setGroup (State.groupClear u e.2 kept (k.splits.map (fun f => f.1))) e.1 (e.2.rolledBack k)
          | none => u) s
        let t := c.linesKept.foldl (fun u l => State.shmClear u b (128 * l) 128) t
        t.setBlock bid { b with shm := c.shm, rolling := false, checkpoint := some { c with failed := true } }
      else s
    | _, _ => s

/-- Splits `s` of group `gid` takes the trap `r` at once (R343, R344, R361): rollback, termination, or entry
of the handler. -/
def State.enterTrap (s : State) (gid sid : Nat) (r : TrapReq) : State :=
  match s.split? gid sid with
  | none => s
  | some (g, sp) =>
    let sp := { sp.record g sid r with pendTrap := none }
    let vec := s.ctxReg g.ctx 0x161
    let report := fun (why : Nat) => s.terminate g.ctx why r.cause r.pc r.x (g.identity sid)
    let normal := if sp.trap.hnd then report 1
      else if vec.getLsbD 63 then s.setGroup gid { g with splits := g.splits.set sid (sp.enter vec) }
      else report 0
    match s.blocks.get? g.bid with
    | some b =>
      if r.cause = 7 ∧ b.rb then
        match b.checkpoint with
        | some c =>
          if c.failed then report 2
          else if c.valid then (s.setBlock g.bid { b with rolling := true }).rollCheck g.bid
          else normal
        | none => normal
      else normal
    | none => normal

/-- The split stops for a halt with a fault pending (R351): the fault's values, CAUSE 0x10 and PEND; its PC is TRAPI. -/
def Split.haltFault (sp : Split) (g : Group) (sid : Nat) (r : TrapReq) : Split :=
  let here := sp.mid || !sp.code.isEmpty || decide (sp.pc ≠ r.pc)
  let sp := sp.record g sid r
  { sp with
    pc := r.pc, code := [], mid := here
    trap := { sp.trap with cause := 0x10, pend := BitVec.ofNat 8 r.cause }
    pendFault := some r, halted := true, haltReq := false, stepping := false, wait := .none, awake := false, atRecord := false }

/-- The key in `opDirty` of what the part of serial record `d` that does not run has written. -/
def partKey (d : Nat) : Nat := 4 + d

/-- The key in `opDirty` of what lanes that have exited have written. -/
def goneKey : Nat := 64

/-- Who has lanes `m` of a group, by the keys of `opDirty`: its splits, the part of a serial record that does not run, and those
that have exited. -/
def Group.holders (g : Group) (m : Mask) : List (Nat × Mask) :=
  let live := g.splits.map (fun e => (e.1, e.2.mask &&& m))
  let kept := (g.recs.filter (fun e => e.2.serial)).map (fun e =>
    (partKey e.1, (if e.2.fallStarted then e.2.takenMask else e.2.fallMask) &&& m))
  let gone := m &&& ~~~ ((live ++ kept).foldl (fun a e => a ||| e.2) 0)
  (live ++ kept ++ [(goneKey, gone)]).filter (fun e => decide (e.2 ≠ 0))

/-- The split stops for a debug halt at its instruction boundary (R362): CAUSE 0x10, nothing pending. -/
def Split.haltNow (sp : Split) (g : Group) (sid : Nat) : Split :=
  let x := sp.record g sid ⟨0x10, sp.pc, sp.mask, 0⟩
  { x with
    trap := { x.trap with pend := 0 }
    mid := sp.mid || !sp.code.isEmpty, code := []
    pendFault := none, halted := true, haltReq := false, stepping := false, wait := .none, awake := false }

/-- The step of a split ends: it is halted again, in its wait where its instruction waits (R363). -/
def Split.stepDone (sp : Split) (g : Group) (sid : Nat) : Split :=
  { sp.haltNow g sid with wait := sp.wait, awake := sp.awake, parked := false }

/-- The group after a result is written: destination lanes, sticky flags, scoreboard slot (R167, R201). -/
def Group.written (g : Group) (p : Pend) : Group :=
  let vals := if p.regs.any g.engineReg then
      p.values.map (fun e => (e.1, if g.engineReg (e.1 / 32) then Config.freeWord (pendOcc p.id) e.1 else e.2))
    else p.values
  let g := (g.vputs vals).spoil p.regs
  { g with
    gst := g.gst ||| p.flags
    opDirty := (g.holders p.lanes).foldl (fun d e => dirtied d e.1 p.regs e.2) g.opDirty
    outs := g.outs.filter (fun q => q.id != p.id)
    sb := match p.sb with
      | some k => g.sb.set k (g.sb.getD k 0 - 1)
      | none => g.sb }

/-- The split is to take the trap `r`: at once under a halt as a pending fault, else when its results are written (R343, R351). -/
def Split.meet (sp : Split) (g : Group) (sid : Nat) (r : TrapReq) : Split :=
  if sp.halted then { sp.haltFault g sid r with pendTrap := none }
  else
    { sp with
      pendTrap := some r, restartPend := false, awake := false, code := []
      wait := match sp.wait with
        | .barrier _ _ _ _ => sp.wait
        | _ => .none }

/-- The split is to restart at its region entry when its results are written (R349). -/
def Split.meetRestart (sp : Split) : Split :=
  { sp with restartPend := true, pendTrap := none, wait := .none, awake := false, code := [] }

/-- The verdict on a late result at its write-back, by the range registers as they stand then (R262, R263). -/
def Group.lateVerdict (g : Group) (p : Pend) : Verdict :=
  if p.checks.isEmpty then .write [] []
  else g.verdict ((g.splits.get? (g.owner p)).any (fun sp => sp.restarted)) 0 (fun q => q.reg) p.checks

/-- The group without the result `p`, which is not written (R263). -/
def Group.dropped (g : Group) (p : Pend) : Group :=
  { g with
    outs := g.outs.filter (fun q => q.id != p.id)
    sb := match p.sb with
      | some k => g.sb.set k (g.sb.getD k 0 - 1)
      | none => g.sb }

/-- The group with split `sid`, if it is still there, changed by `f`. -/
def Group.modSplit (g : Group) (sid : Nat) (f : Split → Split) : Group :=
  match g.splits.get? sid with
  | none => g
  | some sp => { g with splits := g.splits.set sid (f sp) }

/-- The group after the check of a result that a split waits for is done (R263). -/
def Group.checkedOff (g : Group) (p : Pend) : Group :=
  { g with splits := g.splits.map (fun e => (e.1, if e.2.checking = some p.id then { e.2 with checking := none } else e.2)) }

/-- `s` after the values of result `p` of group `gid` are written (R56, R167, R360). -/
def State.putResult (s : State) (gid : Nat) (p : Pend) : State :=
  let t := p.regs.foldl (fun u r => u.keepReg gid r) s
  let t := if t.parity.isEmpty then t
    else p.data.foldl (fun u e =>
      match u.groups.get? gid with
      | some g => u.regClear g (e.1 / 32) (e.1 % 32)
      | none => u) t
  t.modGroup gid (fun g => g.written p)

/-- `s` after the result `p` of group `gid` is checked and written (R262, R263). One that raises is not written, and its split is
to trap at its instruction or to restart. -/
def State.writeResult (s : State) (gid : Nat) (p : Pend) : State :=
  match s.groups.get? gid with
  | none => s
  | some g =>
    let t := if p.checks.isEmpty then s else s.setGroup gid (g.checkedOff p)
    let sid := g.owner p
    match g.lateVerdict p with
    | .write qs hits =>
      let q : Pend := if p.checks.isEmpty then p else { p with data := partData qs }
      (if hits.isEmpty then t else t.modGroup gid (fun h => h.markHits hits)).putResult gid q
    | .raise cause lanes x => t.modGroup gid (fun h =>
        (h.dropped p).modSplit sid (fun sp => sp.meet h sid ⟨cause, p.pc, lanes, x⟩))
    | .retry => t.modGroup gid (fun h =>
        (h.dropped p).modSplit sid (fun sp => { sp.meetRestart with restarted := true }))

/-- `s` after every result of split `sid` whose values have arrived is written. -/
def State.flush (s : State) (gid sid : Nat) : State :=
  match s.groups.get? gid with
  | none => s
  | some g => match g.splits.get? sid with
    | none => s
    | some sp => (g.outs.filter (fun p => p.of g sid sp && p.need == 0)).foldl (fun t p => t.writeResult gid p) s

/-- The split at its region entry (R349). -/
def Split.atRegion (sp : Split) : Split :=
  { sp.jump sp.region with restartPend := false, parked := false, atRecord := false }

/-- Split `sid` of group `gid`, its results written as far as they have arrived, takes the trap `r`: at once, or when the rest is
written; under a halt or a step the fault is left pending (R343, R351, R363). -/
def State.trapNow (s : State) (gid sid : Nat) (g : Group) (sp : Split) (r : TrapReq) : State :=
  if sp.haltReq || sp.stepping then
    s.setGroup gid { g with splits := g.splits.set sid { sp.haltFault g sid r with pendTrap := none } }
  else if g.outstanding sid then s.setGroup gid { g with splits := g.splits.set sid (sp.meet g sid r) }
  else s.enterTrap gid sid r

/-- Split `sid` of group `gid`, its results written as far as they have arrived, restarts: at once, or when the rest is written. -/
def State.restartNow (s : State) (gid sid : Nat) (g : Group) (sp : Split) : State :=
  s.setGroup gid { g with splits := g.splits.set sid (if g.outstanding sid then sp.meetRestart else sp.atRegion) }

/-- Split `sid` of group `gid` meets the trap `r` (R343): results that have arrived are written first. Where the check of one of
them has raised a trap or a restart, which comes earlier, that is taken (R263). -/
def State.takeTrap (s : State) (gid sid : Nat) (r : TrapReq) : State :=
  let t := s.flush gid sid
  match t.split? gid sid with
  | none => t
  | some (g, sp) =>
    if sp.restartPend then t.restartNow gid sid g sp else t.trapNow gid sid g sp (sp.pendTrap.getD r)

/-- Region restart (R349): no trap; the split goes to its region entry once its results are written, unless the check of one of
them has raised a trap. -/
def State.restart (s : State) (gid sid : Nat) : State :=
  let t := s.flush gid sid
  match t.split? gid sid with
  | none => t
  | some (g, sp) =>
    match sp.pendTrap with
    | some r => t.trapNow gid sid g sp r
    | none => t.restartNow gid sid g sp

/-- The split after `eret` restores the shadow (R345); the resume address is set beside it (R235). `free` are the lanes
that neither another split nor a divergence record holds: lane masks stay apart (R143). -/
def Split.leave (sp : Split) (free : Mask) : Split :=
  match sp.shadow with
  | none => { sp with trap := { sp.trap with hnd := false } }
  | some h => { (sp.putAll 60 h.scalars) with
      mask := (h.mask &&& free) ||| sp.mask, fmt := h.fmt, cc := h.cc, shadow := none
      trap := { sp.trap with hnd := false } }

/-- The split breaks off its clause at its PC; what is left of the clause is fetched again when it goes on (R235). -/
def Split.cut (sp : Split) : Split := { sp with mid := sp.mid || !sp.code.isEmpty, code := [] }

/-- `s` after a park, trap or restart of a split whose last result has been written goes on (R167, R343, R349). -/
def State.quiet (s : State) (gid sid : Nat) : State :=
  match s.split? gid sid with
  | none => s
  | some (g, sp) =>
    if g.outstanding sid then s
    else
      match sp.pendTrap with
      | some r => s.trapNow gid sid g sp r
      | none =>
        let goOn := fun (x : Split) => s.setGroup gid { g with
          splits := g.splits.set sid (if sp.stepping then x.stepDone g sid else { x with readyTime := s.time }) }
        if sp.restartPend then goOn sp.atRegion
        else if sp.parked then goOn { sp with parked := false }
        else s

/-- `s` after result number `k` of group `gid` is written back (R167). -/
def State.writeback (s : State) (gid k : Nat) : State :=
  match s.groups.get? gid with
  | none => s
  | some g =>
    match g.outs[k]? with
    | none => s
    | some p =>
      if p.need = 0 then
        ((g.splits.filter (fun e => p.of g e.1 e.2)).map (fun e => e.1)).foldl (fun t i => State.quiet t gid i) (s.writeResult gid p)
      else s

end Sys2Proof.Machine
end

