-- ==== Sys2Proof/Machine/Diverge.lean ====
section
/-!
DEFINITION. Splits and divergence records (R143 to R147): dividing, waiting at a record, merging, and lanes that exit.
-/
namespace Sys2Proof.Machine

/-- An empty split, of which every scalar is undefined. -/
def Split.blank (seed : Nat) (pc : Word) : Split where
  pc := pc
  hdr := pc
  code := []
  cls := 0
  mid := false
  mask := allLanes
  fmt := 0x38
  seed := seed
  s := []
  cc := []
  youngest := none
  atRecord := false
  region := pc
  restarted := false
  paritySeen := false
  wait := .none
  awake := false
  parked := false
  trap := ⟨0, false, 0, 0, 0, 0, 0, 0⟩
  shadow := none
  pendTrap := none
  restartPend := false
  watchdog := none
  haltReq := false
  halted := false
  stepping := false
  pendFault := none
  readyTime := 0
  wasReady := false
  roomSince := none
  checking := none

/-- The lowest split id a group has free, if any (R136, R144). -/
def Group.freeSplit (g : Group) : Option Nat :=
  (List.range 4).find? (fun i => (g.splits.get? i).isNone)

/-- The lowest divergence record a group has free, if any (R143). -/
def Group.freeRec (g : Group) : Option Nat :=
  (List.range 16).find? (fun i => (g.recs.get? i).isNone)

/-- A split that waits at record `d` (R145), with no trap or restart of its own to take first. -/
def Split.waitsAt (sp : Split) (d : Nat) : Bool :=
  sp.atRecord && sp.youngest == some d && sp.pendTrap.isNone && !sp.restartPend && sp.checking.isNone && sp.pendFault.isNone

/-- A split that may come to wait at a record: it stands at a clause boundary, and neither a check (R263), a trap nor a restart
comes first. -/
def Split.arrivable (sp : Split) : Bool :=
  sp.code.isEmpty && !sp.mid && !sp.atRecord && !sp.parked && sp.checking.isNone && sp.pendTrap.isNone && !sp.restartPend &&
  sp.pendFault.isNone

/-- The lanes a record still needs lie with splits that wait at it, or in the record itself (R145). -/
def Group.complete (g : Group) (d : Nat) (r : DivRec) : Bool :=
  let held := (g.splits.filter (fun e => e.2.waitsAt d)).foldl (fun m e => m ||| e.2.mask) (0 : Mask)
  let kept := if r.serial then (if r.fallStarted then r.takenMask else r.fallMask) else 0
  decide (held ≠ 0 ∨ r.fallStarted) && decide (r.members &&& ~~~ (held ||| kept) = 0)

/-- What split `sp` has of its own (R143). -/
def Split.part (sp : Split) : SplitPart :=
  ⟨sp.seed, sp.s, sp.cc, sp.trap, sp.region, sp.restarted, sp.paritySeen, sp.shadow⟩

/-- Split `sp` with what part `x` has of its own. -/
def Split.withPart (sp : Split) (x : SplitPart) : Split :=
  { sp with
    seed := x.seed, s := x.s, cc := x.cc, trap := x.trap, region := x.region
    restarted := x.restarted, paritySeen := x.paritySeen, shadow := x.shadow }

/-- The fall-through part of a serial record starts in split `sp`, with all that the split had at the `split` (R145, R146). -/
def Split.fallThrough (sp : Split) (r : DivRec) (d now : Nat) : Split :=
  { (sp.jump r.fallPc).withPart r.entry with
    mask := r.fallMask &&& r.members
    fmt := r.fmt
    youngest := some d
    atRecord := false
    readyTime := now }


/-- The record with the taken part in `w` saved, its fall-through part started (R145). -/
def DivRec.save (r : DivRec) (w : Split) : DivRec :=
  { r with
    takenMask := w.mask, taken := w.part
    fallMask := r.fallMask &&& r.members, fallStarted := true }

/-- The id of the split that record `r` merges to (R145): the parent's, if free or among those that wait; else the lowest of
these, or a free one where only the saved taken part is left (assumption log 16). -/
def Group.mergeId (g : Group) (r : DivRec) (ids : List Nat) : Nat :=
  if (g.splits.get? r.parent).isNone || ids.contains r.parent then r.parent
  else match ids with
    | [] => g.freeSplit.getD r.parent
    | i :: t => t.foldl min i

/-- The merge of record `d` (R145): the splits that wait at it and the saved taken part of a serial record become one. -/
def Group.mergeRec (g : Group) (now d : Nat) (r : DivRec) : Group :=
  let w := g.splits.filter (fun e => e.2.waitsAt d)
  let lanes := w.foldl (fun m e => m ||| e.2.mask) (if r.serial then r.takenMask else 0)
  let low := lowestBit 32 lanes.toNat
  let ids := w.map (fun e => e.1)
  let held : Split := match w.find? (fun e => lane e.2.mask low) with
    | some e => e.2
    | none => (((w.head?).map (fun e => e.2)).getD (Split.blank 0 r.join)).withPart r.taken
  let m : Split := { held.jump r.join with
    mask := lanes, fmt := r.fmt, youngest := r.older, atRecord := false
    halted := w.any (fun e => e.2.stepping || e.2.halted), stepping := w.any (fun e => e.2.stepping), readyTime := now }
  { g with
    recs := g.recs.erase d
    splits := Sparse.set (g.splits.filter (fun e => !ids.contains e.1)) (g.mergeId r ids) m
    outs := g.outs.map (fun p => if ids.contains p.sid then { p with sid := g.mergeId r ids } else p)
    opDirty := moveDirty g.opDirty (partKey d :: ids) lanes (g.mergeId r ids) }

/-- Completion of record `d` (R145): the fall-through part of a serial record starts in the split that waits, or the record
merges. -/
def Group.completeRec (g : Group) (now d : Nat) (r : DivRec) : Group :=
  match g.splits.find? (fun e => e.2.waitsAt d) with
  | some (i, w) =>
    if r.serial && !r.fallStarted && decide (r.fallMask &&& r.members ≠ 0) then
      { g with
        recs := g.recs.set d (r.save w), splits := g.splits.set i (w.fallThrough r d now)
        opDirty := moveDirty (moveDirty g.opDirty [partKey d] r.fallMask i) [i] w.mask (partKey d) }
    else g.mergeRec now d r
  | none => g.mergeRec now d r

/-- Splits at a clause boundary whose PC is the join address of their youngest record wait there (R145). -/
def Group.arrive (g : Group) : Group :=
  { g with splits := g.splits.map (fun e =>
      (e.1, if e.2.arrivable then
          match e.2.youngest with
          | some d => match g.recs.get? d with
            | some r => if e.2.pc = r.join then { e.2 with atRecord := true } else e.2
            | none => e.2
          | none => e.2
        else e.2)) }

/-- Arrivals and completions until nothing changes (R145); a record completes at most twice, a serial one first for its
fall-through part. -/
def Group.settle (g : Group) (now : Nat) : Nat → Group
  | 0 => g
  | n + 1 =>
    let h := g.arrive
    match h.recs.find? (fun e => h.complete e.1 e.2) with
    | none => h
    | some (d, r) => (h.completeRec now d r).settle now n

/-- The nearest serial record of a split's chain whose fall-through part has still to run, if no lane of its taken part is
left (R144, R145). -/
def Group.pendingSerial (g : Group) : Option Nat → Nat → Option (Nat × DivRec)
  | _, 0 => none
  | none, _ => none
  | some d, n + 1 =>
    match g.recs.get? d with
    | none => none
    | some r =>
      if r.serial && !r.fallStarted && decide (r.fallMask &&& r.members ≠ 0) then
        (if r.members &&& ~~~ r.fallMask = 0 then some (d, r) else none)
      else g.pendingSerial r.older n

/-- Lanes that have exited are not among those that `eret` gives back (R226). -/
def Shadow.lanesGone (h : Shadow) (m : Mask) : Shadow := { h with mask := h.mask &&& ~~~ m }

/-- Lanes leave every record's member mask (R145), and the shadows that it keeps. -/
def Group.leaveRecs (g : Group) (m : Mask) : Group :=
  { g with recs := g.recs.map (fun e => (e.1, { e.2 with
      members := e.2.members &&& ~~~ m
      entry := { e.2.entry with shadow := e.2.entry.shadow.map (fun h => h.lanesGone m) }
      taken := { e.2.taken with shadow := e.2.taken.shadow.map (fun h => h.lanesGone m) } })) }

/-- A record that no lane needs any more is free (R145). -/
def Group.freeRecs (g : Group) : Group := { g with recs := g.recs.filter (fun e => decide (e.2.members ≠ 0)) }

/-- The split after lanes have exited, in its shadow. -/
def Split.lanesGone (sp : Split) (m : Mask) : Split :=
  match sp.shadow with
  | none => sp
  | some h => { sp with shadow := some (h.lanesGone m) }

/-- Lanes `m` of split `sid` exit (R226). A split without lanes ends; where a serial record of its chain still
has its fall-through part to run, that part starts in its place (assumption log 16). -/
def Group.exitLanes (g : Group) (now sid : Nat) (sp : Split) (m : Mask) : Group :=
  let h := g.leaveRecs m
  let h : Group := { h with opDirty := moveDirty h.opDirty [sid] m goneKey }
  let h : Group := if h.splits.any (fun e => e.2.shadow.isSome) then
      { h with splits := h.splits.map (fun e => (e.1, e.2.lanesGone m)) } else h
  let sp := sp.lanesGone m
  let rest := sp.mask &&& ~~~ m
  if rest ≠ 0 then
    { h.freeRecs with splits := h.splits.set sid { sp with mask := rest } }
  else
    match h.pendingSerial sp.youngest 16 with
    | some (d, r) =>
      let r' : DivRec := { r with takenMask := 0, fallMask := r.fallMask &&& r.members, fallStarted := true }
      ({ h with
        recs := h.recs.set d r', splits := h.splits.set sid (sp.fallThrough r d now)
        opDirty := moveDirty h.opDirty [partKey d] r.fallMask sid } : Group).freeRecs
    | none => { h.freeRecs with splits := h.splits.erase sid }

/-- The record a `split` makes (R144). -/
def Split.newRec (sp : Split) (sid : Nat) (join : Word) : DivRec where
  join := join
  fmt := sp.fmt
  members := sp.mask
  parent := sid
  older := sp.youngest
  serial := false
  fallMask := 0
  fallPc := 0
  fallStarted := false
  takenMask := 0
  entry := { sp.part with s := [], cc := [] }
  taken := { sp.part with s := [], cc := [] }

/-- Division of split `sid` at a `split` (R144, R146): taken lanes `t`, target and join addresses, whether the
fall-through part issues first, and the time. A full set of records answers `none`. -/
def Group.divide (g : Group) (sid : Nat) (sp : Split) (t : Mask) (target join : Word) (fallFirst : Bool)
    (now : Nat) : Option Group :=
  match g.freeRec with
  | none => none
  | some d =>
    let next := sp.advance
    let r := sp.newRec sid join
    let f := sp.mask &&& ~~~ t
    if t ≠ 0 ∧ f ≠ 0 then
      match g.freeSplit with
      | some id =>
        let taken : Split := { sp.jump target with
          mask := t, youngest := some d, wait := .none, parked := false
          halted := sp.stepping, stepping := false, haltReq := false
          readyTime := if fallFirst then now + 1 else now, wasReady := true }
        let fall : Split := { next with
          mask := f, youngest := some d, readyTime := if fallFirst then now else now + 1 }
        some { g with
          recs := g.recs.set d r, splits := (g.splits.set sid fall).set id taken
          opDirty := moveDirty g.opDirty [sid] t id }
      | none =>
        let r' : DivRec := { r with
          serial := true, fallMask := f, fallPc := next.pc, entry := sp.part }
        some { g with
          recs := g.recs.set d r', splits := g.splits.set sid { sp.jump target with mask := t, youngest := some d }
          opDirty := moveDirty g.opDirty [sid] f (partKey d) }
    else if t ≠ 0 then
      some { g with recs := g.recs.set d r, splits := g.splits.set sid { sp.jump target with youngest := some d } }
    else
      some { g with recs := g.recs.set d r, splits := g.splits.set sid { next with youngest := some d } }

/-- A reply reaches the group that waits for it (R51). -/
def State.takeReply (s : State) : Reply → State
  | .atomic gid pend lanes =>
    s.modGroup gid (fun g => { g with outs := g.outs.map (fun p =>
      if p.id = pend then
        { p with data := lanes.foldl (fun d e => p.regs.foldl (fun d r => Sparse.set d (vkey r e.1) e.2) d) p.data, need := p.need - 1 }
      else p) })
  | .wmon gid sid ret => s.wmonReturn gid sid ret
  | .bench gid sid id words _ =>
    s.modSplit gid sid (fun sp =>
      match sp.wait with
      | .bench i got sd none => if i = id then { sp with wait := .bench id got sd (some words), awake := true, readyTime := s.time } else sp
      | _ => sp)

end Sys2Proof.Machine
end

