-- ==== Sys2Proof/Machine/Evict.lean ====
section
/-!
DEFINITION. Eviction and restore of groups (R350 to R358): the control part (R353, R354) written and read,
the start of a save or restore handler, and the group events taken at an instruction boundary.
-/
namespace Sys2Proof.Machine

/-- A list of (offset, bytes) pieces. -/
abbrev Pieces := List (Nat × List Byte)

/-- The 64-bit little-endian bytes of a word. -/
def wBytes (w : Word) : List Byte := leBytes 8 w.toNat

/-- The flags of the four condition-code sets, `c`k in bits 4k + 3..4k as Z, N, C, V (R354). -/
def ccPack (cc : Nat → CC) : Nat :=
  (List.range 4).foldl (fun a k =>
    let c := cc k
    a + (b2n c.z * 8 + b2n c.n * 4 + b2n c.c * 2 + b2n c.v) * 16 ^ k) 0
/-- The four condition-code sets of a 16-bit number (R354). -/
def ccUnpack (n : Nat) : Sparse CC :=
  (List.range 4).map (fun k =>
    let c := n / 16 ^ k % 16
    (k, ⟨c.testBit 3, c.testBit 2, c.testBit 1, c.testBit 0⟩))

/-- TRAPC of a split (R342). -/
def TrapRegs.trapc (t : TrapRegs) : Word :=
  w64 (t.pend.toNat * 2 ^ 16 + b2n t.hnd * 256 + t.cause.toNat)

/-- The mask bits of a list of keys. -/
def keyBits (ks : List Nat) : Nat := (ks.eraseDups).foldl (fun a k => a + 2 ^ k) 0

/-- The pieces of a split record (R354). -/
def Split.pieces (sp : Split) : Pieces :=
  let w := match sp.wait with
    | .barrier off ph _ _ => (1, ph, off)
    | _ => if sp.atRecord then (2, 0, 0) else (0, 0, 0)
  (List.range 64).map (fun k => (8 * k, wBytes (sp.get k))) ++
  [(0x200, wBytes sp.pc), (0x208, leBytes 4 sp.mask.toNat), (0x20C, [sp.fmt]),
   (0x20D, leBytes 2 (ccPack sp.ccGet)),
   (0x20F, leBytes 1 (1 + 2 * b2n sp.restarted + 4 * b2n sp.paritySeen)),
   (0x210, wBytes sp.region), (0x218, leBytes 1 (sp.youngest.getD 0xFF)), (0x219, leBytes 1 w.1),
   (0x21A, leBytes 2 w.2.1), (0x21C, leBytes 4 w.2.2),
   (0x220, wBytes sp.trap.trapc ++ wBytes sp.trap.trape ++ wBytes sp.trap.trapi ++ wBytes sp.trap.trapm ++
      wBytes sp.trap.trapx ++ wBytes sp.trap.traps)]

/-- The pieces of a divergence record (R354). -/
def DivRec.pieces (r : DivRec) : Pieces :=
  let cc := fun (m : Sparse CC) k => m.getD k ⟨false, false, false, false⟩
  [(0, wBytes r.join ++ wBytes r.fallPc),
   (0x10, leBytes 4 r.members.toNat ++ leBytes 4 r.fallMask.toNat ++ leBytes 4 r.takenMask.toNat),
   (0x1C, [r.fmt]), (0x1D, leBytes 1 (r.parent + 4 * b2n r.serial + 8 * b2n r.fallStarted)),
   (0x1E, leBytes 1 (r.older.getD 0xFF))] ++
  (List.range 64).map (fun k => (0x40 + 8 * k, wBytes (r.entry.s.getD k (Config.freeWord r.entry.seed k)))) ++
  [(0x240, leBytes 2 (ccPack (cc r.entry.cc)))] ++
  (List.range 64).map (fun k => (0x280 + 8 * k, wBytes (r.taken.s.getD k (Config.freeWord r.taken.seed k)))) ++
  [(0x480, leBytes 2 (ccPack (cc r.taken.cc)))]

/-- Operand slots that group `gid` owns and may name (R53). -/
def State.ownedSlots (s : State) (core gid : Nat) : List Nat :=
  ((s.core core).slots.filter (fun e => decide (e.2.st ≠ .free) && e.2.owner == gid && !e.2.rel)).map (fun e => e.1)

/-- The word of an error entry (R284). -/
def ErrEntry.word (e : ErrEntry) (ovf : Bool) : Word :=
  w64 (2 ^ 63 + b2n ovf * 2 ^ 62 + e.cause % 256 * 2 ^ 48 + e.batch % 2 ^ 48)

/-- The control part of group `gid` (R353). -/
def State.controlPart (s : State) (gid : Nat) (g : Group) (cause : Nat) : Pieces :=
  let errs := fun c => g.errLists.getD c []
  [(0, leBytes 8 (b2n g.hintOn)), (8, leBytes 8 g.gst.toNat),
   (0x10, leBytes 8 (g.counters.getD 0 0) ++ leBytes 8 (g.counters.getD 1 0) ++ leBytes 8 (g.counters.getD 2 0)),
   (0x28, leBytes 2 (keyBits (s.ownedSlots g.core gid))), (0x2A, leBytes 1 (keyBits g.liveIds)),
   (0x2B, leBytes 1 (g.nregs / 64)), (0x2C, leBytes 2 (keyBits (g.recs.map (fun e => e.1)))),
   (0x2E, leBytes 2 g.nspill), (0x33, leBytes 1 cause),
   (0x34, (List.range 3).flatMap (fun c => leBytes 1 (errs c).length)),
   (0x37, leBytes 1 (keyBits ((List.range 3).filter (fun c => g.overflow.getD c false))))] ++
  (List.range 3).flatMap (fun c => ((errs c).zip (List.range 16)).map (fun e =>
    (0x40 + 0x100 * c + 0x10 * e.2, wBytes (e.1.word false) ++ wBytes e.1.trapx))) ++
  (List.range 32).map (fun k =>
    let b := g.bd.getD k (0, 0)
    (0x340 + 0x10 * k, wBytes b.1 ++ wBytes b.2)) ++
  (List.range 96).map (fun k => (0x540 + 4 * k, leBytes 4 (maskOf (g.pget k)).toNat)) ++
  g.splits.flatMap (fun e => e.2.pieces.map (fun q => (0x700 + 0x400 * e.1 + q.1, q.2))) ++
  g.recs.flatMap (fun e => e.2.pieces.map (fun q => (0x1700 + 0x500 * e.1 + q.1, q.2))) ++
  (List.range 32).flatMap (fun l => [(0x7700 + 8 * l, wBytes (g.v? 0 l)), (0x7800 + 8 * l, wBytes (g.v? 1 l))])

/-- Bytes of the control part, zeros where nothing is listed (R353). -/
def piecesBytes (p : Pieces) : List Byte :=
  let m : Memory := p.foldl (fun m q => Memory.writeBytes m q.1 q.2) ⟨none, []⟩
  m.readBytes 0 0x8000

/-- `s` with bytes stored in the scratchpad of die `d`, the entries of core `c` that hold them drained first (R352). -/
def State.stageWrite (s : State) (c lin : Nat) (bs : List Byte) : State :=
  (s.wbDrainRange c lin bs.length).sliceWrite (dieOf c) lin bs

/-- The number of 64 KiB multiples that `n` bytes fill. -/
def up64 (n : Nat) : Nat := (n + 65535) / 65536 * 65536

/-- Bytes of a group record (R353). -/
def groupRecordBytes (nregs nspill slots : Nat) : Nat :=
  up64 (0x8000 + 0x100 * (nregs - 2) + 0x100 * nspill) + slots * 65536

/-- Offset of the tiles in a block record (R355). -/
def blockTilesAt (shmKiB : Nat) : Nat := up64 (0x10000 + shmKiB * 1024)

/-- Bytes of a block record (R355). -/
def blockRecordBytes (shmKiB acc : Nat) : Nat := blockTilesAt shmKiB + acc * (0x18000 + 0x1800)

/-- The single split of a save or restore handler (R352, R357). -/
def handlerSplit (sp : Split) (g : Group) (h : Handler) (vec : Word) (now : Nat) : Split :=
  let x : Nat := if h.restore then 1 + 2 * b2n h.whole else 0
  let t : TrapRegs := ⟨BitVec.ofNat 8 h.cause, true, 0, sp.region, sp.pc, sp.mask.setWidth 64, w64 x, g.identity 0⟩
  let base : Split := { sp.jump (w64 (bits vec 3 49 * 8)) with
    mask := allLanes, fmt := 0x38, cc := [], youngest := none, atRecord := false
    restarted := false, paritySeen := false, parked := false
    trap := t, shadow := none, pendTrap := none, restartPend := false
    halted := false, haltReq := false, stepping := false, pendFault := none, readyTime := now }
  base.putAll 60 [w64 h.stageOff, w64 h.recordVa, w64 h.blockVa, w64 (h.stageOff + 0x6700)]

/-- The group with 8 × lane in `v0` (R352). -/
def Group.laneIndex (g : Group) : Group :=
  g.vputs ((List.range 32).map (fun l => (vkey 0 l, w64 (8 * l))))

/-- `s` with fresh parity on what a save or restore handler is entered with: `v0` and `s60` to `s63` (R56, R352). -/
def State.handlerClear (s : State) (g : Group) : State :=
  let t := s.scalClear g 0 60 4
  if t.parity.isEmpty then t else (List.range 32).foldl (fun u l => State.regClear u g 0 l) t

/-- The split a handler starts from: the lowest live one. -/
def Group.firstSplit (g : Group) : Option Split := (g.splits.head?).map (fun e => e.2)

/-- Other groups of the block that are being evicted have all taken their traps (R356). -/
def State.lastToStop (s : State) (bid gid : Nat) : Bool :=
  (s.groupsOf bid).all (fun e => e.1 == gid || e.2.status == .saving || e.2.status == .evicted)

/-- The save handler of group `gid` starts (R352): the control part goes to the staging area, and the group becomes one handler
split. The checkpoint of its block is gone (R361). -/
def State.startSave (s : State) (gid : Nat) : State :=
  match s.groups.get? gid with
  | none => s
  | some g =>
    match g.handler with
    | none => s
    | some h =>
      let whole := match s.blocks.get? g.bid with
        | some b => b.evicting
        | none => false
      let blockVa := match s.blocks.get? g.bid with
        | some b => if whole && s.lastToStop g.bid gid then b.blockVa else 0
        | none => 0
      let h := { h with whole := whole, blockVa := blockVa }
      let vec := s.ctxReg g.ctx 0x161
      let sp := g.firstSplit.getD (Split.blank g.seed 0)
      let t := s.stageWrite g.core (s.spBase g.ctx (dieOf g.core) + h.stageOff)
        (piecesBytes (s.controlPart gid g h.cause))
      if vec.getLsbD 63 then
        let t := t.modBlock g.bid (fun b => { b with checkpoint := none })
        ((t.forgetGroup g.core gid).handlerClear g).setGroup gid { g.laneIndex with
          status := .saving, recs := [], savedRecs := g.recs, lateDogs := [], handler := some h
          deferred := []
          splits := [(0, handlerSplit sp g h vec s.time)] }
      else t.terminate g.ctx 0 h.cause sp.pc 0 (g.identity 0)

/-- The home slice whose queue or table holds the bench request of a split, if it has not been served. -/
def State.benchPlace (s : State) (gid sid : Nat) : Option (Nat × Nat) :=
  (s.dies.flatMap (fun e => (e.2.slices.filter (fun f =>
    f.2.parked.any (fun p => p.who == .split gid sid) ||
    f.2.all.any (fun q => match q with
      | .bench r => r.who == .split gid sid
      | _ => false))).map (fun f => (e.1, f.1)))).head?

/-- A withdraw for the bench request of a split joins the queue of its home slice, once (R332). -/
def State.sendWithdraw (s : State) (gid sid : Nat) : State :=
  match s.benchPlace gid sid with
  | none => s
  | some (d, k) =>
    s.modSlice d k (fun x =>
      if x.all.any (fun q => match q with
        | .withdraw g i _ => g == gid && i == sid
        | _ => false) then x
      else x.send (.withdraw gid sid 0))

/-- The home slice serves the withdraw of a split (R332): an unserved request is removed and the split stands
at its instruction again. -/
def State.withdrawServe (s : State) (d k gid sid : Nat) : State :=
  let waiting := (s.slice d k).parked.any (fun p => p.who == .split gid sid)
  let t := s.benchRemove d k gid sid
  if waiting then
    t.modSplit gid sid (fun sp => { sp with wait := .none, awake := false, code := [], mid := true })
  else t

/-- A bench reply reaches the scalars of its split (R329): the status, and for a copy or take the fields. -/
def Split.benchTake (sp : Split) (got : Bool) (sd : Nat) (ws : List Word) : Split :=
  sp.putAll sd (if got then ws else ws.take 1)

/-- A `wmon` of a split ends with return 3 (R276, R352), and a `kvtrim.ret` whose frame goes back to the mailbox ends (assumption
log 134); other waits stop at their instruction. -/
def Split.stopWait (sp : Split) : Split :=
  match sp.wait with
  | .wmon _ sd ret => ((sp.put sd (w64 (ret.getD 3))).advance).cut
  | .bench _ got sd (some (some ws)) => ((sp.benchTake got sd ws).advance).cut
  | .bench _ _ _ none => sp
  | .barrier _ _ _ _ => sp.cut
  | .frames (some (_, sd)) => ((sp.put sd 1).advance).cut
  | _ => { sp.cut with wait := .none, awake := false }

/-- `s` after the frames that the splits of a group have yet to insert go back to the mailbox of their context (R104). -/
def State.returnHeld (s : State) (g : Group) : State :=
  g.splits.foldl (fun t e => match e.2.wait with
    | .frames (some (f, _)) => State.returnFrames t g.core g.ctx [f] 1
    | _ => t) s

/-- A split stands still for a group event: no bench request under way and no trap waiting (R352). -/
def Group.still (g : Group) : Bool :=
  g.outs.isEmpty && g.splits.all (fun e =>
    (match e.2.wait with
      | .bench _ _ _ _ => false
      | _ => true) && e.2.pendTrap.isNone && !e.2.restartPend)

/-- Causes 0x0E and 0x0F wait while a split is in a handler, has a fault or restart of its own to take, or is inside a
`cquiesce.rst`, and a halted group is not evicted (R344, R350, R352). -/
def Group.mayStop (g : Group) : Bool :=
  g.splits.all (fun e => !e.2.trap.hnd && !e.2.halted && !e.2.haltReq && e.2.pendTrap.isNone && !e.2.restartPend &&
    (match e.2.wait with
      | .replay _ => false
      | _ => true))

/-- A group may take cause 0x0E or 0x0F now; a rollback of its block that waits for its batches ranks higher (R350, R361). -/
def State.stoppable (s : State) (g : Group) : Bool :=
  g.mayStop && (match s.blocks.get? g.bid with
    | some b => !b.rolling
    | none => true)

/-- A group takes a pre-emption or time-slice event that waits for it, or goes on with one; an event of a higher rank that a
split has taken meanwhile defers it (R350 to R352). -/
def State.evictCheck (s : State) (gid : Nat) : State :=
  match s.groups.get? gid with
  | none => s
  | some old =>
    let s := if old.outs.isEmpty then s else old.splits.foldl (fun u e => (State.flush u gid e.1).quiet gid e.1) s
    let g := (s.groups.get? gid).getD old
    if g.status == GroupStatus.evicting && !s.stoppable g then s.setGroup gid { g with status := .running, handler := none }
    else
    let begin := g.status == .running && !g.deferred.isEmpty && s.stoppable g
    if begin || g.status == GroupStatus.evicting then
      let cause := if g.deferred.contains 0x0E then 0x0E else g.deferred.headD 0x0E
      let t := g.splits.foldl (fun u e => State.sendWithdraw u gid e.1) (s.returnHeld g)
      let t := t.modGroup gid (fun x => { x with
        status := .evicting
        handler := match x.handler with
          | some h => some { h with cause := cause }
          | none => x.saved
        splits := x.splits.map (fun e => (e.1, e.2.stopWait)) })
      match t.groups.get? gid with
      | some x => if x.still then t.startSave gid else t
      | none => t
    else s

/-- Splits of a group whose barrier watchdog has expired take cause 0x0D at their boundary, unless they are in a
handler or halted (R275, R344, R348, R363). -/
def State.watchdogTraps (s : State) (gid : Nat) : State :=
  match s.groups.get? gid with
  | none => s
  | some g => g.splits.foldl (fun t e =>
      match e.2.watchdog with
      | none => t
      | some x =>
        if e.2.trap.hnd || e.2.pendTrap.isSome || e.2.halted || e.2.haltReq then t
        else (t.modSplit gid e.1 (fun sp => { sp with watchdog := none })).takeTrap gid e.1
          ⟨0x0D, e.2.pc, e.2.mask, x⟩) s

/-- A split that is to halt does so unless it waits in `bar`, `wmon`, a bench request, `cquiesce` or `kvtrim.ret`, or for its results
before a restart; a trap that waits for results is recorded as pending (R351, R362). -/
def Split.haltTry (sp : Split) (g : Group) (sid : Nat) : Split :=
  if !sp.haltReq || sp.halted then sp
  else
    match sp.pendTrap with
    | some r => { (sp.haltFault g sid r).cut with pendTrap := none }
    | none =>
      if sp.restartPend || sp.checking.isSome then sp
      else
        match sp.wait with
        | .barrier _ _ _ _ => sp
        | .wmon _ _ _ => sp
        | .bench _ _ _ _ => sp
        | .quiesce _ _ => sp
        | .replay _ => sp
        | .frames (some _) => sp
        | _ => sp.haltNow g sid

/-- The splits of a group that are to halt and have come to a boundary do so. -/
def Group.haltAll (g : Group) : Group :=
  if g.splits.any (fun e => e.2.haltReq) then { g with splits := g.splits.map (fun e => (e.1, e.2.haltTry g e.1)) } else g

/-- Everything that follows from the state of a group at an instruction boundary: records met, and completed once no atomic of the
group is on its way, since a merge and a serial switch are releases (R113, R120, R145); results written, and group events taken
(R351), those of the block's other groups too once a rollback is over (R350, R361). -/
def State.settle (s : State) (gid : Nat) : State :=
  let t := s.modGroup gid (fun g => (if g.recs.isEmpty then g
    else if s.unperformed gid then g.arrive else g.settle s.time (2 * g.recs.length + 2)).haltAll)
  let t := if s.parity.isEmpty then t
    else match s.groups.get? gid, t.groups.get? gid with
      | some old, some new => t.copiedClear old new
      | _, _ => t
  let t := match t.groups.get? gid with
    | some g =>
      let t := if g.splits.any (fun e => e.2.watchdog.isSome) then t.watchdogTraps gid else t
      if g.status == GroupStatus.evicting || !g.deferred.isEmpty then t.evictCheck gid else t
    | none => t
  match t.groups.get? gid with
  | some g => match t.blocks.get? g.bid with
    | some b =>
      let t := if b.rolling then t.rollCheck g.bid else t
      if b.checkpoint.isSome then
        (t.groupsOf g.bid).foldl (fun u e => if e.2.deferred.isEmpty then u else State.evictCheck u e.1) t
      else t
    | none => t
  | none => t

/-! ### Restore (R357) -/

/-- A split read back from its record at byte `a` of the control part, with the seed for nothing: every scalar
is listed (R354). -/
def readSplit (m : Memory) (a : Nat) (now : Nat) : Split :=
  let n := fun (o k : Nat) => m.readN (a + o) k
  let tc := n 0x220 8
  { Split.blank 0 (w64 (n 0x200 8)) with
    s := (List.range 64).map (fun k => (k, w64 (n (8 * k) 8)))
    mid := true
    mask := BitVec.ofNat 32 (n 0x208 4)
    fmt := BitVec.ofNat 8 (n 0x20C 1)
    cc := ccUnpack (n 0x20D 2)
    restarted := (n 0x20F 1).testBit 1
    paritySeen := (n 0x20F 1).testBit 2
    region := w64 (n 0x210 8)
    youngest := if n 0x218 1 = 0xFF then none else some (n 0x218 1)
    atRecord := n 0x219 1 == 2
    wait := if n 0x219 1 = 1 then .barrier (n 0x21C 4) (n 0x21A 2) true true else .none
    awake := n 0x219 1 == 1
    trap := ⟨BitVec.ofNat 8 tc, tc.testBit 8, BitVec.ofNat 8 (tc / 65536), w64 (n 0x228 8), w64 (n 0x230 8),
      w64 (n 0x238 8), w64 (n 0x240 8), w64 (n 0x248 8)⟩
    readyTime := now }

/-- A part with the scalars and condition codes of a record (R354). -/
def SplitPart.listed (x : SplitPart) (cc : Nat) (f : Nat → Nat) : SplitPart :=
  { x with s := (List.range 64).map (fun i => (i, w64 (f i))), cc := ccUnpack cc }

/-- A divergence record read back at byte `a` (R354). -/
def readRec (m : Memory) (a : Nat) : DivRec :=
  let n := fun (o k : Nat) => m.readN (a + o) k
  let k := n 0x1D 1
  { join := w64 (n 0 8), fallPc := w64 (n 8 8)
    members := BitVec.ofNat 32 (n 0x10 4), fallMask := BitVec.ofNat 32 (n 0x14 4), takenMask := BitVec.ofNat 32 (n 0x18 4)
    fmt := BitVec.ofNat 8 (n 0x1C 1), parent := k % 4, serial := k.testBit 2, fallStarted := k.testBit 3
    older := if n 0x1E 1 = 0xFF then none else some (n 0x1E 1)
    entry := (Split.blank 0 0).part.listed (n 0x240 2) (fun i => n (0x40 + 8 * i) 8)
    taken := (Split.blank 0 0).part.listed (n 0x480 2) (fun i => n (0x280 + 8 * i) 8) }

/-- A record as read back, with what the group record has no place for as `old` has it: trap registers, region and shadow of its
parts (R145, R227; assumption log 128). -/
def DivRec.recall (new : DivRec) (old : Option DivRec) : DivRec :=
  match old with
  | none => new
  | some o => { new with
      entry := { o.entry with s := new.entry.s, cc := new.entry.cc }
      taken := { o.taken with s := new.taken.s, cc := new.taken.cc } }

/-- The split after the limit of the watched word at `off` has expired with `phase`: where it waits on the word for that phase to
change, it is to take cause 0x0D (R275). -/
def Split.dogged (sp : Split) (off phase : Nat) (x : Word) : Split :=
  match sp.wait with
  | .barrier o ph true bar => if o = off ∧ ph = phase then { sp with watchdog := some x, wait := .barrier o ph false bar } else sp
  | _ => sp

/-- Two masks of a list share a lane. -/
def overlap : List Mask → Bool
  | [] => false
  | m :: t => t.any (fun n => decide (m &&& n ≠ 0)) || overlap t

/-- FMT as R199 and R221 allow it. -/
def fmtLegal (f : BitVec 8) : Bool := Checks.fmtValue f.toNat

/-- The trap registers of a split record have their reserved bits zero and CORE in its range (R342); `c` is the TRAPC word. -/
def trapsOk (c : Nat) (t : TrapRegs) : Bool :=
  decide (c / 512 % 128 = 0) && decide (c / 2 ^ 24 = 0) && decide (t.trapm.toNat / 2 ^ 32 = 0) &&
  decide (t.traps.toNat / 2 ^ 57 = 0) && decide (bits t.traps 50 7 ≤ 95) && decide (bits t.traps 0 28 = 0)

/-- The control part is well formed for group `g` (R357): reserved bytes and bits zero, lane masks apart, and every value in its
range (R260, R284, R342, R353, R354). -/
def controlOk (m : Memory) (g : Group) : Bool :=
  let live := m.readN 0x2A 1
  let recs := m.readN 0x2C 2
  let ids := (List.range 4).filter live.testBit
  let rids := (List.range 16).filter recs.testBit
  let zero := fun (a n : Nat) => (m.readBytes a n).all (fun b => b == 0)
  let splitOk := fun i =>
    let a := 0x700 + 0x400 * i
    let sp := readSplit m a 0
    fmtLegal sp.fmt && decide (m.readN (a + 0x20F) 1 < 8) && decide (sp.mask ≠ 0) &&
    decide (m.readN (a + 0x219) 1 ≤ 2) && decide (sp.pc.toNat % 8 = 0) &&
    (m.readN (a + 0x219) 1 == 1 || zero (a + 0x21A) 6) &&
    (match sp.youngest with
      | some d => rids.contains d
      | none => decide (m.readN (a + 0x219) 1 ≠ 2)) && trapsOk (m.readN (a + 0x220) 8) sp.trap
  let recOk := fun i =>
    let a := 0x1700 + 0x500 * i
    let r := readRec m a
    fmtLegal r.fmt && decide (m.readN (a + 0x1D) 1 < 16) &&
    (match r.older with
      | some d => rids.contains d && d != i
      | none => true)
  let errOk := fun c i =>
    let a := 0x40 + 0x100 * c + 0x10 * i
    if i < m.readN (0x34 + c) 1 then decide (m.readN a 8 / 2 ^ 56 = 0x80) else zero a 0x10
  decide (live < 16) && decide (live ≠ 0) && decide (m.readN 0 8 ≤ 1) && decide (m.readN 8 8 < 64) &&
  decide (m.readN 0x2B 1 = g.nregs / 64) && decide (m.readN 0x2E 2 = g.nspill) && decide (m.readN 0x30 2 ≤ 64) &&
  zero 0x32 1 && (m.readN 0x33 1 == 0x0E || m.readN 0x33 1 == 0x0F) &&
  (List.range 3).all (fun c => decide (m.readN (0x34 + c) 1 ≤ 16)) && decide (m.readN 0x37 1 < 8) && zero 0x38 8 &&
  (List.range 3).all (fun c => (List.range 16).all (errOk c)) &&
  (List.range 32).all (fun k => bdValid (w64 (m.readN (0x340 + 0x10 * k) 8)) && bdBounds (w64 (m.readN (0x348 + 0x10 * k) 8))) &&
  (List.range 4).all (fun i => ids.contains i || zero (0x700 + 0x400 * i) 0x400) &&
  (List.range 16).all (fun i => rids.contains i || zero (0x1700 + 0x500 * i) 0x500) &&
  ids.all splitOk && rids.all recOk && !overlap (ids.map (fun i => (readSplit m (0x700 + 0x400 * i) 0).mask)) &&
  zero 0x6C0 0x40 && zero 0x7900 0x700 && (List.range 4).all (fun i => zero (0x950 + 0x400 * i) 0x1B0) &&
  (List.range 16).all (fun i =>
    let a := 0x1700 + 0x500 * i
    zero (a + 0x1F) 0x21 && zero (a + 0x242) 0x3E && zero (a + 0x482) 0x7E)

/-- The group with its control part reloaded (R357). -/
def Group.reload (g : Group) (m : Memory) (now : Nat) : Group :=
  let n := fun (o k : Nat) => m.readN o k
  let g := g.vputs ((List.range 32).flatMap (fun l =>
    [(vkey 0 l, w64 (n (0x7700 + 8 * l) 8)), (vkey 1 l, w64 (n (0x7800 + 8 * l) 8))]))
  { g with
    hintOn := n 0 8 == 1
    gst := BitVec.ofNat 6 (n 8 8)
    counters := [(0, n 0x10 8), (1, n 0x18 8), (2, n 0x20 8)]
    errLists := (List.range 3).map (fun c => (c, (List.range (n (0x34 + c) 1)).map (fun i =>
      let w := w64 (n (0x40 + 0x100 * c + 0x10 * i) 8)
      ⟨bits w 48 8, bits w 0 48, w64 (n (0x48 + 0x100 * c + 0x10 * i) 8)⟩)))
    overflow := (List.range 3).map (fun c => (c, (n 0x37 1).testBit c))
    bd := (List.range 32).map (fun k => (k, (w64 (n (0x340 + 0x10 * k) 8), w64 (n (0x348 + 0x10 * k) 8))))
    p := (List.range 96).flatMap (fun k => (List.range 32).map (fun l => (vkey k l, (n (0x540 + 4 * k) 4).testBit l)))
    splits := ((List.range 4).filter (n 0x2A 1).testBit).map (fun i => (i, readSplit m (0x700 + 0x400 * i) now))
    recs := ((List.range 16).filter (n 0x2C 2).testBit).map (fun i =>
      (i, (readRec m (0x1700 + 0x500 * i)).recall (g.savedRecs.get? i)))
    handler := none
    saved := none
    status := .running }

/-- A split that goes on at `pc` stands inside a clause there (R235). -/
def State.midAt (s : State) (g : Group) (pc : Word) : Bool :=
  match s.fetch g.core g.ctx pc with
  | .ok w => (Decode.header w.toNat).isNone
  | .error _ => false

/-- The end of a restore handler (R357): the control part is read from the staging area, checked, and loaded;
the staging area and the save record are free again. -/
def State.endRestore (s : State) (gid : Nat) (g : Group) (h : Handler) : State :=
  let lin := s.spBase g.ctx (dieOf g.core) + h.stageOff
  let m : Memory := Memory.writeBytes ⟨none, []⟩ 0 (s.spdRead g.core lin 0x8000)
  if controlOk m g then
    let c := s.ctx g.ctx
    let t := s.setCtx g.ctx { c with
      stagesUsed := c.stagesUsed.filter (fun e => e != (dieOf g.core, h.stage))
      recordsUsed := c.recordsUsed.filter (fun r => r != h.record) }
    let r := g.reload m s.time
    (t.groupClear g [0, 1] r.liveIds).setGroup gid { r with
      savedRecs := [], lateDogs := []
      splits := r.splits.map (fun e => (e.1, { g.lateDogs.foldl (fun sp w => Split.dogged sp w.1 w.2.1 w.2.2) e.2 with mid := s.midAt g e.2.pc })) }
  else
    let t := (g.firstSplit.getD (Split.blank 0 0)).trap
    s.terminate g.ctx 3 t.cause.toNat t.trapi t.trapx t.traps

end Sys2Proof.Machine
end

