-- ==== Sys2Proof/Machine/Operands.lean ====
section
/-!
DEFINITION. Operand forms and the issue of an instruction: guards and lane patterns (R182, R184), register
reads and writes (R181, R240, R241), what an instruction meets before its effect (R57, R168, R181), and
the steps after it.
-/
namespace Sys2Proof.Machine

/-! ### Lanes -/

/-- The guarded lanes of the issuing split (R182). -/
def Issue.guard (i : Issue) (p pn : Nat) : Mask :=
  maskOf (fun l => lane i.sp.mask l && (i.g.pget p l != (pn == 1)))

/-- The source lane of a lane pattern (R184). -/
def patLane (kind amt l : Nat) : Nat :=
  match kind with
  | 1 => (l + amt) % 32
  | 2 => 31 - l
  | 3 => l ^^^ amt
  | 4 => amt
  | _ => l

/-! ### Reads -/

/-- A result of lane `l` of register `r` is still outstanding (R167). -/
def Group.awaits (g : Group) (r l : Nat) : Bool := g.outs.any (fun p => p.regs.contains r && lane p.lanes l)
/-- A result of some lane of register `r` is outstanding (R241). -/
def Group.awaitsReg (g : Group) (r : Nat) : Bool := g.outs.any (fun p => p.regs.contains r)

/-- Lane `l` of register `r` as an instruction reads it: undefined while a result for it is outstanding, or
an engine operation that reads it is not waited for (R6, R128, R167). -/
def State.vread (s : State) (g : Group) (r l : Nat) : Word :=
  if (g.outs.isEmpty || !g.awaits r l) && (g.ops.isEmpty || !g.engineReg r) then g.v? r l else Config.freeWord s.occ (vkey r l)
/-- A cross-lane read: undefined while any result for the register is outstanding (R241). -/
def State.vcross (s : State) (g : Group) (r l : Nat) : Word :=
  if (g.outs.isEmpty || !g.awaitsReg r) && (g.ops.isEmpty || !g.engineReg r) then g.v? r l else Config.freeWord s.occ (vkey r l)
/-- The VB operand of lane `l` under a pattern (R184, R241). -/
def State.vpat (s : State) (g : Group) (r kind amt l : Nat) : Word :=
  if kind = 0 then s.vread g r l else s.vcross g r (patLane kind amt l)

/-! ### Writes -/

/-- The lanes of a list of lane values. -/
def lanesMask (vals : List (Nat × Word)) : Mask := maskList (vals.map (fun e => e.1))

/-- `s` with lanes of register `r` written by the issuing split (R240): `z` discards; a destination whose result
is outstanding, or that an engine operation reads, is left undefined (R128). -/
def State.vwrite (s : State) (i : Issue) (r : Nat) (vals : List (Nat × Word)) : State :=
  if r = zReg ∨ vals = [] then s
  else
    let t := s.keepReg i.gid r
    match t.groups.get? i.gid with
    | none => t
    | some g =>
      let m := lanesMask vals
      let clash := g.outs.any (fun p => p.regs.contains r && decide (p.lanes &&& m ≠ 0))
      let engine := !g.ops.isEmpty && g.engineReg r
      let vals' := if clash || engine then vals.map (fun e =>
          (e.1, if engine || g.awaits r e.1 then Config.freeWord s.occ (vkey r e.1) else e.2)) else vals
      let g' := (g.vputs (vals'.map (fun e => (vkey r e.1, e.2)))).spoil [r]
      let g' : Group := { g' with
        outs := if clash then g'.outs.map (fun p =>
          if p.regs.contains r && decide (p.lanes &&& m ≠ 0) then { p with undef := p.undef ||| (p.lanes &&& m) } else p)
          else g'.outs
        opDirty := dirtied g'.opDirty i.sid [r] m }
      let u := t.setGroup i.gid g'
      if u.parity.isEmpty then u else vals.foldl (fun x e => x.regClear g r e.1) u

/-- `s` with a variable-latency result of registers `regs` on its way (R37, R167): `data` by register key,
flags, scoreboard slot, and the parts that are checked when it is written, with the address of the instruction (R262). -/
def State.vsendWith (s : State) (gid sid : Nat) (regs : List Nat) (m : Mask) (data : Sparse Word) (flags : BitVec 6)
    (sb : Option Nat) (checks : List Part) (pc : Word) : State :=
  if regs = [] ∨ m = 0 then s.modGroup gid (fun g => { g with gst := g.gst ||| flags })
  else
    let (id, t) := s.newId
    t.modGroup gid (fun g =>
      let outs := g.outs.map (fun (p : Pend) =>
        if p.regs.any regs.contains && decide (p.lanes &&& m ≠ 0) then { p with undef := p.undef ||| (p.lanes &&& m) } else p)
      let clash := g.outs.foldl (fun (c : Mask) p => if p.regs.any regs.contains then c ||| (p.lanes &&& m) else c) 0
      { g with
        outs := outs ++ [⟨id, sid, regs, m, data, 0, sb, false, flags, clash, checks, pc⟩]
        sb := match sb with
          | some k => g.sb.set k (g.sb.getD k 0 + 1)
          | none => g.sb })

/-- `s` with a variable-latency result on its way that no range register checks. -/
def State.vsend (s : State) (gid sid : Nat) (regs : List Nat) (m : Mask) (data : Sparse Word) (flags : BitVec 6)
    (sb : Option Nat) : State :=
  s.vsendWith gid sid regs m data flags sb [] 0

/-- Lane values as result data of register `r`. -/
def laneData (r : Nat) (vals : List (Nat × Word)) : Sparse Word := vals.map (fun e => (vkey r e.1, e.2))

/-! ### Issue -/

/-- What an instruction needs at issue: the vector registers it writes and reads, whether it reads other
lanes, the lanes it reads, the predicates and scalars it reads, a scoreboard slot and a return slot. -/
structure Needs where
  wr : List Nat := []
  rd : List Nat := []
  cross : Bool := false
  lanes : Mask := 0
  preds : List Nat := []
  scal : List Nat := []
  sb : Option Nat := none
  ret : Bool := false

/-- The registers an instruction names, in field order, `z` left out (R181). -/
def Needs.regs (n : Needs) : List Nat := (n.wr ++ n.rd).filter (fun r => r != zReg)

/-- The first register at or beyond the allocation (R181). -/
def Needs.beyond (n : Needs) (g : Group) : Option Nat := n.regs.find? (fun r => decide (g.nregs ≤ r))

/-- An operand is interlocked (R167). -/
def Needs.locked (n : Needs) (g : Group) : Bool :=
  !g.outs.isEmpty && n.regs.any (fun r => g.outs.any (fun p => p.sb.isSome && p.regs.contains r))

/-- The instruction holds at issue (R168): an interlock, a full scoreboard count, or no return slot. -/
def Needs.holds (n : Needs) (s : State) (g : Group) : Bool :=
  n.locked g ||
  (match n.sb with
    | some k => decide (63 ≤ g.sb.getD k 0)
    | none => false) ||
  (n.ret && decide (128 ≤ s.retSlots g.core))

/-- The first marked register, predicate or scalar the instruction reads (R57). -/
def Needs.parity (n : Needs) (s : State) (i : Issue) : Option Unit_ :=
  if s.parity.isEmpty then none
  else
    let lanes := if n.cross then List.range 32 else lanesOf n.lanes
    (((n.rd.filter (fun r => r != zReg)).findSome? (fun r => lanes.findSome? (fun l => s.regHit i.g r l))).or
      ((n.preds.filter (fun p => p != 0)).findSome? (fun p => s.predHit i.g p i.sp.mask))).or
      (n.scal.findSome? (fun k => s.scalHit i.g i.sid k))

/-- The cycle since which the split holds at its instruction (R168). -/
def State.heldSince (s : State) (i : Issue) : Nat :=
  match i.sp.wait with
  | .hold t => t
  | _ => s.time

/-- The split holds at its instruction (R168). -/
def State.hold (s : State) (i : Issue) : State :=
  s.modSplit i.gid i.sid (fun sp => { sp with wait := .hold (s.heldSince i), awake := false, roomSince := none })

/-- The split holds for room in the spawn queue (R153, R168): the limit counts from the first cycle of that hold. -/
def State.holdRoom (s : State) (i : Issue) : State :=
  s.modSplit i.gid i.sid (fun sp =>
    { sp with wait := .hold (s.heldSince i), awake := false, roomSince := some (i.sp.roomSince.getD s.time) })

/-- The split traps at its instruction with all its lanes in TRAPM (R343, R347). -/
def State.trapAt (s : State) (i : Issue) (cause : Nat) (x : Word) : State :=
  let s := if isPoisonX cause x then s.poisonLog i.g.core x else s
  (s.takeTrap i.gid i.sid ⟨cause, i.sp.pc, i.sp.mask, x⟩).settle i.gid
/-- The split traps at its instruction with these lanes in TRAPM. -/
def State.trapLanes (s : State) (i : Issue) (cause : Nat) (m : Mask) (x : Word) : State :=
  let s := if isPoisonX cause x then s.poisonLog i.g.core x else s
  (s.takeTrap i.gid i.sid ⟨cause, i.sp.pc, m, x⟩).settle i.gid

/-- A memory access meets a marked unit: logged, and a precise trap with cause 0x07 (R57). -/
def State.consumeMem (s : State) (i : Issue) (m : Mask) (u : Unit_) : State :=
  (s.parityLog u).trapLanes i 7 m (parityX u)

/-- A marked unit is consumed at an instruction (R57): logged; the split restarts at its region entry, or traps
with cause 0x07 when it has restarted in this region before (R349). -/
def State.consume (s : State) (i : Issue) (u : Unit_) : State :=
  let t := s.parityLog u
  if i.sp.restarted || i.sp.paritySeen then t.trapAt i 7 (parityX u)
  else ((t.modSplit i.gid i.sid (fun sp => { sp with restarted := true, paritySeen := true })).restart i.gid i.sid).settle i.gid

/-- The cause of the trap that the issuing split has met on the way from `s` to `t`, if any (R343, R346, R351). -/
def State.raised (s t : State) (i : Issue) : Option Nat :=
  match t.split? i.gid i.sid with
  | some (_, sp) =>
    match sp.pendTrap, sp.pendFault with
    | some r, _ => some r.cause
    | none, some r => some r.cause
    | none, none => if sp.trap.hnd && !i.sp.trap.hnd then some sp.trap.cause.toNat else none
  | none => if t.msix = s.msix then none else some (bits (t.ctxReg i.g.ctx 0x16C) 0 8)

/-- Causes that R347 ranks before 0x07, beside the register bound of cause 0x02. -/
def beforeParity (cause : Nat) : Bool := [1, 0x17, 4, 6, 3, 5].contains cause

/-- The split goes on after its instruction (R179). -/
def State.done (s : State) (i : Issue) : State :=
  (s.modSplit i.gid i.sid Split.advance).settle i.gid

/-- An instruction with its needs: register bounds, holds, integrity, then its effect (R57, R168, R181). A marked operand is
consumed unless the instruction meets a cause that ranks before 0x07 (R347). -/
def issue (n : Issue → Needs) (eff : State → Issue → State) (s : State) (i : Issue) : State :=
  match (n i).beyond i.g with
  | some r => s.trapAt i 2 (w64 r)
  | none =>
    if (n i).holds s i.g then s.hold i
    else
      match (n i).parity s i with
      | some u => if (State.raised s (eff s i) i).any beforeParity then eff s i else s.consume i u
      | none => eff s i

/-- The issuing split is changed by `f` and goes on. -/
def State.putSplit (s : State) (i : Issue) (f : Split → Split) : State :=
  (s.setGroup i.gid { i.g with splits := i.g.splits.set i.sid (f i.sp).advance }).settle i.gid

/-- The issuing split writes scalar `k` and goes on. -/
def State.putScalar (s : State) (i : Issue) (k : Nat) (v : Word) : State :=
  let t := s.setGroup i.gid { i.g with splits := i.g.splits.set i.sid (i.sp.put k v).advance }
  (t.scalClear i.g i.sid k 1).settle i.gid

/-- An instruction that reads scalars `ks` and writes a function of the split's state to scalar `sd`. -/
def scalarOp (ks : List Nat) (sd : Nat) (f : State → Issue → Word) (s : State) (i : Issue) : State :=
  issue (fun _ => { scal := ks }) (fun t j => t.putScalar j sd (f t j)) s i

/-- The values a lane function gives in the lanes of a mask. -/
def onLanes (m : Mask) (f : Nat → Word) : List (Nat × Word) := (lanesOf m).map (fun l => (l, f l))

/-- A fixed-latency vector instruction: writes a lane function to `vd` in the lanes of a mask (R240). -/
def vectorOp (n : Issue → Needs) (m : Issue → Mask) (vd : Nat) (f : State → Issue → Nat → Word)
    (s : State) (i : Issue) : State :=
  issue n (fun t j => (t.vwrite j vd (onLanes (m j) (f t j))).done j) s i

/-- Needs of a V3 form whose operands are vector registers (R182, R184). -/
def v3Needs (o : V3) (acc : Bool) (i : Issue) : Needs :=
  { wr := [o.vd], rd := [o.va, o.vb] ++ (if acc then [o.vd] else []), cross := decide (o.kind ≠ 0)
    lanes := i.guard o.p o.pn, preds := [o.p] }
/-- Needs of a unary V3 form. -/
def v3Unary (o : V3) (i : Issue) : Needs :=
  { wr := [o.vd], rd := [o.va], lanes := i.guard o.p o.pn, preds := [o.p] }

/-- A V3 instruction on a lane of VA and of the patterned VB (R240). -/
def v3Op (o : V3) (f : Word → Word → Word) (s : State) (i : Issue) : State :=
  vectorOp (v3Needs o false) (fun j => j.guard o.p o.pn) o.vd
    (fun t j l => f (t.vread j.g o.va l) (t.vpat j.g o.vb o.kind o.amt l)) s i
/-- A unary V3 instruction on a lane of VA. -/
def v3UnaryOp (o : V3) (f : Word → Word) (s : State) (i : Issue) : State :=
  vectorOp (v3Unary o) (fun j => j.guard o.p o.pn) o.vd (fun t j l => f (t.vread j.g o.va l)) s i

/-- Writes predicate `p` of group `gid` in the lanes of a mask; `p0` discards (R182). -/
def State.pwrite (s : State) (gid p : Nat) (m : Mask) (f : Nat → Bool) : State :=
  match s.groups.get? gid with
  | none => s
  | some g =>
    let t := s.setGroup gid (g.pputs p f (lanesOf m))
    if t.parity.isEmpty || decide (p = 0) || decide (m = 0) then t else t.predClear g p

end Sys2Proof.Machine
end

