-- ==== Sys2Proof/Machine/Scalar.lean ====
section
/-!
DEFINITION. Scalar arithmetic and special registers: majors 0x00, 0x01 and 0x02 (R213 to R221).
-/
namespace Sys2Proof.Machine

/-- An n-bit immediate sign-extended to a word (R187). -/
def sextW (n v : Nat) : Word := BitVec.ofInt 64 (Decode.sext n v)

/-! ### Results of R214 -/

/-- The result of `sadd`: sum (R214). -/
def saddVal (a b : Word) : Word := a + b
/-- The result of `ssub`: difference (R214). -/
def ssubVal (a b : Word) : Word := a - b
/-- The result of `smul`: low 64 bits of the product (R214). -/
def smulVal (a b : Word) : Word := a * b
/-- The result of `smulh`: bits 127:64 of the signed product (R214). -/
def smulhVal (a b : Word) : Word := BitVec.ofInt 64 (a.toInt * b.toInt / 2 ^ 64)
/-- The result of `smulhn`: bits 127:64 of the unsigned product (R214). -/
def smulhnVal (a b : Word) : Word := w64 (a.toNat * b.toNat / 2 ^ 64)
/-- The result of `sand`: bitwise and (R214). -/
def sandVal (a b : Word) : Word := a &&& b
/-- The result of `sor`: bitwise or (R214). -/
def sorVal (a b : Word) : Word := a ||| b
/-- The result of `sxor`: bitwise exclusive or (R214). -/
def sxorVal (a b : Word) : Word := a ^^^ b
/-- The result of `sshl`: left shift, 0 from 64 on (R214). -/
def sshlVal (a b : Word) : Word := if 64 ≤ b.toNat then 0 else a <<< b.toNat
/-- The result of `sshr`: logical right shift, 0 from 64 on (R214). -/
def sshrVal (a b : Word) : Word := if 64 ≤ b.toNat then 0 else a >>> b.toNat
/-- The result of `ssra`: arithmetic right shift, sign-filled from 64 on (R214). -/
def ssraVal (a b : Word) : Word := a.sshiftRight (min b.toNat 63)
/-- The result of `smin`: smaller, signed (R214). -/
def sminVal (a b : Word) : Word := if a.toInt ≤ b.toInt then a else b
/-- The result of `smax`: larger, signed (R214). -/
def smaxVal (a b : Word) : Word := if a.toInt ≤ b.toInt then b else a
/-- The result of `sminn`: smaller, unsigned (R214). -/
def sminnVal (a b : Word) : Word := if a.toNat ≤ b.toNat then a else b
/-- The result of `smaxn`: larger, unsigned (R214). -/
def smaxnVal (a b : Word) : Word := if a.toNat ≤ b.toNat then b else a

/-- A register form: `s`SD receives a function of `s`SA and `s`SB (R214). -/
def srOp (o : SR) (f : Word → Word → Word) (s : State) (i : Issue) : State :=
  scalarOp [o.sa, o.sb] o.sd (fun _ j => f (j.sp.get o.sa) (j.sp.get o.sb)) s i
/-- A one-operand register form (R219). -/
def srUnary (o : SR) (f : Word → Word) (s : State) (i : Issue) : State :=
  scalarOp [o.sa] o.sd (fun _ j => f (j.sp.get o.sa)) s i
/-- An immediate form: `s`SD receives a function of `s`SA and the sign-extended immediate (R187, R214). -/
def siOp (o : SI) (f : Word → Word → Word) (s : State) (i : Issue) : State :=
  scalarOp [o.sa] o.sd (fun _ j => f (j.sp.get o.sa) (sextW 32 o.imm)) s i
/-- An immediate shift: the amount is the immediate (R187, R214). -/
def siShift (o : SI) (f : Word → Word → Word) (s : State) (i : Issue) : State :=
  scalarOp [o.sa] o.sd (fun _ j => f (j.sp.get o.sa) (w64 o.imm)) s i

/-- A compare writes only the condition-code set K in SD bits 1:0 (R215). -/
def cmpOp (k : Nat) (ks : List Nat) (f : Issue → CC) (s : State) (i : Issue) : State :=
  issue (fun _ => { scal := ks })
    (fun t j => t.putSplit j (fun sp => { sp with cc := sp.cc.set (k % 4) (f j) })) s i

/-- `sadd` (R214). -/
def execSadd (o : SR) (s : State) : Host.Outcome State Fault Refusal := onIssue s (srOp o saddVal)
/-- `ssub` (R214). -/
def execSsub (o : SR) (s : State) : Host.Outcome State Fault Refusal := onIssue s (srOp o ssubVal)
/-- `smul` (R214). -/
def execSmul (o : SR) (s : State) : Host.Outcome State Fault Refusal := onIssue s (srOp o smulVal)
/-- `smulh` (R214). -/
def execSmulh (o : SR) (s : State) : Host.Outcome State Fault Refusal := onIssue s (srOp o smulhVal)
/-- `smulhn` (R214). -/
def execSmulhn (o : SR) (s : State) : Host.Outcome State Fault Refusal := onIssue s (srOp o smulhnVal)
/-- `sand` (R214). -/
def execSand (o : SR) (s : State) : Host.Outcome State Fault Refusal := onIssue s (srOp o sandVal)
/-- `sor` (R214). -/
def execSor (o : SR) (s : State) : Host.Outcome State Fault Refusal := onIssue s (srOp o sorVal)
/-- `sxor` (R214). -/
def execSxor (o : SR) (s : State) : Host.Outcome State Fault Refusal := onIssue s (srOp o sxorVal)
/-- `sshl` (R214). -/
def execSshl (o : SR) (s : State) : Host.Outcome State Fault Refusal := onIssue s (srOp o sshlVal)
/-- `sshr` (R214). -/
def execSshr (o : SR) (s : State) : Host.Outcome State Fault Refusal := onIssue s (srOp o sshrVal)
/-- `ssra` (R214). -/
def execSsra (o : SR) (s : State) : Host.Outcome State Fault Refusal := onIssue s (srOp o ssraVal)
/-- `smin` (R214). -/
def execSmin (o : SR) (s : State) : Host.Outcome State Fault Refusal := onIssue s (srOp o sminVal)
/-- `smax` (R214). -/
def execSmax (o : SR) (s : State) : Host.Outcome State Fault Refusal := onIssue s (srOp o smaxVal)
/-- `sminn` (R214). -/
def execSminn (o : SR) (s : State) : Host.Outcome State Fault Refusal := onIssue s (srOp o sminnVal)
/-- `smaxn` (R214). -/
def execSmaxn (o : SR) (s : State) : Host.Outcome State Fault Refusal := onIssue s (srOp o smaxnVal)
/-- `scmp` (R215). -/
def execScmp (o : SR) (s : State) : Host.Outcome State Fault Refusal :=
  onIssue s (cmpOp o.sd [o.sa, o.sb] (fun j => compare (j.sp.get o.sa) (j.sp.get o.sb)))
/-- `saddi` (R214). -/
def execSaddi (o : SI) (s : State) : Host.Outcome State Fault Refusal := onIssue s (siOp o saddVal)
/-- `sandi` (R214). -/
def execSandi (o : SI) (s : State) : Host.Outcome State Fault Refusal := onIssue s (siOp o sandVal)
/-- `sori` (R214). -/
def execSori (o : SI) (s : State) : Host.Outcome State Fault Refusal := onIssue s (siOp o sorVal)
/-- `sxori` (R214). -/
def execSxori (o : SI) (s : State) : Host.Outcome State Fault Refusal := onIssue s (siOp o sxorVal)
/-- `sshli` (R214). -/
def execSshli (o : SI) (s : State) : Host.Outcome State Fault Refusal := onIssue s (siShift o sshlVal)
/-- `sshri` (R214). -/
def execSshri (o : SI) (s : State) : Host.Outcome State Fault Refusal := onIssue s (siShift o sshrVal)
/-- `ssrai` (R214). -/
def execSsrai (o : SI) (s : State) : Host.Outcome State Fault Refusal := onIssue s (siShift o ssraVal)
/-- `scmpi` (R215). -/
def execScmpi (o : SI) (s : State) : Host.Outcome State Fault Refusal :=
  onIssue s (cmpOp o.sd [o.sa] (fun j => compare (j.sp.get o.sa) (sextW 32 o.imm)))
/-- `sli` (R216). -/
def execSli (o : SI) (s : State) : Host.Outcome State Fault Refusal :=
  onIssue s (scalarOp [] o.sd (fun _ _ => sextW 32 o.imm))
/-- `slih` (R216): bits 63:32 replaced. -/
def execSlih (o : SI) (s : State) : Host.Outcome State Fault Refusal :=
  onIssue s (scalarOp [o.sd] o.sd (fun _ j => setBits (j.sp.get o.sd) 32 32 o.imm))

/-! ### Vector to scalar and bit counts: major 0x02 -/

/-- `sgetv` (R217): lane and sub-element from F3. -/
def execSgetv (o : XF) (s : State) : Host.Outcome State Fault Refusal :=
  onIssue s (issue (fun _ => { rd := [o.f2], cross := true })
    (fun t j => t.putScalar j o.f1 (t.vcross j.g o.f2 (o.f3 / 16 % 32) >>> (4 * (o.f3 % 16)))))
/-- `sballot` (R218). -/
def execSballot (o : XF) (s : State) : Host.Outcome State Fault Refusal :=
  onIssue s (issue (fun _ => { preds := [o.f2] })
    (fun t j => t.putScalar j o.f1 ((maskOf (fun l => lane j.sp.mask l && j.g.pget o.f2 l)).setWidth 64)))

/-- Leading zeros among `n` bits (R219, R242). -/
def leading (n w : Nat) : Nat :=
  match highestBit n w with
  | none => n
  | some k => n - 1 - k

/-- `spopc` (R219). -/
def execSpopc (o : SR) (s : State) : Host.Outcome State Fault Refusal :=
  onIssue s (srUnary o (fun a => w64 (popcount 64 a.toNat)))
/-- `sclz` (R219). -/
def execSclz (o : SR) (s : State) : Host.Outcome State Fault Refusal :=
  onIssue s (srUnary o (fun a => w64 (leading 64 a.toNat)))
/-- `sffs` (R219). -/
def execSffs (o : SR) (s : State) : Host.Outcome State Fault Refusal :=
  onIssue s (srUnary o (fun a => w64 (lowestBit 64 a.toNat)))

/-! ### Special registers (R220, R221) -/

/-- Live splits of the group other than the issuing one, as a mask (R142). -/
def Issue.sibs (i : Issue) : Nat :=
  (i.g.liveIds.filter (fun k => k != i.sid)).foldl (fun a k => a + 2 ^ k) 0

/-- The value of a special register (R142, R220). -/
def State.special (s : State) (i : Issue) (n : Nat) : Word :=
  let b := s.blockOf i.g
  let blk := fun (f : Block → Nat) => w64 ((b.map f).getD 0)
  match n with
  | 0x000 => w64 (lowestBit 32 i.sp.mask.toNat)
  | 0x001 => w64 i.g.slot
  | 0x002 => blk (fun x => x.x)
  | 0x003 => blk (fun x => x.y)
  | 0x004 => blk (fun x => x.z)
  | 0x005 => w64 i.g.gridId
  | 0x006 => w64 i.g.core
  | 0x007 => w64 (dieOf i.g.core)
  | 0x008 => w64 i.sid
  | 0x009 => w64 i.sibs
  | 0x00A => w64 s.time
  | 0x00B => i.sp.fmt.setWidth 64
  | 0x00C => i.g.gst.setWidth 64
  | 0x00D => i.sp.mask.setWidth 64
  | 0x00E => i.sp.region
  | 0x010 => i.sp.trap.trapc
  | 0x011 => i.sp.trap.trape
  | 0x012 => i.sp.trap.trapi
  | 0x013 => i.sp.trap.trapm
  | 0x014 => i.sp.trap.trapx
  | 0x015 => i.sp.trap.traps
  | _ => 0

/-- `srd` (R220). -/
def execSrd (o : YF) (s : State) : Host.Outcome State Fault Refusal :=
  onIssue s (scalarOp [] o.sd (fun t j => t.special j o.code))

/-- Effect of `swr` (R221). A new TRAPI is no longer the barrier instruction whose wait `eret.retry` takes up (R348). -/
def swrEffect (o : YF) (t : State) (j : Issue) : State :=
  let v := j.sp.get o.sa
  if o.code = 0x00B then
    if Checks.fmtValue v.toNat then t.putSplit j (fun sp => { sp with fmt := v.setWidth 8 })
    else t.trapAt j 1 4
  else if o.code = 0x00C then
    (t.setGroup j.gid { j.g with
      gst := v.setWidth 6, splits := j.g.splits.set j.sid j.sp.advance }).settle j.gid
  else if !j.sp.trap.hnd then t.trapAt j 6 0
  else if v.toNat % 8 ≠ 0 then t.trapAt j 3 v
  else if o.code = 0x011 then t.putSplit j (fun sp => { sp with trap := { sp.trap with trape := v } })
  else t.putSplit j (fun sp => { sp with
    trap := { sp.trap with trapi := v }
    shadow := if v = sp.trap.trapi then sp.shadow else sp.shadow.map (fun h => { h with barrier := none }) })

/-- `swr` (R221). -/
def execSwr (o : YF) (s : State) : Host.Outcome State Fault Refusal :=
  onIssue s (issue (fun _ => { scal := [o.sa] }) (swrEffect o))

end Sys2Proof.Machine
end

