-- ==== Sys2Proof/Machine/VectorInt.lean ====
section
/-!
DEFINITION. Integer vector arithmetic, compares, predicate logic, moves and the fixed-latency cross-lane operations:
majors 0x20 to 0x24 and minors 0, 3 and 4 of 0x58 (R240 to R248, R256, R258, R259).
-/
namespace Sys2Proof.Machine

/-- A function of the element width and two elements, applied element by element. -/
def elemwise (t : IntTy) (f : Nat → Nat → Nat → Nat) (a b : Word) : Word :=
  let w := Checks.intWidth t
  packE w (fun j => f w (getE w j a) (getE w j b))

/-! ### Element results of R242: width, a, b -/

/-- `vadd`: sum (R242). -/
def vaddE (_w a b : Nat) : Nat := a + b
/-- `vsub`: difference (R242). -/
def vsubE (w a b : Nat) : Nat := a + 2 ^ w - b
/-- `vmul`: low half of the product (R242). -/
def vmulE (_w a b : Nat) : Nat := a * b
/-- `vmulh`: high half of the signed product (R242). -/
def vmulhE (w a b : Nat) : Nat := toE w (sE w a * sE w b / (2 : Int) ^ w)
/-- `vmulhn`: high half of the unsigned product (R242). -/
def vmulhnE (w a b : Nat) : Nat := a * b / 2 ^ w
/-- `vand`: bitwise and (R242). -/
def vandE (_w a b : Nat) : Nat := a &&& b
/-- `vor`: bitwise or (R242). -/
def vorE (_w a b : Nat) : Nat := a ||| b
/-- `vxor`: bitwise exclusive or (R242). -/
def vxorE (_w a b : Nat) : Nat := a ^^^ b
/-- `vshl`: left shift, 0 from the width on (R242). -/
def vshlE (w a b : Nat) : Nat := if w ≤ b then 0 else a * 2 ^ b
/-- `vshr`: logical right shift, 0 from the width on (R242). -/
def vshrE (w a b : Nat) : Nat := if w ≤ b then 0 else a / 2 ^ b
/-- `vsra`: arithmetic right shift, sign-filled from the width on (R242). -/
def vsraE (w a b : Nat) : Nat := toE w (sE w a / (2 : Int) ^ min b (w - 1))
/-- `vmin`: smaller, signed (R242). -/
def vminE (w a b : Nat) : Nat := if sE w a ≤ sE w b then a else b
/-- `vmax`: larger, signed (R242). -/
def vmaxE (w a b : Nat) : Nat := if sE w a ≤ sE w b then b else a
/-- `vminn`: smaller, unsigned (R242). -/
def vminnE (_w a b : Nat) : Nat := if a ≤ b then a else b
/-- `vmaxn`: larger, unsigned (R242). -/
def vmaxnE (_w a b : Nat) : Nat := if a ≤ b then b else a
/-- `vabs`: absolute value; the most negative stays itself (R242). -/
def vabsE (w a _b : Nat) : Nat := if sE w a < 0 then 2 ^ w - a else a
/-- `vneg`: negation (R242). -/
def vnegE (w a _b : Nat) : Nat := 2 ^ w - a
/-- `vclz`: leading zeros (R242). -/
def vclzE (w a _b : Nat) : Nat := leading w a
/-- `vpopc`: number of 1 bits (R242). -/
def vpopcE (w a _b : Nat) : Nat := popcount w a

/-- A binary integer form (R242). -/
def vint (t : IntTy) (o : V3) (f : Nat → Nat → Nat → Nat) (s : State) (i : Issue) : State := v3Op o (elemwise t f) s i
/-- A unary integer form (R242). -/
def vint1 (t : IntTy) (o : V3) (f : Nat → Nat → Nat → Nat) (s : State) (i : Issue) : State :=
  v3UnaryOp o (fun a => elemwise t f a 0) s i
/-- An immediate form: the second operand of every element is `b` (R187, R243). -/
def vimm (t : IntTy) (o : VI) (b : Nat) (f : Nat → Nat → Nat → Nat) (s : State) (i : Issue) : State :=
  vectorOp (fun j => { wr := [o.vd], rd := [o.va], lanes := j.guard o.p o.pn, preds := [o.p] })
    (fun j => j.guard o.p o.pn) o.vd
    (fun u j l =>
      let w := Checks.intWidth t
      packE w (fun e => f w (getE w e (u.vread j.g o.va l)) b)) s i
/-- IMM19 at the width of a type (R187). -/
def imm19 (t : IntTy) (v : Nat) : Nat := toE (Checks.intWidth t) (Decode.sext 19 v)

/-- `vadd` (R242). -/
def execVadd (ty : IntTy) (o : V3) (s : State) : Host.Outcome State Fault Refusal :=
  onIssue s (vint ty o vaddE)
/-- `vsub` (R242). -/
def execVsub (ty : IntTy) (o : V3) (s : State) : Host.Outcome State Fault Refusal :=
  onIssue s (vint ty o vsubE)
/-- `vmul` (R242). -/
def execVmul (ty : IntTy) (o : V3) (s : State) : Host.Outcome State Fault Refusal :=
  onIssue s (vint ty o vmulE)
/-- `vmulh` (R242). -/
def execVmulh (ty : IntTy) (o : V3) (s : State) : Host.Outcome State Fault Refusal :=
  onIssue s (vint ty o vmulhE)
/-- `vmulhn` (R242). -/
def execVmulhn (ty : IntTy) (o : V3) (s : State) : Host.Outcome State Fault Refusal :=
  onIssue s (vint ty o vmulhnE)
/-- `vand` (R242). -/
def execVand (ty : IntTy) (o : V3) (s : State) : Host.Outcome State Fault Refusal :=
  onIssue s (vint ty o vandE)
/-- `vor` (R242). -/
def execVor (ty : IntTy) (o : V3) (s : State) : Host.Outcome State Fault Refusal :=
  onIssue s (vint ty o vorE)
/-- `vxor` (R242). -/
def execVxor (ty : IntTy) (o : V3) (s : State) : Host.Outcome State Fault Refusal :=
  onIssue s (vint ty o vxorE)
/-- `vshl` (R242). -/
def execVshl (ty : IntTy) (o : V3) (s : State) : Host.Outcome State Fault Refusal :=
  onIssue s (vint ty o vshlE)
/-- `vshr` (R242). -/
def execVshr (ty : IntTy) (o : V3) (s : State) : Host.Outcome State Fault Refusal :=
  onIssue s (vint ty o vshrE)
/-- `vsra` (R242). -/
def execVsra (ty : IntTy) (o : V3) (s : State) : Host.Outcome State Fault Refusal :=
  onIssue s (vint ty o vsraE)
/-- `vmin` (R242). -/
def execVmin (ty : IntTy) (o : V3) (s : State) : Host.Outcome State Fault Refusal :=
  onIssue s (vint ty o vminE)
/-- `vmax` (R242). -/
def execVmax (ty : IntTy) (o : V3) (s : State) : Host.Outcome State Fault Refusal :=
  onIssue s (vint ty o vmaxE)
/-- `vminn` (R242). -/
def execVminn (ty : IntTy) (o : V3) (s : State) : Host.Outcome State Fault Refusal :=
  onIssue s (vint ty o vminnE)
/-- `vmaxn` (R242). -/
def execVmaxn (ty : IntTy) (o : V3) (s : State) : Host.Outcome State Fault Refusal :=
  onIssue s (vint ty o vmaxnE)
/-- `vabs` (R242). -/
def execVabs (ty : IntTy) (o : V3) (s : State) : Host.Outcome State Fault Refusal :=
  onIssue s (vint1 ty o vabsE)
/-- `vneg` (R242). -/
def execVneg (ty : IntTy) (o : V3) (s : State) : Host.Outcome State Fault Refusal :=
  onIssue s (vint1 ty o vnegE)
/-- `vclz` (R242). -/
def execVclz (ty : IntTy) (o : V3) (s : State) : Host.Outcome State Fault Refusal :=
  onIssue s (vint1 ty o vclzE)
/-- `vpopc` (R242). -/
def execVpopc (ty : IntTy) (o : V3) (s : State) : Host.Outcome State Fault Refusal :=
  onIssue s (vint1 ty o vpopcE)
/-- `vaddi` (R243). -/
def execVaddi (ty : IntTy) (o : VI) (s : State) : Host.Outcome State Fault Refusal :=
  onIssue s (vimm ty o (imm19 ty o.imm) vaddE)
/-- `vandi` (R243). -/
def execVandi (ty : IntTy) (o : VI) (s : State) : Host.Outcome State Fault Refusal :=
  onIssue s (vimm ty o (imm19 ty o.imm) vandE)
/-- `vori` (R243). -/
def execVori (ty : IntTy) (o : VI) (s : State) : Host.Outcome State Fault Refusal :=
  onIssue s (vimm ty o (imm19 ty o.imm) vorE)
/-- `vxori` (R243). -/
def execVxori (ty : IntTy) (o : VI) (s : State) : Host.Outcome State Fault Refusal :=
  onIssue s (vimm ty o (imm19 ty o.imm) vxorE)
/-- `vshli` (R243). -/
def execVshli (ty : IntTy) (o : VI) (s : State) : Host.Outcome State Fault Refusal :=
  onIssue s (vimm ty o o.imm vshlE)
/-- `vshri` (R243). -/
def execVshri (ty : IntTy) (o : VI) (s : State) : Host.Outcome State Fault Refusal :=
  onIssue s (vimm ty o o.imm vshrE)
/-- `vsrai` (R243). -/
def execVsrai (ty : IntTy) (o : VI) (s : State) : Host.Outcome State Fault Refusal :=
  onIssue s (vimm ty o o.imm vsraE)

/-- The lane value of `vli` (R244). -/
def vliVal (o : VL) (old : Word) : Word :=
  match o.sel / 16 with
  | 0 => sextW 32 o.imm
  | 1 => w64 o.imm
  | 2 => setBits old 0 32 o.imm
  | _ => setBits old 32 32 o.imm

/-- `vli` (R244): every active lane. -/
def execVli (o : VL) (s : State) : Host.Outcome State Fault Refusal :=
  onIssue s (vectorOp
    (fun j => { wr := [o.vd], rd := if 2 ≤ o.sel / 16 then [o.vd] else [], lanes := j.sp.mask })
    (fun j => j.sp.mask) o.vd (fun t j l => vliVal o (t.vread j.g o.vd l)))

/-! ### Compares and predicates: majors 0x22 and 0x23 -/

/-- An integer condition on two elements (R245). -/
def intHolds (c : IntCmp) (w a b : Nat) : Bool :=
  match c with
  | .eq => a == b
  | .ne => a != b
  | .lt => decide (sE w a < sE w b)
  | .le => decide (sE w a ≤ sE w b)
  | .ltn => decide (a < b)
  | .len => decide (a ≤ b)

/-- A compare of VA and the patterned VB into predicate PD (R245). -/
def cmpPred (o : V3) (f : Word → Word → Bool) (s : State) (i : Issue) : State :=
  issue (fun j => { rd := [o.va, o.vb], cross := decide (o.kind ≠ 0), lanes := j.guard o.p o.pn, preds := [o.p] })
    (fun t j => (t.pwrite j.gid o.vd (j.guard o.p o.pn)
      (fun l => f (t.vread j.g o.va l) (t.vpat j.g o.vb o.kind o.amt l))).done j) s i

/-- `vcmp` (R245): the condition holds for every element. -/
def execVcmp (c : IntCmp) (ty : IntTy) (o : V3) (s : State) : Host.Outcome State Fault Refusal :=
  onIssue s (cmpPred o (fun a b =>
    let w := Checks.intWidth ty
    (List.range (64 / w)).all (fun j => intHolds c w (getE w j a) (getE w j b))))

/-- A predicate instruction: PD in the guarded lanes is a function of PA and the patterned PB (R184, R246). -/
def predOp (o : V3) (ps : List Nat) (f : Bool → Bool → Bool) (s : State) (i : Issue) : State :=
  issue (fun _ => { preds := o.p :: ps })
    (fun t j => (t.pwrite j.gid o.vd (j.guard o.p o.pn)
      (fun l => f (j.g.pget o.va l) (j.g.pget o.vb (patLane o.kind o.amt l)))).done j) s i

/-- `pand` (R246). -/
def execPand (o : V3) (s : State) : Host.Outcome State Fault Refusal := onIssue s (predOp o [o.va, o.vb] (fun a b => a && b))
/-- `por` (R246). -/
def execPor (o : V3) (s : State) : Host.Outcome State Fault Refusal := onIssue s (predOp o [o.va, o.vb] (fun a b => a || b))
/-- `pxor` (R246). -/
def execPxor (o : V3) (s : State) : Host.Outcome State Fault Refusal := onIssue s (predOp o [o.va, o.vb] (fun a b => a != b))
/-- `pandn` (R246). -/
def execPandn (o : V3) (s : State) : Host.Outcome State Fault Refusal := onIssue s (predOp o [o.va, o.vb] (fun a b => a && !b))
/-- `pnot` (R246). -/
def execPnot (o : V3) (s : State) : Host.Outcome State Fault Refusal := onIssue s (predOp o [o.va] (fun a _ => !a))
/-- `pmov` (R246). -/
def execPmov (o : V3) (s : State) : Host.Outcome State Fault Refusal := onIssue s (predOp o [o.va] (fun a _ => a))
/-- `pset` (R246). -/
def execPset (o : V3) (s : State) : Host.Outcome State Fault Refusal := onIssue s (predOp o [] (fun _ _ => true))
/-- `pclr` (R246). -/
def execPclr (o : V3) (s : State) : Host.Outcome State Fault Refusal := onIssue s (predOp o [] (fun _ _ => false))
/-- `ptest` (R246): PA receives the Z flag of set K, named in VD. -/
def execPtest (o : V3) (s : State) : Host.Outcome State Fault Refusal :=
  onIssue s (issue (fun _ => { preds := [o.p] }) (fun t j =>
    (t.pwrite j.gid o.va (j.guard o.p o.pn) (fun _ => (j.sp.ccGet (o.vd % 4)).z)).done j))

/-! ### Moves: major 0x24 -/

/-- `vsel` (R247): P and PN select, every active lane is written. -/
def execVsel (o : V3) (s : State) : Host.Outcome State Fault Refusal :=
  onIssue s (vectorOp
    (fun j => { wr := [o.vd], rd := [o.va, o.vb], cross := decide (o.kind ≠ 0), lanes := j.sp.mask, preds := [o.p] })
    (fun j => j.sp.mask) o.vd
    (fun t j l => if lane (j.guard o.p o.pn) l then t.vread j.g o.va l else t.vpat j.g o.vb o.kind o.amt l))
/-- `vmov` (R247). -/
def execVmov (o : V3) (s : State) : Host.Outcome State Fault Refusal := onIssue s (v3UnaryOp o (fun a => a))
/-- `vbcast` (R248). -/
def execVbcast (o : VS) (s : State) : Host.Outcome State Fault Refusal :=
  onIssue s (vectorOp (fun j => { wr := [o.vd], lanes := j.guard o.p o.pn, preds := [o.p], scal := [o.sa] })
    (fun j => j.guard o.p o.pn) o.vd (fun _ j _ => j.sp.get o.sa))
/-- The lane and sub-element index of `vlane` (R248). -/
def vlaneIndex (a : Word) (imm : Nat) : Nat := (((a.toNat : Int) + Decode.sext 13 imm) % 512).toNat
/-- `vlane` (R248). -/
def execVlane (o : VS) (s : State) : Host.Outcome State Fault Refusal :=
  onIssue s (vectorOp
    (fun j => { wr := [o.vd], rd := [o.va], cross := true, lanes := j.guard o.p o.pn, preds := [o.p], scal := [o.sa] })
    (fun j => j.guard o.p o.pn) o.vd
    (fun t j _ =>
      let x := vlaneIndex (j.sp.get o.sa) o.imm
      t.vcross j.g o.va (x / 16) >>> (4 * (x % 16))))

/-! ### Cross-lane operations of fixed latency: major 0x58 -/

/-- `vperm` (R256): byte `k` is byte `x & 7` of VA in lane `x >> 3`. -/
def execVperm (o : V3) (s : State) : Host.Outcome State Fault Refusal :=
  onIssue s (vectorOp
    (fun j => { wr := [o.vd], rd := [o.va, o.vb], cross := true, lanes := j.guard o.p o.pn, preds := [o.p] })
    (fun j => j.guard o.p o.pn) o.vd
    (fun t j l => packE 8 (fun k =>
      let x := getE 8 k (t.vpat j.g o.vb o.kind o.amt l)
      getE 8 (x % 8) (t.vcross j.g o.va (x / 8)))))
/-- `vconf` (R258): the lower guarded lanes that hold the lane's value. -/
def execVconf (o : V3) (s : State) : Host.Outcome State Fault Refusal :=
  onIssue s (vectorOp
    (fun j => { wr := [o.vd], rd := [o.va], cross := true, lanes := j.guard o.p o.pn, preds := [o.p] })
    (fun j => j.guard o.p o.pn) o.vd
    (fun t j l => (maskOf (fun m => decide (m < l) && lane (j.guard o.p o.pn) m &&
      t.vcross j.g o.va m == t.vcross j.g o.va l)).setWidth 64))
/-- `vcomp` (R259): selection mark, number selected, rank. -/
def execVcomp (o : V3) (s : State) : Host.Outcome State Fault Refusal :=
  onIssue s (vectorOp
    (fun j => { wr := [o.vd], rd := [o.va], cross := true, lanes := j.guard o.p o.pn, preds := [o.p] })
    (fun j => j.guard o.p o.pn) o.vd
    (fun t j l =>
      let sel := (lanesOf (j.guard o.p o.pn)).filter (fun m => t.vcross j.g o.va m != 0)
      w64 (b2n (sel.contains l) * 2 ^ 63 + sel.length * 2 ^ 32 + (sel.filter (fun m => decide (m < l))).length)))

end Sys2Proof.Machine
end

