-- ==== Sys2Proof/Machine/Range.lean ====
section
/-!
DEFINITION. Range registers at an instruction (R263): the delivery of checked results, and major 0x7B (R261).
-/
namespace Sys2Proof.Machine

/-- The split is restarted at its region entry by a range register, its one restart of the region (R263, R349). -/
def State.retryAt (s : State) (i : Issue) : State :=
  ((s.modSplit i.gid i.sid (fun sp => { sp with restarted := true })).restart i.gid i.sid).settle i.gid

/-- Delivers a float result of fixed latency: it is checked and written at once (R37, R201, R263). -/
def State.deliverNow (s : State) (i : Issue) (ps : List Part) (f : Flags) : State :=
  match i.verdict i.g 0 (fun p => p.reg) ps with
  | .raise cause lanes x => s.trapLanes i cause lanes x
  | .retry => s.retryAt i
  | .write qs hits =>
    let t := if hits.isEmpty then s else s.modGroup i.gid (fun g => g.markHits hits)
    let t := (partRegs qs).foldl (fun u r =>
      State.vwrite u i r ((qs.filter (fun q => q.reg == r)).map (fun q => (q.lane, q.word)))) t
    (t.orGst i.gid f.bits).done i

/-- Sends a float result of variable latency on its way; it is checked when it is written, and where that check can trap or
restart its split holds until then (R37, R262, R263). -/
def State.deliverLate (s : State) (i : Issue) (m : Mask) (ps : List Part) (f : Flags) (sb : Option Nat) : State :=
  let t := s.vsendWith i.gid i.sid (partRegs ps) m (partData ps) f.bits sb ps i.sp.pc
  let t := if i.g.guards ps then t.modSplit i.gid i.sid (fun sp => { sp with checking := some s.nextId }) else t
  t.done i

/-- Delivers a float result: at once (`late = none`), or on its way with the scoreboard slot given. -/
def State.deliver (s : State) (i : Issue) (m : Mask) (ps : List Part) (f : Flags) (late : Option (Option Nat)) : State :=
  match late with
  | none => s.deliverNow i ps f
  | some sb => s.deliverLate i m ps f sb

/-! ### Major 0x7B (R261) -/

/-- Range register `k` of a group: descriptor and bounds. -/
def Group.bdGet (g : Group) (k : Nat) : Word × Word := g.bd.getD k (0, 0)

/-- Effect of `bdset` (R261). -/
def bdsetEffect (o : YF) (t : State) (j : Issue) : State :=
  let d := j.sp.get o.sa
  let b := j.sp.get o.sd
  let tiles := match t.blockOf j.g with
    | some k => k.tiles.length
    | none => 0
  if !bdValid d || !bdBounds b then t.trapAt j 1 4
  else if bits d 53 3 = 1 ∧ tiles ≤ bdFirst d then t.trapAt j 2 (w64 (bdFirst d))
  else
    (t.setGroup j.gid { j.g with
      bd := j.g.bd.set (o.code % 32) (setBits d 56 1 0, b)
      splits := j.g.splits.set j.sid j.sp.advance }).settle j.gid

/-- `bdset` (R261). -/
def execBdset (o : YF) (s : State) : Host.Outcome State Fault Refusal :=
  onIssue s (issue (fun _ => { scal := [o.sa, o.sd] }) (bdsetEffect o))

/-- `bdget` (R261). -/
def execBdget (o : YF) (s : State) : Host.Outcome State Fault Refusal :=
  onIssue s (scalarOp [] o.sd (fun _ j =>
    let b := j.g.bdGet (o.code % 32)
    if o.code / 32 % 2 = 1 then b.2 else b.1))

/-- `bdclr` (R261). -/
def execBdclr (o : YF) (s : State) : Host.Outcome State Fault Refusal :=
  onIssue s (issue (fun _ => {}) (fun t j =>
    (t.setGroup j.gid { j.g with
      bd := j.g.bd.filter (fun e => !o.code.testBit e.1)
      splits := j.g.splits.set j.sid j.sp.advance }).settle j.gid))

end Sys2Proof.Machine
end

