-- ==== Sys2Proof/Machine/VectorFloat.lean ====
section
/-!
DEFINITION. Float vector instructions: majors 0x40, 0x41, 0x50, 0x51 and 0x52, the float compares of 0x22, and
`vred` and `vscan` (R245, R249 to R258).
-/
namespace Sys2Proof.Machine

/-- RND of the format register (R199). -/
def Split.rnd (sp : Split) : Nat := sp.fmt.toNat % 4
/-- SAT of the format register (R199). -/
def Split.sat (sp : Split) : Bool := sp.fmt.getLsbD 3
/-- ELEM of the format register (R199). -/
def Split.elem (sp : Split) : Nat := sp.fmt.toNat / 16

/-- Elements with flags packed into a lane of width `w`, from element 0 up. -/
def packF (w : Nat) (l : List (Nat × Flags)) : Word × Flags :=
  (packE w (fun j => (l.getD j (0, noFlags)).1), l.foldl (fun f e => f.or e.2) noFlags)

/-- The flags of several lanes together. -/
def flagsOf (l : List (Word × Flags)) : Flags := l.foldl (fun f e => f.or e.2) noFlags

/-! ### Major 0x40 (R249) -/

/-- A float instruction of major 0x40: each element's result from the mode, the old destination element, and the
elements of VA and the patterned VB. -/
def vfloat (ty : FloatTy) (o : V3) (n : Issue → Needs) (f : Fmt → Nat → Nat → Nat → Nat → Nat × Flags)
    (s : State) (i : Issue) : State :=
  issue n (fun t j =>
    let fm := tyFmt ty
    let w := fm.width
    let m := j.guard o.p o.pn
    let rs := (lanesOf m).map (fun l =>
      let d := t.vread j.g o.vd l
      let a := t.vread j.g o.va l
      let b := t.vpat j.g o.vb o.kind o.amt l
      (l, packF w ((List.range (64 / w)).map (fun e => f fm j.sp.rnd (getE w e d) (getE w e a) (getE w e b)))))
    t.deliver j m (rs.map (fun r => ⟨o.vd, r.1, fm, 64 / w, r.2.1⟩)) (flagsOf (rs.map (fun r => r.2))) none) s i

/-- The element with its sign inverted. -/
def flipSign (f : Fmt) (x : Nat) : Nat := if f.signBit ≤ x then x - f.signBit else x + f.signBit

/-- The product of two elements rounded once (R249). -/
def fmulBits (f : Fmt) (mode a b : Nat) : Nat × Flags :=
  let x := f.val a
  let y := f.val b
  let r := fmul x y
  f.round false mode r (invalid [x, y] r)

/-- `vfabs` and `vfneg` of an element (R249, R198). -/
def fabsneg (f : Fmt) (neg : Bool) (a : Nat) : Nat × Flags :=
  match f.val a with
  | .nan sig => (f.nanBits, { nv := sig })
  | _ => (if neg then flipSign f a else a % f.signBit, noFlags)

/-- `vfadd` (R249). -/
def execVfadd (ty : FloatTy) (o : V3) (s : State) : Host.Outcome State Fault Refusal :=
  onIssue s (vfloat ty o (v3Needs o false) (fun f m _ a b => faddBits f m a b))
/-- `vfsub` (R249). -/
def execVfsub (ty : FloatTy) (o : V3) (s : State) : Host.Outcome State Fault Refusal :=
  onIssue s (vfloat ty o (v3Needs o false) (fun f m _ a b => faddBits f m a (flipSign f b)))
/-- `vfmul` (R249). -/
def execVfmul (ty : FloatTy) (o : V3) (s : State) : Host.Outcome State Fault Refusal :=
  onIssue s (vfloat ty o (v3Needs o false) (fun f m _ a b => fmulBits f m a b))
/-- `vfma` (R249). -/
def execVfma (ty : FloatTy) (o : V3) (s : State) : Host.Outcome State Fault Refusal :=
  onIssue s (vfloat ty o (v3Needs o true) (fun f m d a b => ffma f m false false d a b))
/-- `vfms` (R249). -/
def execVfms (ty : FloatTy) (o : V3) (s : State) : Host.Outcome State Fault Refusal :=
  onIssue s (vfloat ty o (v3Needs o true) (fun f m d a b => ffma f m false true d a b))
/-- `vfnma` (R249). -/
def execVfnma (ty : FloatTy) (o : V3) (s : State) : Host.Outcome State Fault Refusal :=
  onIssue s (vfloat ty o (v3Needs o true) (fun f m d a b => ffma f m true true d a b))
/-- `vfmin` (R206, R249). -/
def execVfmin (ty : FloatTy) (o : V3) (s : State) : Host.Outcome State Fault Refusal :=
  onIssue s (vfloat ty o (v3Needs o false) (fun f _ _ a b => fminmax f false a b))
/-- `vfmax` (R206, R249). -/
def execVfmax (ty : FloatTy) (o : V3) (s : State) : Host.Outcome State Fault Refusal :=
  onIssue s (vfloat ty o (v3Needs o false) (fun f _ _ a b => fminmax f true a b))
/-- `vfabs` (R249). -/
def execVfabs (ty : FloatTy) (o : V3) (s : State) : Host.Outcome State Fault Refusal :=
  onIssue s (vfloat ty o (v3Unary o) (fun f _ _ a _ => fabsneg f false a))
/-- `vfneg` (R249). -/
def execVfneg (ty : FloatTy) (o : V3) (s : State) : Host.Outcome State Fault Refusal :=
  onIssue s (vfloat ty o (v3Unary o) (fun f _ _ a _ => fabsneg f true a))
/-- `vfclass` (R249): an integer result, not checked by range registers (R262). -/
def execVfclass (ty : FloatTy) (o : V3) (s : State) : Host.Outcome State Fault Refusal :=
  onIssue s (v3UnaryOp o (fun a =>
    let f := tyFmt ty
    packE f.width (fun j => fclass f (getE f.width j a))))

/-- A float condition on two elements (R245). -/
def floatHolds (c : FloatCmp) (f : Fmt) (a b : Nat) : Bool :=
  let x := f.val a
  let y := f.val b
  match c with
  | .eq => feq x y
  | .ne => !feq x y
  | .lt => flt x y
  | .le => flt x y || feq x y
  | .un => x.isNan || y.isNan

/-- `vfcmp` (R245): the condition holds for every element. -/
def execVfcmp (c : FloatCmp) (ty : FloatTy) (o : V3) (s : State) : Host.Outcome State Fault Refusal :=
  onIssue s (cmpPred o (fun a b =>
    let f := tyFmt ty
    (List.range (64 / f.width)).all (fun j => floatHolds c f (getE f.width j a) (getE f.width j b))))

/-! ### Major 0x41 (R250) -/

/-- A special-function instruction on both FP32 elements of each guarded lane (R250). -/
def vsfu (k : Sfu) (o : XF) (s : State) (i : Issue) : State :=
  issue (fun j => { wr := [o.f1], rd := [o.f2], lanes := j.guard o.p o.pn, preds := [o.p], sb := o.sb }) (fun t j =>
    let m := j.guard o.p o.pn
    let rs := (lanesOf m).map (fun l =>
      let a := t.vread j.g o.f2 l
      (l, packF 32 [sfu k (getE 32 0 a), sfu k (getE 32 1 a)]))
    t.deliver j m (rs.map (fun r => ⟨o.f1, r.1, fp32, 2, r.2.1⟩)) (flagsOf (rs.map (fun r => r.2))) (some o.sb)) s i

/-- `vrcp` (R207, R250). -/
def execVrcp (o : XF) (s : State) : Host.Outcome State Fault Refusal := onIssue s (vsfu .rcp o)
/-- `vrsq` (R207, R250). -/
def execVrsq (o : XF) (s : State) : Host.Outcome State Fault Refusal := onIssue s (vsfu .rsq o)
/-- `vsqrt` (R207, R250). -/
def execVsqrt (o : XF) (s : State) : Host.Outcome State Fault Refusal := onIssue s (vsfu .sqrt o)
/-- `vexp2` (R207, R250). -/
def execVexp2 (o : XF) (s : State) : Host.Outcome State Fault Refusal := onIssue s (vsfu .exp2 o)
/-- `vlog2` (R207, R250). -/
def execVlog2 (o : XF) (s : State) : Host.Outcome State Fault Refusal := onIssue s (vsfu .log2 o)

/-! ### Major 0x50 (R251 to R253) -/

/-- Registers `r .. r + k - 1`. -/
def runOf (r k : Nat) : List Nat := (List.range k).map (fun j => r + j)

/-- A conversion of `n` elements from the run `srcs` into the run `dsts` (R251, R252): element `e` of a run lies in
register `e div k`, element `e mod k`, with `k` elements to a register. -/
def convertRun (o : XF) (srcs dsts : List Nat) (n : Nat) (s : State) (i : Issue) : State :=
  issue (fun j => { wr := dsts, rd := srcs ++ [o.f3], lanes := j.guard o.p o.pn, preds := [o.p] }) (fun t j =>
    let ws := Checks.fmtWidth o.b74
    let wd := Checks.fmtWidth o.f4
    let m := j.guard o.p o.pn
    let rs := (lanesOf m).map (fun l =>
      let scale := if o.f3 = zReg then none else some (getE 8 0 (t.vread j.g o.f3 l))
      let xs := srcs.map (fun r => t.vread j.g r l)
      let es := (List.range n).map (fun e =>
        convertElem o.b74 o.f4 j.sp.sat j.sp.rnd scale (getE ws (e % (64 / ws)) (xs.getD (e / (64 / ws)) 0)))
      (l, es, es.foldl (fun f e => f.or e.2) noFlags))
    let cnt := if intFmt o.f4 then 0 else min n (64 / wd)
    let parts := dsts.flatMap (fun r => rs.map (fun q =>
      (⟨r, q.1, fmtOf o.f4, cnt, packE wd (fun e => (q.2.1.getD ((r - o.f1) * (64 / wd) + e) (0, noFlags)).1)⟩ : Part)))
    t.deliver j m parts (rs.foldl (fun f q => f.or q.2.2) noFlags) none) s i

/-- `vcvt` (R251). -/
def execVcvt (o : XF) (s : State) : Host.Outcome State Fault Refusal :=
  onIssue s (convertRun o [o.f2] [o.f1] (64 / max (Checks.fmtWidth o.b74) (Checks.fmtWidth o.f4)))
/-- `vpack` (R251). -/
def execVpack (o : XF) (s : State) : Host.Outcome State Fault Refusal :=
  onIssue s (convertRun o (runOf o.f2 (Checks.fmtWidth o.b74 / Checks.fmtWidth o.f4)) [o.f1] (64 / Checks.fmtWidth o.f4))
/-- `vunpack` (R251). -/
def execVunpack (o : XF) (s : State) : Host.Outcome State Fault Refusal :=
  onIssue s (convertRun o [o.f2] (runOf o.f1 (Checks.fmtWidth o.f4 / Checks.fmtWidth o.b74)) (64 / Checks.fmtWidth o.b74))

/-- `vscl` (R204, R253). -/
def execVscl (o : XF) (s : State) : Host.Outcome State Fault Refusal :=
  onIssue s (vectorOp
    (fun j => { wr := [o.f1], rd := [o.f2], lanes := j.guard o.p o.pn, preds := [o.p] })
    (fun j => j.guard o.p o.pn) o.f1 (fun t j l =>
      let f := fmtOf o.b74
      let a := t.vread j.g o.f2 l
      w64 (scaleByte ((List.range (64 / f.width)).map (fun e => f.val (getE f.width e a))) (emaxOf o.f4))))

/-! ### Major 0x51 (R254) -/

/-- `dot_half` (R254): `d` plus the exact sum of products of pairs, rounded once. -/
def dotHalf (mode : Nat) (f : Fmt) (d : Nat) (ab : List (Nat × Nat)) : Nat × Flags :=
  let x := fp32.val d
  let ps := ab.map (fun e => fmul (f.val e.1) (f.val e.2))
  let bad := ps.any FVal.isNan || (ps.any (fun p => p == .inf true) && ps.any (fun p => p == .inf false))
  if x.isNan || bad then (fp32.nanBits, { nv := bad || x.isSig })
  else
    let r := fsum mode (x :: ps)
    fp32.round false mode r r.isNan

/-- A dot product of elements of width `w` into the two halves of VD (R254). -/
def dotOp (o : XF) (f : Issue → Nat → List (Nat × Nat) → Nat × Flags) (w : Nat) (checked : Bool)
    (s : State) (i : Issue) : State :=
  issue (fun j => { wr := [o.f1], rd := [o.f2, o.f3, o.f1], lanes := j.guard o.p o.pn, preds := [o.p], sb := o.sb })
    (fun t j =>
      let m := j.guard o.p o.pn
      let k := 32 / w
      let rs := (lanesOf m).map (fun l =>
        let d := t.vread j.g o.f1 l
        let a := t.vread j.g o.f2 l
        let b := t.vread j.g o.f3 l
        (l, packF 32 ((List.range 2).map (fun h =>
          f j (getE 32 h d) ((List.range k).map (fun e => (getE w (k * h + e) a, getE w (k * h + e) b)))))))
      t.deliver j m (rs.map (fun r => ⟨o.f1, r.1, fp32, if checked then 2 else 0, r.2.1⟩))
        (flagsOf (rs.map (fun r => r.2))) (some o.sb)) s i

/-- `vdot8` (R254). -/
def execVdot8 (o : XF) (s : State) : Host.Outcome State Fault Refusal :=
  onIssue s (dotOp o (fun j d ab => dotHalf j.sp.rnd (fmtOf j.sp.elem) d ab) 8 true)
/-- `vdot4` (R254). -/
def execVdot4 (o : XF) (s : State) : Host.Outcome State Fault Refusal :=
  onIssue s (dotOp o (fun j d ab => dotHalf j.sp.rnd e2m1 d ab) 4 true)
/-- `vdoti8` (R254). -/
def execVdoti8 (o : XF) (s : State) : Host.Outcome State Fault Refusal :=
  onIssue s (dotOp o (fun _ d ab =>
    (toE 32 (ab.foldl (fun n e => n + sE 8 e.1 * sE 8 e.2) (d : Int)), noFlags)) 8 false)

/-! ### Major 0x52 (R255) -/

/-- One lane of `tmv`: the results and their flags (R255). -/
def tmvLane (mode n : Nat) (mat : List Nat) (x : Nat → Nat) : List (Nat × Flags) :=
  (List.range n).map (fun i =>
    (List.range n).foldl (fun acc j =>
      let r := ffma fp32 mode false false acc.1 (mat.getD (n * i + j) 0) (x j)
      (r.1, acc.2.or r.2)) (0, noFlags))

/-- Effect of `tmv` (R255). -/
def tmvEffect (o : XF) (t : State) (j : Issue) : State :=
  let n := o.f4 + 1
  let off := j.sp.get o.sa
  let len := 4 * n * n
  let base := t.cnBase j.g.ctx + off.toNat
  if off.toNat % 4 ≠ 0 then t.trapAt j 3 off
  else if t.cnExtent j.g.ctx < off.toNat + len then t.trapAt j 4 off
  else
    match t.parityHit 5 j.g.core 0 0 base len with
    | some u =>
      let u' := match u with
        | .onDie kind k h v a => Unit_.onDie kind k h v (a - t.cnBase j.g.ctx)
        | u => u
      (t.parityLog u').trapLanes j 7 (j.guard o.p o.pn) (parityX u')
    | none =>
      let m := j.guard o.p o.pn
      let bs := t.cnsRead j.g.core base len
      let mat := (List.range (n * n)).map (fun k => leNat ((bs.drop (4 * k)).take 4))
      let k := (n + 1) / 2
      let rs := (lanesOf m).map (fun l =>
        (l, tmvLane j.sp.rnd n mat (fun e => getE 32 (e % 2) (t.vread j.g (o.f2 + e / 2) l))))
      let parts := (List.range k).flatMap (fun r => rs.map (fun q =>
        let lo := (q.2.getD (2 * r) (0, noFlags)).1
        let hi := if 2 * r + 1 < n then (q.2.getD (2 * r + 1) (0, noFlags)).1
          else getE 32 1 (t.vread j.g (o.f1 + r) q.1)
        (⟨o.f1 + r, q.1, fp32, if 2 * r + 1 < n then 2 else 1, w64 (lo + hi * 2 ^ 32)⟩ : Part)))
      t.deliver j m parts (rs.foldl (fun f q => q.2.foldl (fun h e => h.or e.2) f) noFlags) (some o.sb)

/-- `tmv` (R255). -/
def execTmv (o : XF) (s : State) : Host.Outcome State Fault Refusal :=
  onIssue s (issue (fun j =>
    let k := (o.f4 + 2) / 2
    { wr := runOf o.f1 k, rd := runOf o.f2 k, lanes := j.guard o.p o.pn, preds := [o.p], scal := [o.sa], sb := o.sb })
    (tmvEffect o))

/-! ### `vred` and `vscan` (R209, R210, R257) -/

/-- A value of a tree: an element with the flags raised on the way, or EMPTY. -/
abbrev Node_ := Option (Nat × Flags)

/-- A node of the tree (R209). -/
def treeNode (op : Nat → Nat → Nat × Flags) (a b : Node_) : Node_ :=
  match a, b with
  | none, b => b
  | a, none => a
  | some x, some y =>
    let r := op x.1 y.1
    some (r.1, (x.2.or y.2).or r.2)

/-- The tree node over `2^k` positions from `lo` (R209). -/
def treeAt (op : Nat → Nat → Nat × Flags) (f : Nat → Node_) : Nat → Nat → Node_
  | 0, lo => f lo
  | k + 1, lo => treeNode op (treeAt op f k lo) (treeAt op f k (lo + 2 ^ k))

/-- The inclusive combination of positions `0 .. l` (R210): aligned blocks, largest first, folded from the left. -/
def scanTo (op : Nat → Nat → Nat × Flags) (f : Nat → Node_) (l : Nat) : Node_ :=
  ([5, 4, 3, 2, 1, 0].foldl (fun (acc : Node_ × Nat) k =>
    if (l + 1).testBit k then (treeNode op acc.1 (treeAt op f k acc.2), acc.2 + 2 ^ k) else acc) (none, 0)).1

/-- The operation of a reduction on integer elements of width `w` (R257). -/
def redInt (op w : Nat) (a b : Nat) : Nat × Flags :=
  (match op with
    | 0 => (a + b) % 2 ^ w
    | 1 => vminE w a b
    | 2 => vmaxE w a b
    | 3 => a &&& b
    | 4 => a ||| b
    | 5 => a ^^^ b
    | 6 => vminnE w a b
    | _ => vmaxnE w a b, noFlags)

/-- The operation of a reduction on float elements (R206, R257). -/
def redFloat (op : Nat) (f : Fmt) (a b : Nat) : Nat × Flags :=
  match op with
  | 0 => faddBits f 0 a b
  | 1 => fminmax f false a b
  | _ => fminmax f true a b

/-- The float type of a TYPE code (R186). -/
def redFmt (code : Nat) : Fmt := fmtOf code

/-- A float result is canonical when it is a NaN, and a signalling element raises NV even where nothing is combined
with it (R198). -/
def canonical (f : Fmt) (x : Nat) : Nat × Flags :=
  match f.val x with
  | .nan sig => (f.nanBits, { nv := sig })
  | _ => (x, noFlags)

/-- `vred` or `vscan`: `pick` chooses the combination a lane receives (R257). -/
def redOp (o : XF) (pick : (Nat → Nat → Nat × Flags) → (Nat → Node_) → Nat → Node_) (s : State) (i : Issue) : State :=
  issue (fun j => { wr := [o.f1], rd := [o.f2], lanes := j.guard o.p o.pn, preds := [o.p], sb := o.sb }) (fun t j =>
    let m := j.guard o.p o.pn
    let flt := decide (o.f3 / 32 % 2 = 1)
    let ty := o.f3 % 4
    let f := redFmt ty
    let w := if flt then f.width else 8 * 2 ^ ty
    let op := if flt then redFloat (o.f3 / 4 % 8) f else redInt (o.f3 / 4 % 8) w
    let src := fun l e => getE w e (t.vcross j.g o.f2 l)
    let val := fun e l => if lane m l then some (src l e, noFlags) else none
    let fin := fun (x : Node_) =>
      let y := x.getD (0, noFlags)
      if flt then
        let c := canonical f y.1
        (c.1, y.2.or c.2)
      else y
    let rs := (lanesOf m).map (fun l => (l, packF w ((List.range (64 / w)).map (fun e => fin (pick op (val e) l)))))
    t.deliver j m (rs.map (fun r => ⟨o.f1, r.1, f, if flt then 64 / w else 0, r.2.1⟩))
      (flagsOf (rs.map (fun r => r.2))) (some o.sb)) s i

/-- `vred` (R209, R257). -/
def execVred (o : XF) (s : State) : Host.Outcome State Fault Refusal :=
  onIssue s (redOp o (fun op f _ => treeAt op f 5 0))
/-- `vscan` (R210, R257). -/
def execVscan (o : XF) (s : State) : Host.Outcome State Fault Refusal := onIssue s (redOp o scanTo)

end Sys2Proof.Machine
end

