-- ==== Sys2Proof/Machine/Memory.lean ====
section
/-!
DEFINITION. Major 0x60: loads and stores of the on-die spaces, the spill stack, gathers and scatters (R266 to
R269), with their checks (R12), integrity (R57) and orders (R113, R114, R117).
-/
namespace Sys2Proof.Machine

/-! ### Addresses and checks -/

/-- The guarded lanes of an access with their offsets (R266): two signed terms added without wrapping (R11). -/
def laneOffsets (t : State) (j : Issue) (o : MF) : List (Nat × Int) :=
  let base := j.sp.getInt o.sbase
  (lanesOf (j.guard o.p o.pn)).map (fun l => (l, base + (t.vread j.g o.va l).toInt))

/-- The all-lanes check of an on-die access of `n` bytes (R12): the cause of the highest rank, the lanes that have
it, and the offset of the lowest of them. -/
def State.laneFail (s : State) (g : Group) (sp : Space) (n : Nat) (ls : List (Nat × Int)) : Option (Fail × Mask × Word) :=
  let rs := ls.map (fun e => (e, s.check g sp e.2 n))
  [Fail.bounds, .span, .align].findSome? (fun f =>
    let bad := (rs.filter (fun r => r.2 == some f)).map (fun r => r.1)
    (bad.head?).map (fun e => (f, maskList (bad.map (fun b => b.1)), BitVec.ofInt 64 e.2)))

/-- The first offset of a space for a group, as its storage is addressed: block, die-linear or store. -/
def State.origin (s : State) (g : Group) : Space → Nat
  | .shm => 0
  | .spd => s.spBase g.ctx (dieOf g.core)
  | .cns => s.cnBase g.ctx

/-- The marked unit that a read of `n` bytes at offset `o` meets, as it is reported (R57). -/
def State.spaceParity (s : State) (g : Group) (sp : Space) (o n : Nat) : Option Unit_ :=
  match sp with
  | .shm => s.shmHit g.bid o n
  | .spd => s.spdParity g.core (s.origin g .spd + o) n
  | .cns => (s.parityHit 5 g.core 0 0 (s.origin g .cns + o) n).map (fun u => match u with
      | .onDie k c h v a => .onDie k c h v (a - s.origin g .cns)
      | u => u)

/-- The lanes of an access and the marked unit of the lowest lane that meets one (R57). -/
def State.laneParity (s : State) (g : Group) (sp : Space) (n : Nat) (ls : List (Nat × Int)) : Option (Mask × Unit_) :=
  if s.parity.isEmpty then none
  else
    let hits := ls.filterMap (fun e => (s.spaceParity g sp e.2.toNat n).map (fun u => (e.1, u)))
    (hits.head?).map (fun h => (maskList ((hits.filter (fun k => k.2 == h.2)).map (fun k => k.1)), h.2))

/-- `n` bytes at offset `o` of a space, as a group's core reads them (R13, R17, R47). -/
def State.spaceRead (s : State) (g : Group) (sp : Space) (o n : Nat) : List Byte :=
  match sp with
  | .shm => s.shmRead g.bid o n
  | .spd => s.spdRead g.core (s.origin g .spd + o) n
  | .cns => s.cnsRead g.core (s.origin g .cns + o) n

/-! ### Orders (R113, R114, R117) -/

/-- The bytes of an element operation. -/
def floatBytes (t : FloatTy) : Nat := (tyFmt t).width / 8
/-- Bytes of an element of an atomic (R270). -/
def AtomOp.size : AtomOp → Nat
  | .add w => w / 8
  | .fadd t => floatBytes t
  | .fmin t => floatBytes t
  | .fmax t => floatBytes t
  | .min w _ => w / 8
  | .max w _ => w / 8
  | .and w => w / 8
  | .or w => w / 8
  | .xchg w => w / 8
  | .cas w => w / 8

/-- Scratchpad bytes that an atomic of the group, not performed yet, will change: later accesses of its splits to
them wait (R106, R109, R120). -/
def State.behindAtomic (s : State) (i : Issue) (lin n : Nat) : Bool :=
  (s.svcAtomics i.gid).any (fun e => e.1 == i.die && e.2.2.any (fun x => meets x.addr e.2.1.size lin n))

/-- `s` after the cores of a die, or of the package for scopes beyond `.clus`, have drained (R117). -/
def State.promote (s : State) (die scope : Nat) : State :=
  (s.cores.map (fun e => e.1)).foldl (fun t k => if scope = 2 ∧ dieOf k ≠ die then t else t.wbDrainAll k) s

/-- What the order of an access does before it: a release of scope `.clus` or wider drains the write buffer, and an
acquire with `.rmt` drains remote ones (R46, R113, R117). -/
def State.ordered (s : State) (i : Issue) (order scope : Nat) (rmt : Bool) : State :=
  let t := if 2 ≤ order ∧ 2 ≤ scope then s.wbDrainAll i.g.core else s
  if rmt then t.promote i.die scope else t

/-! ### Loads and stores (R266, R267) -/

/-- Destination registers, `z` left out. -/
def dests (rs : List Nat) : List Nat := rs.filter (fun r => r != zReg)

/-- Needs of a load. -/
def loadNeeds (o : MF) (j : Issue) : Needs :=
  { wr := [o.vd], rd := [o.va], lanes := j.guard o.p o.pn, preds := [o.p], scal := [o.sbase], sb := o.sb }
/-- Needs of a store: VD is the data register. -/
def storeNeeds (o : MF) (j : Issue) : Needs :=
  { rd := [o.vd, o.va], lanes := j.guard o.p o.pn, preds := [o.p], scal := [o.sbase] }

/-- The values a load returns to its lanes, zero-filled (R266). -/
def State.loadValues (s : State) (g : Group) (sp : Space) (n : Nat) (ls : List (Nat × Int)) : List (Nat × Word) :=
  ls.map (fun e => (e.1, w64 (leNat (s.spaceRead g sp e.2.toNat n))))

/-- Some lane of a scratchpad access waits behind an atomic of its split. -/
def State.lanesBehind (s : State) (j : Issue) (sp : Space) (n : Nat) (ls : List (Nat × Int)) : Bool :=
  sp == .spd && ls.any (fun e => s.behindAtomic j (s.origin j.g .spd + e.2.toNat) n)

/-- Effect of a load (R12, R57, R266). -/
def loadEffect (sp : Space) (o : MF) (t : State) (j : Issue) : State :=
  let n := 2 ^ o.isc
  let ls := laneOffsets t j o
  match t.laneFail j.g sp n ls with
  | some (f, m, x) => t.trapLanes j f.cause m x
  | none =>
    match t.laneParity j.g sp n ls with
    | some (m, u) => t.consumeMem j m u
    | none =>
      if t.lanesBehind j sp n ls then t.hold j
      else
        let t := t.ordered j o.order o.scope (o.mx % 2 == 1)
        let rs := dests [o.vd]
        (t.vsend j.gid j.sid rs (lanesMask (t.loadValues j.g sp n ls))
          (rs.flatMap (fun r => laneData r (t.loadValues j.g sp n ls))) 0 o.sb).done j

/-- The low `n` bytes of the data lanes of a store. -/
def storeBytes (t : State) (j : Issue) (o : MF) (n l : Nat) : List Byte := leBytes n (t.vread j.g o.vd l).toNat

/-- `s` after lanes store to a space, ascending, so that the highest lane's bytes remain (R40). -/
def State.storeLanes (s : State) (j : Issue) (sp : Space) (ws : List (Nat × List Byte)) : State :=
  ws.foldl (fun u e => match sp with
    | .spd => State.wbPut u j.g.core (u.origin j.g .spd + e.1) e.2
    | _ => State.shmStore u j.g.bid e.1 e.2) s

/-- Effect of a store (R12, R46, R113, R266). -/
def storeEffect (sp : Space) (o : MF) (t : State) (j : Issue) : State :=
  let n := 2 ^ o.isc
  let ls := laneOffsets t j o
  match t.laneFail j.g sp n ls with
  | some (f, m, x) => t.trapLanes j f.cause m x
  | none =>
    if t.lanesBehind j sp n ls || (decide (o.order = 2) && t.unperformed j.gid) then t.hold j
    else
      let u := t.ordered j o.order o.scope false
      if sp = .spd ∧ !u.wbRoom j.g.core (ls.map (fun e => u.origin j.g .spd + e.2.toNat)) then t.hold j
      else (u.storeLanes j sp (ls.map (fun e => (e.2.toNat, storeBytes t j o n e.1)))).done j

/-- `lds` (R267). -/
def execLds (o : MF) (s : State) : Host.Outcome State Fault Refusal := onIssue s (issue (loadNeeds o) (loadEffect .shm o))
/-- `ldx` (R267). -/
def execLdx (o : MF) (s : State) : Host.Outcome State Fault Refusal := onIssue s (issue (loadNeeds o) (loadEffect .spd o))
/-- `ldc` (R267). -/
def execLdc (o : MF) (s : State) : Host.Outcome State Fault Refusal := onIssue s (issue (loadNeeds o) (loadEffect .cns o))
/-- `sts` (R267). -/
def execSts (o : MF) (s : State) : Host.Outcome State Fault Refusal := onIssue s (issue (storeNeeds o) (storeEffect .shm o))
/-- `stx` (R267). -/
def execStx (o : MF) (s : State) : Host.Outcome State Fault Refusal := onIssue s (issue (storeNeeds o) (storeEffect .spd o))

/-! ### The spill stack (R14, R268) -/

/-- Effect of `vspill` (R268): all 32 lanes, whatever the lane mask. -/
def vspillEffect (o : MF) (t : State) (j : Issue) : State :=
  if j.g.nspill ≤ o.va then t.trapAt j 4 (w64 o.va)
  else
    let g := { j.g with
      spill := (List.range 32).foldl (fun m l => Sparse.set m (vkey o.va l) (t.vread j.g o.vd l)) j.g.spill }
    ((t.setGroup j.gid g).spillClear j.g o.va).done j

/-- `vspill` (R268). -/
def execVspill (o : MF) (s : State) : Host.Outcome State Fault Refusal :=
  onIssue s (issue (fun _ => { rd := [o.vd], lanes := allLanes }) (vspillEffect o))

/-- Effect of `vfill` (R268). -/
def vfillEffect (o : MF) (t : State) (j : Issue) : State :=
  if j.g.nspill ≤ o.va then t.trapAt j 4 (w64 o.va)
  else
    match t.spillHit j.g o.va with
    | some u =>
      let at' := match u with
        | .onDie _ _ _ _ a => a / 8
        | .main _ => 0
      t.consumeMem j (maskList [at']) u
    | none =>
      let rs := dests [o.vd]
      (t.vsend j.gid j.sid rs allLanes
        (rs.flatMap (fun r => (List.range 32).map (fun l => (vkey r l, j.g.spillGet o.va l)))) 0 o.sb).done j

/-- `vfill` (R268). -/
def execVfill (o : MF) (s : State) : Host.Outcome State Fault Refusal :=
  onIssue s (issue (fun _ => { wr := [o.vd], sb := o.sb }) (vfillEffect o))

/-! ### Gathers and scatters (R269) -/

/-- Space of a gather or scatter. -/
def gsSpace (o : MF) : Space := if o.mx / 2 = 1 then .spd else .shm

/-- TRAPX of cause 0x0A for the lowest failing lane (R269). -/
def elementX (sp : Space) (f : Fail) (o : Int) : Word :=
  let why := match f with
    | .bounds => 0
    | .span => 1
    | .align => 2
  w64 (why * 2 ^ 62 + b2n (sp == .spd) * 2 ^ 32 + bits (BitVec.ofInt 64 o) 0 32)

/-- The lanes of a gather or scatter that pass, and those that fail with why (R269). -/
def State.laneSplit (s : State) (g : Group) (sp : Space) (n : Nat) (ls : List (Nat × Int)) :
    List (Nat × Int) × List (Nat × Int × Fail) :=
  (ls.filter (fun e => (s.check g sp e.2 n).isNone),
    ls.filterMap (fun e => (s.check g sp e.2 n).map (fun f => (e.1, e.2, f))))

/-- The end of a gather or scatter: a precise element fault if any lane failed (R269). -/
def State.elementEnd (s : State) (j : Issue) (sp : Space) (bad : List (Nat × Int × Fail)) : State :=
  match bad with
  | [] => s.done j
  | (_, o, f) :: _ => s.trapLanes j 0x0A (maskList (bad.map (fun b => b.1))) (elementX sp f o)

/-- Effect of `vgth` (R269). -/
def vgthEffect (o : MF) (t : State) (j : Issue) : State :=
  let n := 2 ^ o.isc
  let (good, bad) := t.laneSplit j.g (gsSpace o) n (laneOffsets t j o)
  match t.laneParity j.g (gsSpace o) n good with
  | some (m, u) => t.consumeMem j m u
  | none =>
    if t.lanesBehind j (gsSpace o) n good then t.hold j
    else
      let rs := dests [o.vd]
      let vals := t.loadValues j.g (gsSpace o) n good
      (t.vsend j.gid j.sid rs (lanesMask vals) (rs.flatMap (fun r => laneData r vals)) 0 o.sb).elementEnd j (gsSpace o) bad

/-- `vgth` (R269). -/
def execVgth (o : MF) (s : State) : Host.Outcome State Fault Refusal := onIssue s (issue (loadNeeds o) (vgthEffect o))

/-- Effect of `vsct` (R269). -/
def vsctEffect (o : MF) (t : State) (j : Issue) : State :=
  let n := 2 ^ o.isc
  let (good, bad) := t.laneSplit j.g (gsSpace o) n (laneOffsets t j o)
  if t.lanesBehind j (gsSpace o) n good ||
      (gsSpace o == Space.spd && !t.wbRoom j.g.core (good.map (fun e => t.origin j.g .spd + e.2.toNat))) then t.hold j
  else
    (t.storeLanes j (gsSpace o) (good.map (fun e => (e.2.toNat, storeBytes t j o n e.1)))).elementEnd j (gsSpace o) bad

/-- `vsct` (R269). -/
def execVsct (o : MF) (s : State) : Host.Outcome State Fault Refusal := onIssue s (issue (storeNeeds o) (vsctEffect o))

end Sys2Proof.Machine
end

