-- ==== Sys2Proof/Machine/Atomic.lean ====
section
/-!
DEFINITION. Atomics of major 0x6C: element operations and pre-combining (R72, R211, R270), their checks and their
homes (R271, R272).
-/
namespace Sys2Proof.Machine

/-! ### Element operations -/

/-- The new value of an element of width `w` bits (R72, R270). -/
def AtomOp.apply (op : AtomOp) (m b cmp : Nat) : Nat :=
  match op with
  | .add w => (m + b) % 2 ^ w
  | .fadd t => (faddBits (tyFmt t) 0 m b).1
  | .fmin t => (fminmax (tyFmt t) false m b).1
  | .fmax t => (fminmax (tyFmt t) true m b).1
  | .min w sg => if sg then vminE w m b else vminnE w m b
  | .max w sg => if sg then vmaxE w m b else vmaxnE w m b
  | .and _ => m &&& b
  | .or _ => m ||| b
  | .xchg _ => b
  | .cas _ => if m = cmp then b else m

/-- The prefix sums P[0], P[1], ... of `combine_fadd` after a first contribution (R211). -/
def prefixSums (t : FloatTy) : Nat → List Nat → List Nat
  | p, [] => [p]
  | p, c :: cs => p :: prefixSums t ((faddBits (tyFmt t) 0 p c).1) cs

/-- Lanes that target one element, in ascending lane order (R211): the value left, and each lane's old value. -/
def combine (op : AtomOp) (m : Nat) (es : List Elem) : Nat × List (Nat × Nat) :=
  let k := 8 * op.size
  let opnd := fun (e : Elem) => e.b.toNat % 2 ^ k
  match op, es with
  | .fadd t, e :: rest =>
    let ps := prefixSums t (opnd e) (rest.map opnd)
    let add := fun p => (faddBits (tyFmt t) 0 m p).1
    (add (ps.getLastD 0), (e.lane, m) :: (rest.zip ps).map (fun q => (q.1.lane, add q.2)))
  | _, _ =>
    es.foldl (fun acc e => (op.apply acc.1 (opnd e) (e.cmp.toNat % 2 ^ k), acc.2 ++ [(e.lane, acc.1)])) (m, [])

/-- The elements of a request by ascending address, the lanes of one address together (R73). -/
def byAddress (es : List Elem) : List (Nat × List Elem) :=
  let as := sortBy (fun a b => decide (a ≤ b)) ((es.map (fun e => e.addr)).eraseDups)
  as.map (fun a => (a, es.filter (fun e => e.addr == a)))

/-- What a request writes, given how an element is read: bytes by address, and the old values by lane. -/
def applyElems (op : AtomOp) (read : Nat → List Byte) (es : List Elem) : List (Nat × List Byte) × List (Nat × Word) :=
  let rs := (byAddress es).map (fun g => (g.1, combine op (leNat (read g.1)) g.2))
  (rs.map (fun r => (r.1, leBytes op.size r.2.1)), rs.flatMap (fun r => r.2.2.map (fun o => (o.1, w64 o.2))))

/-- What a request writes, and the old values it returns: it combines with what copy-reductions in flight have left (R73), while what
it returns of their destinations is undefined (R125). -/
def State.combined (s : State) (op : AtomOp) (read : State → Nat → List Byte) (es : List Elem) :
    List (Nat × List Byte) × List (Nat × Word) :=
  ((applyElems op (read s.withoutReductions) es).1, (applyElems op (read s) es).2)

/-- `s` after elements are applied to shared memory of block `bid`, and the old values (R41). -/
def State.shmAtomic (s : State) (bid : Nat) (op : AtomOp) (es : List Elem) : State × List (Nat × Word) :=
  let r := s.combined op (fun t a => t.shmRead bid a op.size) es
  (r.1.foldl (fun u w => State.shmStore u bid w.1 w.2) s, r.2)

/-- `s` after elements are applied to the slices of die `d`, and the old values (R49). -/
def State.spdAtomic (s : State) (d : Nat) (op : AtomOp) (es : List Elem) : State × List (Nat × Word) :=
  let r := s.combined op (fun t a => t.sliceRead d a op.size) es
  (r.1.foldl (fun u w => State.sliceWrite u d w.1 w.2) s, r.2)

/-- `s` after elements are applied to main memory at physical addresses, and the old values (R72). -/
def State.memAtomic (s : State) (op : AtomOp) (es : List Elem) : State × List (Nat × Word) :=
  let r := s.combined op (fun t a => t.memRead none a op.size) es
  (r.1.foldl (fun u w => State.writePa u w.1 w.2) s, r.2)

/-! ### Issue of an atomic -/

/-- The space of an atomic: SBASE bits 5:4 (R270). -/
def atomSpace (o : MF) : Nat := o.sbase / 16
/-- `.rmt`: SBASE bit 3 (R270). -/
def atomRmt (o : MF) : Bool := o.sbase / 8 % 2 == 1

/-- The needs of an atomic; `cas` reads a run from VD (R270, R272). -/
def atomNeeds (o : MF) (cas : Bool) (j : Issue) : Needs :=
  { wr := [o.vd], rd := (if cas then [o.vd, o.vd + 1] else []) ++ [o.va, o.va + 1], lanes := j.guard o.p o.pn
    preds := [o.p], sb := o.sb, ret := o.vd != zReg }

/-- The guarded lanes of an atomic with address, operand and compare value (R270). -/
def atomLanes (t : State) (j : Issue) (o : MF) (cas : Bool) : List (Nat × Word × Word × Word) :=
  (lanesOf (j.guard o.p o.pn)).map (fun l =>
    (l, t.vread j.g o.va l,
      if cas then t.vread j.g (o.vd + 1) l else t.vread j.g (o.va + 1) l,
      if cas then t.vread j.g o.vd l else 0))

/-- `s` with the reply of an atomic awaited (R51, R272): a return slot, and the number of the awaited result; `need`
replies are to come. An atomic to `z` awaits one only where its acquire waits for it. -/
def State.awaitReply (s : State) (j : Issue) (o : MF) (m : Mask) (need : Nat) : State × Option Nat :=
  if (o.vd = zReg ∧ o.order % 2 = 0) ∨ m = 0 then (s, none)
  else
    let (id, t) := s.newId
    let rs := dests [o.vd]
    (t.modGroup j.gid (fun g =>
      let clash := g.outs.foldl (fun (c : Mask) p => if p.regs.any rs.contains then c ||| (p.lanes &&& m) else c) 0
      { g with
        outs := g.outs.map (fun (p : Pend) =>
            if p.regs.any rs.contains then { p with undef := p.undef ||| (p.lanes &&& m) } else p) ++
          [⟨id, j.sid, rs, m, [], need, o.sb, o.vd != zReg, 0, clash, [], 0⟩]
        sb := match o.sb with
          | some k => g.sb.set k (g.sb.getD k 0 + 1)
          | none => g.sb }), some id)

/-- After an acquire atomic that is performed elsewhere, the split does not go on before its replies (R114). -/
def State.acquireWait (s : State) (j : Issue) (o : MF) (m : Mask) : State :=
  if o.order % 2 = 1 ∧ m ≠ 0 then s.modSplit j.gid j.sid (fun sp => { sp with parked := true }) else s

/-- An atomic on shared memory (R41, R271). -/
def atomShm (o : MF) (op : AtomOp) (ls : List (Nat × Word × Word × Word)) (t : State) (j : Issue) : State :=
  let offs := ls.map (fun e => (e.1, e.2.1.toInt))
  match t.laneFail j.g .shm op.size offs with
  | some (f, m, x) => t.trapLanes j f.cause m x
  | none =>
    match t.laneParity j.g .shm op.size offs with
    | some (m, u) => t.consumeMem j m u
    | none =>
      let m := maskList (ls.map (fun e => e.1))
      let t := t.ordered j o.order o.scope (atomRmt o)
      let (t, olds) := t.shmAtomic j.g.bid op (ls.map (fun e => ⟨e.1, e.2.1.toNat, e.2.2.1, e.2.2.2⟩))
      if o.vd = zReg then t.done j
      else
        let (t, id) := t.awaitReply j o m 0
        (t.modGroup j.gid (fun g => { g with outs := g.outs.map (fun p =>
          if some p.id = id then { p with data := laneData o.vd olds } else p) })).done j

/-- An atomic on the scratchpad: one request to each home slice (R45, R46, R271). -/
def atomSpd (o : MF) (op : AtomOp) (ls : List (Nat × Word × Word × Word)) (t : State) (j : Issue) : State :=
  let offs := ls.map (fun e => (e.1, e.2.1.toInt))
  match t.laneFail j.g .spd op.size offs with
  | some (f, m, x) => t.trapLanes j f.cause m x
  | none =>
    match t.laneParity j.g .spd op.size offs with
    | some (m, u) => t.consumeMem j m u
    | none =>
      let m := maskList (ls.map (fun e => e.1))
      let t := t.ordered j o.order o.scope (atomRmt o)
      let base := t.origin j.g .spd
      let es : List Elem := ls.map (fun e => ⟨e.1, base + e.2.1.toNat, e.2.2.1, e.2.2.2⟩)
      let t := es.foldl (fun u e => State.wbDrainLine u j.g.core (e.addr / 64 * 64)) t
      let homes := sortBy (fun a b => decide (a ≤ b)) ((es.map (fun e => homeSlice e.addr)).eraseDups)
      let (t, id) := t.awaitReply j o m homes.length
      ((homes.foldl (fun u k => State.modSlice u j.die k (fun x =>
        x.send (.atomic j.g.core j.gid j.sid j.sp.pc id op (es.filter (fun e => homeSlice e.addr == k))))) t).done j)
        |>.acquireWait j o m

/-- The route of a request at a translated address (R60, R81). -/
def State.routeOf (s : State) (x : Xl) (write : Bool) : Route :=
  match (if (if write then x.routesWrite else x.routesRead) then s.migFind x.pa else none) with
  | some (k, _) => .mig k
  | none => match portOf x.pa with
    | some p => .port p
    | none => .channel (schedOf x.pa)

/-- Sends a main-memory request with its deadline stamp, translated through the leaves listed: to its scheduler, or to the queue of its
migration slot (R62, R81). -/
def State.memSendAt (s : State) (stamp : Nat) (route : Route) (pa va : Nat) (op : MemOp) (core ctx cls : Nat)
    (leaves : List (Nat × Nat)) : State :=
  let (id, t) := s.newId
  let r : MemReq := ⟨id, route, pa, va, op, core, ctx, cls, stamp, t.time, false, leaves, none⟩
  match route with
  | .mig k => t.setMig k { t.mig k with queue := (t.mig k).queue ++ [r] }
  | _ => { t with requests := t.requests ++ [r] }

/-- Sends a main-memory request with the deadline of its context's class (R62). -/
def State.memSend (s : State) (route : Route) (pa va : Nat) (op : MemOp) (core ctx cls : Nat) (leaves : List (Nat × Nat)) : State :=
  s.memSendAt (s.stamp ctx cls) route pa va op core ctx cls leaves

/-- The lowest-addressed unit that the lanes of an atomic cannot read, with its origin (R76). -/
def State.atomPoison (s : State) (pas : List Nat) (n : Nat) : Option (Nat × Nat) :=
  minBy (fun e => e.2) (pas.filterMap (fun a => s.unitError a n))

/-- An atomic on main memory (R26, R271): widths, alignment and translation of every lane come first. A routed one meets poison where
its slot has it performed, after any pull (R76, R82). -/
def atomMem (o : MF) (op : AtomOp) (ls : List (Nat × Word × Word × Word)) (t : State) (j : Issue) : State :=
  let wide := ls.filter (fun e => decide (e.2.1.toNat / 2 ^ 52 ≠ 0))
  let odd := ls.filter (fun e => decide (e.2.1.toNat % op.size ≠ 0))
  let lanesIn := fun (l : List (Nat × Word × Word × Word)) => maskList (l.map (fun e => e.1))
  match wide, odd with
  | e :: _, _ => t.trapLanes j 4 (lanesIn wide) e.2.1
  | [], e :: _ => t.trapLanes j 3 (lanesIn odd) e.2.1
  | [], [] =>
    let core := j.g.core
    if !ls.all (fun e => t.walkReady core j.g.ctx e.2.1.toNat) then t.hold j
    else
    let cls := t.defaultClass j.g.ctx
    let xs := ls.map (fun e => (e, t.translateRouted core j.g.ctx .atomic atomNeed true e.2.1.toNat))
    let t := xs.foldl (fun u e => State.keep u core j.g.ctx cls e.1.2.1.toNat e.2) t
    let errs := xs.filterMap (fun e => match e.2 with
      | .error x => some (e.1.1, x)
      | .ok _ => none)
    let fault := [5, 6, 7].findSome? (fun c =>
      let mine := errs.filter (fun e => e.2.cause == c)
      (mine.head?).map (fun e => (c, maskList (mine.map (fun q => q.1)), e.2.x)))
    match fault with
    | some (c, m, x) => t.trapLanes j c m x
    | none =>
      let ok := xs.filterMap (fun e => match e.2 with
        | .ok x => some (e.1, x)
        | .error _ => none)
      match t.atomPoison ((ok.filter (fun e => !e.2.routesWrite)).map (fun e => e.2.pa)) op.size with
      | some (org, u) =>
        t.trapLanes j 7 (maskList ((ok.filter (fun e => e.2.pa / 32 * 32 == u)).map (fun e => e.1.1))) (poisonX org u)
      | none =>
        let m := maskList (ls.map (fun e => e.1))
        let t := t.ordered j o.order o.scope (atomRmt o)
        let parts := (ok.map (fun e => (e.2.pa / 256, t.routeOf e.2 true))).eraseDups
        let (t, id) := t.awaitReply j o m parts.length
        ((parts.foldl (fun u p =>
          let mine := ok.filter (fun e => decide (e.2.pa / 256 = p.1) && u.routeOf e.2 true == p.2)
          let es : List Elem := mine.map (fun e => ⟨e.1.1, e.2.pa, e.1.2.2.1, e.1.2.2.2⟩)
          State.memSend u p.2 (p.1 * 256) j.sp.pc.toNat (.atomic j.gid id j.sid op es) core j.g.ctx cls
            (mine.map (fun e => (e.1.2.1.toNat / 65536, e.2.level)))) t).done j)
          |>.acquireWait j o m

/-- Effect of an atomic: its release waits for what R113 names. -/
def atomEffect (o : MF) (op : AtomOp) (t : State) (j : Issue) : State :=
  let cas := match op with
    | .cas _ => true
    | _ => false
  let ls := atomLanes t j o cas
  if 2 ≤ o.order ∧ t.unperformed j.gid then t.hold j
  else if atomSpace o = 0 then atomShm o op ls t j
  else if atomSpace o = 1 then atomSpd o op ls t j
  else atomMem o op ls t j

/-- The integer width of ISC 0 and 1 (R270). -/
def iscWidth (o : MF) : Nat := if o.isc % 2 = 0 then 32 else 64
/-- The float type of ISC (R270). -/
def iscFloat (o : MF) : FloatTy := if o.isc = 0 then .f32 else if o.isc = 1 then .bf16 else .f16

/-- `aadd` (R270). -/
def execAadd (o : MF) (s : State) : Host.Outcome State Fault Refusal :=
  onIssue s (issue (atomNeeds o false) (atomEffect o (.add (iscWidth o))))
/-- `afadd` (R270). -/
def execAfadd (o : MF) (s : State) : Host.Outcome State Fault Refusal :=
  onIssue s (issue (atomNeeds o false) (atomEffect o (.fadd (iscFloat o))))
/-- `amin` (R270). -/
def execAmin (o : MF) (s : State) : Host.Outcome State Fault Refusal :=
  onIssue s (issue (atomNeeds o false) (atomEffect o (.min (iscWidth o) (decide (o.isc ≤ 1)))))
/-- `amax` (R270). -/
def execAmax (o : MF) (s : State) : Host.Outcome State Fault Refusal :=
  onIssue s (issue (atomNeeds o false) (atomEffect o (.max (iscWidth o) (decide (o.isc ≤ 1)))))
/-- `aand` (R270). -/
def execAand (o : MF) (s : State) : Host.Outcome State Fault Refusal :=
  onIssue s (issue (atomNeeds o false) (atomEffect o (.and (iscWidth o))))
/-- `aor` (R270). -/
def execAor (o : MF) (s : State) : Host.Outcome State Fault Refusal :=
  onIssue s (issue (atomNeeds o false) (atomEffect o (.or (iscWidth o))))
/-- `axchg` (R270). -/
def execAxchg (o : MF) (s : State) : Host.Outcome State Fault Refusal :=
  onIssue s (issue (atomNeeds o false) (atomEffect o (.xchg (iscWidth o))))
/-- `acas` (R270). -/
def execAcas (o : MF) (s : State) : Host.Outcome State Fault Refusal :=
  onIssue s (issue (atomNeeds o true) (atomEffect o (.cas (iscWidth o))))

end Sys2Proof.Machine
end

