-- ==== Sys2Proof/Machine/Barrier.lean ====
section
/-!
DEFINITION. Synchronisation, major 0x6D: barrier words and their watch table (R273 to R275), block checkpoints
(R360), `wmon` (R43, R50, R276), and the fences (R115, R127, R277).
-/
namespace Sys2Proof.Machine

/-! ### Barrier words (R273, R274) -/

/-- PHASE of a barrier word. -/
def barPhase (w : Word) : Nat := bits w 48 16
/-- ARRIVED of a barrier word. -/
def barArrived (w : Word) : Nat := bits w 32 16
/-- COUNT of a barrier word. -/
def barCount (w : Word) : Nat := bits w 16 16
/-- EXPECT of a barrier word. -/
def barExpect (w : Word) : Nat := bits w 0 16

/-- `arrive` on a word (R274): `none` when it is malformed, else the new word and whether the phase is complete. -/
def barArrive (w : Word) (slot : Option Nat) : Option (Word × Bool) :=
  if barExpect w = 0 ∨ barExpect w ≤ barCount w then none
  else
    let w1 := setBits w 16 16 (barCount w + 1)
    let w2 := match slot with
      | some g => setBits w1 32 16 (barArrived w1 ||| 2 ^ g)
      | none => w1
    if barCount w + 1 = barExpect w then
      some (setBits (setBits (setBits w2 16 16 0) 32 16 0) 48 16 (barPhase w + 1), true)
    else some (w2, false)

/-- The 8-byte word at offset `o` of a block's shared memory. -/
def State.barWord (s : State) (bid o : Nat) : Word := w64 (leNat (s.shmRead bid o 8))

/-- The first arrival of a phase takes an entry of the watch table, if one is free (R275). -/
def State.watchStart (s : State) (bid o : Nat) : State :=
  match s.blocks.get? bid with
  | none => s
  | some b =>
    if 64 ≤ (s.core b.core).watch.length then s
    else s.modCore b.core (fun c => { c with watch := c.watch ++ [⟨bid, o, s.time, b.limit⟩] })

/-- The phase of a word is no longer watched (R275, R348). -/
def State.watchEnd (s : State) (bid o : Nat) : State :=
  match s.blocks.get? bid with
  | none => s
  | some b => s.modCore b.core (fun c => { c with watch := c.watch.filter (fun w => !(w.bid == bid && w.off == o)) })

/-- Splits of a block that wait on the word become ready (R274). -/
def State.barWake (s : State) (bid o : Nat) : State :=
  s.wake (fun _ g _ sp => g.bid == bid && (match sp.wait with
    | .barrier off _ _ _ => off == o
    | _ => false))

/-- Every live split of the block waits in `bar` on the word (R360); a group that only awaits its end has none, and a group that is
evicted or being evicted does not wait there. -/
def State.blockBarrier (s : State) (bid o : Nat) : Bool :=
  (s.groupsOf bid).all (fun e => (e.2.status == .running || e.2.status == .ending) && e.2.splits.all (fun f => match f.2.wait with
    | .barrier off _ _ bar => bar && off == o
    | _ => false))

/-- A checkpoint of the block: the control state of its groups, 32 KiB each, takes its place in the span (R360). -/
def State.checkpointTake (s : State) (bid : Nat) : State :=
  match s.blocks.get? bid with
  | none => s
  | some b =>
    let gs := s.groupsOf bid
    let used := 0x8000 * gs.length
    let n := s.rbBytes b.ctx b.core
    if n = 0 then s.setBlock bid { b with checkpoint := none }
    else s.setBlock bid { b with checkpoint := some ⟨gs, b.shm, used, [], [], decide (used ≤ n), false⟩ }

/-- One arrival at the word at `o` (R274): `none` when it is malformed. The split that completes a phase by `bar`
counts as waiting on it for the block barrier of R360. -/
def State.arriveAt (s : State) (bid o : Nat) (slot : Option Nat) : Option (State × Bool) :=
  let w := s.barWord bid o
  match barArrive w slot with
  | none => none
  | some (w', full) =>
    let t := if barCount w = 0 then s.watchStart bid o else s
    let t := t.shmStore bid o (leBytes 8 w'.toNat)
    if full then some ((t.watchEnd bid o).barWake bid o, true) else some (t, false)

/-- The block barrier of a block launched with RB takes a checkpoint (R360). -/
def State.checkpointCheck (s : State) (bid : Nat) (all : Bool) : State :=
  match s.blocks.get? bid with
  | none => s
  | some b => if b.rb && all then s.checkpointTake bid else s

/-! ### `bar`, `barr`, `barw` (R274) -/

/-- The checks of a barrier word's offset (R12, R274). -/
def State.barCheck (s : State) (g : Group) (o : Int) : Option Nat := (s.check g .shm o 8).map Fail.cause

/-- The split waits on a barrier word. -/
def State.barWait (s : State) (j : Issue) (o phase : Nat) (watched bar : Bool) : State :=
  (s.modSplit j.gid j.sid (fun sp => { sp with wait := .barrier o phase watched bar, awake := false })).settle j.gid

/-- The first execution of a barrier instruction: 0 `bar`, 1 `barr`, 2 `barw` (R274, R121). -/
def barFirst (k : Nat) (o : MF) (t : State) (j : Issue) : State :=
  let off := j.sp.getInt o.sbase
  match t.barCheck j.g off with
  | some c => t.trapAt j c (j.sp.get o.sbase)
  | none =>
    let a := off.toNat
    match t.shmHit j.g.bid a 8 with
    | some u => t.consumeMem j j.sp.mask u
    | none =>
      if k = 2 then t.barWait j a (barPhase (t.barWord j.g.bid a)) true false
      else if t.unperformed j.gid then t.hold j
      else
        let phase := barPhase (t.barWord j.g.bid a)
        -- the issuing split stands in the wait it would enter, for the block barrier of R360
        let waiting := t.modSplit j.gid j.sid (fun sp =>
          { sp with wait := .barrier a phase true true, awake := false })
        match (if k = 0 then waiting else t).arriveAt j.g.bid a (some j.g.slot) with
        | none => t.trapAt j 4 (j.sp.get o.sbase)
        | some (u, full) =>
          if k = 0 then
            if full then
              let u := u.checkpointCheck j.g.bid (waiting.blockBarrier j.g.bid a)
              (u.modSplit j.gid j.sid Split.advance).settle j.gid
            else u.settle j.gid
          else u.done j

/-- A split that waits on a barrier word is ready again (R274): it goes on once PHASE differs, as an acquire of
scope `.core` (R121). -/
def barAgain (off phase : Nat) (watched bar : Bool) (t : State) (j : Issue) : State :=
  match t.shmHit j.g.bid off 8 with
  | some u => t.consumeMem j j.sp.mask u
  | none => if barPhase (t.barWord j.g.bid off) = phase then t.barWait j off phase watched bar else t.done j

/-- A barrier instruction of kind `k`. -/
def barrier (k : Nat) (o : MF) (t : State) (j : Issue) : State :=
  match j.sp.wait with
  | .barrier off phase watched _ => barAgain off phase watched (k == 0) t j
  | _ => issue (fun _ => { scal := [o.sbase] }) (barFirst k o) t j

/-- `bar` (R274). -/
def execBar (o : MF) (s : State) : Host.Outcome State Fault Refusal := onIssue s (barrier 0 o)
/-- `barr` (R274). -/
def execBarr (o : MF) (s : State) : Host.Outcome State Fault Refusal := onIssue s (barrier 1 o)
/-- `barw` (R274). -/
def execBarw (o : MF) (s : State) : Host.Outcome State Fault Refusal := onIssue s (barrier 2 o)

/-- Live group slots of a block whose ARRIVED bit is clear (R348). -/
def State.missing (s : State) (bid : Nat) (w : Word) : Nat :=
  ((s.groupsOf bid).map (fun e => e.2.slot)).eraseDups.foldl (fun n k =>
    if (barArrived w).testBit k then n else n + 2 ^ k) 0

/-- BARRIER_WATCHDOG_EXPIRE (R275, R348): watched phase number `k` of a core is past its limit: each split that waits
on its word is to take cause 0x0D at its boundary; a marked unit of the word is logged (R57, R58). A group that is evicted, or saves or restores its splits, keeps it for them. -/
def execBarrierWatchdogExpire (core k : Nat) (s : State) : Host.Outcome State Fault Refusal :=
  .next (match (s.core core).watch[k]? with
    | none => s
    | some w =>
      if s.time - w.start < w.limit then s
      else
        let s := match s.shmHit w.bid w.off 8 with
          | some u => s.parityLog u
          | none => s
        let word := s.barWord w.bid w.off
        let x := w64 (s.missing w.bid word * 2 ^ 48 + barCount word * 2 ^ 32 + w.off % 2 ^ 32)
        let t := s.watchEnd w.bid w.off
        (t.groupsOf w.bid).foldl (fun u e =>
          if e.2.status = .saving ∨ e.2.status = .evicted then
            State.modGroup u e.1 (fun g => { g with lateDogs := g.lateDogs ++ [(w.off, barPhase word, x)] })
          else State.settle (State.modGroup u e.1 (fun g => { g with
            splits := g.splits.map (fun f => (f.1, f.2.dogged w.off (barPhase word) x)) })) e.1) t)

/-! ### `wmon` (R276) -/

/-- `wmon` returns a value to `s`SD and the split goes on. -/
def State.wmonDone (s : State) (j : Issue) (sd ret : Nat) : State := s.putScalar j sd (w64 ret)

/-- A one-lane check of the word of a `wmon` (R12, R276). -/
def wmonFirst (o : YF) (t : State) (j : Issue) : State :=
  let v := j.sp.get o.sa
  let n := if o.code / 4 % 2 = 1 then 8 else 4
  if o.code % 4 = 2 then t.trapAt j 4 v
  else
    let sp : Space := if o.code % 4 = 1 then .spd else .shm
    match t.check j.g sp v.toInt n with
    | some f => t.trapAt j f.cause v
    | none =>
      match t.spaceParity j.g sp v.toNat n with
      | some u => t.consumeMem j j.sp.mask u
      | none =>
        let expect := bits (j.sp.get (o.code / 2 ^ 8 % 64)) 0 (8 * n)
        if sp = .shm then
          if leNat (t.shmRead j.g.bid v.toNat n) ≠ expect then t.wmonDone j o.sd 0
          else if 64 ≤ (t.core j.g.core).monitors.length then t.wmonDone j o.sd 2
          else
            (((t.modCore j.g.core (fun c => { c with
              monitors := c.monitors ++ [⟨v.toNat, n, j.g.bid, j.gid, j.sid⟩] })).modSplit j.gid j.sid (fun s =>
                { s with wait := .wmon false o.sd none, awake := false }))).settle j.gid
        else
          let lin := t.origin j.g .spd + v.toNat
          let t := t.wbDrainLine j.g.core (lin / 64 * 64)
          ((t.modSlice j.die (homeSlice lin) (fun x =>
            x.send (.wmon j.gid j.sid lin n (w64 expect)))).modSplit j.gid j.sid (fun s =>
              { s with wait := .wmon true o.sd none, awake := false })).settle j.gid

/-- `wmon` (R43, R50, R276). -/
def wmonEffect (o : YF) (t : State) (j : Issue) : State :=
  match j.sp.wait with
  | .wmon _ sd (some r) => t.wmonDone j sd r
  | _ =>
    issue (fun _ => { scal := [o.sa, o.code / 2 ^ 8 % 64], ret := o.code % 4 == 1 }) (wmonFirst o) t j

/-- `wmon` (R276). -/
def execWmon (o : YF) (s : State) : Host.Outcome State Fault Refusal := onIssue s (wmonEffect o)

/-- The service group of slice `k` of die `d` executes a `wmon` check and arm (R50); a marked word is a trap at the `wmon` (R57). -/
def State.wmonServe (s : State) (d k gid sid addr size : Nat) (expect : Word) : State :=
  match (if s.parity.isEmpty then none else s.parityHit 4 (d * 24 + k) 0 k addr size), s.split? gid sid with
  | some u, some (_, sp) =>
    (((s.parityLog u).modSplit gid sid (fun x => { x with wait := .none, awake := true })).takeTrap gid sid
      ⟨7, sp.pc, sp.mask, parityX u⟩).settle gid
  | _, _ =>
  if leNat (s.sliceRead d addr size) ≠ expect.toNat then s.replyTo gid (.wmon gid sid 0)
  else if 256 ≤ (s.slice d k).parked.length + (s.slice d k).monitors.length then s.replyTo gid (.wmon gid sid 2)
  else s.modSlice d k (fun x => { x with monitors := x.monitors ++ [⟨addr, size, 0, gid, sid⟩] })

/-! ### Fences (R115, R127, R277) -/

/-- `fence` (R277): it completes once the split's atomics are performed; scopes of `.clus` and wider drain the write
buffer (R46). -/
def fenceEffect (o : MF) (t : State) (j : Issue) : State :=
  if t.unperformed j.gid then t.hold j
  else (if 2 ≤ o.scope then t.wbDrainAll j.g.core else t).done j

/-- `fence` (R115, R277). -/
def execFence (o : MF) (s : State) : Host.Outcome State Fault Refusal := onIssue s (issue (fun _ => {}) (fenceEffect o))

/-- Effect of `fence.op`: it completes once the results of the split are written. -/
def fenceOpEffect (t : State) (j : Issue) : State :=
  if j.g.outstanding j.sid then t.hold j
  else (t.modGroup j.gid (fun g => { g with opDirty := g.opDirty.filter (fun e => e.1 != j.sid) })).done j

/-- `fence.op` (R127, R277): the register writes of the split are visible to the engines. -/
def execFenceOp (_ : MF) (s : State) : Host.Outcome State Fault Refusal := onIssue s (issue (fun _ => {}) fenceOpEffect)

end Sys2Proof.Machine
end

