-- ==== Sys2Proof/Machine/Copy.lean ====
section
/-!
DEFINITION. Copies and copy-reductions, major 0x70 minors 0 and 1: the checks at issue (R279), the engine's transfer
(R26, R57, R124, R280, R281), and what requests to the CXL tier and to migration slots bring back (R60, R79, R81).
-/
namespace Sys2Proof.Machine

/-! ### Issue (R278, R279) -/

/-- The checks of a copy's on-die or main-memory range (R11, R279): it lies in bounds. -/
def State.copyBounds (s : State) (g : Group) (space die : Nat) (a : Word) (len : Nat) : Bool :=
  match space with
  | 0 => len == 0 || (decide (0 ≤ a.toInt) && decide (a.toInt + len ≤ s.extent g .shm))
  | 1 => len == 0 || (decide (0 ≤ a.toInt) && decide (a.toInt + len ≤ s.spExtent g.ctx die))
  | 2 => len == 0 || (decide (0 ≤ a.toInt) && decide (a.toInt + len ≤ s.cnExtent g.ctx))
  | 3 => decide (a.toNat / 2 ^ 20 = 0) && decide (a.toNat % 65536 + len ≤ 65536)
  | _ => decide (a.toNat / 2 ^ 52 = 0)

/-- The slot of a copy's operand-slot address (R278). -/
def osSlot (a : Word) : Nat := a.toNat / 65536 % 16

/-- The group may name an operand slot: it owns it, and no release is pending (R53). -/
def State.mayName (s : State) (gid core k : Nat) : Bool :=
  decide ((s.slotOf core k).st ≠ .free) && (s.slotOf core k).owner == gid && !(s.slotOf core k).rel

/-- The first check of R279 that a copy fails: cause and TRAPX. -/
def State.copyCheck (s : State) (gid : Nat) (g : Group) (code : Nat) (dst src len bar : Word) : Option (Nat × Word) :=
  let dsp := code % 8
  let ssp := code / 8 % 8
  let n := len.toNat
  if 2 ^ 32 < n then some (4, len)
  else if !s.copyBounds g dsp (code / 64 % 4) dst n then some (4, dst)
  else if !s.copyBounds g ssp (code / 256 % 4) src n then some (4, src)
  else if dst.toNat % 8 ≠ 0 then some (3, dst)
  else if src.toNat % 8 ≠ 0 then some (3, src)
  else if n % 8 ≠ 0 then some (3, len)
  else if dsp = 3 ∧ !s.mayName gid g.core (osSlot dst) then some (6, w64 (osSlot dst))
  else if ssp = 3 ∧ !s.mayName gid g.core (osSlot src) then some (6, w64 (osSlot src))
  else if code / 4096 % 2 = 1 then (s.barCheck g bar.toInt).map (fun c => (c, bar))
  else none

/-- The copies of a group whose writes are not all performed (R353). -/
def State.openCopies (s : State) (gid : Nat) : Nat := (s.copies.filter (fun c => c.gid == gid && !c.finished)).length

/-- The copy queue of a core is full (R168; assumption log 14). -/
def State.copyQueueFull (s : State) (core : Nat) : Bool :=
  let q := s.copies.filter (fun c => c.core == core && !c.finished)
  !q.isEmpty && decide (Config.engineQueueDepth ≤ q.length)

/-- A `cpy` or `cpyr` of a group holds at issue: the queue of its core is full, or the group has 64 incomplete copies (R279, R353). -/
def State.copyFull (s : State) (core gid : Nat) : Bool := s.copyQueueFull core || decide (64 ≤ s.openCopies gid)

/-- `s` with a copy queued for a split; it joins batch `batch`, or the open set for 0 (R280, R282, R287). -/
def State.copyQueue (s : State) (gid sid : Nat) (g : Group) (reduce : Bool) (code : Nat) (dst src len bar : Word) (batch : Nat) :
    State :=
  let (id, t) := s.newId
  let c : CopyOp := ⟨id, gid, sid, g.ctx, g.core, g.bid, reduce, code, dst, src, len.toNat, bar, false, false, false, 0, [], [], []⟩
  ({ t with copies := t.copies ++ [c] }).modGroup gid (fun h =>
    { h with ops := h.ops ++ ([⟨id, 0, batch, false, [], [], [], false⟩] : List OpRec) })

/-- Effect of `cpy` and `cpyr` at issue (R279, R280). -/
def copyEffect (reduce : Bool) (o : YF) (t : State) (j : Issue) : State :=
  let dst := j.sp.get o.sa
  let src := j.sp.get (o.sa + 1)
  let len := j.sp.get (o.sa + 2)
  let bar := j.sp.get (o.sa + 3)
  match t.copyCheck j.gid j.g o.code dst src len bar with
  | some (c, x) => t.trapAt j c x
  | none =>
    if t.copyFull j.g.core j.gid then t.hold j
    else (t.copyQueue j.gid j.sid j.g reduce o.code dst src len bar 0).done j

/-- Needs of a copy: its scalars. -/
def copyNeeds (o : YF) : Needs := { scal := [o.sa, o.sa + 1, o.sa + 2] ++ (if o.code / 4096 % 2 = 1 then [o.sa + 3] else []) }

/-- `cpy` (R278). -/
def execCpy (o : YF) (s : State) : Host.Outcome State Fault Refusal := onIssue s (issue (fun _ => copyNeeds o) (copyEffect false o))
/-- `cpyr` (R281). -/
def execCpyr (o : YF) (s : State) : Host.Outcome State Fault Refusal := onIssue s (issue (fun _ => copyNeeds o) (copyEffect true o))

/-! ### Where the bytes of a copy lie -/

/-- A place of a copy's bytes: on die, in main memory behind a translation that permits the access or does not, or nowhere
known. -/
inductive Place_ where
  | shm (o : Nat)
  | spd (die lin : Nat)
  | cns (a : Nat)
  | os (slot a : Nat)
  | mem (x : Xl) (pa : Nat) (permitted : Bool)
  | lost
  deriving DecidableEq, Repr

/-- The space of a copy's destination or source (R278). -/
def CopyOp.space (c : CopyOp) (write : Bool) : Nat := if write then c.dsp else c.ssp
/-- Its first address. -/
def CopyOp.start (c : CopyOp) (write : Bool) : Nat := (if write then c.dst else c.src).toNat

/-- The place of byte `off` of a copy's source or destination (R25, R278). -/
def State.copyPlace (s : State) (c : CopyOp) (write : Bool) (off : Nat) : Place_ :=
  let die := if write then c.ddie else c.sdie
  let a := c.start write + off
  match c.space write with
  | 0 => .shm a
  | 1 => .spd die (s.spBase c.ctx die + a)
  | 2 => .cns (s.cnBase c.ctx + a)
  | 3 => .os (a / 65536 % 16) (a % 65536)
  | _ =>
    match s.copyPage c write (a / 65536) with
    | .ok x => .mem x (x.pa + a % 65536) true
    | .denied x _ => .mem x (x.pa + a % 65536) false
    | .err _ => .lost

/-- The bytes at which requests to a translated page are split: a granule of HBM or a line of the migration engine, or a
line of the CXL tier (R60, R80). -/
def splitAt (x : Xl) (write : Bool) : Nat :=
  if inHbm x.pa 1 || (if write then x.routesWrite else x.routesRead) then 256 else 64

/-- Bytes `off .. off + n - 1` of a copy's source or destination cut where its requests are split: offsets and lengths
(R24, R60). -/
def State.copyParts (s : State) (c : CopyOp) (write : Bool) (off n : Nat) : List (Nat × Nat) :=
  let a := c.start write
  if c.space write = 4 then
    (pagesOf (a + off) n).flatMap (fun p =>
      let g := match (s.copyPage c write (p.1 / 65536)).frame with
        | some x => splitAt x write
        | none => 65536
      (partsOf g p.1 p.2).map (fun q => (q.1 - a, q.2)))
  else (partsOf 256 (a + off) n).map (fun q => (q.1 - a, q.2))

/-- The physical ranges of a copy's source or destination: kind, start and length. -/
def State.copyRanges (s : State) (c : CopyOp) (write : Bool) : List (Nat × Nat × Nat) :=
  let a := c.start write
  if c.space write = 4 then
    (pagesOf a c.len).filterMap (fun p => match s.copyPlace c write (p.1 - a) with
      | .mem _ pa _ => some (6, pa, p.2)
      | _ => none)
  else
    match s.copyPlace c write 0 with
    | .shm o => [(0, o, c.len)]
    | .spd d l => [(1 + d, l, c.len)]
    | .cns o => [(5, o, c.len)]
    | .os k o => [(8 + k, o, c.len)]
    | _ => []

/-- A place as a physical location: kind and start. -/
def Place_.loc : Place_ → Option (Nat × Nat)
  | .shm o => some (0, o)
  | .spd d l => some (1 + d, l)
  | .cns a => some (5, a)
  | .os k a => some (8 + k, a)
  | .mem _ pa _ => some (6, pa)
  | .lost => none

/-! ### Errors (R26, R79, R283) -/

/-- The batch of an operation of a group: 0 while it is open. -/
def Group.batchOf (g : Group) (id : Nat) : Nat := ((g.ops.find? (fun o => o.id == id)).map (fun o => o.batch)).getD 0

/-- `s` with an error of an operation of class `cls` recorded, once. -/
def State.opErr (s : State) (gid cls id cause : Nat) (x : Word) : State :=
  let s := if isPoisonX cause x then
      (match s.groups.get? gid with
        | some g => s.poisonLog g.core x
        | none => s)
    else s
  s.modGroup gid (fun g =>
    if g.errs.any (fun e => e.op == id && e.cause == cause && e.trapx == x) then g
    else { g with errs := g.errs ++ [⟨cls, id, g.batchOf id, cause, x⟩] })

/-- `s` with an error of a copy recorded. -/
def State.copyErr (s : State) (c : CopyOp) (e : XErr) : State := s.opErr c.gid 0 c.id e.cause e.x

/-- `s` with copy `id` changed. -/
def State.modCopy (s : State) (id : Nat) (f : CopyOp → CopyOp) : State :=
  { s with copies := s.copies.map (fun c => if c.id = id then f c else c) }

/-- `s` with the failed lines of `n` bytes of a copy on the CXL side: cause 0x0B or 0x0C and their virtual addresses (R79). -/
def State.copyLine' (s : State) (id cause va n : Nat) : State :=
  (partsOf 64 va n).foldl (fun t p =>
    State.modCopy t id (fun c =>
      let e := (cause, p.1 / 64 * 64)
      if c.failedLines.contains e then c else { c with failedLines := c.failedLines ++ [e] })) s

/-- An undefined byte (R6), as a copy's destination takes it (R26, R57, R79, R280). -/
def State.undefByte (s : State) (key : Nat) (bad : Bool) : CopyByte := ⟨Config.freeByte s.occ (8 * key + 3), bad, true⟩

/-- Undefined bytes of a copy's destination (R26, R79). -/
def State.undefBytes (s : State) (key n : Nat) : List CopyByte :=
  (List.range n).map (fun j => s.undefByte (key + j) false)

/-! ### Writing a destination -/

/-- The offsets of bytes that carry poison or failed parity. -/
def badOffsets (d : List CopyByte) : List Nat := indicesOf (fun (e : CopyByte) => e.bad) d
/-- The offsets of bytes that are undefined. -/
def freeOffsets (d : List CopyByte) : List Nat := indicesOf (fun (e : CopyByte) => e.free) d
/-- The offsets of bytes that arrive on die as poison: they are written with inverted parity (R75). -/
def markOffsets (d : List CopyByte) : List Nat := indicesOf (fun (e : CopyByte) => e.bad && !e.free) d

/-- `s` with inverted parity on the bytes of a list of offsets of an array (R56). -/
def State.markBad (s : State) (kind core holder unit lo : Nat) (bad : List Nat) : State :=
  bad.foldl (fun t b => State.parityMark t kind core holder unit (lo + b) 1) s

/-- The bytes of a copy into a slot after the checks of KIND 2 range registers, in the format of each (R262): the bytes, the
registers hit, and what was raised as cause, bit offset of the element, register and unchecked element (R264). An element with an
undefined byte, whose offset is in `free`, is written unchecked (R6). -/
def Group.checkSlot (g : Group) (slot : Nat) (bs : List Byte) (free : List Nat) : List Byte × List Nat × List (Nat × Nat × Nat × Nat) :=
  let first := leNat bs
  g.bd.foldl (fun acc e =>
    if bdCovers e.2.1 2 slot then
      let f := fmtOf (bits e.2.1 23 4)
      let w := f.width
      let ks := (List.range (acc.1.length * 8 / w)).filter (fun k => !free.any (fun b => meets (8 * b) 8 (w * k) w))
      ks.foldl (fun a k =>
        let n := leNat a.1
        let x := n / 2 ^ (w * k) % 2 ^ w
        let c := checkOne f { value := x } e.1 e.2.1 e.2.2
        (leBytes a.1.length (n - x * 2 ^ (w * k) + c.value % 2 ^ w * 2 ^ (w * k)), c.hits ++ a.2.1,
          a.2.2 ++ c.raised.map (fun r => (r.1, w * k, r.2, first / 2 ^ (w * k) % 2 ^ w)))) acc
    else acc) (bs, [], [])

/-- `s` after a copy writes bytes into an operand slot (R53, R262). -/
def State.copySlotWrite (s : State) (c : CopyOp) (slot a : Nat) (d : List CopyByte) : State :=
  match s.groups.get? c.gid with
  | none => s
  | some g =>
    let r := g.checkSlot slot (d.map (fun e => e.b)) (freeOffsets d)
    let t := if r.2.1.isEmpty then s else s.modGroup c.gid (fun h => h.markHits r.2.1)
    let t := (t.slotKeep c.core slot a r.1.length).slotWrite c.core slot a r.1
    let t := t.markBad 6 c.core 0 slot a (markOffsets d)
    match minBy (fun e => (if e.1 = 0 then 100 else e.1) * 2 ^ 40 + e.2.1 * 32 + e.2.2.1) r.2.2 with
    | none => t
    | some (cause, _, k, x) => t.copyErr c ⟨cause, raiseX ⟨cause, k, 0, 0, slot, x⟩⟩

/-- `s` with the units of bad bytes at `pa` written as poison (R57, R75). -/
def State.poisonBad (s : State) (pa : Nat) (bad : List Nat) : State :=
  bad.foldl (fun t b => State.poisonPa t ((pa + b) / 32 * 32) 1 2) s

/-- `s` after bytes reach main memory at `pa`: bad ones as poison (R57, R75). -/
def State.memPut (s : State) (pa : Nat) (bs : List Byte) (bad : List Nat) : State := (s.writePa pa bs).poisonBad pa bad

/-- The element operation of a copy-reduction (R281). -/
def CopyOp.op (c : CopyOp) : AtomOp :=
  let ty := c.code / 2 ^ 17 % 8
  let ft : FloatTy := if ty = 4 then .f32 else if ty = 5 then .bf16 else .f16
  let w := if ty ≤ 1 then 32 else 64
  let signed := ty % 2 == 0
  match c.code / 2 ^ 14 % 8 with
  | 0 => if 4 ≤ ty then .fadd ft else .add w
  | 1 => if 4 ≤ ty then .fmin ft else .min w signed
  | 2 => if 4 ≤ ty then .fmax ft else .max w signed
  | 3 => .and w
  | _ => .or w

/-- The elements of `n` bytes of a copy-reduction as offset and bytes. -/
def CopyOp.cells (c : CopyOp) (d : List CopyByte) : List (Nat × List CopyByte) :=
  let n := c.op.size
  (List.range (d.length / n)).map (fun k => (n * k, (d.drop (n * k)).take n))

/-- The elements of a piece of a copy-reduction that are combined, at addresses from `a` on: those whose source carries no
poison and is defined. -/
def CopyOp.elems (c : CopyOp) (a : Nat) (d : List CopyByte) : List Elem :=
  (c.cells d).filterMap (fun e =>
    if e.2.any (fun b => b.bad || b.free) then none
    else some ⟨0, a + e.1, w64 (leNat (e.2.map (fun b => b.b))), 0⟩)

/-- The elements that become undefined: offset and the bytes that take their place (R26, R57, R280). -/
def CopyOp.undefs (c : CopyOp) (d : List CopyByte) : List (Nat × List Byte) :=
  (c.cells d).filterMap (fun e => if e.2.any (fun b => b.free) then some (e.1, e.2.map (fun b => b.b)) else none)

/-- `s` after elements are combined into shared memory, one by one (R72, R281): one that meets a marked unit is not applied
and is an error of the batch (R57). -/
def State.reduceElems (s : State) (c : CopyOp) (es : List Elem) : State :=
  es.foldl (fun t e =>
    match t.shmHit c.bid e.addr c.op.size with
    | some u => (t.parityLog u).copyErr c ⟨7, parityX u⟩
    | none =>
      (State.shmAtomic t c.bid c.op [e]).1) s

/-- `s` with one more request of a copy outstanding. -/
def State.copyMore (s : State) (id : Nat) : State := s.modCopy id (fun c => { c with waiting := c.waiting + 1 })

/-- `s` after a write of copy `id` to its destination has been performed (R285). -/
def State.copyWrote (s : State) (id : Nat) : State := s.modCopy id (fun c => { c with wrote := true })

/-- `s` after a copy sends a write or reduction request to a translated page; a port that is down fails it at once (R79, R81).
Bytes of a page that does not permit the write become undefined (R26). -/
def State.copySendWrite (s : State) (c : CopyOp) (off : Nat) (x : Xl) (pa : Nat) (permitted : Bool) (d : List CopyByte) : State :=
  let va := c.dst.toNat + off
  let r := s.routeOf { x with pa := pa } true
  let down := match r with
    | .port p => !s.portUp p
    | _ => false
  let d := if permitted then d else s.undefBytes (c.id + off) d.length
  if down then (s.lostWrite pa d.length).copyLine' c.id 0x0C va d.length
  else
    let bs := d.map (fun e => e.b)
    let op : MemOp := if c.reduce && permitted then .reduce c.id off c.op bs (badOffsets d) (freeOffsets d)
      else .write c.id off bs (badOffsets d)
    (s.copyMore c.id).memSend r pa va op c.core c.ctx c.cls [(va / 65536, x.level)]

/-- Bytes of the destination that lie outside the bench spans: offsets within a piece (R18). -/
def State.outsideSpan (s : State) (ctx die lin n : Nat) : List Nat :=
  if s.inSpan ctx die lin n then (List.range n).filter (fun j => !s.inSpan ctx die (lin + j) 1) else List.range n

/-- `s` after a copy-reduction's elements for the slices of die `d` are sent to their service groups (R49, R281). -/
def State.copySendSlices (s : State) (c : CopyOp) (d : Nat) (es : List Elem) : State :=
  let homes := ((es.map (fun e => homeSlice e.addr)).eraseDups)
  homes.foldl (fun t k => State.modSlice (State.copyMore t c.id) d k (fun x =>
    x.send (.reduce c.id c.op (es.filter (fun e => homeSlice e.addr == k))))) s

/-- `s` after a part of a copy's data reaches its destination at offset `off` (R56, R75, R280, R281). -/
def State.copyPutPart (s : State) (c : CopyOp) (off : Nat) (d : List CopyByte) : State :=
  let bs := d.map (fun e => e.b)
  let bad := markOffsets d
  match s.copyPlace c true off with
  | .lost => s
  | .shm o =>
    let t := s.copyWrote c.id
    let t := if c.reduce then
        (c.undefs d).foldl (fun u e => State.shmStore u c.bid (o + e.1) e.2) (t.reduceElems c (c.elems o d))
      else t.shmStore c.bid o bs
    t.shmMark c.bid o bad
  | .spd die lin =>
    let ok := s.outsideSpan c.ctx die lin d.length
    let mark := fun (t : State) => (bad.filter ok.contains).foldl (fun u b =>
      let h := homeSlice (lin + b)
      State.parityMark u 4 (die * 24 + h) 0 h (lin + b) 1) t
    if c.reduce then
      let und := (c.undefs d).filter (fun e => ok.contains e.1)
      let t := if und.isEmpty then s else und.foldl (fun u e => State.sliceWrite u die (lin + e.1) e.2) (s.copyWrote c.id)
      mark (t.copySendSlices c die ((c.elems lin d).filter (fun e => ok.contains (e.addr - lin))))
    else if ok.length = d.length then mark ((s.copyWrote c.id).sliceWrite die lin bs)
    else if ok.isEmpty then s
    else mark (ok.foldl (fun t j => State.sliceWrite t die (lin + j) [bs.getD j 0]) (s.copyWrote c.id))
  | .cns a => ((s.copyWrote c.id).cnsWrite c.core a bs).markBad 5 c.core 0 0 a bad
  | .os k a => (s.copyWrote c.id).copySlotWrite c k a d
  | .mem x pa ok => s.copySendWrite c off x pa ok d

/-- `s` after a piece of a copy's data reaches its destination, in the parts in which its requests are split (R60). -/
def State.copyPut (s : State) (c : CopyOp) (off : Nat) (d : List CopyByte) : State :=
  (s.copyParts c true off d.length).foldl (fun t p => State.copyPutPart t c p.1 ((d.drop (p.1 - off)).take p.2)) s

/-! ### Reading a source -/

/-- What reading a piece of a copy's source gives: its bytes, or a request to be sent to a translated page. -/
inductive Source where
  | data (d : List CopyByte) (units : List Unit_)
  | ask (x : Xl) (pa : Nat)
  deriving DecidableEq, Repr

/-- Bytes of one on-die array, undefined where their unit has failed its parity (R57) or where `open'` says so (R125), and the marked
units met. -/
def State.withMarks (s : State) (key : Nat) (bs : List Byte) (open' : Nat → Bool) (hit : Nat → Option Unit_) : Source :=
  if s.parity.isEmpty then .data ((bs.zip (List.range bs.length)).map (fun e => ⟨e.1, false, open' e.2⟩)) []
  else
    let us := (List.range bs.length).map hit
    .data (((bs.zip us).zip (List.range bs.length)).map (fun e =>
      if e.1.2.isSome then s.undefByte (key + e.2) true else ⟨e.1.1, false, open' e.2⟩)) ((us.filterMap id).eraseDups)

/-- The offsets among `n` bytes of main memory at `pa` whose unit is poisoned or uncorrectable (R76). -/
def State.badAt (s : State) (pa n : Nat) : List Nat :=
  if s.unitErrs.isEmpty then [] else (List.range n).filter (fun j => (s.unitError (pa + j) 1).isSome)

/-- A piece of a copy's source as it stands (R53, R57, R280). -/
def State.copySource (s : State) (c : CopyOp) (off n : Nat) : Source :=
  match s.copyPlace c false off with
  | .lost => .data (s.undefBytes (c.id + off) n) []
  | .shm o => s.withMarks (c.id + off) (s.shmRead c.bid o n) (fun j => s.shmOpen c.bid (o + j) 1) (fun j => s.shmHit c.bid (o + j) 1)
  | .spd die lin =>
    let h := fun j => s.parityHit 4 (die * 24 + homeSlice (lin + j)) 0 (homeSlice (lin + j)) (lin + j) 1
    if s.inSpan c.ctx die lin n then
      .data ((List.range n).map (fun j =>
        if s.inSpan c.ctx die (lin + j) 1 then s.undefByte (lin + j) false
        else if (h j).isSome then s.undefByte (lin + j) true
        else ⟨(s.sliceRead die (lin + j) 1).headD 0, false, s.spdOpen die (lin + j) 1⟩)) ((List.range n).filterMap (fun j =>
        if s.inSpan c.ctx die (lin + j) 1 then none else h j)).eraseDups
    else s.withMarks (c.id + off) (s.sliceRead die lin n) (fun j => s.spdOpen die (lin + j) 1) h
  | .cns a => s.withMarks (c.id + off) (s.cnsRead c.core a n) (fun j => s.flightCns c.core (a + j) 1) (fun j => s.parityHit 5 c.core 0 0 (a + j) 1)
  | .os k a => s.withMarks (c.id + off) (s.slotRead c.core k a n) (fun j => s.flightSlot c.core k (a + j) 1) (fun j => s.parityHit 6 c.core 0 k (a + j) 1)
  | .mem x pa true => .ask x pa
  | .mem _ _ false => .data (s.undefBytes (c.id + off) n) []

/-- Bytes of a piece whose location is also a source location of the copy are undefined (R280). -/
def State.shared (s : State) (c : CopyOp) (off : Nat) (d : List CopyByte) : List CopyByte :=
  if c.ssp ≠ c.dsp then d
  else
    let srcs := s.copyRanges c false
    (d.zip (List.range d.length)).map (fun e =>
      match (s.copyPlace c true (off + e.2)).loc with
      | none => e.1
      | some l => if srcs.any (fun q => q.1 == l.1 && meets q.2.1 q.2.2 l.2 1) then
          s.undefByte (c.id + off + e.2) false else e.1)

/-- `s` after a copy that asked for bytes does not get them: its destination is undefined and the lines have failed (R79). -/
def State.lostRead (s : State) (c : CopyOp) (off n cause : Nat) : State :=
  (s.copyPut c off (s.undefBytes (c.id + off) n)).copyLine' c.id cause (c.src.toNat + off) n

/-- `s` after one piece of a copy is transferred or asked for. -/
def State.copyPiece (s : State) (c : CopyOp) (p : Nat × Nat) : State :=
  match s.copySource c p.1 p.2 with
  | .data d us =>
    let t := us.foldl (fun t u =>
      let u' := match u with
        | .onDie 5 k h v a => Unit_.onDie 5 k h v (a - t.cnBase c.ctx)
        | u => u
      (State.parityLog t u').copyErr c ⟨7, parityX u'⟩) s
    t.copyPut c p.1 (t.shared c p.1 d)
  | .ask x pa =>
    let r := s.routeOf { x with pa := pa } false
    let down := match r with
      | .port q => !s.portUp q
      | _ => false
    let va := c.src.toNat + p.1
    if down then s.lostRead c p.1 p.2 0x0C
    else (s.copyMore c.id).memSend r pa va (.read c.id p.1 p.2) c.core c.ctx c.cls [(va / 65536, x.level)]

/-- The permission fault of a copy whose ranges fall in a bench span: the lowest byte of the destination, else of the
source (R18). -/
def State.copySpan (s : State) (c : CopyOp) : Option XErr :=
  let hit := fun (space die a : Nat) =>
    if space = 1 ∧ c.len ≠ 0 then
      (s.spanHit c.ctx die (s.spBase c.ctx die + a) c.len).map (fun l =>
        (⟨6, w64 (2 * 2 ^ 62 + die * 2 ^ 59 + 7 * 2 ^ 52 + (l - s.spBase c.ctx die))⟩ : XErr))
    else none
  (hit c.dsp c.ddie c.dst.toNat).or (hit c.ssp c.sdie c.src.toNat)

/-! ### The engine -/

/-- Physical ranges of a copy in main memory. -/
def State.copyMem (s : State) (c : CopyOp) : List (Nat × Nat) :=
  [false, true].flatMap (fun w => if c.space w = 4 then (s.copyRanges c w).map (fun r => r.2) else [])

/-- A copy is held while an earlier atomic of its group that touches a unit it touches has not completed (R106, R124). -/
def State.copyHeld (s : State) (c : CopyOp) : Bool :=
  let mine := s.inFlight.filter (fun r => decide (r.id < c.id) && r.atomicOf c.gid)
  (!mine.isEmpty && mine.any (fun r => match r.op with
    | .atomic _ _ _ op es => es.any (fun e => (s.copyMem c).any (fun m => meets (e.addr / 32 * 32) 32 (m.1 / 32 * 32) (m.2 + m.1 % 32) ||
        meets e.addr op.size m.1 m.2))
    | _ => false)) ||
  (s.svcAtomics c.gid).any (fun e => e.2.2.any (fun x =>
    (c.dsp == 1 && c.ddie == e.1 && meets x.addr e.2.1.size (s.spBase c.ctx c.ddie + c.dst.toNat) c.len) ||
    (c.ssp == 1 && c.sdie == e.1 && meets x.addr e.2.1.size (s.spBase c.ctx c.sdie + c.src.toNat) c.len)))

/-- The virtual pages of a copy's source or destination in main memory. -/
def CopyOp.pages (c : CopyOp) (write : Bool) : List Nat :=
  if c.space write = 4 then (pagesOf (c.start write) c.len).map (fun p => p.1 / 65536) else []

/-- The copy that a core's engine takes next: the first in its queue that has not begun and is not held (R124), once the
channels that its walks read accept commands (R69). -/
def State.copyNext (s : State) (core : Nat) : Option CopyOp :=
  s.copies.find? (fun c => c.core == core && !c.begun && !s.copyHeld c &&
    (c.pages false ++ c.pages true).all (fun v => s.walkReady c.core c.ctx (v * 65536)))

/-- Write-buffer entries of the core that hold bytes of the copy drain first (R46, R124). -/
def State.copyDrain (s : State) (c : CopyOp) : State :=
  let d := dieOf c.core
  let t := if c.dsp = 1 ∧ c.ddie = d then s.wbDrainRange c.core (s.spBase c.ctx d + c.dst.toNat) c.len else s
  if c.ssp = 1 ∧ c.sdie = d then t.wbDrainRange c.core (t.spBase c.ctx d + c.src.toNat) c.len else t

/-- A copy all of whose requests have come back has finished: a slot it failed a check in is undefined (R263), a
`cquiesce` that waits for it goes on (R285), and a merge that a reduction has kept waiting takes place (R120). -/
def State.copyFinish (s : State) (id : Nat) : State :=
  match s.copies.find? (fun c => c.id == id) with
  | none => s
  | some c =>
    if !c.begun || c.finished || decide (c.waiting ≠ 0) then s
    else
      let t := s.modCopy id (fun x => { x with finished := true })
      let failed := match t.groups.get? c.gid with
        | some g => g.errs.any (fun e => e.op == id && (e.cause == 8 || e.cause == 9 || e.cause == 0))
        | none => false
      let t := if failed && c.dsp == 3 then
          t.slotWrite c.core (osSlot c.dst) (c.dst.toNat % 65536) ((t.undefBytes c.id c.len).map (fun e => e.b))
        else t
      let t := t.wake (fun gid _ _ sp => gid == c.gid && (match sp.wait with
        | .quiesce _ _ => true
        | _ => false))
      if c.reduce then t.settle c.gid else t

/-- `s` after the translation unit of the core has translated one page of a copy for a walk of its class: the copy keeps what
it gave, the unit what it may keep (R24), and a fault is an error of the copy (R26). -/
def State.copyTranslate (s : State) (c : CopyOp) (write : Bool) (vpn : Nat) : State :=
  let p := s.copyPage c write vpn
  let t := s.keep c.core c.ctx c.cls (vpn * 65536) (s.translate c.core c.ctx .copy (c.need write) (vpn * 65536))
  let t := t.modCopy c.id (fun x =>
    if write then { x with dstX := x.dstX ++ [(vpn, p)] } else { x with srcX := x.srcX ++ [(vpn, p)] })
  match p.fault with
  | some e => t.copyErr c e
  | none => t

/-- COPY_ENGINE_TRANSFER (R280): the engine of a core takes its next copy, translates its pages, and transfers its bytes from
on-die storage or sends the requests for them (R60). -/
def execCopyEngineTransfer (core : Nat) (s : State) : Host.Outcome State Fault Refusal :=
  .next (match s.copyNext core with
    | none => s
    | some c =>
      let t := (s.copyDrain c).modCopy c.id (fun x => { x with begun := true })
      let t := (c.pages false).foldl (fun u v => State.copyTranslate u c false v) t
      let t := (c.pages true).foldl (fun u v => State.copyTranslate u c true v) t
      let t := match t.copySpan c with
        | some e => t.copyErr c e
        | none => t
      let c := (t.copies.find? (fun x => x.id == c.id)).getD c
      ((t.copyParts c false 0 c.len).foldl (fun u p => u.copyPiece c p) t).copyFinish c.id)

/-- `s` after one request of a copy has come back. -/
def State.copyLess (s : State) (id : Nat) : State :=
  (s.modCopy id (fun c => { c with waiting := c.waiting - 1 })).copyFinish id

end Sys2Proof.Machine
end

