-- ==== Sys2Proof/Machine/Batch.lean ====
section
/-!
DEFINITION. Batches, major 0x70 minors 2 to 5: closing and waiting (R126, R282, R283), the error list (R284), and
quiesce and replay of copies (R285 to R287).
-/
namespace Sys2Proof.Machine

/-- The class of a batch instruction (R282). -/
def batchCls (o : YF) : Nat := o.code % 4

/-- Splits of a group that wait for batches of a class look at them again (R283). -/
def State.batchWake (s : State) (gid cls : Nat) : State :=
  s.wake (fun g _ _ sp => g == gid && (match sp.wait with
    | .batch c _ => c == cls
    | _ => false))

/-- `s` after operation `id` of class `cls` has completed: waits for it go on, the group may end, and a rollback
that waits for it may happen (R126, R361). -/
def State.opComplete (s : State) (gid cls id : Nat) : State :=
  ((s.opDone gid id).batchWake gid cls).settle gid

/-! ### Completion of a copy batch (R79, R126) -/

/-- The copies of a closed batch of a group, in issue order. -/
def State.batchCopies (s : State) (gid : Nat) (g : Group) (batch : Nat) : List CopyOp :=
  s.copies.filter (fun c => c.gid == gid &&
    g.ops.any (fun o => o.id == c.id && o.cls == 0 && o.batch == batch && !o.done))

/-- A closed copy batch is complete though not yet recorded so: each of its copies has finished, and none is cancelled. -/
def State.batchReady (s : State) (gid : Nat) (g : Group) (batch : Nat) : Bool :=
  let mine := g.ops.filter (fun o => o.cls == 0 && o.batch == batch && !o.done)
  decide (batch ≠ 0) && !mine.isEmpty && !mine.any s.opCancelled && (s.batchCopies gid g batch).all (fun c => c.finished)

/-- TRAPX of causes 0x0B and 0x0C (R79). -/
def linesX (batch : Nat) (vas : List Nat) : Word :=
  w64 (batch % 4096 * 2 ^ 52 + ((minBy id vas).getD 0) / 64 % 2 ^ 46 * 64 + satAt 63 vas.length)

/-- `s` with the failed lines of a batch's copies as one error for each of causes 0x0B and 0x0C (R79). -/
def State.batchLines (s : State) (gid batch : Nat) (cs : List CopyOp) : State :=
  [0x0B, 0x0C].foldl (fun t cause =>
    let vas := (cs.flatMap (fun c => (c.failedLines.filter (fun l => l.1 == cause)).map (fun l => l.2))).eraseDups
    match vas, cs with
    | [], _ => t
    | _, [] => t
    | _, c :: _ => State.opErr t gid 0 c.id cause (linesX batch vas)) s

/-- One arrival of a copy of a completed batch (R126): an arrival without a group slot; a malformed word makes the
batch an error batch of cause 0x04, a marked one of cause 0x07 (R57). -/
def State.batchArrive (s : State) (c : CopyOp) : State :=
  if !c.arr then s
  else
    match s.shmHit c.bid c.bar.toNat 8 with
    | some u => (s.parityLog u).opErr c.gid 0 c.id 7 (parityX u)
    | none =>
    match s.arriveAt c.bid c.bar.toNat none with
    | none => s.opErr c.gid 0 c.id 4 c.bar
    | some (t, full) => if full then t.checkpointCheck c.bid (s.blockBarrier c.bid c.bar.toNat) else t

/-- COPY_BATCH_COMPLETE (R126): the copies of a batch have finished: their arrivals are made in issue order, and the
batch counts as complete. -/
def execCopyBatchComplete (gid batch : Nat) (s : State) : Host.Outcome State Fault Refusal :=
  .next (match s.groups.get? gid with
    | none => s
    | some g =>
      if !s.batchReady gid g batch then s
      else
        let cs := s.batchCopies gid g batch
        let t := cs.foldl State.batchArrive (s.batchLines gid batch cs)
        let t := cs.foldl (fun u c => State.opDone u gid c.id) t
        (t.batchWake gid 0).settle gid)

/-! ### `bclose` (R282) -/

/-- Effect of `bclose`. -/
def bcloseEffect (o : YF) (t : State) (j : Issue) : State :=
  let c := batchCls o
  let n := j.g.counters.getD c 0 + 1
  let g : Group := { j.g with
    counters := j.g.counters.set c n
    ops := j.g.ops.map (fun p => if p.cls = c ∧ p.batch = 0 then { p with batch := n } else p)
    errs := j.g.errs.map (fun e => if e.cls = c ∧ e.batch = 0 then { e with batch := n } else e) }
  (t.setGroup j.gid g).putScalar { j with g := g } o.sd (w64 n)

/-- `bclose` (R282). -/
def execBclose (o : YF) (s : State) : Host.Outcome State Fault Refusal :=
  onIssue s (issue (fun _ => {}) (bcloseEffect o))

/-! ### `bwait` (R283) -/

/-- The rank of an error among those of one batch: lowest cause, a retry last; translation faults before span faults,
then by address; of units of main memory that could not be read the lowest-addressed (R26, R76, R79). -/
def BatchErr.rank (e : BatchErr) : Nat :=
  let c := if e.cause = 0 then 64 else e.cause
  let k := if e.cause = 5 ∨ e.cause = 6 then (if bits e.trapx 52 4 = 7 then 2 ^ 52 else 0) + bits e.trapx 0 52
    else if isPoisonX e.cause e.trapx then bits e.trapx 0 44 else 0
  c * 2 ^ 53 + k

/-- The errors of batches 1 to `n` of a class, by batch and rank. -/
def Group.errsUpTo (g : Group) (cls n : Nat) : List BatchErr :=
  sortBy (fun a b => decide (a.batch < b.batch) || (decide (a.batch = b.batch) && decide (a.rank ≤ b.rank)))
    (g.errs.filter (fun e => e.cls == cls && e.batch != 0 && decide (e.batch ≤ n)))

/-- An entry joins the error list of a class: beyond 16 it is dropped and the overflow mark set (R284). A retry is
listed under the cause that a second one has, 0x08. -/
def Group.listErr (g : Group) (e : BatchErr) : Group :=
  let l := g.errLists.getD e.cls []
  if 16 ≤ l.length then { g with overflow := g.overflow.set e.cls true }
  else
    let x : ErrEntry := ⟨if e.cause = 0 then 8 else e.cause, e.batch, e.trapx⟩
    { g with errLists := g.errLists.set e.cls (l ++ [x]) }

/-- Batches 1 to `n` of a class are waited for: their records and copies are forgotten, and what an attention operation that
was spoilt has left is undefined (R308). -/
def State.covered (s : State) (gid cls n : Nat) : State :=
  match s.groups.get? gid with
  | none => s
  | some g =>
    let past := fun (o : OpRec) => o.cls == cls && o.batch != 0 && decide (o.batch ≤ n) && o.done
    let ids := (g.ops.filter past).map (fun o => o.id)
    let s := if cls = 2 then (g.ops.filter (fun o => past o && o.spoilt)).foldl (fun t o => State.usesUndef t g o) s else s
    let t := s.modGroup gid (fun g => { g with ops := g.ops.filter (fun o => !past o) })
    if cls = 0 then { t with copies := t.copies.filter (fun c => !ids.contains c.id) } else t

/-- A `bwait` whose wait is done (R283, R344): in a handler errors stay unreported; else the lowest batch with errors
is reported and the others join the error list. -/
def State.batchReport (s : State) (j : Issue) (cls n : Nat) : State :=
  let t := s.covered j.gid cls n
  match j.g.errsUpTo cls n with
  | [] => t.done j
  | e :: rest =>
    if j.sp.trap.hnd then t.done j
    else
      let t := t.modGroup j.gid (fun g =>
        rest.foldl Group.listErr { g with
          errs := g.errs.filter (fun x => !(x.cls == cls && x.batch != 0 && decide (x.batch ≤ n))) })
      if e.cause = 0 then (if j.sp.restarted then t.trapLanes j 8 0 e.trapx else t.retryAt j)
      else if e.cause = 8 ∨ e.cause = 9 then t.trapLanes j e.cause 0 e.trapx
      else (t.takeTrap j.gid j.sid ⟨e.cause, j.sp.pc, j.sp.mask, e.trapx⟩).settle j.gid

/-- An operation that a `bwait` up to batch `n` waits for; in a handler cancelled copies are not waited for. -/
def State.blocks? (s : State) (j : Issue) (cls n : Nat) (o : OpRec) : Bool :=
  o.cls == cls && o.batch != 0 && decide (o.batch ≤ n) && !o.done &&
  !(j.sp.trap.hnd && j.g.ops.any (fun p => p.batch == o.batch && s.opCancelled p))

/-- `bwait` on batches 1 to `n` of a class. -/
def State.batchWait (s : State) (j : Issue) (cls n : Nat) : State :=
  if j.g.ops.any (s.blocks? j cls n) then
    (s.modSplit j.gid j.sid (fun sp => { sp with wait := .batch cls n, awake := false })).settle j.gid
  else s.batchReport j cls n

/-- Effect of `bwait` when it issues, and when it goes on. -/
def bwaitEffect (o : YF) (t : State) (j : Issue) : State :=
  match j.sp.wait with
  | .batch cls n => t.batchWait j cls n
  | _ =>
    issue (fun _ => { scal := [o.sa] }) (fun u i =>
      u.batchWait i (batchCls o) (min (i.sp.get o.sa).toNat (i.g.counters.getD (batchCls o) 0))) t j

/-- `bwait` (R283). -/
def execBwait (o : YF) (s : State) : Host.Outcome State Fault Refusal := onIssue s (bwaitEffect o)

/-! ### `cstat` (R284) -/

/-- Effect of `cstat`. -/
def cstatEffect (o : YF) (t : State) (j : Issue) : State :=
  let c := batchCls o
  let ovf := j.g.overflow.getD c false
  let l := j.g.errLists.getD c []
  let out : Word × Word := match l.head? with
    | some e => (e.word ovf, e.trapx)
    | none => (w64 (b2n ovf * 2 ^ 62), 0)
  let g : Group := { j.g with errLists := j.g.errLists.set c l.tail, overflow := j.g.overflow.set c false }
  let t := (t.setGroup j.gid { g with splits := g.splits.set j.sid (j.sp.putAll o.sd [out.1, out.2]).advance })
  (t.scalClear g j.sid o.sd 2).settle j.gid

/-- `cstat` (R284). -/
def execCstat (o : YF) (s : State) : Host.Outcome State Fault Refusal := onIssue s (issue (fun _ => {}) (cstatEffect o))

/-! ### `cquiesce` (R285, R286) -/

/-- The replay entry of a copy (R286). -/
def CopyOp.entry (c : CopyOp) (batch : Nat) : List Byte :=
  wBytes c.dst ++ wBytes c.src ++ leBytes 8 c.len ++ wBytes c.bar ++ leBytes 4 c.code ++
  leBytes 1 (b2n c.reduce) ++ [0, 0, 0] ++ leBytes 8 batch ++ List.replicate 16 0

/-- `s` with a copy cancelled: it makes no write and no arrival; its operation stays incomplete in its batch (R285). -/
def State.copyCancel (s : State) (c : CopyOp) : State :=
  let t := s.dropCopies [c.id]
  t.modGroup c.gid (fun g => { g with ops := g.ops.filter (fun o => !(o.id == c.id && o.batch == 0)) })

/-- The loop of `cquiesce` from copy list `l` on with `k` entries written: the state, the entries, and the copy it has to
wait for, if any (R285). -/
def quiesceLoop (core lin : Nat) (s : State) (k : Nat) : List CopyOp → State × Nat × Option Nat
  | [] => (s, k, none)
  | c :: rest =>
    if c.finished then quiesceLoop core lin s k rest
    else if !c.wrote then
      let batch := match s.groups.get? c.gid with
        | some g => g.batchOf c.id
        | none => 0
      quiesceLoop core lin ((s.copyCancel c).stageWrite core (lin + 64 * k) (c.entry batch)) (k + 1) rest
    else (s, k, some c.id)

/-- `cquiesce` goes on with the copies from number `next` on. -/
def quiesceFrom (o : YF) (k next : Nat) (t : State) (j : Issue) : State :=
  let lin := t.origin j.g .spd + (j.sp.get o.sa).toNat
  let cs := t.copies.filter (fun c => c.gid == j.gid && decide (next ≤ c.id) && t.copyOpen c)
  match quiesceLoop j.g.core lin t k cs with
  | (u, n, none) =>
    ((u.modSplit j.gid j.sid (fun sp => (sp.put o.sd (w64 n)).advance)).scalClear j.g j.sid o.sd 1).settle j.gid
  | (u, n, some id) =>
    (u.modSplit j.gid j.sid (fun sp => { sp with wait := .quiesce n id, awake := false })).settle j.gid

/-- The check of a window range that a batch instruction reads or writes, aligned to 64 bytes (R12, R18, R285). -/
def State.stageCheck (s : State) (g : Group) (off : Word) (n : Nat) : Option Nat :=
  if off.toInt < 0 ∨ (s.extent g .spd : Int) < off.toInt + n then some 4
  else if s.inSpan g.ctx (dieOf g.core) (s.origin g .spd + off.toNat) n then some 6
  else if off.toNat % 64 ≠ 0 then some 3
  else none

/-- The first execution of `cquiesce`. -/
def quiesceFirst (o : YF) (t : State) (j : Issue) : State :=
  if !j.sp.trap.hnd then t.trapAt j 6 0
  else
    let off := j.sp.get o.sa
    match t.stageCheck j.g off 4096 with
    | some c => t.trapAt j c off
    | none => quiesceFrom o 0 0 (t.wbDrainAll j.g.core) j

/-- `cquiesce` (R285). -/
def execCquiesce (o : YF) (s : State) : Host.Outcome State Fault Refusal :=
  onIssue s (fun t j => match j.sp.wait with
    | .quiesce k next => quiesceFrom o k next t j
    | _ => issue (fun _ => { scal := [o.sa] }) (quiesceFirst o) t j)

/-! ### `cquiesce.rst` (R287) -/

/-- A replay entry as read back (R286). -/
structure Replayed where
  dst : Word
  src : Word
  len : Word
  bar : Word
  code : Nat
  reduce : Bool
  batch : Nat
  legal : Bool
  deriving DecidableEq, Repr

/-- Reads a replay entry; it is legal when its CODE is one that the decoder accepts and its zero bytes are zero. -/
def replayOf (bs : List Byte) : Replayed :=
  let n := fun (a k : Nat) => leNat ((bs.drop a).take k)
  let code := n 0x20 4
  let minor := n 0x24 1
  let word := 0x70 * 2 ^ 56 + minor * 2 ^ 49 + code
  let ok := decide (minor ≤ 1) && decide (n 0x25 3 = 0) && decide (n 0x30 16 = 0) &&
    (match Decode.decodeAt 1 false word with
      | .ok _ => true
      | .error _ => false)
  ⟨w64 (n 0 8), w64 (n 8 8), w64 (n 0x10 8), w64 (n 0x18 8), code, minor == 1, n 0x28 8, ok⟩

/-- The check of a replay entry: R279, or an entry that is no copy (cause 0x01, REASON 4). -/
def State.replayCheck? (s : State) (j : Issue) (r : Replayed) : Option (Nat × Word) :=
  if !r.legal then some (1, 4) else s.copyCheck j.gid j.g r.code r.dst r.src r.len r.bar

/-- `s` after the copy of a replay entry is queued into its batch, in the place of a cancelled operation (R287). -/
def State.replayQueue (s : State) (j : Issue) (r : Replayed) : State :=
  match s.groups.get? j.gid with
  | none => s
  | some g =>
    let t := match g.ops.find? (fun o => decide (o.batch = r.batch) && s.opCancelled o) with
      | none => s
      | some o => s.setGroup j.gid { g with ops := g.ops.filter (fun p => p.id != o.id) }
    t.copyQueue j.gid j.sid j.g r.reduce r.code r.dst r.src r.len r.bar r.batch

/-- The copies of the entries from number `k` on are queued in their order; the instruction holds at one that finds no room, with
those before it queued (R168, R287). -/
def State.replayFrom (s : State) (j : Issue) (k : Nat) : List Replayed → State
  | [] => s.done j
  | r :: rest =>
    if s.copyFull j.g.core j.gid then s.modSplit j.gid j.sid (fun sp => { sp with wait := .replay k, awake := false })
    else (s.replayQueue j r).replayFrom j (k + 1) rest

/-- The entries `k` to `n - 1` of a `cquiesce.rst` in its window. -/
def State.replayEntries (s : State) (j : Issue) (off : Word) (k n : Nat) : List Replayed :=
  let lin := s.origin j.g .spd + off.toNat
  (List.range (n - k)).map (fun i => replayOf (s.spdRead j.g.core (lin + 64 * (k + i)) 64))

/-- Effect of `cquiesce.rst`: every entry is checked before one is queued. -/
def quiesceRstEffect (o : YF) (t : State) (j : Issue) : State :=
  let off := j.sp.get o.sa
  let n := (j.sp.get o.sd).toNat
  match t.stageCheck j.g off (64 * n) with
  | some c => t.trapAt j c off
  | none =>
    let lin := t.origin j.g .spd + off.toNat
    match t.spdParity j.g.core lin (64 * n) with
    | some u => t.consumeMem j j.sp.mask u
    | none =>
    let es := t.replayEntries j off 0 n
    let bad := ((List.range n).zip es).findSome? (fun e => (t.replayCheck? j e.2).map (fun f => (f.1, setBits f.2 56 8 e.1)))
    match bad with
    | some (c, x) => t.trapAt j c x
    | none => t.replayFrom j 0 es

/-- `cquiesce.rst` (R287). -/
def execCquiesceRst (o : YF) (s : State) : Host.Outcome State Fault Refusal :=
  onIssue s (fun t j => match j.sp.wait with
    | .replay k => t.replayFrom j k (t.replayEntries j (j.sp.get o.sa) k (j.sp.get o.sd).toNat)
    | _ => issue (fun _ => { scal := [o.sa, o.sd] }) (quiesceRstEffect o) t j)

end Sys2Proof.Machine
end

