-- ==== Sys2Proof/Machine/Service.lean ====
section
/-!
DEFINITION. The service groups of the scratchpad slices (R48 to R50, R281): atomics, copy-reductions and `wmon`
checks in queue order, and bench requests and withdraws (R331, R332).
-/
namespace Sys2Proof.Machine

/-- `s` without the head of the queue of slice `k` of die `d`. -/
def State.sliceTake (s : State) (d k : Nat) : State := s.modSlice d k Slice.pop

/-- Elements of a copy-reduction are combined into slice `k` of die `d` one by one; one that meets a marked unit is
not applied and makes its batch an error batch (R57, R281). -/
def State.sliceReduce (s : State) (d k copy : Nat) (op : AtomOp) (es : List Elem) : State :=
  es.foldl (fun t e =>
    match t.parityHit 4 (d * 24 + k) 0 k e.addr op.size with
    | some u =>
      let t := State.parityLog t u
      match t.copies.find? (fun c => c.id == copy) with
      | some c => t.copyErr c ⟨7, parityX u⟩
      | none => t
    | none =>
      (State.spdAtomic t d op [e]).1.copyWrote copy) s

/-- The first marked unit that the elements of an atomic meet in slice `k` of die `d` (R57). -/
def State.atomicMark (s : State) (d k : Nat) (op : AtomOp) (es : List Elem) : Option Unit_ :=
  if s.parity.isEmpty then none else es.findSome? (fun e => s.parityHit 4 (d * 24 + k) 0 k e.addr op.size)

/-- `s` after an atomic has met marked unit `u` at its slice: none of its elements there is applied, and the split that holds its lanes
traps at it with cause 0x07 (R57). -/
def State.atomicSpoilt (s : State) (gid sid : Nat) (pc : Word) (pend : Option Nat) (op : AtomOp) (es : List Elem) (u : Unit_) : State :=
  let touched := fun (e : Elem) => match u with
    | .onDie _ _ _ _ o => decide (e.addr ≤ o) && decide (o < e.addr + op.size)
    | .main _ => false
  let m := maskList ((es.filter touched).map (fun e => e.lane))
  let t := (match pend with
    | some p => s.takeReply (.atomic gid p [])
    | none => s).parityLog u
  let owner := ((t.groups.get? gid).map (fun g => g.splitOf sid m)).getD sid
  (t.takeTrap gid owner ⟨7, pc, m, parityX u⟩).settle gid

/-- The service group executes one request of its queue that is no bench request (R49). -/
def State.serviceExec (s : State) (d k : Nat) : SvcReq → State
  | .atomic _ gid sid pc pend op es =>
    let s := s.sliceTake d k
    match s.atomicMark d k op es with
    | some u => s.atomicSpoilt gid sid pc pend op es u
    | none =>
      let (t, olds) := s.spdAtomic d op es
      match pend with
      | some p => (t.replyTo gid (.atomic gid p olds)).settle gid
      | none => t.settle gid
  | .reduce copy op es => ((s.sliceTake d k).sliceReduce d k copy op es).copyLess copy
  | .wmon gid sid addr size expect => (s.sliceTake d k).wmonServe d k gid sid addr size expect
  | .bench _ => s
  | .withdraw _ _ _ => s

/-- SERVICE_GROUP_EXEC (R49): the head of the queue of slice `slice` of die `die`, when it is an atomic, a
copy-reduction or a `wmon` check. -/
def execServiceGroupExec (die slice : Nat) (s : State) : Host.Outcome State Fault Refusal :=
  .next (match (s.slice die slice).queue.head? with
    | some q => s.serviceExec die slice q
    | none => s)

/-- BENCH_SERVE (R331): the head of the queue, when it is a bench request. -/
def execBenchServe (die slice : Nat) (s : State) : Host.Outcome State Fault Refusal :=
  .next (match (s.slice die slice).queue.head? with
    | some (.bench r) => (s.sliceTake die slice).benchExec die slice r
    | _ => s)

/-- The slice whose queue has the withdraw of a split at its head. -/
def State.withdrawAt (s : State) (gid sid : Nat) : Option (Nat × Nat) :=
  (s.dies.flatMap (fun e => (e.2.slices.filter (fun f => match f.2.queue.head? with
    | some (.withdraw g i _) => g == gid && i == sid
    | _ => false)).map (fun f => (e.1, f.1)))).head?

/-- BENCH_WITHDRAW (R332): the withdraw of a split is served; its group may then take the event it waits for. -/
def execBenchWithdraw (gid sid : Nat) (s : State) : Host.Outcome State Fault Refusal :=
  .next (match s.withdrawAt gid sid with
    | none => s
    | some (d, k) => ((s.sliceTake d k).withdrawServe d k gid sid).settle gid)

end Sys2Proof.Machine
end

