-- ==== Sys2Proof/Machine/Matrix.lean ====
section
/-!
DEFINITION. The matrix engine, major 0x74 (R289 to R303): operand slots, matrix operations as they are queued and as
the array executes them (R212, R294, R296), tiles, leases and bonds, the engine arbiter (R173), pairing (R171) and the
start limiter (R170).
-/
namespace Sys2Proof.Machine

/-! ### Slots (R53, R289, R290) -/

/-- `s` with slot `k` of a core claimed by a group; its contents are undefined. -/
def State.claimSlot (s : State) (core k gid : Nat) : State :=
  let (seed, t) := s.newSeed
  t.setSlot core k ⟨.claimed, gid, 0, false, ⟨some seed, []⟩, []⟩

/-- The slot that an `oclaim` is about, if it is granted, and whether it is claimed anew (R289). -/
def State.claimOf (s : State) (core gid n : Nat) (any : Bool) : Option (Nat × Bool) :=
  if any then ((List.range 16).find? (fun k => (s.slotOf core k).st == .free)).map (fun k => (k, true))
  else if (s.slotOf core n).st = .free then some (n, true)
  else if s.mayName gid core n then some (n, false)
  else none

/-- Effect of `oclaim` (R289). -/
def oclaimEffect (o : YF) (any : Bool) (t : State) (j : Issue) : State :=
  match t.claimOf j.g.core j.gid (o.code % 16) any with
  | none => t.putScalar j o.sd allOnes
  | some (k, new) => (if new then t.claimSlot j.g.core k j.gid else t).putScalar j o.sd (w64 k)

/-- `oclaim` (R289). -/
def execOclaim (o : YF) (s : State) : Host.Outcome State Fault Refusal :=
  onIssue s (issue (fun _ => {}) (oclaimEffect o false))
/-- `oclaim.any` (R289). -/
def execOclaimAny (o : YF) (s : State) : Host.Outcome State Fault Refusal :=
  onIssue s (issue (fun _ => {}) (oclaimEffect o true))

/-- Effect of `orel` (R290). -/
def orelEffect (o : YF) (t : State) (j : Issue) : State :=
  let n := o.code % 16
  if t.mayName j.gid j.g.core n then (t.setSlot j.g.core n (t.slotOf j.g.core n).release).done j
  else t.trapAt j 6 (w64 n)

/-- `orel` (R290). -/
def execOrel (o : YF) (s : State) : Host.Outcome State Fault Refusal :=
  onIssue s (issue (fun _ => {}) (orelEffect o))

/-- A slot with one more unretired reader (R53). -/
def Slot.addReader (x : Slot) : Slot := { x with st := .engaged, readers := x.readers + 1 }

/-! ### Shapes and layouts (R291, R292) -/

/-- N of a shape word. -/
def shN (w : Word) : Nat := bits w 16 8
/-- K of a shape word. -/
def shK (w : Word) : Nat := bits w 32 16
/-- ASTR, BSTR, ASC and BSC of a layout word. -/
def layAstr (w : Word) : Nat := bits w 0 16
def layBstr (w : Word) : Nat := bits w 16 16
def layAsc (w : Word) : Nat := bits w 32 16
def layBsc (w : Word) : Nat := bits w 48 16

/-- The shape word is in range (R291). -/
def shapeOk (w : Word) (pair : Bool) : Bool :=
  decide (bits w 9 7 = 0) && decide (bits w 24 8 = 0) && decide (bits w 48 16 = 0) && decide (1 ≤ shM w) &&
  decide (shM w ≤ if pair then 256 else 128) && decide (1 ≤ shN w) && decide (shN w ≤ 192) && decide (1 ≤ shK w)

/-- K positions of a block (R212). -/
def blockK (f : Nat) : Nat := if 3 ≤ f then 32 else 8

/-- The number of K blocks. -/
def blocksOf (f k : Nat) : Nat := (k + blockK f - 1) / blockK f

/-- Elements a row of A holds: dense, or compressed (R292). -/
def rowElems (sparse : Bool) (k : Nat) : Nat := if sparse then 2 * ((k + 3) / 4) else k

/-- Bytes of `n` consecutive elements. -/
def elemBytes (f n : Nat) : Nat := (n * Checks.fmtWidth f + 7) / 8

/-- Byte ranges an operation reads of A for `m` rows: rows, then scales (R292). -/
def rangesA (f : Nat) (sparse : Bool) (m k : Nat) (lay : Word) : List (Nat × Nat) :=
  (List.range m).map (fun r => (r * layAstr lay, elemBytes f (rowElems sparse k))) ++
  (if 3 ≤ f then [(layAsc lay, m * blocksOf f k)] else [])
/-- Byte ranges an operation reads of B: columns, then scales (R292). -/
def rangesB (f n k : Nat) (lay : Word) : List (Nat × Nat) :=
  (List.range n).map (fun c => (c * layBstr lay, elemBytes f k)) ++
  (if 3 ≤ f then [(layBsc lay, n * blocksOf f k)] else [])

/-- Registers of the metadata run (R296). -/
def metaLen (sel : Nat) (shape : Word) : Nat :=
  let nr := (shK shape + 63) / 64
  if sel = 1 then nr else (shM shape + 31) / 32 * nr

/-- The physical tile that a block names `acc`T (R54). -/
def State.tileNo (s : State) (bid t : Nat) : Option Nat := ((s.blocks.get? bid).map (fun b => b.tiles)).bind (fun l => l[t]?)

/-- The first check of R293 that fails. -/
def State.mmaCheck (s : State) (j : Issue) (o : XF) (sparse : Bool) (shape lay : Word) : Option (Nat × Word) :=
  let vm := o.f2
  let len := metaLen o.f4 shape
  let core := j.g.core
  if sparse ∧ len ≠ 0 ∧ j.g.nregs < vm + len then some (2, w64 (max vm j.g.nregs))
  else if (s.tileNo j.g.bid o.mtile).isNone then some (2, w64 o.mtile)
  else if !s.mayName j.gid core o.slotA then some (6, w64 o.slotA)
  else if !s.mayName j.gid core o.slotB then some (6, w64 o.slotB)
  else if o.pair ∧ core % 2 = 1 then some (6, 0)
  else if !shapeOk shape o.pair then some (4, shape)
  else if (rangesA o.mfmt sparse (min 128 (shM shape)) (shK shape) lay ++ rangesB o.mfmt (shN shape) (shK shape) lay).all
      (fun r => decide (r.1 + r.2 ≤ 65536)) then none
  else some (4, lay)

/-! ### Queueing (R127, R293) -/

/-- The matrix queue of a core is full (R168; assumption log 14). -/
def State.matFull (s : State) (core : Nat) : Bool :=
  let q := (s.core core).matQ
  !q.isEmpty && decide (Config.engineQueueDepth ≤ q.length)

/-- An operation that no `bwait` has covered, or one still in flight, uses tile `k` of a core (R128). -/
def State.tileInUse (s : State) (core k : Nat) : Bool :=
  decide (0 < (s.tileOf core k).busy) || s.groups.any (fun e => e.2.ops.any (fun p => p.tiles.contains (core, k)))

/-- A matrix operation that no `bwait.mx` has covered has tile `k` of a core (R128). -/
def State.tileOpen (s : State) (core k : Nat) : Bool :=
  s.groups.any (fun e => e.2.ops.any (fun p => p.cls == 1 && p.tiles.contains (core, k)))

/-- `s` with one more operation using tile `k` of a core: an attention operation there is spoilt and leaves the tile undefined (R308),
and so is the tile for an attention operation where a matrix operation has it that is not waited for (R128). -/
def State.useTile (s : State) (core k : Nat) (attn : Bool) : State :=
  let taken := s.tileTaken core k || (attn && s.tileOpen core k)
  let t := if taken then (s.spoilTile core k).tileUndef core k else s
  let x := t.tileOf core k
  t.setTile core k { x with busy := x.busy + 1, spoilt := (x.spoilt && s.tileInUse core k) || taken }

/-- `s` with a matrix operation queued, its slots engaged and its tile in use; `regs` are the registers it reads. -/
def State.matQueue (s : State) (op : MatOp) (regs : List Nat) : State :=
  let t := op.slots.foldl (fun u k => State.setSlot u op.core k (u.slotOf op.core k).addReader) s
  let t := match op.kind with
    | .smask => t
    | _ => t.useTile op.core op.tile false
  let tiles := match op.kind with
    | .smask => []
    | _ => [(op.core, op.tile)]
  (t.modCore op.core (fun c => { c with matQ := c.matQ ++ [op] })).modGroup op.gid (fun g =>
    { g with ops := g.ops ++ ([⟨op.id, 1, 0, false, tiles, regs, [], false⟩] : List OpRec) })

/-- A metadata word as an operation reads it: undefined where the register was written since the last `fence.op`, or is
awaited; another operation may read it too (R127, R296; assumption log 46). -/
def State.metaWord (s : State) (g : Group) (r l : Nat) : Word :=
  if g.awaitsReg r || g.opDirty.any (fun e => e.2.1 == r && lane e.2.2 l) then Config.freeWord s.occ (vkey r l) else g.v? r l

/-- The metadata registers of an `mmas` (R296). -/
def metaRegs (o : XF) (shape : Word) : List Nat := (List.range (metaLen o.f4 shape)).map (fun k => o.f2 + k)

/-- Needs of `mmas`: its metadata is read in lane 0, or in every lane (R296). -/
def mmasNeeds (o : XF) (j : Issue) : Needs :=
  { rd := metaRegs o (j.sp.get o.sa), cross := decide (o.f4 ≠ 1), lanes := 1, scal := [o.sa, o.sa + 1] }

/-- Effect of `mma` and `mmas` at issue (R293). -/
def mmaEffect (o : XF) (sparse : Bool) (t : State) (j : Issue) : State :=
  let shape := j.sp.get o.sa
  let lay := j.sp.get (o.sa + 1)
  match t.mmaCheck j o sparse shape lay with
  | some (c, x) => t.trapAt j c x
  | none =>
    if t.matFull j.g.core then t.hold j
    else
      let (id, t) := t.newId
      let regs := if sparse then metaRegs o shape else []
      let lanes := if o.f4 = 1 then 1 else 32
      let op : MatOp := {
        id := id, kind := if sparse then .mmas else .mma, gid := j.gid, core := j.g.core, bid := j.g.bid
        pri := j.g.pri, grpSlot := j.g.slot, arrival := t.time, tile := (t.tileNo j.g.bid o.mtile).getD 0
        slotA := o.slotA, slotB := o.slotB, pair := o.pair, fmt := o.mfmt, shape := shape, layout := lay
        mdata := regs.map (fun r => (List.range lanes).map (t.metaWord j.g r)), sel := o.f4, bond := none }
      (t.matQueue op regs).done j

/-- `mma` (R293). -/
def execMma (o : XF) (s : State) : Host.Outcome State Fault Refusal :=
  onIssue s (issue (fun _ => { scal := [o.sa, o.sa + 1] }) (mmaEffect o false))
/-- `mmas` (R293, R296). -/
def execMmas (o : XF) (s : State) : Host.Outcome State Fault Refusal :=
  onIssue s (issue (mmasNeeds o) (mmaEffect o true))

/-- Effect of `mzero` at issue (R300). -/
def mzeroEffect (o : YF) (t : State) (j : Issue) : State :=
  match t.tileNo j.g.bid (o.code % 8) with
  | none => t.trapAt j 2 (w64 (o.code % 8))
  | some k =>
    if t.matFull j.g.core then t.hold j
    else
      let (id, t) := t.newId
      let op : MatOp := {
        id := id, kind := .mzero, gid := j.gid, core := j.g.core, bid := j.g.bid, pri := j.g.pri, grpSlot := j.g.slot
        arrival := t.time, tile := k, slotA := 0, slotB := 0, pair := false, fmt := 0, shape := 0, layout := 0
        mdata := [], sel := 0, bond := none }
      (t.matQueue op []).done j

/-- `mzero` (R300). -/
def execMzero (o : YF) (s : State) : Host.Outcome State Fault Refusal :=
  onIssue s (issue (fun _ => {}) (mzeroEffect o))

/-! ### The mask search (R303) -/

/-- Byte ranges of the 32 × 32 block of an `smask`. -/
def smaskRanges (v : Word) : List (Nat × Nat) :=
  (List.range 32).map (fun r => (bits v 0 16 + r * bits v 16 16, elemBytes (bits v 52 4) 32))

/-- The first check of R303 that fails; a format code beyond 5 counts as a reserved value. -/
def State.smaskCheck (s : State) (gid : Nat) (g : Group) (v : Word) : Option (Nat × Word) :=
  let slot := bits v 48 4
  if bits v 56 8 ≠ 0 ∨ 5 < bits v 52 4 then some (4, v)
  else if !s.mayName gid g.core slot then some (6, w64 slot)
  else if bits v 32 16 % 8 ≠ 0 then some (3, v)
  else if (smaskRanges v ++ [(bits v 32 16, 136)]).all (fun r => decide (r.1 + r.2 ≤ 65536)) then none
  else some (4, v)

/-- Effect of `smask` at issue (R303). -/
def smaskEffect (o : YF) (t : State) (j : Issue) : State :=
  let v := j.sp.get o.sa
  match t.smaskCheck j.gid j.g v with
  | some (c, x) => t.trapAt j c x
  | none =>
    if t.matFull j.g.core then t.hold j
    else
      let (id, t) := t.newId
      let op : MatOp := {
        id := id, kind := .smask, gid := j.gid, core := j.g.core, bid := j.g.bid, pri := j.g.pri, grpSlot := j.g.slot
        arrival := t.time, tile := 0, slotA := bits v 48 4, slotB := 0, pair := false, fmt := bits v 52 4, shape := v
        layout := 0, mdata := [], sel := 0, bond := none }
      (t.matQueue op []).done j

/-- `smask` (R303). -/
def execSmask (o : YF) (s : State) : Host.Outcome State Fault Refusal :=
  onIssue s (issue (fun _ => { scal := [o.sa] }) (smaskEffect o))

/-- The mask bit of (i, j) in a 4 × 4 mask. -/
def mbit (m i j : Nat) : Bool := m.testBit (4 * i + j)

/-- The exchange candidates of a 4 × 4 tile in the order of R303. -/
def smaskCands : List (Nat × Nat × Nat × Nat) :=
  let two : List (Nat × Nat) := [(0, 1), (0, 2), (0, 3), (1, 2), (1, 3), (2, 3)]
  two.flatMap (fun i => two.map (fun j => (i.1, i.2, j.1, j.2)))

/-- The gain of an exchange under mask `m`, where it fits. -/
def smaskGain (a : Nat → Nat → Nat) (m : Nat) (c : Nat × Nat × Nat × Nat) : Option Int :=
  let (i1, i2, j1, j2) := c
  let b := mbit m i1 j1
  if mbit m i2 j2 = b ∧ mbit m i1 j2 ≠ b ∧ mbit m i2 j1 ≠ b then
    let g : Int := (a i1 j2 : Int) + a i2 j1 - a i1 j1 - a i2 j2
    some (if b then g else -g)
  else none

/-- The first candidate with the largest positive gain. -/
def smaskBest (a : Nat → Nat → Nat) (m : Nat) : Option (Nat × Nat × Nat × Nat) :=
  (smaskCands.foldl (fun (acc : Int × Option (Nat × Nat × Nat × Nat)) c =>
    match smaskGain a m c with
    | some g => if acc.1 < g then (g, some c) else acc
    | none => acc) (0, none)).2

/-- The search from mask `m` with the passes left (R303): the mask, the passes made, and whether gain is left. -/
def smaskLoop (a : Nat → Nat → Nat) : Nat → Nat → Nat → Nat × Nat × Bool
  | 0, passes, m => (m, passes, (smaskBest a m).isSome)
  | n + 1, passes, m =>
    match smaskBest a m with
    | none => (m, passes, false)
    | some (i1, i2, j1, j2) =>
      let flip := 2 ^ (4 * i1 + j1) + 2 ^ (4 * i1 + j2) + 2 ^ (4 * i2 + j1) + 2 ^ (4 * i2 + j2)
      smaskLoop a n (passes + 1) (m ^^^ flip)

/-- The mask search of one 4 × 4 tile of scores (R303). -/
def smaskTile (a : Nat → Nat → Nat) : Nat × Nat × Bool :=
  let start := (List.range 16).foldl (fun n k => if (k % 4 + 4 - k / 4) % 4 ≤ 1 then n + 2 ^ k else n) 0
  smaskLoop a 16 0 start

/-- The 136 bytes of output for a block of scores (R303). -/
def smaskOut (a : Nat → Nat → Nat) : List Byte :=
  let ts := (List.range 64).map (fun k => smaskTile (fun i j => a (k / 8 * 4 + i) (k % 8 * 4 + j)))
  let bit := fun (r c : Nat) => mbit (ts.getD (r / 4 * 8 + c / 4) (0, 0, false)).1 (r % 4) (c % 4)
  let byte := fun (k : Nat) => (List.range 8).foldl (fun n b => if bit (k / 4) (k % 4 * 8 + b) then n + 2 ^ b else n) 0
  (List.range 128).map (fun k => BitVec.ofNat 8 (byte k)) ++
  leBytes 8 ((ts.foldl (fun n t => max n t.2.1) 0) + (ts.filter (fun t => t.2.2)).length * 256)

/-! ### Elements and sums (R212, R292, R294, R296) -/

/-- Element `e` of format code `f` in a row that starts at byte `a` (R292). -/
def slotElem (rd : Nat → Byte) (f a e : Nat) : Nat :=
  let w := Checks.fmtWidth f
  if w = 4 then (rd (a + e / 2)).toNat / 16 ^ (e % 2) % 16
  else leNat ((List.range (w / 8)).map (fun b => rd (a + e * w / 8 + b)))

/-- `block_sum` of R212 over exact products. -/
def blockSum (ps : List FVal) (ea eb : Nat) : Nat :=
  if ea = 255 ∨ eb = 255 then fp32.nanBits
  else
    let r := (fsum 0 ps).scale ((ea + eb : Nat) - 254)
    if r.isZero then 0 else (fp32.round false 0 r false).1

/-- `accumulate` of R212 over block sums. -/
def accumulate (acc : Nat) (sums : List Nat) : Nat := sums.foldl (fun a b => (faddBits fp32 0 a b).1) acc

/-- The metadata nibble of row `r` and group `q` (R296). -/
def MatOp.nibble (o : MatOp) (r q : Nat) : Nat :=
  let nr := (shK o.shape + 63) / 64
  let reg := (if o.sel = 1 then 0 else r / 32 * nr) + q / 16
  let lane := if o.sel = 1 then 0 else r % 32
  bits ((o.mdata.getD reg []).getD lane 0) (4 * (q % 16)) 4

/-- The products of positions `k0` up to `k1` of row `r` of the operation, held as row `ra` of the slot read by `ra'`,
and column `c` (R294, R296). -/
def MatOp.products (o : MatOp) (rdA rdB : Nat → Byte) (r ra c k0 k1 : Nat) : List FVal :=
  let f := fmtOf o.fmt
  let a := fun e => f.val (slotElem rdA o.fmt (ra * layAstr o.layout) e)
  let b := fun k => f.val (slotElem rdB o.fmt (c * layBstr o.layout) k)
  match o.kind with
  | .mmas =>
    (List.range ((k1 + 3) / 4 - k0 / 4)).flatMap (fun q =>
      let g := k0 / 4 + q
      let n := o.nibble r g
      ([(2 * g, 4 * g + n % 4), (2 * g + 1, 4 * g + n / 4)].filter (fun p => decide (p.2 < shK o.shape))).map
        (fun p => fmul (a p.1) (b p.2)))
  | _ => (List.range (k1 - k0)).map (fun i => fmul (a (k0 + i)) (b (k0 + i)))

/-- The new value of result element (r, c) (R294). -/
def MatOp.element (o : MatOp) (rdA rdB : Nat → Byte) (r ra c acc : Nat) : Nat :=
  let bs := blockK o.fmt
  let nb := blocksOf o.fmt (shK o.shape)
  let scaled := decide (3 ≤ o.fmt)
  accumulate acc ((List.range nb).map (fun b =>
    let ea := if scaled then (rdA (layAsc o.layout + ra * nb + b)).toNat else 127
    let eb := if scaled then (rdB (layBsc o.layout + c * nb + b)).toNat else 127
    blockSum (o.products rdA rdB r ra c (bs * b) (min (bs * (b + 1)) (shK o.shape))) ea eb))

/-! ### Tiles -/

/-- Element number `192 × row + column` of a tile; undefined until written (R54). -/
def Tile.elem (t : Tile) (k : Nat) : Nat := (t.data.getD k ((Config.freeWord t.seed k).setWidth 32)).toNat

/-- `s` with elements of a tile written by an engine; a tile written meanwhile stays undefined (R56, R128). -/
def State.tilePut (s : State) (core k : Nat) (cells : List (Nat × Nat)) : State :=
  let x := s.tileOf core k
  let t := if x.spoilt then s
    else s.setTile core k { x with data := cells.foldl (fun m e => Sparse.set m e.1 (BitVec.ofNat 32 e.2)) x.data }
  if t.parity.isEmpty then t else cells.foldl (fun u e => State.parityClear u 7 core 0 k e.1 1) t

/-- The number by which block `bid` names physical tile `k`. -/
def State.tileName (s : State) (bid k : Nat) : Nat :=
  match s.blocks.get? bid with
  | some b => (indicesOf (fun (x : Nat) => x == k) b.tiles).headD 0
  | none => 0

/-- `s` after an engine's results are checked by the range registers of a group (KIND 1, R262, R263) and written to
tile `k`; the cause raised, if any. -/
def State.tileChecked (s : State) (core k gid : Nat) (cells : List (Nat × Nat)) : State × Option (Nat × Word) :=
  match s.groups.get? gid with
  | none => (s.tilePut core k cells, none)
  | some g =>
    let r := g.checkWrites 1 (s.tileName g.bid k) fp32 (cells.map (fun e => e.2))
    let t := if r.2.1.isEmpty then s else s.modGroup gid (fun h => h.markHits r.2.1)
    (t.tilePut core k ((cells.map (fun e => e.1)).zip r.1), r.2.2)

/-! ### Execution (R57, R294, R298) -/

/-- A marked unit of the ranges given of an array (R57). -/
def State.rangesHit (s : State) (kind core unit : Nat) (rs : List (Nat × Nat)) : Option Unit_ :=
  if s.parity.isEmpty then none else rs.findSome? (fun r => s.parityHit kind core 0 unit r.1 r.2)

/-- Rows of the leader's side, and of the follower's. -/
def MatOp.rows (o : MatOp) : Nat × Nat := (min 128 (shM o.shape), shM o.shape - 128)

/-- Element numbers of the first `m` rows and `n` columns of a tile. -/
def cellsOf (m n : Nat) : List (Nat × Nat) :=
  (List.range m).flatMap (fun r => (List.range n).map (fun c => (r, c)))

/-- The marked unit that an operation meets, if any (R57). UNIT of TRAPX and PARLOG is the number of the physical tile or partition,
where R57 does not say whether it is that or the block's own number (assumption log 139). -/
def State.matParity (s : State) (o : MatOp) : Option Unit_ :=
  let (m, m2) := o.rows
  let n := shN o.shape
  let k := shK o.shape
  let sparse := o.kind == .mmas
  let tileRows := fun (x : Nat) => (List.range x).map (fun r => (192 * r, n))
  match o.kind with
  | .mzero => none
  | .smask => s.rangesHit 6 o.core o.slotA (smaskRanges o.shape)
  | _ =>
    let lead := ((s.rangesHit 6 o.core o.slotA (rangesA o.fmt sparse m k o.layout)).or
      (s.rangesHit 6 o.core o.slotB (rangesB o.fmt n k o.layout))).or (s.rangesHit 7 o.core o.tile (tileRows m))
    match o.bond with
    | some b => lead.or ((s.rangesHit 6 (o.core + 1) b.slot (if m2 = 0 then [] else rangesA o.fmt sparse m2 k o.layout)).or
        (s.rangesHit 7 (o.core + 1) b.tile (tileRows m2)))
    | none => lead

/-- `s` with the tiles of an operation undefined: its batch is an error batch (R57, R298). -/
def State.matUndef (s : State) (o : MatOp) : State :=
  let t := match o.kind with
    | .smask => s
    | _ => s.tileUndef o.core o.tile
  match o.bond with
  | some b => if 128 < shM o.shape then t.tileUndef (o.core + 1) b.tile else t
  | none => t

/-- The elements that `mma` or `mmas` gives rows `r0 ..` of a tile, rows read from slot `slot` of core `c`. -/
def State.matCells (s : State) (o : MatOp) (c slot tile r0 m : Nat) : List (Nat × Nat) :=
  let x := s.tileOf c tile
  (cellsOf m (shN o.shape)).map (fun e =>
    (192 * e.1 + e.2, o.element (s.slotByte c slot) (s.slotByte o.core o.slotB) (r0 + e.1) e.1 e.2 (x.elem (192 * e.1 + e.2))))

/-- The scores of the block of an `smask` (R303). -/
def State.scores (s : State) (o : MatOp) (r c : Nat) : Nat :=
  let v := o.shape
  slotElem (s.slotByte o.core o.slotA) o.fmt (bits v 0 16 + r * bits v 16 16) c % 2 ^ (Checks.fmtWidth o.fmt - 1)

/-- `s` after an `smask` writes its output; one that overlaps its input is undefined. -/
def State.smaskRun (s : State) (o : MatOp) : State :=
  let out := bits o.shape 32 16
  let bs := if (smaskRanges o.shape).any (fun r => meets r.1 r.2 out 136) then
      (s.undefBytes o.id 136).map (fun e => e.1)
    else
      let tbl := (List.range 1024).map (fun k => s.scores o (k / 32) (k % 32))
      smaskOut (fun r c => tbl.getD (32 * r + c) 0)
  s.slotWrite o.core o.slotA out bs

/-- An operation whose metadata registers were written meanwhile reads undefined metadata (R127). -/
def State.matMeta (s : State) (o : MatOp) : MatOp :=
  let spoilt := match s.groups.get? o.gid with
    | some g => g.ops.any (fun p => p.id == o.id && p.spoilt)
    | none => false
  if spoilt then { o with mdata := (List.range o.mdata.length).map (fun r =>
    (List.range 32).map (fun l => Config.freeWord s.occ (vkey r l))) } else o

/-- `s` after the array has executed an operation: its tiles written, or undefined with its error recorded (R57,
R263, R294, R298). -/
def State.matRun (s : State) (o : MatOp) : State :=
  let o := s.matMeta o
  match s.matParity o with
  | some u => ((s.parityLog u).matUndef o).opErr o.gid 1 o.id 7 (parityX u)
  | none =>
    match o.kind with
    | .smask => s.smaskRun o
    | .mzero =>
      let (t, e) := s.tileChecked o.core o.tile o.gid ((List.range 24576).map (fun k => (k, 0)))
      match e with
      | some (c, x) => (t.matUndef o).opErr o.gid 1 o.id c x
      | none => t
    | _ =>
      let (m, m2) := o.rows
      let (t, e) := s.tileChecked o.core o.tile o.gid (s.matCells o o.core o.slotA o.tile 0 m)
      let (t, e2) := match o.bond with
        | some b => t.tileChecked (o.core + 1) b.tile b.gid (s.matCells o (o.core + 1) b.slot b.tile 128 m2)
        | none => (t, none)
      match e, e2 with
      | none, none => t
      | _, _ =>
        let note := fun (u : State) (e : Option (Nat × Word)) => match e with
          | some (c, x) => u.opErr o.gid 1 o.id c x
          | none => u
        note (note (t.matUndef o) e) e2

/-! ### The start limiter (R170) -/

/-- The array of a core is idle: it is not active, or has executed nothing for 256 cycles. -/
def State.arrayIdle (s : State) (core : Nat) : Bool :=
  let a := (s.core core).array
  !a.active || (a.busy.isNone && !a.slaved && decide (256 ≤ s.time - a.lastUse))

/-- `s` with the array of a core changed by `f`. -/
def State.modArray (s : State) (core : Nat) (f : ArrayState → ArrayState) : State :=
  s.modCore core (fun c => { c with array := f c.array })

/-- Adds to STAGCNT of a die: starts granted and starts that waited. -/
def State.stagcnt (s : State) (die starts waits : Nat) : State :=
  let w := s.pkgReg (8 + die)
  s.setPkgReg (8 + die) (w64 (satAt 0xFFFFFFFF (bits w 32 32 + waits) * 2 ^ 32 + satAt 0xFFFFFFFF (bits w 0 32 + starts)))

/-- `s` with the arrays of one start request granted. -/
def State.grantStart (s : State) (die : Nat) (cores : List Nat) : State :=
  let t := cores.foldl (fun u k => State.modArray u k (fun a => { a with granted := true, requested := false })) s
  (t.modDie die (fun d => { d with limiter := { d.limiter with grants := d.limiter.grants + cores.length } })).stagcnt die 1 0

/-- Waiting start requests are granted in order while the window has room. -/
def State.grantWaiting (s : State) (die : Nat) : List (List Nat) → State
  | [] => s
  | r :: rest =>
    if (s.die die).limiter.grants + r.length ≤ 8 then
      ((s.grantStart die r).modDie die (fun d => { d with limiter := { d.limiter with waiting := rest } })).grantWaiting die rest
    else s

/-- The die's limiter in the window of the present cycle. -/
def State.rollWindow (s : State) (die : Nat) : State :=
  let l := (s.die die).limiter
  if s.time / 64 = l.window then s
  else (s.modDie die (fun d => { d with limiter := { d.limiter with window := s.time / 64, grants := 0 } })).grantWaiting
    die l.waiting

/-- `s` after arrays that are idle ask for a start: whether they may start now. -/
def State.startArrays (s : State) (cores : List Nat) : State × Bool :=
  let die := dieOf (cores.headD 0)
  let t := s.rollWindow die
  let need := cores.filter (fun k => t.arrayIdle k && !(t.core k).array.granted)
  if need.isEmpty then (t, true)
  else if need.any (fun k => (t.core k).array.requested) then (t, false)
  else if (t.die die).limiter.waiting.isEmpty ∧ (t.die die).limiter.grants + cores.length ≤ 8 then (t.grantStart die cores, true)
  else
    let t := cores.foldl (fun u k => State.modArray u k (fun a => { a with requested := true })) t
    ((t.modDie die (fun d => { d with limiter := { d.limiter with waiting := d.limiter.waiting ++ [cores] } })).stagcnt die 0 1,
      false)

/-- START_LIMIT_WINDOW (R170): a new window of a die grants the starts that wait. -/
def execStartLimitWindow (die : Nat) (s : State) : Host.Outcome State Fault Refusal := .next (s.rollWindow die)

/-- ARRAY_IDLE (R170): an array that has executed nothing for 256 cycles is idle. -/
def execArrayIdle (core : Nat) (s : State) : Host.Outcome State Fault Refusal :=
  .next (if s.arrayIdle core then s.modArray core (fun a => { a with active := false }) else s)

/-! ### Leases and bonds (R173, R297, R299) -/

/-- Effect of `mlease` (R299): the group's lease or request is replaced or withdrawn. -/
def mleaseEffect (o : YF) (t : State) (j : Issue) : State :=
  let n := o.code % 128
  let t := t.modCore j.g.core (fun c => { c with
    lease := match c.lease with
      | some l => if l.gid = j.gid then none else some l
      | none => none
    leaseReqs := c.leaseReqs.filter (fun r => r.1 != j.gid) ++ (if n = 0 then [] else [(j.gid, n)]) })
  (t.leaseNext j.g.core).done j

/-- `mlease` (R299). -/
def execMlease (o : YF) (s : State) : Host.Outcome State Fault Refusal :=
  onIssue s (issue (fun _ => {}) (mleaseEffect o))

/-- Effect of `mlease.fol` (R297). -/
def mleaseFolEffect (o : YF) (t : State) (j : Issue) : State :=
  let n := o.code % 128
  let v := j.sp.get o.sa
  let slot := bits v 4 4
  let core := j.g.core
  if core % 2 = 0 then t.trapAt j 6 0
  else if bits v 3 1 ≠ 0 ∨ bits v 8 56 ≠ 0 then t.trapAt j 4 v
  else
    match t.tileNo j.g.bid (bits v 0 3) with
    | none => t.trapAt j 2 (w64 (bits v 0 3))
    | some k =>
      if !t.mayName j.gid core slot then t.trapAt j 6 (w64 slot)
      else
        let t := t.modCore core (fun c => { c with
          bond := match c.bond with
            | some b => if b.gid = j.gid then none else some b
            | none => none
          bondReqs := c.bondReqs.filter (fun b => b.gid != j.gid) ++
            (if n = 0 then [] else ([⟨j.gid, j.g.ctx, n, k, slot⟩] : List Bond)) })
        (t.bondNext core).done j

/-- `mlease.fol` (R297). -/
def execMleaseFol (o : YF) (s : State) : Host.Outcome State Fault Refusal :=
  onIssue s (issue (fun _ => { scal := [o.sa] }) (mleaseFolEffect o))

/-! ### The engine arbiter (R171, R173) -/

/-- The oldest operation of each group in a queue: a group's own operations keep their order (R295). -/
def headsOf (q : List MatOp) : List MatOp :=
  q.foldl (fun acc o => if acc.any (fun p => p.gid == o.gid) then acc else acc ++ [o]) []

/-- The choice of an arbiter among operations of which `ok` are selectable (R173). -/
def arbiterPick (lease : Option Lease) (now : Nat) (q : List MatOp) (ok : MatOp → Bool) : Option MatOp :=
  let best := minBy (fun (o : MatOp) => ((3 - o.pri) * 2 ^ 64 + o.arrival) * 16 + o.grpSlot) (q.filter ok)
  match lease with
  | some l =>
    if 0 < l.count then
      match q.find? (fun o => o.gid == l.gid) with
      | some o => if ok o then some o else none
      | none => if 64 ≤ now - l.idleSince then best else none
    else best
  | none => best

/-- An array is free. -/
def State.arrayFree (s : State) (core : Nat) : Bool := (s.core core).array.busy.isNone && !(s.core core).array.slaved

/-- An active bond of the context of an operation's group stands on the follower (R298). -/
def State.bondFor (s : State) (o : MatOp) : Option Bond :=
  match (s.core (o.core + 1)).bond, s.groups.get? o.gid with
  | some b, some g => if b.ctx = g.ctx then some b else none
  | _, _ => none

/-- The paired operation that the arbiter of odd core `core` has selected and that has not begun (R171). -/
def State.chosenOp (s : State) (core : Nat) : Option MatOp :=
  match (s.core core).array.chosen with
  | none => none
  | some id => (headsOf (s.core (core - 1)).matQ).find? (fun o => o.id == id && o.bond.isSome)

/-- A paired operation has been selected and keeps the array of the core, its leader's or its follower's, until it begins (R171). -/
def State.arrayKept (s : State) (core : Nat) : Bool := (s.chosenOp (core / 2 * 2 + 1)).isSome

/-- The operation that the arbiter of an odd core selects: its own, or a paired one of its leader (R171). -/
def State.followerPick (s : State) (core : Nat) : Option MatOp :=
  let own := headsOf (s.core core).matQ
  let paired := (headsOf (s.core (core - 1)).matQ).filter (fun o => o.pair)
  arbiterPick (s.core core).lease s.time (own ++ paired) (fun o => o.core == core || (s.bondFor o).isSome)

/-- The operation that the arbiter of a core selects now, or that its leader array begins now: a paired one that the follower
has selected comes first on the leader, whose own arbiter leaves paired ones to the follower (R171, R173). -/
def State.arrayPick (s : State) (core : Nat) : Option MatOp :=
  if !s.arrayFree core then none
  else if core % 2 = 1 then (if (s.chosenOp core).isSome then none else s.followerPick core)
  else
    match s.chosenOp (core + 1) with
    | some o => some o
    | none => arbiterPick (s.core core).lease s.time (headsOf (s.core core).matQ) (fun o => !o.pair)

/-- One operation is selected under the lease of its core (R173). -/
def State.leaseUse (s : State) (core gid : Nat) : State :=
  (s.modCore core (fun c => { c with lease := match c.lease with
    | some l =>
      if l.gid = gid then (if l.count ≤ 1 then none else some { l with count := l.count - 1 })
      else if c.matQ.any (fun o => o.gid == l.gid) then some l
      else if 64 ≤ s.time - l.idleSince then none else some l
    | none => none })).leaseNext core

/-- The arbiter of odd core `core` selects paired operation `o` of its leader under bond `b`: both arrays are kept for it, the
bond's count falls, its slot gains a reader, and its tile is in use where the operation has rows for it (R171, R298). -/
def State.bondUse (s : State) (core : Nat) (b : Bond) (o : MatOp) : State :=
  let t := s.modCore core (fun c => { c with
    bond := if b.count ≤ 1 then none else some { b with count := b.count - 1 }
    array := { c.array with chosen := some o.id } })
  let t := t.modCore o.core (fun c => { c with
    matQ := c.matQ.map (fun p => if p.id = o.id then { p with bond := some b } else p) })
  let t := t.setSlot core b.slot (t.slotOf core b.slot).addReader
  let t := if shM o.shape ≤ 128 then t
    else (t.useTile core b.tile false).modGroup o.gid (fun g => { g with ops := g.ops.map (fun p =>
      if p.id = o.id then { p with tiles := p.tiles ++ [(core, b.tile)] } else p) })
  (t.leaseUse core o.gid).bondNext core

/-- `s` with an operation begun on the array of a core, and where it is paired on the follower's, which is slaved. A lease of the
group on the core counts the operation, a paired one too, which the follower's arbiter has selected (R173; assumption log 138). -/
def State.matBegin (s : State) (core : Nat) (o : MatOp) : State :=
  let starts := match o.kind with
    | .smask => false
    | _ => true
  let begin := fun (a : ArrayState) => if starts then { a with active := true, granted := false, requested := false } else a
  let t := s.modCore core (fun c => { c with
    matQ := c.matQ.filter (fun p => p.id != o.id)
    array := { begin c.array with busy := some o } })
  let t := t.leaseUse core o.gid
  if o.bond.isSome then t.modArray (core + 1) (fun a => { begin a with slaved := true, chosen := none }) else t

/-- MATRIX_OP_START (R170, R171, R173): the arbiter selects the next operation for a free array. -/
def execMatrixOpStart (core : Nat) (s : State) : Host.Outcome State Fault Refusal :=
  .next (let t := (s.leaseNext core).bondNext (core / 2 * 2 + 1)
    match t.arrayPick core with
    | none => t
    | some o =>
      match o.kind with
      | .smask => t.matBegin core o
      | _ =>
        if o.core ≠ core then (match t.bondFor o with
          | some b => t.bondUse core b o
          | none => t)
        else
        let (u, ok) := t.startArrays (if o.pair then [core, core + 1] else [core])
        if ok then u.matBegin core o else u)

/-- The array of a core is free again; the 64 idle cycles of its lease begin anew (R171, R173; assumption log 138). -/
def State.arrayEnd (s : State) (core : Nat) (used : Bool) : State :=
  s.modCore core (fun c => { c with
    array := { c.array with busy := none, slaved := false, lastUse := if used then s.time else c.array.lastUse }
    lease := c.lease.map (fun l => { l with idleSince := s.time }) })

/-- MATRIX_OP_RETIRE (R53, R294, R295): the operation on the array of a core writes its tile and lets go of its slots;
its batch may be complete. -/
def execMatrixOpRetire (core : Nat) (s : State) : Host.Outcome State Fault Refusal :=
  .next (match (s.core core).array.busy with
    | none => s
    | some o =>
      let used := match o.kind with
        | .smask => false
        | _ => true
      let t := (s.matRun o).arrayEnd core used
      let t := if o.bond.isSome then t.arrayEnd (core + 1) true else t
      (t.matRelease o).opComplete o.gid 1 o.id)

/-- LEASE_IDLE_EXPIRE (R173): a lease whose holder has had no queued operation for 64 cycles, with the array free, ends. -/
def execLeaseIdleExpire (core : Nat) (s : State) : Host.Outcome State Fault Refusal :=
  .next (match (s.core core).lease with
    | none => s
    | some l =>
      if s.arrayFree core ∧ (s.core core).matQ.all (fun o => o.gid != l.gid) ∧ 64 ≤ s.time - l.idleSince then
        (s.modCore core (fun c => { c with lease := none })).leaseNext core
      else s)

/-! ### `accrd`, `accwr` (R301, R302) -/

/-- The position word of `accrd` and `accwr` is in range (R301). -/
def accOk (v : Word) : Bool :=
  decide (bits v 33 31 = 0) && decide (bits v 24 8 = 0) && decide (bits v 8 8 = 0) &&
  (if v.getLsbD 32 then decide (bits v 16 8 ≤ 190) && decide (bits v 0 8 ≤ 96)
   else decide (bits v 16 8 ≤ 128) && decide (bits v 0 8 ≤ 127))

/-- The element number of element `e` of lane `l` (R301). -/
def accCell (v : Word) (l e : Nat) : Nat :=
  if v.getLsbD 32 then 192 * (bits v 0 8 + l) + bits v 16 8 + e else 192 * bits v 0 8 + bits v 16 8 + 2 * l + e

/-- The checks of `accrd` and `accwr` (R301): the physical tile, or a trap. -/
def State.accCheck (s : State) (j : Issue) (o : XF) : Except (Nat × Word) Nat :=
  match s.tileNo j.g.bid o.atile with
  | none => .error (2, w64 o.atile)
  | some k => if accOk (j.sp.get o.sa) then .ok k else .error (4, j.sp.get o.sa)

/-- Effect of `accrd` (R301): undefined values from a tile that an operation not waited for uses (R302). -/
def accrdEffect (o : XF) (t : State) (j : Issue) : State :=
  let v := j.sp.get o.sa
  let m := j.guard o.p o.pn
  match t.accCheck j o with
  | .error (c, x) => t.trapAt j c x
  | .ok k =>
    let hit := fun l => (List.range 2).findSome? (fun e => t.parityHit 7 j.g.core 0 k (accCell v l e) 1)
    match (if t.parity.isEmpty then none else (lanesOf m).findSome? hit) with
    | some u =>
      (t.parityLog u).trapLanes j 7 (maskOf (fun l => lane m l && hit l == some u)) (parityX u)
    | none =>
      let x := t.tileOf j.g.core k
      let busy := t.tileInUse j.g.core k
      let get := fun c => if busy then ((Config.freeWord t.occ (2 ^ 21 + c)).setWidth 32).toNat else x.elem c
      let vals := onLanes m (fun l => w64 (get (accCell v l 0) + get (accCell v l 1) * 2 ^ 32))
      let rs := if o.f1 = zReg then [] else [o.f1]
      (t.vsend j.gid j.sid rs m (laneData o.f1 vals) 0 o.sb).done j

/-- `accrd` (R301). -/
def execAccrd (o : XF) (s : State) : Host.Outcome State Fault Refusal :=
  onIssue s (issue (fun j => { wr := [o.f1], lanes := j.guard o.p o.pn, preds := [o.p], scal := [o.sa], sb := o.sb })
    (accrdEffect o))

/-- Effect of `accwr` (R302): a tile that an operation not waited for uses is undefined afterwards (R128), and an attention operation
that uses it is spoilt (R308). -/
def accwrEffect (o : XF) (t : State) (j : Issue) : State :=
  let v := j.sp.get o.sa
  let m := j.guard o.p o.pn
  match t.accCheck j o with
  | .error (c, x) => t.trapAt j c x
  | .ok k =>
    let parts := (lanesOf m).map (fun l => (⟨o.f2, l, fp32, 2, t.vread j.g o.f2 l⟩ : Part))
    match j.verdict j.g 1 (fun _ => o.atile) parts with
    | .raise cause lanes x => t.trapLanes j cause lanes x
    | .retry => t.retryAt j
    | .write qs hits =>
      let t := if hits.isEmpty then t else t.modGroup j.gid (fun g => g.markHits hits)
      let cells := qs.flatMap (fun q => [(accCell v q.lane 0, bits q.word 0 32), (accCell v q.lane 1, bits q.word 32 32)])
      if m = 0 then t.done j
      else if t.tileInUse j.g.core k then
        let u := (t.spoilTile j.g.core k).tileUndef j.g.core k
        (u.setTile j.g.core k { u.tileOf j.g.core k with spoilt := true }).done j
      else
        let x := t.tileOf j.g.core k
        ((t.setTile j.g.core k { x with spoilt := false }).tilePut j.g.core k cells).done j

/-- `accwr` (R302). -/
def execAccwr (o : XF) (s : State) : Host.Outcome State Fault Refusal :=
  onIssue s (issue (fun j => { rd := [o.f2], lanes := j.guard o.p o.pn, preds := [o.p], scal := [o.sa] }) (accwrEffect o))

end Sys2Proof.Machine
end

