-- ==== Sys2Proof/Machine/Cache.lean ====
section
/-!
DEFINITION. The key-value cache: frames, headers and maps in main memory (R85 to R93), the operations that change a page
(R94 to R102), and the cache instructions of major 0x78 (R318 to R325) with the frame cache (R103, R104).
-/
namespace Sys2Proof.Machine

/-! ### Main memory as the cache instructions reach it (R25, R319) -/

/-- The error of 64-byte lines that failed outside a batch, each with its cause, those in `n` bytes at `va`: the lower of causes 0x0B
and 0x0C with its lines, BATCH 0 (R79, R319). -/
def lineErr (va n : Nat) (fails : List (Nat × Nat)) : Option XErr :=
  let mine := fails.filter (fun f => meets f.2 64 va n)
  (minBy id (mine.map (fun f => f.1))).map (fun c =>
    ⟨c, linesX 0 ((mine.filter (fun f => f.1 == c)).map (fun f => f.2)).eraseDups⟩)

/-- The lines of `n` bytes of a translated page at `va` that lie behind a port that is down, with cause 0x0C (R79). -/
def State.downLines (s : State) (x : Xl) (write : Bool) (va n : Nat) : List (Nat × Nat) :=
  (((s.tierLines x write n).filter (fun l => !s.portUp l.1)).map (fun l => (0x0C, (va + l.2) / 64 * 64))).eraseDups

/-- The translation of a page that the device reaches for a program, its physical address that of `va` (R27). -/
def State.kvXl (s : State) (core ctx : Nat) (a : Agent) (write : Bool) (va : Nat) : Except XErr Xl :=
  if 2 ^ 52 ≤ va then .error ⟨4, w64 va⟩
  else
    match s.translateRouted core ctx a (if write then [.w] else [.q]) write (va / 65536 * 65536) with
    | .error e => .error e
    | .ok x => .ok { x with pa := x.pa + va % 65536 }

/-- `n` bytes at `va`, read with Q (R25); a port that is down fails the read (R79). -/
def State.kvRead (s : State) (core ctx : Nat) (a : Agent) (va n : Nat) : Except XErr (List Byte) :=
  (pagesOf va n).foldl (fun acc pg =>
    match acc with
    | .error e => .error e
    | .ok bs =>
      match s.kvXl core ctx a false pg.1 with
      | .error e => .error e
      | .ok x =>
        match lineErr pg.1 pg.2 (s.downLines x false pg.1 pg.2) with
        | some e => .error e
        | none =>
          match s.readXl a pg.1 x pg.2 with
          | .error e => .error e
          | .ok b => .ok (bs ++ b)) (.ok [])

/-- The physical addresses that a write at `pa` of a translated page goes to (R82, R83). -/
def State.writeAt (s : State) (x : Xl) (pa : Nat) : List Nat :=
  match s.lineSlot x.routesWrite pa with
  | some (k, off) => s.slotTargets k off true
  | none => [pa]

/-- `s` after lines `fails` of a write of `n` bytes at `va` to a translated page have failed: where they lie in the CXL tier they are
undefined (R79), and a pull that one of them needed has failed (R84). -/
def State.lostLines (s : State) (x : Xl) (va n : Nat) (fails : List (Nat × Nat)) : State :=
  ((partsOf 64 x.pa n).filter (fun p => fails.any (fun f => meets f.2 64 (va + (p.1 - x.pa)) p.2))).foldl (fun t p =>
    let u := match State.lineSlot t x.routesWrite p.1 with
      | some (k, off) => if State.pullDue t k off false then State.migFail t k (off / 256) else t
      | none => t
    ((State.writeAt u x p.1).filter (fun a => (portOf a).isSome)).foldl (fun u a => State.lostWrite u a p.2) u) s

/-- The outcome of a sequence of writes: the state so far with the fault that ended it, or the state. -/
abbrev Written := Except (State × XErr) State

/-- `s` after bytes are written at `va` with W, lines `fails` of the tier having failed (R25, R79): those pulled first that must be
(R82), then a unit that cannot be read ends it (R76). -/
def State.kvWrite (s : State) (core ctx : Nat) (fails : List (Nat × Nat)) (va : Nat) (bs : List Byte) : Written :=
  (pagesOf va bs.length).foldl (fun (acc : Written) pg =>
    match acc with
    | .error e => .error e
    | .ok t =>
      match t.kvXl core ctx .copy true pg.1 with
      | .error e => .error (t, e)
      | .ok x =>
        let cls := t.defaultClass ctx
        let page := pg.1 / 65536 * 65536
        let u := t.keep core ctx cls page (t.translate core ctx .copy [.w] page)
        let lost := fails ++ t.downLines x true pg.1 pg.2
        match lineErr pg.1 pg.2 lost with
        | some e => .error (u.lostLines x pg.1 pg.2 lost, e)
        | none =>
          let u := u.pullFor cls x pg.2
          match ((linesOf x.pa pg.2).flatMap (fun l => (u.writeAt x l.1).map (fun a => (a, l.2)))).findSome? (fun a => u.writeError a.1 a.2) with
          | some (o, e) => .error (u, ⟨7, poisonX o e⟩)
          | none =>
            match u.writeXl .copy cls pg.1 x ((bs.drop (pg.1 - va)).take pg.2) with
            | .error e => .error (u, e)
            | .ok v => .ok v) (.ok s)

/-- Writes in order, each performed before the next (R94). -/
def State.kvWrites (s : State) (core ctx : Nat) (fails : List (Nat × Nat)) : List (Nat × List Byte) → Written
  | [] => .ok s
  | w :: rest =>
    match s.kvWrite core ctx fails w.1 w.2 with
    | .error e => .error e
    | .ok t => t.kvWrites core ctx fails rest

/-! ### Frames, headers, maps (R85 to R93) -/

/-- The frame number that names no frame (R85). -/
def noFrame : Nat := 0x0FFFFFFF
/-- The KV cache instructions are enabled (R85). -/
def State.kvOn (s : State) (ctx : Nat) : Bool := (s.ctxReg ctx 0x120).getLsbD 0
/-- Virtual address of frame `f` (R85). -/
def State.frameVa (s : State) (ctx f : Nat) : Nat := bits (s.ctxReg ctx 0x120) 14 38 * 0x4000 + f * 0x4000
/-- Virtual address of the header of frame `f` (R85). -/
def State.headerVa (s : State) (ctx f : Nat) : Nat := bits (s.ctxReg ctx 0x121) 10 42 * 0x400 + f * 0x400

/-- A KV descriptor as read (R305). -/
structure Desc where
  rows : Nat
  len : Nat
  wstart : Nat
  scale : Nat
  tau : Nat
  budget : Nat
  mapb : Nat
  cursor : Word
  zeros : Bool
  deriving DecidableEq, Repr

/-- The descriptor in 64 bytes (R305); `zeros` says that its zero bytes are zero. -/
def descOf (bs : List Byte) : Desc :=
  let n := fun (a k : Nat) => leNat ((bs.drop a).take k)
  ⟨n 6 2, n 8 4, n 0xC 4, n 0x10 4, n 0x14 4, n 0x18 4, n 0x20 8, w64 (n 0x28 8), decide (n 0x1C 4 = 0) && decide (n 0x34 12 = 0)⟩

/-- Status of a map entry (R86). -/
def entStatus (e : Nat) : Nat := e / 2 ^ 28 % 16
/-- Frame of a map entry (R86). -/
def entFrame (e : Nat) : Nat := e % 2 ^ 28

/-- A page header as read (R90, R93): per dimension (hi, lo), the order bits, whether a pair holds a NaN, and scales. -/
structure PageHdr where
  pairs : List (Nat × Nat)
  order : Nat
  nan : Bool
  ks : List Byte
  vs : List Byte
  deriving DecidableEq, Repr

/-- `a < b` of two BF16 codes. -/
def bfLess (a b : Nat) : Bool := flt (bf16.val a) (bf16.val b)

/-- `read_pair` (R93). -/
def readPair (a b : Nat) : Nat × Nat := if bfLess a b then (b, a) else (a, b)

/-- The header in 1,024 bytes. -/
def hdrOf (bs : List Byte) : PageHdr :=
  let raw := (List.range 128).map (fun d => (leNat ((bs.drop (4 * d)).take 2), leNat ((bs.drop (4 * d + 2)).take 2)))
  { pairs := raw.map (fun p => readPair p.1 p.2)
    order := ((List.range 128).zip raw).foldl (fun n p => if bfLess p.2.1 p.2.2 then n + 2 ^ p.1 else n) 0
    nan := raw.any (fun p => (bf16.val p.1).isNan || (bf16.val p.2).isNan)
    ks := (bs.drop 0x200).take 256
    vs := (bs.drop 0x300).take 256 }

/-- VALID of a header (R93). -/
def PageHdr.valid (h : PageHdr) : Nat := h.order % 128
/-- FIRSTPG of a header (R93). -/
def PageHdr.firstPg (h : PageHdr) : Nat := h.order / 128 % 2 ^ 18

/-- A header malformed for page `k` by the conditions that the header alone shows (R91). -/
def PageHdr.malformed (h : PageHdr) (k : Nat) : Bool :=
  decide (64 < h.valid) || decide (2 ^ 25 ≤ h.order) || h.firstPg != k || h.nan

/-- A scale byte 0xFF of slots `t .. t + n - 1` in an array of scales (R91). -/
def badScale (sc : List Byte) (t n : Nat) : Bool := ((sc.drop (4 * t)).take (4 * n)).any (fun b => b == 0xFF)
/-- A byte that is an E4M3 NaN (R91). -/
def badByte (bs : List Byte) : Bool := bs.any (fun b => b == 0x7F || b == 0xFF)

/-- An exact dequantised value (R91). -/
def deq (byte scale : Byte) : FVal := (e4m3.val byte.toNat).scale ((scale.toNat : Int) - 127)

/-- `round_bf16_up` and `round_bf16_down` (R92). -/
def bfRound (mode : Nat) (v : FVal) : Nat :=
  let x := (bf16.round false mode v false).1
  if x % 0x8000 = 0 then 0 else x

/-- The box of one value. -/
def boxOf (byte scale : Byte) : Nat × Nat := (bfRound 2 (deq byte scale), bfRound 3 (deq byte scale))

/-- The hull of two boxes (hi, lo). -/
def hull (p q : Nat × Nat) : Nat × Nat := (if bfLess p.1 q.1 then q.1 else p.1, if bfLess q.2 p.2 then q.2 else p.2)

/-- The boxes of the 128 dimensions of a key with four block scales. -/
def keyBox (key sc : List Byte) : List (Nat × Nat) :=
  (List.range 128).map (fun d => boxOf (key.getD d 0) (sc.getD (d / 32) 0))

/-- Dimension-wise hulls. -/
def hulls (p q : List (Nat × Nat)) : List (Nat × Nat) := (p.zip q).map (fun e => hull e.1 e.2)

/-- `exact_box` of slots 0 .. n - 1 of a frame's key bytes (R92). -/
def exactBox (keys ks : List Byte) : Nat → List (Nat × Nat)
  | 0 => List.replicate 128 (0, 0)
  | 1 => keyBox (keys.take 128) (ks.take 4)
  | n + 1 => hulls (exactBox keys ks n) (keyBox ((keys.drop (128 * n)).take 128) ((ks.drop (4 * n)).take 4))

/-- `bf16_next_up` (R93). -/
def bfNextUp (x : Nat) : Nat := if x % 0x8000 = 0 then 1 else if x < 0x8000 then x + 1 else if x = 0x8001 then 0 else x - 1

/-- `write_pair` (R93) as four bytes. -/
def pairBytes (p : Nat × Nat) (bit : Bool) : List Byte :=
  if bit then
    let hi := if !bfLess p.1 p.2 && !bfLess p.2 p.1 then bfNextUp p.1 else p.1
    leBytes 2 p.2 ++ leBytes 2 hi
  else leBytes 2 p.1 ++ leBytes 2 p.2

/-- The 512 bytes of a summary with its page word (R93). -/
def summaryBytes (pairs : List (Nat × Nat)) (pw : Nat) : List Byte :=
  ((List.range 128).zip pairs).flatMap (fun e => pairBytes e.2 (decide (e.1 < 25) && pw.testBit e.1))

/-- The page word of VALID and FIRSTPG (R93). -/
def pageWord (valid k : Nat) : Nat := valid + k * 128

/-- The pairs that a summary shows a reader: hi is raised where the order bit separates equal values (R93). -/
def shownPairs (pairs : List (Nat × Nat)) (pw : Nat) : List (Nat × Nat) :=
  ((List.range 128).zip pairs).map (fun e =>
    if decide (e.1 < 25) && pw.testBit e.1 && !bfLess e.2.1 e.2.2 && !bfLess e.2.2 e.2.1 then (bfNextUp e.2.1, e.2.2) else e.2)

/-! ### Changes of a page (R95, R96, R101) -/

/-- The writes of one slot's data: key, value, scales, from a staging record (R89, R90, R320). -/
def State.slotWrites (s : State) (ctx f t : Nat) (rec : List Byte) : List (Nat × List Byte) :=
  [(s.frameVa ctx f + 128 * t, rec.take 128), (s.frameVa ctx f + 0x2000 + 128 * t, (rec.drop 128).take 128),
   (s.headerVa ctx f + 0x200 + 4 * t, (rec.drop 256).take 4), (s.headerVa ctx f + 0x300 + 4 * t, (rec.drop 260).take 4)]

/-- The writes of an append at slot `j` of page `k` in frame `f`, whose summary shows `pairs` (R95). -/
def State.appendWrites (s : State) (ctx f k j : Nat) (pairs : List (Nat × Nat)) (rec : List Byte) : List (Nat × List Byte) :=
  let h := hulls pairs (keyBox (rec.take 128) ((rec.drop 256).take 4))
  [(s.headerVa ctx f, summaryBytes h (pageWord j k))] ++ s.slotWrites ctx f j rec ++
  [(s.headerVa ctx f, (summaryBytes h (pageWord (j + 1) k)).take 32)]

/-- The summary widened by the four mixtures of old and new bytes and scales of one slot (R96). -/
def rewriteHull (pairs : List (Nat × Nat)) (oldKey oldSc newKey newSc : List Byte) : List (Nat × Nat) :=
  hulls (hulls pairs (hulls (keyBox oldKey oldSc) (keyBox newKey newSc)))
    (hulls (keyBox oldKey newSc) (keyBox newKey oldSc))

/-- The writes of a rewrite of slots, each with its old key bytes and its record, in frame `f` (R96). -/
def State.rewriteWrites (s : State) (ctx f : Nat) (h : PageHdr) (items : List (Nat × List Byte × List Byte)) :
    List (Nat × List Byte) :=
  let pairs := items.foldl (fun p e =>
    rewriteHull p e.2.1 ((h.ks.drop (4 * e.1)).take 4) (e.2.2.take 128) ((e.2.2.drop 256).take 4)) h.pairs
  (s.headerVa ctx f, summaryBytes pairs h.order) :: items.flatMap (fun e => s.slotWrites ctx f e.1 e.2.2)

/-! ### Descriptor and operands (R307, R319) -/

/-- The check of a descriptor offset (R307): the cause of the first failure. -/
def State.descCheck (s : State) (g : Group) (off : Word) : Option Nat :=
  if off.toNat % 64 ≠ 0 then some 3
  else if off.toInt < 0 ∨ (s.extent g .spd : Int) < off.toInt + 64 then some 4
  else if s.inSpan g.ctx (dieOf g.core) (s.origin g .spd + off.toNat) 64 then some 6
  else none

/-- The check of a staging range (R319). -/
def State.stagingCheck (s : State) (g : Group) (off : Word) (n : Nat) : Option Nat :=
  if off.toInt < 0 ∨ (s.extent g .spd : Int) < off.toInt + n then some 4
  else if s.inSpan g.ctx (dieOf g.core) (s.origin g .spd + off.toNat) n then some 6
  else if off.toNat % 8 ≠ 0 then some 3
  else none

/-- Window bytes as the issuing core reads them (R47). -/
def State.windowRead (s : State) (g : Group) (off : Word) (n : Nat) : List Byte :=
  s.spdRead g.core (s.origin g .spd + off.toNat) n

/-- LENGTH, WSTART and MAPB of a descriptor are in range (R319). -/
def Desc.inRange (d : Desc) : Bool :=
  decide (d.len ≤ 2 ^ 24) && decide (d.wstart ≤ 2 ^ 24) && decide (d.mapb % 256 = 0) && decide (d.mapb < 2 ^ 52)

/-- The marked unit among the descriptor bytes that a cache instruction reads: LENGTH and WSTART, and MAPB where it reads the
map (R57, R305). -/
def State.descParity (s : State) (g : Group) (off : Word) (map : Bool) : Option Unit_ :=
  (s.spaceParity g .spd (off.toNat + 8) 8).or (if map then s.spaceParity g .spd (off.toNat + 0x20) 8 else none)

/-- What the checks of a cache instruction give (R319): a trap, a marked unit met, or the descriptor. -/
inductive KvPre where
  | trap (cause : Nat) (x : Word)
  | mark (u : Unit_)
  | ok (d : Desc)
  deriving DecidableEq, Repr

/-- The checks of a cache instruction in the order of R319: `vals` are operands with their bounds, `stage` the staging
range it reads. -/
def State.kvPre (s : State) (j : Issue) (off : Word) (vals : List (Word × Nat)) (stage : Option (Word × Nat)) : KvPre :=
  if !s.kvOn j.g.ctx then .trap 6 0
  else
    match s.descCheck j.g off with
    | some c => .trap c off
    | none =>
      match s.descParity j.g off true with
      | some u => .mark u
      | none =>
        let d := descOf (s.windowRead j.g off 64)
        if !d.inRange then .trap 4 off
        else
          match vals.find? (fun v => decide (v.2 ≤ v.1.toNat)) with
          | some v => .trap 4 v.1
          | none =>
            match stage with
            | none => .ok d
            | some (o, n) =>
              match s.stagingCheck j.g o n with
              | some c => .trap c o
              | none =>
                match s.spaceParity j.g .spd o.toNat n with
                | some u => .mark u
                | none => .ok d

/-- How a cache instruction ends: in a fault, with a code and no write, or with writes and the code. -/
inductive KvEnd where
  | fault (e : XErr)
  | code (n : Nat)
  | write (ws : List (Nat × List Byte)) (n : Nat)
  deriving DecidableEq, Repr

/-- What a cache instruction does: the ranges it reads, in order, and how it ends. -/
structure KvAct where
  reads : List (Nat × Nat)
  fin : KvEnd
  deriving DecidableEq, Repr

/-- An end without a read. -/
def KvAct.fault (e : XErr) : KvAct := ⟨[], .fault e⟩
/-- A code without a read. -/
def KvAct.code (n : Nat) : KvAct := ⟨[], .code n⟩
/-- Writes without a read. -/
def KvAct.write (ws : List (Nat × List Byte)) (n : Nat) : KvAct := ⟨[], .write ws n⟩

/-- A read followed by what is done with the bytes; a read of no bytes reads nothing. -/
def State.kvGet (s : State) (g : Group) (va n : Nat) (k : List Byte → KvAct) : KvAct :=
  match s.kvRead g.core g.ctx .copy va n with
  | .error e => ⟨[(va, n)], .fault e⟩
  | .ok bs => { k bs with reads := (va, n) :: (k bs).reads }

/-- Reads of several ranges of one length followed by what is done with them. -/
def State.kvGets (s : State) (g : Group) (n : Nat) : List Nat → (List (List Byte) → KvAct) → KvAct
  | [], k => k []
  | va :: rest, k => s.kvGet g va n (fun bs => s.kvGets g n rest (fun l => k (bs :: l)))

/-- Entry of page `k` (R86). -/
def State.withEntry (s : State) (g : Group) (d : Desc) (k : Nat) (f : Nat → KvAct) : KvAct :=
  s.kvGet g (d.mapb + 4 * k) 4 (fun bs => f (leNat bs))
/-- Header of frame `f` (R90). -/
def State.withHdr (s : State) (g : Group) (f : Nat) (act : PageHdr → KvAct) : KvAct :=
  s.kvGet g (s.headerVa g.ctx f) 1024 (fun bs => act (hdrOf bs))

/-- `s` after requests of the context's default class have read ranges for core `core`, lines `fails` of the tier having failed:
translations are kept, and the requests served (R24, R60, R62). -/
def State.kvTouch (s : State) (core ctx : Nat) (a : Agent) (fails : List (Nat × Nat)) (reads : List (Nat × Nat)) : State :=
  reads.foldl (fun t r => (pagesOf r.1 r.2).foldl (fun t pg =>
    let page := pg.1 / 65536 * 65536
    let u := State.keep t core ctx (State.defaultClass t ctx) page (State.translate t core ctx a [.q] page)
    match State.kvXl t core ctx a false pg.1 with
    | .ok x => u.readTouch (u.defaultClass ctx) x pg.2
        ((fails.filter (fun f => meets f.2 64 pg.1 pg.2)).map (fun f => x.pa / 64 * 64 + (f.2 - pg.1 / 64 * 64)))
    | .error _ => u) t) s

/-- Every channel that an access to `n` bytes at `va` needs accepts commands, and no armed slot keeps it waiting (R69, R81). -/
def State.kvReady (s : State) (core ctx : Nat) (a : Agent) (write : Bool) (va n : Nat) : Bool :=
  (pagesOf va n).all (fun pg => s.walkReady core ctx pg.1 &&
    (match s.kvXl core ctx a write pg.1 with
      | .ok x => s.accessReady x write pg.2
      | .error _ => true))

/-- The lines of the CXL tier behind ports that are up that an access to `n` bytes at `va` reaches: port and virtual address (R60, R77). -/
def State.kvTier (s : State) (core ctx : Nat) (a : Agent) (write : Bool) (va n : Nat) : List (Nat × Nat) :=
  (pagesOf va n).flatMap (fun pg => match s.kvXl core ctx a write pg.1 with
    | .ok x => ((s.tierLines x write pg.2).filter (fun l => s.portUp l.1)).map (fun l => (l.1, (pg.1 + l.2) / 64 * 64))
    | .error _ => [])

/-- The ranges that an act writes. -/
def KvAct.writes (a : KvAct) : List (Nat × Nat) :=
  match a.fin with
  | .write ws _ => ws.map (fun w => (w.1, w.2.length))
  | _ => []

/-- The lines of the tier that an act reaches. -/
def State.actTier (s : State) (g : Group) (a : KvAct) : List (Nat × Nat) :=
  a.reads.flatMap (fun r => s.kvTier g.core g.ctx .copy false r.1 r.2) ++ a.writes.flatMap (fun r => s.kvTier g.core g.ctx .copy true r.1 r.2)

/-- An act of which lines of the tier have failed: the first read that meets one ends it (R319). -/
def KvAct.failing (a : KvAct) (fails : List (Nat × Nat)) : KvAct :=
  let good := a.reads.takeWhile (fun r => (lineErr r.1 r.2 fails).isNone)
  match a.reads.drop good.length with
  | [] => a
  | r :: _ => match lineErr r.1 r.2 fails with
    | none => a
    | some e => ⟨good ++ [r], .fault e⟩

/-- Every access of an act can be served now. -/
def State.actReady (s : State) (g : Group) (a : KvAct) : Bool :=
  a.reads.all (fun r => s.kvReady g.core g.ctx .copy false r.1 r.2) &&
  a.writes.all (fun r => s.kvReady g.core g.ctx .copy true r.1 r.2)

/-- The lines among `tier` for which no request has been sent. -/
def notAsked (asks : List TierAsk) (tier : List (Nat × Nat)) : List (Nat × Nat) :=
  (tier.filter (fun l => !asks.any (fun a => a.port == l.1 && a.va == l.2))).eraseDups

/-- The lines that have failed, with their causes (R78, R79). -/
def failedAsks (asks : List TierAsk) : List (Nat × Nat) :=
  asks.filterMap (fun a => match a.status with
    | some .timeout => some (0x0B, a.va)
    | some .linkDown => some (0x0C, a.va)
    | _ => none)

/-- `s` after a prober has sent a request for each line of the tier listed (R60, R62, R78), and what it has asked for. -/
def State.tierSend (s : State) (who : Prober) (core ctx : Nat) (lines : List (Nat × Nat)) : State × List TierAsk :=
  lines.foldl (fun (acc : State × List TierAsk) l =>
    (acc.1.memSend (.port l.1) (portBase l.1) l.2 (.probe who) core ctx (acc.1.defaultClass ctx) [],
      acc.2 ++ [⟨acc.1.nextId, l.1, l.2, none⟩])) (s, [])

/-- What a split has asked of the tier. -/
def Wait.asks : Wait → List TierAsk
  | .tier l => l
  | _ => []

/-- What stands before the accesses of a cache instruction: it waits for the accesses of its group that happen before it,
for channels and armed slots, and for its lines of the CXL tier (R69, R78, R81, R319). When it goes on: the lines that have failed. -/
def State.kvWait (s : State) (j : Issue) (ready : Bool) (tier : List (Nat × Nat)) : State ⊕ List (Nat × Nat) :=
  if s.unperformed j.gid || !ready then .inl (s.hold j)
  else
    match notAsked j.sp.wait.asks tier with
    | [] => .inr (failedAsks j.sp.wait.asks)
    | l =>
      let r := s.tierSend (.split j.gid j.sid) j.g.core j.g.ctx l
      .inl ((r.1.modSplit j.gid j.sid (fun sp => { sp with wait := .tier (j.sp.wait.asks ++ r.2), awake := false })).settle j.gid)

/-- A cache instruction after its checks and waits: performed, its code written (R319). -/
def State.kvFinish (s : State) (j : Issue) (sd : Nat) (fails : List (Nat × Nat)) (a : KvAct) : State :=
  let s := s.kvTouch j.g.core j.g.ctx .copy fails a.reads
  match a.fin with
  | .fault e => s.trapAt j e.cause e.x
  | .code n => s.putScalar j sd (w64 n)
  | .write ws n =>
    match s.kvWrites j.g.core j.g.ctx fails ws with
    | .error (t, e) => t.trapAt j e.cause e.x
    | .ok t => t.putScalar j sd (w64 n)

/-- A cache instruction: it waits for the accesses of its split that happen before it, checks, and acts (R319). -/
def kvOp (o : YF) (vals : Issue → List (Word × Nat)) (stage : Issue → Option (Word × Nat))
    (act : State → Issue → Desc → KvAct) (t : State) (j : Issue) : State :=
  match t.kvPre j (j.sp.get o.sa) (vals j) (stage j) with
  | .trap c x => t.trapAt j c x
  | .mark u => t.consumeMem j j.sp.mask u
  | .ok d =>
    let a := act t j d
    match t.kvWait j (t.actReady j.g a) (t.actTier j.g a) with
    | .inl u => u
    | .inr fails => t.kvFinish j o.sd fails (a.failing fails)

/-- A cache instruction at issue: the check of EN comes before every other (R85), and is made again where one that has waited goes on
(assumption log 145). -/
def kvIssue (needs : Issue → Needs) (eff : State → Issue → State) (t : State) (j : Issue) : State :=
  if !t.kvOn j.g.ctx then t.trapAt j 6 0 else issue needs eff t j

/-! ### `kvapp` (R322) -/

/-- A staging record holds a byte without a value (R319 code 5). -/
def badRecord (rec : List Byte) : Bool := badByte (rec.take 256) || badScale (rec.drop 256) 0 2

/-- Key bytes of slot `t` or its key scales that have no value (R321, R322). -/
def badKey (key ks : List Byte) (t : Nat) : Bool := badByte key || badScale ks t 1
/-- Key bytes or key scales of slots `0 .. n - 1` that have no value (R321, R322). -/
def badKeys (keys ks : List Byte) (n : Nat) : Bool := badByte keys || badScale ks 0 n

/-- The writes of a frame made for page `k` with nothing in it, then its entry (R99). -/
def State.freshWrites (s : State) (ctx f k : Nat) (d : Desc) : List (Nat × List Byte) :=
  [(s.headerVa ctx f, summaryBytes (List.replicate 128 (0, 0)) (pageWord 0 k)), (d.mapb + 4 * k, leBytes 4 f)]

/-- The writes of copy-on-share of slots 0 .. v - 1, with their key and value bytes, into frame `f`, then its entry (R101). -/
def State.shareWrites (s : State) (ctx f k v : Nat) (d : Desc) (h : PageHdr) (keys vals : List Byte) : List (Nat × List Byte) :=
  (if v = 0 then [] else
    [(s.frameVa ctx f, keys), (s.frameVa ctx f + 0x2000, vals),
     (s.headerVa ctx f + 0x200, h.ks.take (4 * v)), (s.headerVa ctx f + 0x300, h.vs.take (4 * v))]) ++
  [(s.headerVa ctx f, summaryBytes (exactBox keys h.ks v) (pageWord v k)), (d.mapb + 4 * k, leBytes 4 f)]

/-- `kvapp` at position `p` with record `rec` and spare frame `spare` (R322). -/
def State.kvapp (s : State) (g : Group) (d : Desc) (p spare : Nat) (rec : List Byte) : KvAct :=
  let k := p / 64
  let j := p % 64
  let ctx := g.ctx
  if p < d.wstart then .code 8
  else if badRecord rec then .code 5
  else s.withEntry g d k (fun e =>
    let st := entStatus e
    let f := entFrame e
    if st = 0 ∨ st = 1 then
      s.withHdr g f (fun h =>
        if h.malformed k then .code 9
        else if h.valid < j then .code 4
        else if j < h.valid then
          s.kvGet g (s.frameVa ctx f + 128 * j) 128 (fun key =>
            if badKey key h.ks j then .code 5 else .write (s.rewriteWrites ctx f h [(j, key, rec)]) 0)
        else .write (s.appendWrites ctx f k j h.pairs rec) (if f = spare then 1 else 0))
    else if st = 6 then
      s.withHdr g f (fun h =>
        let v := min h.valid (d.len - 64 * k)
        if h.malformed k then .code 9
        else if j ≠ v then .code 4
        else s.kvGet g (s.frameVa ctx f) (128 * v) (fun keys =>
          if badKeys keys h.ks v then .code 5
          else if spare = noFrame then .code 2
          else s.kvGet g (s.frameVa ctx f + 0x2000) (128 * v) (fun vals =>
            .write (s.shareWrites ctx spare k v d h keys vals ++
              s.appendWrites ctx spare k v (shownPairs (exactBox keys h.ks v) (pageWord v k)) rec) 1)))
    else if st = 2 ∨ st = 7 then
      if j ≠ 0 then .code 4
      else
        let add := fun (n : Nat) => s.freshWrites ctx n k d ++ s.appendWrites ctx n k 0
          (shownPairs (List.replicate 128 (0, 0)) (pageWord 0 k)) rec
        if st = 7 ∧ f ≠ noFrame then .write (add f) 0
        else if spare = noFrame then .code 2
        else .write (add spare) 1
    else .code 3)

/-- `kvapp` (R320, R322). -/
def execKvapp (o : YF) (s : State) : Host.Outcome State Fault Refusal :=
  onIssue s (kvIssue (fun _ => { scal := [o.sa, o.sa + 1, o.sa + 2, o.sa + 3] })
    (kvOp o (fun j => [(j.sp.get (o.sa + 1), 2 ^ 24), (j.sp.get (o.sa + 3), 2 ^ 28)])
      (fun j => some (j.sp.get (o.sa + 2), 264))
      (fun t j d => t.kvapp j.g d (j.sp.get (o.sa + 1)).toNat (j.sp.get (o.sa + 3)).toNat
        (t.windowRead j.g (j.sp.get (o.sa + 2)) 264))))

/-! ### `kvreq`, `kvsum` (R321) -/

/-- The slots of a mask, ascending. -/
def maskSlots (m : Word) : List Nat := (List.range 64).filter m.getLsbD

/-- `kvreq` of page `k` with the records of the masked slots (R321). -/
def State.kvreq (s : State) (g : Group) (d : Desc) (k : Nat) (slots : List Nat) (recs : List (List Byte)) : KvAct :=
  s.withEntry g d k (fun e =>
    let f := entFrame e
    if 1 < entStatus e then .code 3
    else s.withHdr g f (fun h =>
      if h.malformed k then .code 9
      else if slots.isEmpty then .code 0
      else if slots.any (fun t => decide (h.valid ≤ t)) then .code 6
      else if recs.any badRecord then .code 5
      else s.kvGets g 128 (slots.map (fun t => s.frameVa g.ctx f + 128 * t)) (fun keys =>
        if (slots.zip keys).any (fun e => badKey e.2 h.ks e.1) then .code 5
        else .write (s.rewriteWrites g.ctx f h (slots.zip (keys.zip recs))) 0)))

/-- `kvreq` (R320, R321). -/
def execKvreq (o : YF) (s : State) : Host.Outcome State Fault Refusal :=
  let n := fun (j : Issue) => (maskSlots (j.sp.get (o.sa + 3))).length
  onIssue s (kvIssue (fun _ => { scal := [o.sa, o.sa + 1, o.sa + 2, o.sa + 3] })
    (kvOp o (fun j => [(j.sp.get (o.sa + 1), 2 ^ 18)]) (fun j => some (j.sp.get (o.sa + 2), 264 * n j))
      (fun t j d => t.kvreq j.g d (j.sp.get (o.sa + 1)).toNat (maskSlots (j.sp.get (o.sa + 3)))
        ((List.range (n j)).map (fun i => t.windowRead j.g (j.sp.get (o.sa + 2) + w64 (264 * i)) 264)))))

/-- `kvsum` of page `k` (R97, R321). -/
def State.kvsum (s : State) (g : Group) (d : Desc) (k : Nat) : KvAct :=
  s.withEntry g d k (fun e =>
    let f := entFrame e
    if 1 < entStatus e then .code 3
    else s.withHdr g f (fun h =>
      if h.malformed k then .code 9
      else s.kvGet g (s.frameVa g.ctx f) (128 * h.valid) (fun keys =>
        if badKeys keys h.ks h.valid then .code 5
        else .write [(s.headerVa g.ctx f, summaryBytes (exactBox keys h.ks h.valid) h.order)] 0)))

/-- `kvsum` (R320, R321). -/
def execKvsum (o : YF) (s : State) : Host.Outcome State Fault Refusal :=
  onIssue s (kvIssue (fun _ => { scal := [o.sa, o.sa + 1] })
    (kvOp o (fun j => [(j.sp.get (o.sa + 1), 2 ^ 18)]) (fun _ => none)
      (fun t j d => t.kvsum j.g d (j.sp.get (o.sa + 1)).toNat)))

/-! ### `kvlink`, `kvtrim` (R323, R324) -/

/-- The transition of `kvlink` from one status to another is listed in R99. -/
def linkListed (old new : Nat) : Bool :=
  match old with
  | 0 => new == 1 || new == 4 || new == 5 || new == 7
  | 1 => new == 0 || new == 4 || new == 5 || new == 7
  | 2 => new == 6
  | 4 => new == 0 || new == 1 || new == 5
  | 5 => true
  | 6 => new == 5
  | _ => false

/-- The new entry of a `kvlink`, or its refusal code (R323). -/
def linkEntry (d : Desc) (k e new operand : Nat) : Except Nat Nat :=
  let old := entStatus e
  let cur := entFrame e
  if !linkListed old new then .error 7
  else
    let given := old == 4 || old == 5 || new == 6
    let f := if new = 2 ∨ new = 3 then 0 else if given then operand else cur
    if new ≠ 2 ∧ new ≠ 3 ∧ !given ∧ operand ≠ cur then .error 7
    else if new = 7 ∧ 64 * k < d.len then .error 8
    else .ok (new * 2 ^ 28 + f)

/-- `kvlink` (R320, R323). -/
def execKvlink (o : YF) (s : State) : Host.Outcome State Fault Refusal :=
  onIssue s (kvIssue (fun _ => { scal := [o.sa, o.sa + 1, o.sa + 2] })
    (kvOp o (fun j => [(j.sp.get (o.sa + 1), 2 ^ 18), (j.sp.get (o.sa + 2), 2 ^ 28)]) (fun _ => none)
      (fun t j d =>
        let k := (j.sp.get (o.sa + 1)).toNat
        t.withEntry j.g d k (fun e =>
          match linkEntry d k e (o.code % 8) (j.sp.get (o.sa + 2)).toNat with
          | .error c => .code c
          | .ok x => .write [(d.mapb + 4 * k, leBytes 4 x)] 0))))

/-- `kvtrim` of page `k` (R324): `ret` asks for the frame. -/
def State.kvtrim (s : State) (g : Group) (d : Desc) (k : Nat) (ret : Bool) : KvAct :=
  s.withEntry g d k (fun e =>
    let st := entStatus e
    if d.wstart < 64 * k + 64 then .code 8
    else if st = 0 ∨ st = 1 ∨ st = 6 then
      .write [(d.mapb + 4 * k, leBytes 4 (3 * 2 ^ 28))] (if ret && decide (st ≠ 6) then 1 else 0)
    else if st = 3 then .code 0
    else .code 3)

/-! ### The frame cache (R103, R104, R325) -/

/-- The cache of a core after the context change that a `pgget` or `pgput` asks for: the old entries go back to their
mailbox, and until that is done the change waits (R103). -/
def State.cacheFor (s : State) (core ctx : Nat) : State × Bool :=
  if (s.core core).frames.ctx = some ctx then (s, true)
  else
    let t := s.emptyCache core
    if (t.core core).frames.sends = 0 then
      (t.modCore core (fun c => { c with frames := { c.frames with ctx := some ctx } }), true)
    else (t, false)

/-- The split waits for the return of the old entries, with the frame it has yet to insert. -/
def State.framesWait (s : State) (j : Issue) (got : Option (Nat × Nat)) : State :=
  (s.modSplit j.gid j.sid (fun sp => { sp with wait := .frames got, awake := false })).settle j.gid

/-- The end of a `kvtrim.ret`: the old frame goes into the frame cache as `pgput` does (R103, R324), whatever its number (assumption
log 146). -/
def State.trimInsert (s : State) (j : Issue) (sd f : Nat) : State :=
  let (t, ready) := s.cacheFor j.g.core j.g.ctx
  if !ready then t.framesWait j (some (f, sd)) else (t.insertFrames j.g.core j.g.ctx [f]).putScalar j sd 1

/-- Effect of `kvtrim` (R324): with `.ret`, the frame of an owned page goes into the frame cache once the entry is written. -/
def kvtrimFirst (o : YF) (t : State) (j : Issue) : State :=
  let k := (j.sp.get (o.sa + 1)).toNat
  match t.kvPre j (j.sp.get o.sa) [(j.sp.get (o.sa + 1), 2 ^ 18)] none with
  | .trap c x => t.trapAt j c x
  | .mark u => t.consumeMem j j.sp.mask u
  | .ok d =>
    let a := t.kvtrim j.g d k (decide (o.code % 2 = 1))
    match t.kvWait j (t.actReady j.g a) (t.actTier j.g a) with
    | .inl u => u
    | .inr fails =>
      let a := a.failing fails
      match a.fin with
      | .write ws 1 =>
        let f := match t.kvRead j.g.core j.g.ctx .copy (d.mapb + 4 * k) 4 with
          | .ok bs => entFrame (leNat bs)
          | .error _ => 0
        match (t.kvTouch j.g.core j.g.ctx .copy fails a.reads).kvWrites j.g.core j.g.ctx fails ws with
        | .error (u, e) => u.trapAt j e.cause e.x
        | .ok u => u.trimInsert j o.sd f
      | _ => t.kvFinish j o.sd fails a

/-- `kvtrim`, or its insertion where that has had to wait (R103, R324). -/
def kvtrimEffect (o : YF) (t : State) (j : Issue) : State :=
  match j.sp.wait with
  | .frames (some (f, sd)) => t.trimInsert j sd f
  | _ => kvtrimFirst o t j

/-- `kvtrim` (R320, R324). -/
def execKvtrim (o : YF) (s : State) : Host.Outcome State Fault Refusal :=
  onIssue s (kvIssue (fun _ => { scal := [o.sa, o.sa + 1] }) (kvtrimEffect o))

/-- Effect of `pgget` (R103, R104, R325): the frame inserted last; an empty cache posts a refill. What
the frame and its header hold is left as main memory has it (assumption log 115). -/
def pggetEffect (o : YF) (t : State) (j : Issue) : State :=
  let core := j.g.core
  let (t, ready) := t.cacheFor core j.g.ctx
  if !ready then t.framesWait j none
  else
    let fs := (t.core core).frames.frames
    match fs.getLast? with
    | some f =>
      (t.modCore core (fun c => { c with frames := { c.frames with frames := fs.dropLast } })).putScalar j o.sd (w64 f)
    | none => (t.postRefill core j.g.ctx).putScalar j o.sd allOnes

/-- `pgget` (R325). -/
def execPgget (o : YF) (s : State) : Host.Outcome State Fault Refusal :=
  onIssue s (kvIssue (fun _ => {}) (pggetEffect o))

/-- Effect of `pgput` (R103, R104, R325). -/
def pgputEffect (o : YF) (t : State) (j : Issue) : State :=
  let v := j.sp.get o.sa
  if noFrame ≤ v.toNat then t.trapAt j 4 v
  else
    let (t, ready) := t.cacheFor j.g.core j.g.ctx
    if !ready then t.framesWait j none else (t.insertFrames j.g.core j.g.ctx [v.toNat]).done j

/-- `pgput` (R325). -/
def execPgput (o : YF) (s : State) : Host.Outcome State Fault Refusal :=
  onIssue s (kvIssue (fun _ => { scal := [o.sa] }) (pgputEffect o))

/-- FRAME_GRANT (R104): the oldest grant tuple that a core has taken: its frames are inserted in field order, or go back
where the cache has another context, and the pending mark clears. A FRAME of 0x0FFF_FFFF is taken like every number (assumption
log 146). -/
def execFrameGrant (core : Nat) (s : State) : Host.Outcome State Fault Refusal :=
  .next (match (s.core core).frames.grants with
    | [] => s
    | (ctx, fields) :: rest =>
      let fs := ((fields.take 7).filter (fun w => w.getLsbD 63)).map (fun w => bits w 0 28)
      let t := s.modCore core (fun c => { c with frames := { c.frames with grants := rest, refill := none } })
      if (t.core core).frames.ctx = some ctx then t.insertFrames core ctx fs else t.returnFrames core ctx fs 8)

/-- GRANT_TAKE_RETRY (R105): a take for a grant that was refused is sent again. -/
def execGrantTakeRetry (core : Nat) (s : State) : Host.Outcome State Fault Refusal :=
  .next (match (s.core core).frames.refill with
    | none => s
    | some ctx => if (s.core core).frames.taking || !(s.core core).frames.grants.isEmpty then s else s.grantTake core ctx)

/-! ### `kvmap` (R318) -/

/-- A lane of `kvmap` reads the map: its position is neither before the window nor past the length (R88). -/
def Desc.reads (d : Desc) (p : Nat) : Bool := decide (p < d.len) && decide (d.wstart ≤ p)

/-- One lane of `kvmap`, which reads alone; `fails` lists the lines of the tier that have failed. -/
def State.kvmapLane (s : State) (g : Group) (d : Desc) (p : Nat) (fails : List (Nat × Nat)) : Word :=
  if d.len ≤ p then w64 (7 * 2 ^ 28)
  else if p < d.wstart then w64 (3 * 2 ^ 28)
  else
    let at' := d.mapb + 4 * (p / 64)
    match lineErr at' 4 fails with
    | some e => w64 (2 ^ 63 + e.cause)
    | none =>
      match s.kvRead g.core g.ctx .copy at' 4 with
      | .ok bs => w64 (leNat bs)
      | .error e => w64 (2 ^ 63 + e.cause)

/-- Effect of `kvmap` (R318): without a guarded lane it reads nothing (R326). -/
def kvmapEffect (o : XF) (t : State) (j : Issue) : State :=
  let off := j.sp.get o.sa
  let m := j.guard o.p o.pn
  let rs := if o.f1 = zReg then [] else [o.f1]
  match t.descCheck j.g off with
  | some c => t.trapAt j c off
  | none =>
    let d := descOf (t.windowRead j.g off 64)
    let p := fun l => bits (t.vread j.g o.f2 l) 0 32
    let ls := (lanesOf m).filter (fun l => d.reads (p l))
    if m = 0 then (t.vsend j.gid j.sid rs m [] 0 o.sb).done j
    else
      match t.descParity j.g off (!ls.isEmpty) with
      | some u => t.consumeMem j m u
      | none =>
        let a : KvAct := ⟨(ls.map (fun l => (d.mapb + 4 * (p l / 64), 4))).eraseDups, .code 0⟩
        match t.kvWait j (t.actReady j.g a) (t.actTier j.g a) with
        | .inl u => u
        | .inr fails =>
          let vals := onLanes m (fun l => t.kvmapLane j.g d (p l) fails)
          ((t.kvTouch j.g.core j.g.ctx .copy fails a.reads).vsend j.gid j.sid rs m (laneData o.f1 vals) 0 o.sb).done j

/-- Needs of `kvmap`. -/
def kvmapNeeds (o : XF) (j : Issue) : Needs :=
  { wr := [o.f1], rd := [o.f2], lanes := j.guard o.p o.pn, preds := [o.p], scal := [o.sa], sb := o.sb }

/-- `kvmap` (R318). -/
def execKvmap (o : XF) (s : State) : Host.Outcome State Fault Refusal :=
  onIssue s (kvIssue (kvmapNeeds o) (kvmapEffect o))

end Sys2Proof.Machine
end

