-- ==== Sys2Proof/Machine/Attention.lean ====
section
/-!
DEFINITION. Brim attention (R305 to R317): `attn.brim` at issue, and the attention engine of a core as it starts an
operation, visits pages one at a time, and stops.
-/
namespace Sys2Proof.Machine

/-! ### Issue (R306, R307) -/

/-- The scalar that holds the work-area offset (R306). -/
def attnSb (o : YF) : Nat := o.code / 256 % 64
/-- The query slot (R306). -/
def attnQslot (o : YF) : Nat := o.code / 16 % 16

/-- The checks of R307, after the check of KVPOOL.EN (R85). -/
def State.attnCheck (s : State) (j : Issue) (o : YF) : Option (Nat × Word) :=
  let q := attnQslot o
  let off := j.sp.get o.sa
  let work := j.sp.get (attnSb o)
  if (s.tileNo j.g.bid (o.code % 8)).isNone then some (2, w64 (o.code % 8))
  else if !s.mayName j.gid j.g.core q then some (6, w64 q)
  else
    match s.descCheck j.g off with
    | some c => some (c, off)
    | none => if work.toNat % 8 ≠ 0 then some (3, work) else none

/-- Pages of a window (R310). -/
def pagesIn (len wstart : Nat) : Nat := if len ≤ wstart then 0 else (len - 1) / 64 - wstart / 64 + 1

/-- The attention queue of a core is full (R168; assumption log 14). -/
def State.attnFull (s : State) (core : Nat) : Bool :=
  let q := (s.core core).attnQ
  !q.isEmpty && decide (Config.engineQueueDepth ≤ q.length)

/-- The bytes an operation uses until its batch completes (R308): its work area and the output fields of its
descriptor. -/
def attnUsed (work np lin : Nat) : List (Nat × Nat × Nat) := [(0, work, 8 * np), (1, lin + 0x28, 12)]

/-- `s` with an attention operation queued (R306, R308): two that use the same bytes or the same tile spoil each other, and a matrix
operation that has yet to write the tile spoils it. -/
def State.attnQueue (s : State) (j : Issue) (o : YF) (resume : Bool) : State :=
  let off := (j.sp.get o.sa).toNat
  let work := j.sp.get (attnSb o)
  let d := descOf (s.windowRead j.g (j.sp.get o.sa) 64)
  let lin := s.origin j.g .spd + off
  let uses := attnUsed work.toNat (pagesIn d.len d.wstart) lin
  let tile := (s.tileNo j.g.bid (o.code % 8)).getD 0
  let clash := s.tileTaken j.g.core tile || decide (0 < (s.tileOf j.g.core tile).busy) ||
    uses.any (fun u => s.attnUses u.1 (if u.1 = 0 then j.g.bid else j.die) u.2.1 u.2.2)
  let t := uses.foldl (fun u e => State.spoilUses u e.1 (if e.1 = 0 then j.g.bid else j.die) e.2.1 e.2.2) s
  let (id, t) := t.newId
  let core := j.g.core
  let op : AttnOp := {
    id := id, gid := j.gid, core := core, bid := j.g.bid, ctx := j.g.ctx, tile := tile, slotQ := attnQslot o
    desc := off, work := work, resume := resume, tier := [] }
  let t := (t.setSlot core (attnQslot o) (t.slotOf core (attnQslot o)).addReader).useTile core tile true
  (t.modCore core (fun c => { c with attnQ := c.attnQ ++ [op] })).modGroup j.gid (fun g =>
    { g with ops := g.ops ++ ([⟨id, 2, 0, false, [(core, tile)], [], uses, clash⟩] : List OpRec) })

/-- Effect of `attn.brim` at issue (R307): what happens before it has been performed when it is queued (R123, R129). -/
def attnEffect (o : YF) (resume : Bool) (t : State) (j : Issue) : State :=
  match t.attnCheck j o with
  | some (c, x) => t.trapAt j c x
  | none => if t.attnFull j.g.core || t.unperformed j.gid then t.hold j else (t.attnQueue j o resume).done j

/-- `attn.brim` (R306). -/
def execAttnBrim (o : YF) (s : State) : Host.Outcome State Fault Refusal :=
  onIssue s (kvIssue (fun _ => { scal := [o.sa, attnSb o] }) (attnEffect o false))
/-- `attn.brim.res` (R306, R315). -/
def execAttnBrimRes (o : YF) (s : State) : Host.Outcome State Fault Refusal :=
  onIssue s (kvIssue (fun _ => { scal := [o.sa, attnSb o] }) (attnEffect o true))

/-! ### Faults (R316) -/

/-- TRAPX of cause 0x13 (R316). -/
def attnX (sub what inner page visits : Nat) : Word :=
  w64 (sub * 2 ^ 60 + what * 2 ^ 58 + inner % 256 * 2 ^ 50 + page % 2 ^ 18 * 2 ^ 32 + visits % 2 ^ 32)

/-- What ends an operation early: a fault with cause 0x13, or a marked unit (R57, R316). -/
inductive AttnFault where
  | stop (x : Word)
  | mark (u : Unit_)
  deriving DecidableEq, Repr

/-- A memory error as an attention fault (R316). -/
def attnMem (what k visits : Nat) (e : XErr) : AttnFault :=
  match e.cause with
  | 7 => .stop (attnX 6 what 0 k visits)
  | 0x0B => .stop (attnX 7 what 0 k visits)
  | 0x0C => .stop (attnX 8 what 0 k visits)
  | c => .stop (attnX 0 what c k visits)

/-- SUB of a map entry that stops the engine (R87, R316). -/
def statusSub (st : Nat) : Option Nat :=
  if st = 2 then some 1 else if st = 4 then some 2 else if st = 5 then some 3 else if 8 ≤ st then some 4 else none

/-! ### Arithmetic (R309, R311, R312) -/

/-- FP32 bits of an exact value under a mode. -/
def rnd32 (mode : Nat) (v : FVal) : Nat := (fp32.round false mode v false).1

/-- `next_up_fp32` (R309). -/
def nextUp32 (x : Nat) : Nat :=
  if x % 2 ^ 31 = 0 then 1 else if x = 0x7F800000 then x else if x < 2 ^ 31 then x + 1 else x - 1

/-- The absolute value. -/
def FVal.mag : FVal → FVal
  | .fin _ m e => .fin false m e
  | .inf _ => .inf false
  | .nan s => .nan s

/-- The larger of two values. -/
def fmaxVal (a b : FVal) : FVal := if flt a b then b else a

/-- `crown_row` (R309): the crown value of a query row over a page's pairs, under score scale `c`. -/
def crownRow (c : FVal) (q : List FVal) (pairs : List (FVal × FVal)) : Nat :=
  let ts := (q.zip pairs).filter (fun e => !e.1.isZero)
  if ts.any (fun e => e.2.1.isInf || e.2.2.isInf) then 0x7F800000
  else
    let u := ts.map (fun e => fmaxVal (fmul e.1 e.2.1) (fmul e.1 e.2.2))
    let a := ts.map (fun e => (fmul e.1.mag (fmaxVal e.2.1.mag e.2.2.mag)).scale (-18))
    rnd32 2 (fmul (fp32.val (nextUp32 (rnd32 2 (fsum 0 (u ++ a))))) c)

/-- The larger of two FP32 codes, the first where they are equal. -/
def max32 (a b : Nat) : Nat := if flt (fp32.val a) (fp32.val b) then b else a

/-- The crown of a page: the maximum over the valid rows (R309). -/
def crownOf (c : FVal) (qs : List (List FVal)) (h : PageHdr) : Nat :=
  let pairs := h.pairs.map (fun p => (bf16.val p.1, bf16.val p.2))
  match qs.map (fun q => crownRow c q pairs) with
  | [] => 0
  | z :: rest => rest.foldl max32 z

/-- The scaled score of a key under a query row (R311): four block sums, accumulated, then scaled. -/
def scoreOf (c : FVal) (q key : List FVal) (sc : List Byte) : Nat :=
  let s := (List.range 4).foldl (fun a b =>
    let ps := (((q.drop (32 * b)).take 32).zip ((key.drop (32 * b)).take 32)).map (fun e => fmul e.1 e.2)
    (faddBits fp32 0 a (blockSum ps (sc.getD b 0).toNat 127)).1) 0
  rnd32 0 (fmul (fp32.val s) c)

/-- One row while a page is visited: reference exponent, denominator, columns 0 to 127, and what the range registers
have met (R262, R311). -/
structure RowRun where
  eref : Option Int
  sum : Nat
  acc : List Nat
  hits : List Nat
  raised : List (Nat × Word)
  deriving DecidableEq, Repr

/-- A row with its columns written through the range registers of a group (R262). -/
def RowRun.write (r : RowRun) (g : Option Group) (tile : Nat) (vals : List Nat) : RowRun :=
  match g with
  | none => { r with acc := vals }
  | some g =>
    let c := g.checkWrites 1 tile fp32 vals
    { r with acc := c.1, hits := r.hits ++ c.2.1, raised := r.raised ++ c.2.2.toList }

/-- The row with its reference exponent set for a token of exponent `e`, rescaled where it must be (R311). -/
def RowRun.refer (r : RowRun) (g : Option Group) (tile : Nat) (e : Int) : RowRun :=
  match r.eref with
  | none => { r with eref := some e }
  | some f =>
    if f + 8 < e then
      let k := f - e
      let t := r.write g tile (r.acc.map (fun a => rnd32 0 ((fp32.val a).scale k)))
      { t with eref := some e, sum := rnd32 0 ((fp32.val r.sum).scale k) }
    else r

/-- One token committed to a row: its scaled score and its dequantised values (R311). -/
def RowRun.token (g : Option Group) (tile : Nat) (r : RowRun) (tok : FVal × List FVal) : RowRun :=
  let x := floorQ16 tok.1
  let r := r.refer g tile (x / 65536)
  match qpOf (x - r.eref.getD 0 * 65536) with
  | .zero => r
  | p =>
    let t := r.write g tile ((r.acc.zip tok.2).map (fun e => rnd32 0 (fsum 0 [fp32.val e.1, fmul p.val e.2])))
    { t with sum := rnd32 0 (fsum 0 [fp32.val r.sum, p.val]) }

/-- One page's share of a residual (R312). -/
def residualTerm (eref : Int) (entry : Nat) : FVal :=
  let z := entry % 2 ^ 32
  if z / 2 ^ 23 % 256 = 255 then .inf false
  else fmul (qpOf (floorQ16 (fp32.val z) - eref * 65536)).val (.fin false (entry / 2 ^ 38 % 128) 0)

/-- The residual of a row over the unvisited entries (R312). -/
def residualOf (eref : Option Int) (u : List Nat) : Nat :=
  match eref with
  | none => if u.isEmpty then 0 else 0x7F800000
  | some e => u.foldl (fun r z => rnd32 2 (fsum 2 [fp32.val r, residualTerm e z])) 0

/-- `(1 − τ) R ≤ τ S`, exactly (R312). -/
def withinTau (tau r s : Nat) : Bool :=
  let t := fp32.val tau
  !flt (fmul t (fp32.val s)) (fmul (fsum 0 [.fin false 1 0, t.negate]) (fp32.val r))

/-- The brim of a row: `R / (S + R)` rounded up (R313). -/
def brimOf (r s : Nat) : Nat :=
  match fp32.val r, fsum 0 [fp32.val s, fp32.val r] with
  | .fin _ m e, .fin _ n d =>
    if n = 0 then 0
    else
      let q := sticky (m * 2 ^ 240 / n) (decide (m * 2 ^ 240 % n ≠ 0)) (e - d - 240)
      rnd32 2 (.fin false q.1 q.2)
  | .inf _, _ => 0x3F800000
  | _, _ => 0

/-! ### The engine's view of its operands -/

/-- The first page of the window. -/
def AttnRun.first (r : AttnRun) : Nat := r.wstart / 64
/-- The pages of the window, ascending. -/
def AttnRun.pages (r : AttnRun) : List Nat := (List.range r.np).map (fun i => r.first + i)
/-- Shared offset of the work-area entry of page `k` (R310). -/
def AttnRun.entryAt (r : AttnRun) (k : Nat) : Nat := r.op.work.toNat + 8 * (k - r.first)

/-- The work-area entry of page `k`, as the engine reads it (R308). -/
def State.attnEntry (s : State) (r : AttnRun) (k : Nat) : Nat :=
  match r.shm with
  | some m => m.readN (r.entryAt k) 8
  | none => leNat ((s.ownView r.op.gid r.op.id).shmRead r.op.bid (r.entryAt k) 8)

/-- `s` with the entry of page `k` written by the engine. -/
def State.attnPut (s : State) (r : AttnRun) (k v : Nat) : State :=
  match r.shm with
  | some m => s.modCore r.op.core (fun c => { c with attnRun := c.attnRun.map (fun q =>
      if q.op.id = r.op.id then { q with shm := some (m.writeN (r.entryAt k) 8 v) } else q) })
  | none =>
  (s.keepLines r.op.bid (r.entryAt k) 8).shmPut r.op.bid (r.entryAt k) (leBytes 8 v)

/-- The query rows as BF16 codes (R306). -/
def State.attnQuery (s : State) (r : AttnRun) : List (List Nat) :=
  (List.range r.rows).map (fun i => (List.range 128).map (fun d =>
    leNat ((List.range 2).map (fun b => s.slotByte r.op.core r.op.slotQ (256 * i + 2 * d + b)))))

/-- The query rows as values. -/
def queryVals (q : List (List Nat)) : List (List FVal) := q.map (fun l => l.map bf16.val)

/-- The marked unit that the engine meets in its query slot, work area, tile or partition (R57). -/
def State.attnParity (s : State) (r : AttnRun) (state : Bool) : Option Unit_ :=
  let c := r.op.core
  ((s.rangesHit 6 c r.op.slotQ [(0, 256 * r.rows)]).or
    (if s.parity.isEmpty || !state then none else s.shmHit r.op.bid r.op.work.toNat (8 * r.np))).or
  (if state then
    (s.rangesHit 7 c r.op.tile ((List.range r.rows).map (fun i => (192 * i, 128)))).or
      (s.rangesHit 8 c r.op.tile [(0, 48 * r.rows)])
   else none)

/-- Main memory as the engine reads it (R25, R78, R129, R316). -/
def State.attnRead (s : State) (r : AttnRun) (what k va n : Nat) : Except AttnFault (List Byte) :=
  match lineErr va n (failedAsks r.op.tier) with
  | some e => .error (attnMem what k r.visits e)
  | none =>
    match s.kvRead r.op.core r.op.ctx .attention va n with
    | .ok bs => .ok bs
    | .error e => .error (attnMem what k r.visits e)

/-- The header of frame `f` for page `k` (R90). -/
def State.attnHdr (s : State) (r : AttnRun) (k f : Nat) : Except AttnFault PageHdr :=
  match s.attnRead r 1 k (s.headerVa r.op.ctx f) 1024 with
  | .ok bs => .ok (hdrOf bs)
  | .error e => .error e

/-- The header conditions of R91 and R310 for slots `first .. first + n - 1`. -/
def PageHdr.bad (h : PageHdr) (k first n : Nat) : Bool := h.malformed k || badScale h.ks first n || badScale h.vs first n

/-- The ranges that the engine reads for page `k`: the map entry, the header of its frame, and the keys and values of `n`
slots from `first` on (R310, R311). -/
def State.attnRanges (s : State) (r : AttnRun) (k first n : Nat) : List (Nat × Nat) :=
  let e := r.mapb + 4 * k
  let more := match s.kvRead r.op.core r.op.ctx .attention e 4 with
    | .ok bs =>
      let st := entStatus (leNat bs)
      let f := entFrame (leNat bs)
      if st = 3 ∨ st = 7 ∨ (statusSub st).isSome then []
      else (s.headerVa r.op.ctx f, 1024) :: (if n = 0 then [] else
        [(s.frameVa r.op.ctx f + 128 * first, 128 * n), (s.frameVa r.op.ctx f + 0x2000 + 128 * first, 128 * n)])
    | .error _ => []
  (e, 4) :: more

/-- `s` after the requests of the engine for page `k` have been served (R24, R60, R62). -/
def State.attnKeep (s : State) (r : AttnRun) (k first n : Nat) : State :=
  s.kvTouch r.op.core r.op.ctx .attention (failedAsks r.op.tier) (s.attnRanges r k first n)

/-- Channels and slots can serve what the engine reads for page `k` (R69, R81). -/
def State.attnReady (s : State) (r : AttnRun) (k first n : Nat) : Bool :=
  (s.attnRanges r k first n).all (fun e => s.kvReady r.op.core r.op.ctx .attention false e.1 e.2)

/-- The lines of the CXL tier that the engine reaches for page `k`. -/
def State.attnLines (s : State) (r : AttnRun) (k first n : Nat) : List (Nat × Nat) :=
  (s.attnRanges r k first n).flatMap (fun e => s.kvTier r.op.core r.op.ctx .attention false e.1 e.2)

/-- `s` with what an operation has asked of the tier. -/
def State.attnTierSet (s : State) (core id : Nat) (l : List TierAsk) : State :=
  s.modCore core (fun c => { c with
    attnQ := c.attnQ.map (fun o => if o.id = id then { o with tier := l } else o)
    attnRun := c.attnRun.map (fun r => if r.op.id = id then { r with op := { r.op with tier := l } } else r) })

/-- An operation sends its requests to the tier and waits (R60, R62, R78). -/
def State.attnAsk (s : State) (op : AttnOp) (lines : List (Nat × Nat)) : State :=
  let r := s.tierSend (.attn op.core op.id) op.core op.ctx lines
  r.1.attnTierSet op.core op.id (op.tier ++ r.2)

/-- What an operation does about the lines of the tier that it needs: it goes on, waits for answers, or has yet to ask. -/
inductive TierStep where
  | go
  | wait
  | ask (lines : List (Nat × Nat))
  deriving DecidableEq, Repr

/-- What an operation that needs these lines of the tier does (R78). -/
def AttnOp.tierStep (o : AttnOp) (lines : List (Nat × Nat)) : TierStep :=
  if o.tier.any (fun a => a.status.isNone) then .wait
  else
    match notAsked o.tier lines with
    | [] => .go
    | l => .ask l

/-! ### Phase 1 (R310) -/

/-- The entry that phase 1 gives page `k`. -/
def State.phaseEntry (s : State) (r : AttnRun) (qs : List (List FVal)) (k : Nat) : Except AttnFault Nat :=
  match s.attnRead r 0 k (r.mapb + 4 * k) 4 with
  | .error e => .error e
  | .ok bs =>
    let st := entStatus (leNat bs)
    if st = 3 ∨ st = 7 then .ok (2 ^ 46)
    else
      match statusSub st with
      | some sub => .error (.stop (attnX sub 0 0 k r.visits))
      | none =>
        match s.attnHdr r k (entFrame (leNat bs)) with
        | .error e => .error e
        | .ok h =>
          let first := r.wstart - 64 * k
          let n := min h.valid (r.len - 64 * k) - first
          if h.bad k first n then .error (.stop (attnX 5 1 0 k r.visits))
          else if n = 0 then .ok (2 ^ 46)
          else .ok (crownOf (fp32.val r.scale.toNat) qs h + first * 2 ^ 32 + n * 2 ^ 38)

/-- Phase 1 over a list of pages: the state with the entries written, and the fault that ended it. -/
def State.phase1 (s : State) (r : AttnRun) (qs : List (List FVal)) : List Nat → State × Option AttnFault
  | [] => (s, none)
  | k :: rest =>
    match s.phaseEntry r qs k with
    | .error e => (s, some e)
    | .ok v => ((s.attnKeep r k 0 0).attnPut r k v).phase1 r qs rest

/-! ### A visit (R311) -/

/-- The keys, values and scales of the slots of a visit, from slot `first` on. -/
structure Tokens where
  first : Nat
  n : Nat
  keys : List Byte
  vals : List Byte
  hdr : PageHdr
  deriving DecidableEq, Repr

/-- The dequantised values of the `i`-th token (R91). -/
def Tokens.valsOf (t : Tokens) (i : Nat) : List FVal :=
  (List.range 128).map (fun d => deq (t.vals.getD (128 * i + d) 0) (t.hdr.vs.getD (4 * (t.first + i) + d / 32) 0))

/-- The key of the `i`-th token, without its scales. -/
def Tokens.keyOf (t : Tokens) (i : Nat) : List FVal := ((t.keys.drop (128 * i)).take 128).map (fun b => e4m3.val b.toNat)

/-- What a visit reads of page `k` under its work-area entry: `none` where the page has been trimmed or cut. -/
def State.visitRead (s : State) (r : AttnRun) (k entry : Nat) : Except AttnFault (Option Tokens) :=
  match s.attnRead r 0 k (r.mapb + 4 * k) 4 with
  | .error e => .error e
  | .ok bs =>
    let st := entStatus (leNat bs)
    if st = 3 ∨ st = 7 then .ok none
    else
      match statusSub st with
      | some sub => .error (.stop (attnX sub 0 0 k r.visits))
      | none =>
        let f := entFrame (leNat bs)
        let first := entry / 2 ^ 32 % 64
        let n := entry / 2 ^ 38 % 128
        match s.attnHdr r k f with
        | .error e => .error e
        | .ok h =>
          if h.bad k first n || decide (h.valid < first + n) then .error (.stop (attnX 5 1 0 k r.visits))
          else
            match s.attnRead r 2 k (s.frameVa r.op.ctx f + 128 * first) (128 * n),
                s.attnRead r 2 k (s.frameVa r.op.ctx f + 0x2000 + 128 * first) (128 * n) with
            | .error e, _ => .error e
            | .ok _, .error e => .error e
            | .ok keys, .ok vals =>
              if badByte keys || badByte vals then .error (.stop (attnX 5 2 0 k r.visits))
              else .ok (some ⟨first, n, keys, vals, h⟩)

/-- Row `i` of the operation's tile and partition. -/
def State.rowRun (s : State) (r : AttnRun) (i : Nat) : RowRun :=
  let x := s.tileOf r.op.core r.op.tile
  let row := x.rows.getD i ⟨none, 0⟩
  ⟨row.eref, row.sum.toNat, (List.range 128).map (fun d => x.elem (192 * i + d)), [], []⟩

/-- The operation has been spoilt by another agent's write (R308), or by a change since phase 1 (R315). -/
def State.attnSpoilt (s : State) (op : AttnOp) : Bool :=
  match s.groups.get? op.gid with
  | some g => g.ops.any (fun o => o.id == op.id && o.spoilt)
  | none => false

/-- The group whose range registers check what an operation writes to its tile: none where the operation is spoilt, since undefined
values never trap (R6, R262). -/
def State.attnGuard (s : State) (op : AttnOp) : Option Group := if s.attnSpoilt op then none else s.groups.get? op.gid

/-- `s` with row `i` written back, its hits set and its raises recorded (R262, R263). -/
def State.putRow (s : State) (r : AttnRun) (i : Nat) (x : RowRun) : State :=
  let c := r.op.core
  let k := r.op.tile
  let t := s.tilePut c k ((List.range 128).map (fun d => (192 * i + d, x.acc.getD d 0)))
  let t := t.setTile c k { t.tileOf c k with rows := (t.tileOf c k).rows.set i ⟨x.eref, BitVec.ofNat 32 x.sum⟩ }
  let t := if t.parity.isEmpty then t else t.parityClear 8 c 0 k (48 * i) 48
  let t := if x.hits.isEmpty then t else t.modGroup r.op.gid (fun g => g.markHits x.hits)
  x.raised.foldl (fun u e => State.opErr u r.op.gid 2 r.op.id e.1 e.2) t

/-- A visit commits its tokens to every valid row, or faults on a score that is not finite (R311). -/
def State.visitCommit (s : State) (r : AttnRun) (k : Nat) (t : Tokens) : Except AttnFault State :=
  let qs := queryVals (s.attnQuery r)
  let c := fp32.val r.scale.toNat
  let keys := (List.range t.n).map (fun i => (t.keyOf i, (t.hdr.ks.drop (4 * (t.first + i))).take 4))
  let scores := qs.map (fun q => keys.map (fun e => fp32.val (scoreOf c q e.1 e.2)))
  if scores.any (fun l => l.any (fun v => v.isNan || v.isInf)) then .error (.stop (attnX 9 2 0 k r.visits))
  else
    let vals := (List.range t.n).map t.valsOf
    let g := s.attnGuard r.op
    let name := s.tileName r.op.bid r.op.tile
    .ok (((List.range r.rows).zip scores).foldl (fun u e =>
      State.putRow u r e.1 ((e.2.zip vals).foldl (RowRun.token g name) (s.rowRun r e.1))) s)

/-! ### The end of an operation (R313, R314) -/

/-- The word of a cursor (R314). -/
def cursorWord (p1 : Bool) (stop np visits : Nat) : Word :=
  w64 (2 ^ 63 + b2n p1 * 2 ^ 62 + stop * 2 ^ 59 + np % 2 ^ 17 * 2 ^ 32 + visits % 2 ^ 32)

/-- `s` with output bytes of a descriptor written to their slice by the engine, held bytes first (R46, R129). -/
def State.descPut (s : State) (op : AttnOp) (at' : Nat) (bs : List Byte) : State :=
  let lin := s.spBase op.ctx (dieOf op.core) + op.desc + at'
  (s.wbDrainRange op.core lin bs.length).slicePut (dieOf op.core) lin bs

/-- `s` after an operation lets go of what it uses and completes, with the error given (R53, R283). -/
def State.attnDone (s : State) (op : AttnOp) (e : Option (Nat × Word)) : State :=
  let t := match e with
    | some (c, x) => s.opErr op.gid 2 op.id c x
    | none => s
  let t := t.modCore op.core (fun c => { c with attnRun := none, attnQ := c.attnQ.filter (fun o => o.id != op.id) })
  (t.attnRelease op).opComplete op.gid 2 op.id

/-- The tile of an operation is undefined: a marked unit was met, or a range register raised (R57, R263). -/
def State.attnVoid (s : State) (op : AttnOp) : Bool :=
  match s.groups.get? op.gid with
  | some g => g.errs.any (fun e => e.op == op.id && e.cause != 0x13)
  | none => false

/-- The cause and TRAPX that a fault reports, the state having logged a marked unit (R58, R316). -/
def State.attnReport (s : State) : AttnFault → State × Nat × Word
  | .stop x => (s, 0x13, x)
  | .mark u => (s.parityLog u, 7, parityX u)

/-- The unvisited entries of the work area without SKIP (R312). -/
def State.unvisited (s : State) (r : AttnRun) : List (Nat × Nat) :=
  (r.pages.map (fun k => (k, s.attnEntry r k))).filter (fun e => e.2 / 2 ^ 45 % 4 == 0)

/-- The columns that a stop gives row `i`, and its brim (R313). -/
def State.stopRow (s : State) (r : AttnRun) (u : Option (List Nat)) (i : Nat) : List (Nat × Nat) × Nat :=
  let row := (s.tileOf r.op.core r.op.tile).rows.getD i ⟨none, 0⟩
  let res := match u with
    | some l => residualOf row.eref l
    | none => 0x7F800000
  let e := match row.eref with
    | some x => rnd32 0 (ofInt x)
    | none => 0xFF800000
  ([(192 * i + 128, row.sum.toNat), (192 * i + 129, e), (192 * i + 130, res)], brimOf res row.sum.toNat)

/-- The bytes of a descriptor without SCALE, TAU and BUDGET, which a resumption reads anew, `out` being those of CURSOR and BRIM (R315). -/
def descKeep (bs out : List Byte) : List Byte := bs.take 0x10 ++ (bs.drop 0x1C).take 12 ++ out ++ bs.drop 0x34

/-- What the query of an operation leaves, `out` being the bytes of CURSOR and BRIM (R315). -/
def State.queryMark (s : State) (r : AttnRun) (out : List Byte) : QueryMark :=
  ⟨descKeep r.desc out, r.query, s.tileOf r.op.core r.op.tile, r.pages.map (s.attnEntry r)⟩

/-- Two records of a query agree in the descriptor, the query, every element of the tile, every row of the partition and the work
area. -/
def QueryMark.same (a b : QueryMark) : Bool :=
  decide (a.desc = b.desc) && decide (a.query = b.query) && decide (a.work = b.work) &&
  (List.range (128 * 192)).all (fun k => a.tile.elem k == b.tile.elem k) &&
  (List.range 128).all (fun i => decide (a.tile.rows.getD i ⟨none, 0⟩ = b.tile.rows.getD i ⟨none, 0⟩))

/-- Nothing has changed since a stop that left phase 1 complete, as an operation that resumes finds it (R315). -/
def State.queryKept (s : State) (r : AttnRun) : Bool :=
  match s.blocks.get? r.op.bid with
  | some b => b.queries.any (fun q => q.same (s.queryMark r ((r.desc.drop 0x28).take 12)))
  | none => false

/-- `s` with one more record of a query of a block. -/
def State.queryAdd (s : State) (bid : Nat) (q : QueryMark) : State :=
  s.modBlock bid (fun b => { b with queries := b.queries ++ [q] })

/-- `s` after an operation that starts no visit writes CURSOR alone: a query whose descriptor it was goes on under the new cursor. -/
def State.queryMove (s : State) (bid : Nat) (old new : Word) : State :=
  let cur := fun (w : Word) (bs : List Byte) => bs.take 0x1C ++ wBytes w ++ bs.drop 0x24
  s.modBlock bid (fun b => { b with queries := b.queries ++
    (b.queries.filter (fun q => decide (cur old q.desc = q.desc))).map (fun q => { q with desc := cur new q.desc }) })

/-- A fault of a visit that rests on the undefined bytes of a spoilt operation is none (R6; assumption log 140). -/
def AttnFault.unlessSpoilt (spoilt : Bool) : AttnFault → Option AttnFault
  | .stop x => if spoilt && (bits x 60 4 == 5 || bits x 60 4 == 9) then none else some (.stop x)
  | .mark u => some (.mark u)

/-- A stop of an operation whose descriptor is valid (R313): columns 128 to 130, BRIM and CURSOR; `p1` says that phase 1
is complete. The outputs of a spoilt operation are undefined (R308), and what another leaves is remembered (R315). -/
def State.attnStop (s : State) (r : AttnRun) (p1 : Bool) (code : Nat) (f : Option AttnFault) : State :=
  let op := r.op
  let spoilt := s.attnSpoilt op
  let u := if p1 then some ((s.unvisited r).map (fun e => e.2)) else none
  let rows := (List.range r.rows).map (s.stopRow r u)
  let cells := rows.flatMap (fun e => e.1)
  let (t, raised) := if spoilt then (s.tilePut op.core op.tile cells, none) else s.tileChecked op.core op.tile op.gid cells
  let t := match raised with
    | some (c, x) => t.opErr op.gid 2 op.id c x
    | none => t
  let out := wBytes (cursorWord p1 code r.np r.visits) ++ leBytes 4 (rows.foldl (fun m e => max m e.2) 0)
  let t := t.descPut op 0x28 (if spoilt then (t.undefBytes op.id 12).map (fun e => e.b) else out)
  let (t, e) := match f.bind (AttnFault.unlessSpoilt spoilt) with
    | some f => let z := t.attnReport f; (z.1.opErr op.gid 2 op.id z.2.1 z.2.2, some z.2)
    | none => (t, none)
  let lost := spoilt || t.attnVoid op
  let t := if lost then t.tileUndef op.core op.tile else t
  let t := if spoilt then t.rowsUndef op.core op.tile else t
  (if lost || !p1 then t else t.queryAdd op.bid (t.queryMark r out)).attnDone op e

/-! ### Start (R308, R315) -/

/-- The bytes of its descriptor as the engine reads them (R129). -/
def State.attnDescBytes (s : State) (op : AttnOp) : List Byte :=
  (s.ownView op.gid op.id).spdRead op.core (s.spBase op.ctx (dieOf op.core) + op.desc) 64

/-- The descriptor as the engine reads it (R129), and the marked unit it meets. -/
def State.attnDesc (s : State) (op : AttnOp) : Desc × Option Unit_ :=
  (descOf (s.attnDescBytes op), s.spdParity op.core (s.spBase op.ctx (dieOf op.core) + op.desc) 64)

/-- An operation resumes from the cursor (R315). -/
def resumes (op : AttnOp) (cur : Word) : Bool := op.resume && cur.getLsbD 63 && cur.getLsbD 62

/-- The fields of a descriptor as an operation begins. -/
def Desc.run (d : Desc) (op : AttnOp) : AttnRun :=
  let res := resumes op d.cursor
  { op := op, rows := d.rows, len := d.len, wstart := d.wstart, scale := BitVec.ofNat 32 d.scale
    tau := BitVec.ofNat 32 d.tau, budget := d.budget, mapb := d.mapb, np := pagesIn d.len d.wstart
    visits := if res then bits d.cursor 0 32 else 0, desc := [], query := [], shm := none }

/-- The descriptor and the work area are valid (R305, R315). -/
def State.attnValid (s : State) (d : Desc) (op : AttnOp) : Bool :=
  let c := fp32.val d.scale
  let t := fp32.val d.tau
  let room := match s.blocks.get? op.bid with
    | some b => b.shmKiB * 1024
    | none => 0
  decide (1 ≤ d.rows) && decide (d.rows ≤ 128) && d.inRange && d.zeros && flt (.fin false 0 0) c && !c.isInf &&
  !t.isNan && !flt t (.fin false 0 0) && flt t (.fin false 1 0) &&
  decide (op.work.toNat + 8 * pagesIn d.len d.wstart ≤ room) &&
  (!resumes op d.cursor || decide (pagesIn d.len d.wstart = bits d.cursor 32 17))

/-- A stop that writes the cursor alone: an invalid descriptor, or one that cannot be read (R57, R316). -/
def State.attnBad (s : State) (op : AttnOp) (d : Desc) (f : AttnFault) : State :=
  let cur := if resumes op d.cursor then cursorWord true 4 (bits d.cursor 32 17) (bits d.cursor 0 32)
    else cursorWord false 4 0 0
  let spoilt := s.attnSpoilt op
  let t := s.descPut op 0x28 (if spoilt then (s.undefBytes op.id 8).map (fun e => e.b) else wBytes cur)
  let z := (if spoilt || !resumes op d.cursor then t else t.queryMove op.bid d.cursor cur).attnReport f
  let t := z.1.opErr op.gid 2 op.id z.2.1 z.2.2
  (if spoilt || t.attnVoid op then t.tileUndef op.core op.tile else t).attnDone op (some z.2)

/-- A fresh start: row state unset, columns 0 to 127 of the valid rows +0 (R315). -/
def State.attnFresh (s : State) (r : AttnRun) : State :=
  let g := s.groups.get? r.op.gid
  let name := s.tileName r.op.bid r.op.tile
  (List.range r.rows).foldl (fun u i =>
    State.putRow u r i ((⟨none, 0, [], [], []⟩ : RowRun).write g name (List.replicate 128 0))) s

/-- `s` with the bytes that an operation uses taken from its descriptor as it starts (R308). -/
def State.attnUseSet (s : State) (op : AttnOp) (d : Desc) : State :=
  let uses := attnUsed op.work.toNat (pagesIn d.len d.wstart) (s.spBase op.ctx (dieOf op.core) + op.desc)
  s.modGroup op.gid (fun g => { g with ops := g.ops.map (fun o => if o.id = op.id then { o with uses := uses } else o) })

/-- `s` after a resumption that finds something changed since phase 1: it ends at once, its outputs undefined, without a trap (R315). -/
def State.attnLost (s : State) (r : AttnRun) : State :=
  let op := r.op
  let t := s.modGroup op.gid (fun g => { g with ops := g.ops.map (fun o => if o.id = op.id then { o with spoilt := true } else o) })
  let t := t.descPut op 0x28 ((t.undefBytes op.id 12).map (fun e => e.b))
  ((t.tileUndef op.core op.tile).rowsUndef op.core op.tile).attnDone op none

/-- The engine begins an operation (R308, R315): validation, then phase 1 unless it resumes. -/
def State.attnBegin (s : State) (op : AttnOp) : State :=
  match s.attnDesc op with
  | (d, some u) => s.attnBad op d (.mark u)
  | (d, none) =>
    if !s.attnValid d op then s.attnBad op d (.stop (attnX 10 3 0 0 (if resumes op d.cursor then bits d.cursor 0 32 else 0)))
    else
      let r := d.run op
      let r := { r with desc := s.attnDescBytes op, query := s.attnQuery r }
      let res := resumes op d.cursor
      let t := if res then s else s.attnFresh r
      let t := (t.modCore op.core (fun c => { c with attnQ := c.attnQ.filter (fun o => o.id != op.id), attnRun := some r })).attnUseSet op d
      match t.attnParity r res with
      | some u => t.attnStop r res 4 (some (.mark u))
      | none =>
        let qs := queryVals (t.attnQuery r)
        if res && !t.attnSpoilt op && !t.queryKept r then t.attnLost r
        else if qs.any (fun l => l.any (fun v => v.isNan || v.isInf)) then t.attnStop r res 4 (some (.stop (attnX 9 3 0 0 r.visits)))
        else if res then t
        else
          match t.phase1 r qs r.pages with
          | (u, some f) => u.attnStop r false 4 (some f)
          | (u, none) => u.attnTierSet op.core op.id []

/-- The pages whose map entries and headers an operation reads as it starts: all of the window unless it resumes or stops
before phase 1 (R310). -/
def State.startPages (s : State) (op : AttnOp) : AttnRun × List Nat :=
  let d := (s.attnDesc op).1
  let r := d.run op
  (r, if (s.attnDesc op).2.isSome || !s.attnValid d op || resumes op d.cursor then [] else r.pages)

/-- What an operation does about the tier as it starts (R78). -/
def State.startTier (s : State) (op : AttnOp) : TierStep :=
  let p := s.startPages op
  op.tierStep (p.2.flatMap (fun k => s.attnLines p.1 k 0 0))
/-- The start of an operation can be served: channels and slots accept its requests (R69, R81). -/
def State.startServes (s : State) (op : AttnOp) : Bool :=
  let p := s.startPages op
  p.2.all (fun k => s.attnReady p.1 k 0 0)

/-- A queued operation whose block is evicted whole completes at once (R317). -/
def State.attnCut (s : State) (op : AttnOp) : State :=
  let d := (s.attnDesc op).1
  let cur := if resumes op d.cursor then setBits d.cursor 59 3 5 else cursorWord false 5 0 0
  let t := s.descPut op 0x28 (if s.attnSpoilt op then (s.undefBytes op.id 8).map (fun e => e.b) else wBytes cur)
  (if s.attnSpoilt op || !resumes op d.cursor then t else t.queryMove op.bid d.cursor cur).attnDone op none

/-- A whole-block eviction of the block has begun (R317). -/
def State.blockLeaves (s : State) (bid : Nat) : Bool :=
  match s.blocks.get? bid with
  | some b => b.evicting
  | none => false

/-- The array of the core is free for the attention engine of a group of priority `pri`: no paired operation keeps it, and no matrix
operation of higher priority is selected (R171, R173, R308). The engine runs while the holder of a lease has nothing queued
(assumption log 138). -/
def State.attnTurn (s : State) (core pri : Nat) : Bool :=
  s.arrayFree core && !s.arrayKept core && (match s.arrayPick core with
    | some o => decide (o.pri ≤ pri)
    | none => true)

/-- Priority of the group of an operation. -/
def State.attnPri (s : State) (op : AttnOp) : Nat :=
  match s.groups.get? op.gid with
  | some g => g.pri
  | none => 0

/-- `s` with the array of a core used by the attention engine, and whether it may be now (R170, R308). -/
def State.attnArray (s : State) (op : AttnOp) : State × Bool :=
  if !s.attnTurn op.core (s.attnPri op) then (s, false)
  else
    let (t, ok) := s.startArrays [op.core]
    if ok then
      (t.modArray op.core (fun a => { a with active := true, granted := false, requested := false, lastUse := t.time }), true)
    else (t, false)

/-- ATTN_START (R308, R315, R317): the attention engine of a core begins its oldest operation. -/
def execAttnStart (core : Nat) (s : State) : Host.Outcome State Fault Refusal :=
  .next (match (s.core core).attnQ.find? (fun o => s.blockLeaves o.bid) with
    | some o => s.attnCut o
    | none =>
      match (s.core core).attnRun, (s.core core).attnQ with
      | none, o :: _ =>
        if !s.startServes o then s
        else
          match s.startTier o with
          | .ask l => s.attnAsk o l
          | .wait => s
          | .go =>
            match s.attnArray o with
            | (t, true) => t.attnBegin o
            | (t, false) => t
      | _, _ => s)

/-! ### Visits (R312) -/

/-- The page that is visited next: the largest crown, ties to the lowest page. -/
def nextPage : List (Nat × Nat) → Option (Nat × Nat)
  | [] => none
  | e :: rest => some (rest.foldl (fun b x => if flt (fp32.val (b.2 % 2 ^ 32)) (fp32.val (x.2 % 2 ^ 32)) then x else b) e)

/-- Every valid row meets the tolerance (R312). -/
def State.tauMet (s : State) (r : AttnRun) (u : List Nat) : Bool :=
  (List.range r.rows).all (fun i =>
    let row := (s.tileOf r.op.core r.op.tile).rows.getD i ⟨none, 0⟩
    withinTau r.tau.toNat (residualOf row.eref u) row.sum.toNat)

/-- `next_step` (R312): the reason to stop, or the page to visit with its entry. -/
def State.attnNext (s : State) (r : AttnRun) : Except Nat (Nat × Nat) :=
  let u := s.unvisited r
  match nextPage u with
  | none => .error 2
  | some e =>
    if s.tauMet r (u.map (fun x => x.2)) then .error 1
    else if r.budget ≠ 0 ∧ r.budget ≤ r.visits then .error 3
    else if s.blockLeaves r.op.bid then .error 5
    else .ok e

/-- The page is marked visited and the visit counted (R312). -/
def State.attnVisited (s : State) (r : AttnRun) (k entry : Nat) : State :=
  (s.attnPut r k (entry + 2 ^ 45)).modCore r.op.core (fun c => { c with
    attnRun := c.attnRun.map (fun q => { q with visits := q.visits + 1, op := { q.op with tier := [] } }) })

/-- First slot and number of slots of a work-area entry (R310). -/
def entrySlots (entry : Nat) : Nat × Nat := (entry / 2 ^ 32 % 64, entry / 2 ^ 38 % 128)

/-- One visit of page `k` (R311). -/
def State.attnStep (s : State) (r : AttnRun) (k entry : Nat) : State :=
  match s.visitRead r k entry with
  | .error f => s.attnStop r true 4 (some f)
  | .ok none => s.attnVisited r k entry
  | .ok (some t) =>
    match s.visitCommit r k t with
    | .error f => s.attnStop r true 4 (some f)
    | .ok u => u.attnVisited r k entry

/-- ATTN_VISIT (R311, R312): the engine stops, or visits one page, once channels and slots can serve its requests (R69, R81)
and the CXL tier has answered where the page lies in it (R78). An operation whose context has been terminated runs on to its
end (R346). -/
def execAttnVisit (core : Nat) (s : State) : Host.Outcome State Fault Refusal :=
  .next (match (s.core core).attnRun with
    | none => s
    | some r =>
      match s.attnParity r true with
      | some u => s.attnStop r true 4 (some (.mark u))
      | none =>
        match s.attnNext r with
        | .error code => s.attnStop r true code none
        | .ok (k, entry) =>
          let (first, n) := entrySlots entry
          if !s.attnReady r k first n then s
          else
            match r.op.tierStep (s.attnLines r k first n) with
            | .ask l => s.attnAsk r.op l
            | .wait => s
            | .go =>
              match s.attnArray r.op with
              | (t, true) => (t.attnKeep r k first n).attnStep r k entry
              | (t, false) => t)

end Sys2Proof.Machine
end

