-- ==== Sys2Proof/Machine/Bench.lean ====
section
/-!
DEFINITION. The bench instructions (R327 to R332), the seam journal (R333 to R339), and the counter-based generator
(R340), major 0x7A.
-/
namespace Sys2Proof.Machine

/-! ### Cause 0x15 (R335) -/

/-- TRAPX of cause 0x15. -/
def State.journalX (s : State) (ctx sub : Nat) : Word := w64 (sub * 2 ^ 60 + s.acked ctx)

/-- The causes 0x15 that `jrec`, `jack` and gated deposits share, in the order of R335: an armed partner loss, which is
disarmed as it is taken and stays armed in a handler (R344), then a journal that is not enabled; else `k`. -/
def State.journalChecked (s : State) (j : Issue) (k : State → State) : State :=
  if j.g.armed && !j.sp.trap.hnd then
    (s.modGroup j.gid (fun g => { g with armed := false })).trapAt j 0x15 (s.journalX j.g.ctx 0)
  else if !s.journalOn j.g.ctx then s.trapAt j 0x15 (s.journalX j.g.ctx 2)
  else k s

/-! ### `bdep`, `bcpy`, `btak` (R329, R330) -/

/-- The bench region that an instruction names. -/
def benchRegion (o : YF) : Nat := o.code % 16
/-- Field count of a deposit. -/
def benchNf (o : YF) : Nat := o.code / 16 % 8
/-- The polling form. -/
def benchPoll (o : YF) : Bool := o.code / 128 % 2 == 1
/-- The exact-match mask of a copy or take. -/
def benchMask (o : YF) : Nat := o.code / 256 % 128
/-- The deposit is gated. -/
def benchGated (o : YF) : Bool := o.code / 2 ^ 15 % 2 == 1
/-- The scalar with the gate number. -/
def benchSg (o : YF) : Nat := o.code / 2 ^ 16 % 64

/-- The tag in a scalar. -/
def tagOf (w : Word) : Nat := bits w 0 32

/-- The request that an instruction sends. -/
def benchRequest (op : BenchOp) (o : YF) (id : Nat) (j : Issue) : BenchReq :=
  let dep := op == .dep
  { id := id, op := op, ctx := j.g.ctx, region := benchRegion o, tag := tagOf (j.sp.get o.sa)
    mask := if dep then 0 else benchMask o
    fields := if dep then (List.range (benchNf o)).map (fun i => j.sp.get (o.sa + 1 + i))
      else (List.range 7).map (fun i => if (benchMask o).testBit i then j.sp.get (o.sa + 1 + i) else 0)
    poll := benchPoll o
    gate := if dep && benchGated o then some (j.sp.get (benchSg o)).toNat else none
    who := .split j.gid j.sid }

/-- `s` after the request is sent and its split waits for the reply (R330). -/
def State.benchIssue (s : State) (op : BenchOp) (o : YF) (j : Issue) : State :=
  let (id, t) := s.newId
  ((t.benchSend (benchRequest op o id j)).modSplit j.gid j.sid (fun sp =>
    { sp with wait := .bench id (op != .dep) o.sd none, awake := false })).settle j.gid

/-- A bench instruction as it issues: the checks of R330, then for a deposit the release of R133. -/
def benchFirst (op : BenchOp) (o : YF) (t : State) (j : Issue) : State :=
  let r := benchRegion o
  let tag := tagOf (j.sp.get o.sa)
  if !t.benchUsable j.g.ctx r then t.trapAt j 4 (w64 r)
  else if reservedTag tag then t.trapAt j 6 (w64 tag)
  else
    let send := fun (u : State) =>
      if op == .dep then
        if u.unperformed j.gid then u.hold j else (u.wbDrainAll j.g.core).benchIssue op o j
      else u.benchIssue op o j
    if op == .dep && benchGated o then t.journalChecked j send else send t

/-- The scalars a bench instruction reads. -/
def benchScalars (op : BenchOp) (o : YF) : List Nat :=
  o.sa :: (if op == .dep then
      (List.range (benchNf o)).map (fun i => o.sa + 1 + i) ++ (if benchGated o then [benchSg o] else [])
    else ((List.range 7).filter (benchMask o).testBit).map (fun i => o.sa + 1 + i))

/-- TRAPX of cause 0x14 (R332). -/
def State.benchFullX (s : State) (ctx : Nat) (o : YF) (tag : Nat) : Word :=
  w64 (benchRegion o + homeOf (s.benchd ctx (benchRegion o)) tag * 256)

/-- A bench instruction when it issues and when its reply has arrived. -/
def benchEffect (op : BenchOp) (o : YF) (t : State) (j : Issue) : State :=
  match j.sp.wait with
  | .bench _ got sd (some (some ws)) =>
    let n := if got then 8 else 1
    ((t.scalClear j.g j.sid sd n).modSplit j.gid j.sid (fun sp => (sp.benchTake got sd ws).advance)).settle j.gid
  | .bench _ _ _ (some none) => t.trapAt j 0x14 (t.benchFullX j.g.ctx o (tagOf (j.sp.get o.sa)))
  | .bench _ _ _ none => t
  | _ => issue (fun _ => { scal := benchScalars op o, ret := true }) (benchFirst op o) t j

/-- `bdep` (R329). -/
def execBdep (o : YF) (s : State) : Host.Outcome State Fault Refusal := onIssue s (benchEffect .dep o)
/-- `bcpy` (R329). -/
def execBcpy (o : YF) (s : State) : Host.Outcome State Fault Refusal := onIssue s (benchEffect .cpy o)
/-- `btak` (R329). -/
def execBtak (o : YF) (s : State) : Host.Outcome State Fault Refusal := onIssue s (benchEffect .tak o)

/-! ### Records (R333, R336) -/

/-- Bytes of the local buffer (R333). -/
def State.jbufBytes (s : State) (ctx : Nat) : Nat := bits (s.ctxReg ctx 0x166) 52 12 * 65536

/-- The buffer place of a record: its bytes rounded up to a multiple of 64 (R336). -/
def JRec.place (r : JRec) : Nat := (r.bytes.length + 63) / 64 * 64

/-- Bytes of the local buffer in use: records that the partner has not acknowledged. -/
def State.jbufUsed (s : State) (ctx : Nat) : Nat :=
  ((s.ctx ctx).journal.recs.filter (fun r => decide (s.acked ctx < r.num))).foldl (fun n r => n + r.place) 0

/-- Sequence id of a record (R336). -/
def JRec.sequence (r : JRec) : Nat := leNat (r.bytes.take 4)

/-- The routing length of a staged record, when its header is well formed (R336). -/
def recordLen (hdr : List Byte) : Option Nat :=
  let n := fun (a k : Nat) => leNat ((hdr.drop a).take k)
  if n 0xC 2 ≤ 1024 ∧ n 0xE 2 = 0 ∧ n 0x30 16 = 0 then some (n 0xC 2) else none

/-- The range check of staged bytes (R336). -/
def State.recordRange (s : State) (g : Group) (off : Word) (n : Nat) : Option Nat :=
  if off.toInt < 0 ∨ (s.extent g .spd : Int) < off.toInt + n then some 4
  else if s.inSpan g.ctx (dieOf g.core) (s.origin g .spd + off.toNat) n then some 6
  else none

/-- Address of the local buffer (R333). -/
def State.jbufBase (s : State) (ctx : Nat) : Nat := bits (s.ctxReg ctx 0x166) 16 36 * 65536

/-- `s` with the bytes of a record in the local buffer, from place `pos` of the ring on; a page that cannot be written leaves them
out (assumption log 64). -/
def State.bufferPut (s : State) (ctx pos : Nat) (bs : List Byte) : State :=
  let size := s.jbufBytes ctx
  let lo := pos % size
  let put := fun (t : State) (a : Nat) (l : List Byte) => match t.writeCtx ctx (s.jbufBase ctx + a) l with
    | .ok u => u
    | .error _ => t
  put (put s lo (bs.take (size - lo))) 0 (bs.drop (size - lo))

/-- A record is made, buffered, and sent to a bound partner in number order (R333, R334). -/
def State.recordAdd (s : State) (ctx : Nat) (bs : List Byte) : State :=
  let jr := (s.ctx ctx).journal
  let n := jr.made + 1
  let r : JRec := ⟨n, bs, false⟩
  let sent := if s.jstate ctx = 2 then jr.sent else jr.sent ++ [n]
  (s.bufferPut ctx jr.head bs).setJournal ctx { jr with
    made := n, head := (jr.head + r.place) % s.jbufBytes ctx, recs := jr.recs ++ [r], sent := sent }

/-- `jrec` after its range checks: the causes of R335, then the record. -/
def jrecEffect (o : YF) (n : Nat) (t : State) (j : Issue) : State :=
  t.journalChecked j (fun u =>
    let ctx := j.g.ctx
    let off := j.sp.get o.sa
    if 2 ^ 48 ≤ (u.ctx ctx).journal.made + 1 then u.trapAt j 0x15 (u.journalX ctx 3)
    else if u.jbufBytes ctx < u.jbufUsed ctx + (64 + n + 63) / 64 * 64 then u.trapAt j 0x15 (u.journalX ctx 1)
    else
      match u.spaceParity j.g .spd off.toNat (64 + n) with
      | some m => u.consumeMem j j.sp.mask m
      | none =>
        if !u.memOpen then u.hold j
        else (u.recordAdd ctx (u.windowRead j.g off (64 + n))).putScalar j o.sd (w64 ((u.ctx ctx).journal.made + 1)))

/-- `jrec` as it issues: its checks in the order of R336; it reads its bytes once earlier atomics are performed (R106). -/
def jrecFirst (o : YF) (t : State) (j : Issue) : State :=
  let off := j.sp.get o.sa
  if off.toNat % 64 ≠ 0 then t.trapAt j 3 off
  else
    match t.recordRange j.g off 64 with
    | some c => t.trapAt j c off
    | none =>
      if t.unperformed j.gid then t.hold j
      else
      match t.spaceParity j.g .spd off.toNat 64 with
      | some m => t.consumeMem j j.sp.mask m
      | none =>
        match recordLen (t.windowRead j.g off 64) with
        | none => t.trapAt j 4 off
        | some n =>
          match t.recordRange j.g off (64 + n) with
          | some c => t.trapAt j c off
          | none => jrecEffect o n t j

/-- `jrec` (R336). -/
def execJrec (o : YF) (s : State) : Host.Outcome State Fault Refusal :=
  onIssue s (issue (fun _ => { scal := [o.sa] }) (jrecFirst o))

/-- `jack` (R337). -/
def execJack (o : YF) (s : State) : Host.Outcome State Fault Refusal :=
  onIssue s (issue (fun _ => {}) (fun t j => t.journalChecked j (fun u => u.putScalar j o.sd (w64 (u.acked j.g.ctx)))))

/-- Records that a truncation newly marks (R337). -/
def State.truncates (s : State) (ctx sq upto : Nat) (r : JRec) : Bool :=
  !r.truncated && r.sequence == sq && decide (r.num ≤ min upto (s.acked ctx))

/-- The partner reclaims acknowledged records up to the first that is not marked (R337). -/
def reclaim (acked : Nat) : List JRec → List JRec
  | [] => []
  | r :: t => if r.truncated && decide (r.num ≤ acked) then reclaim acked t else r :: t

/-- `s` with the records of a sequence marked as truncated and what can be reclaimed forgotten. -/
def State.truncate (s : State) (ctx sq upto : Nat) : State :=
  let jr := (s.ctx ctx).journal
  let recs := jr.recs.map (fun r => if s.truncates ctx sq upto r then { r with truncated := true } else r)
  s.setJournal ctx { jr with recs := reclaim (s.acked ctx) recs }

/-- Effect of `jtrunc` (R337, R338): it takes no trap of its own. -/
def jtruncEffect (o : YF) (t : State) (j : Issue) : State :=
  let sq := bits (j.sp.get o.sa) 0 32
  let upto := (j.sp.get (o.sa + 1)).toNat
  let n := ((t.ctx j.g.ctx).journal.recs.filter (t.truncates j.g.ctx sq upto)).length
  (t.truncate j.g.ctx sq upto).putScalar j o.sd (w64 n)

/-- `jtrunc` (R337). -/
def execJtrunc (o : YF) (s : State) : Host.Outcome State Fault Refusal :=
  onIssue s (issue (fun _ => { scal := [o.sa, o.sa + 1] }) (jtruncEffect o))

/-! ### `rngc` (R340) -/

/-- `philox_round` (R340). -/
def philoxRound (c : Nat × Nat × Nat × Nat) (k : Nat × Nat) : Nat × Nat × Nat × Nat :=
  let p0 := 0xD2511F53 * c.1
  let p1 := 0xCD9E8D57 * c.2.2.1
  ((p1 / 2 ^ 32) ^^^ c.2.1 ^^^ k.1, p1 % 2 ^ 32, (p0 / 2 ^ 32) ^^^ c.2.2.2 ^^^ k.2, p0 % 2 ^ 32)

/-- `n` rounds, the key rising between them. -/
def philox (c : Nat × Nat × Nat × Nat) (k : Nat × Nat) : Nat → Nat × Nat × Nat × Nat
  | 0 => c
  | n + 1 => philox (philoxRound c k) ((k.1 + 0x9E3779B9) % 2 ^ 32, (k.2 + 0xBB67AE85) % 2 ^ 32) n

/-- `rngc_lane` (R340): the words for `vd` and `vd` + 1. -/
def rngcLane (a b key : Word) : Word × Word :=
  let x := philox (bits a 0 32, bits a 32 32, bits b 0 32, bits b 32 32) (bits key 0 32, bits key 32 32) 10
  (w64 (x.1 + x.2.1 * 2 ^ 32), w64 (x.2.2.1 + x.2.2.2 * 2 ^ 32))

/-- Needs of `rngc`. -/
def rngcNeeds (o : XF) (j : Issue) : Needs :=
  { wr := [o.f1, o.f1 + 1], rd := [o.f2, o.f2 + 1], lanes := j.guard o.p o.pn, preds := [o.p], scal := [o.sa], sb := o.sb }

/-- Effect of `rngc`. -/
def rngcEffect (o : XF) (t : State) (j : Issue) : State :=
  let m := j.guard o.p o.pn
  let out := (lanesOf m).map (fun l => (l, rngcLane (t.vread j.g o.f2 l) (t.vread j.g (o.f2 + 1) l) (j.sp.get o.sa)))
  (t.vsend j.gid j.sid [o.f1, o.f1 + 1] m
    (laneData o.f1 (out.map (fun e => (e.1, e.2.1))) ++ laneData (o.f1 + 1) (out.map (fun e => (e.1, e.2.2)))) 0 o.sb).done j

/-- `rngc` (R340). -/
def execRngc (o : XF) (s : State) : Host.Outcome State Fault Refusal := onIssue s (issue (rngcNeeds o) (rngcEffect o))

/-! ### The journal of a context and its partner (R333, R334) -/

/-- `s` with STATE of the journal of a context set (R333). -/
def State.setJstate (s : State) (ctx v : Nat) : State := s.setCtxReg ctx 0x168 (setBits (s.ctxReg ctx 0x168) 62 2 v)
/-- `s` with ACKED of the journal of a context set. -/
def State.setAcked (s : State) (ctx n : Nat) : State := s.setCtxReg ctx 0x168 (setBits (s.ctxReg ctx 0x168) 0 48 n)

/-- The partner that JCFG names: port and device (R333). -/
def State.jpartner (s : State) (ctx : Nat) : Nat × Nat := (bits (s.ctxReg ctx 0x167) 54 2, bits (s.ctxReg ctx 0x167) 32 16)

/-- Bits of JCFG that a write sets. -/
def jcfgMask (v : Word) : Word := w64 (bits v 63 1 * 2 ^ 63 + bits v 54 2 * 2 ^ 54 + bits v 32 16 * 2 ^ 32 + bits v 0 32)

/-- `s` bound to the partner of JCFG in state `st`; the records after ACKED are sent in number order. A partner other than
the last one holds no record up to ACKED (R334). -/
def State.bindPartner (s : State) (ctx st : Nat) : State :=
  let jr := (s.ctx ctx).journal
  let who := s.jpartner ctx
  let other := jr.partner.isSome && jr.partner != some who
  let recs := if other then jr.recs.filter (fun r => decide (s.acked ctx < r.num)) else jr.recs
  let rest := (recs.filter (fun r => decide (s.acked ctx < r.num))).map (fun r => r.num)
  (s.setJournal ctx { jr with
    recs := recs, sent := rest, partner := some who, resendTo := jr.made, lastMsg := s.time }).setJstate ctx st

/-- The write of JCFG with EN = 1 (R334). -/
def State.jcfgEnable (s : State) (ctx : Nat) (v : Word) : State :=
  let t := s.setCtxReg ctx 0x167 (jcfgMask v)
  let same := (t.ctx ctx).journal.partner == some (t.jpartner ctx)
  match t.jstate ctx with
  | 0 => if bits (t.ctxReg ctx 0x166) 52 12 = 0 then t else t.bindPartner ctx 1
  | 2 => t.bindPartner ctx 3
  | _ => if same then t else t.bindPartner ctx 3

/-- JCFG_BIND (R334): JCFG is written with EN = 1. -/
def execJcfgBind (ctx : Nat) (v : Word) (s : State) : Host.Outcome State Fault Refusal :=
  .next (if v.getLsbD 63 then s.jcfgEnable ctx v else s)

/-- The write of JCFG with EN = 0 (R334). -/
def State.jcfgUnbind (s : State) (ctx : Nat) (v : Word) : State := (s.setCtxReg ctx 0x167 (jcfgMask v)).setJstate ctx 0

/-- JCFG_DISABLE (R334): JCFG is written with EN = 0; held gated deposits stay held. -/
def execJcfgDisable (ctx : Nat) (v : Word) (s : State) : Host.Outcome State Fault Refusal :=
  .next (if v.getLsbD 63 then s else s.jcfgUnbind ctx v)

/-- A gated deposit of the context is held. -/
def State.holdsGated (s : State) (ctx : Nat) : Bool :=
  s.dies.any (fun e => e.2.slices.any (fun f => f.2.held.any (fun h => h.ctx == ctx)))

/-- The write of JBUF (R334): SIZE and BASE are set; with STATE 0 and no gated deposit held, numbering starts again. -/
def State.jbufSet (s : State) (ctx : Nat) (v : Word) : State :=
  let t := s.setCtxReg ctx 0x166 (w64 (bits v 16 48 * 2 ^ 16))
  if t.jstate ctx = 0 ∧ !t.holdsGated ctx then
    (t.setAcked ctx 0).setJournal ctx { (t.ctx ctx).journal with made := 0, head := 0, recs := [], sent := [], resendTo := 0 }
  else t

/-- JBUF_WRITE (R334). -/
def execJbufWrite (ctx : Nat) (v : Word) (s : State) : Host.Outcome State Fault Refusal := .next (s.jbufSet ctx v)

/-- A message has come from device `dev`, if it is the partner of the context. -/
def State.fromPartner (s : State) (ctx dev : Nat) : Bool := (s.ctx ctx).journal.partner.any (fun p => p.2 == dev)

/-- JOURNAL_ACK (R334): device `dev` acknowledges the records of a context up to `n`; held deposits whose gate is reached
are released at once, after a reassignment of the partner too, before the rest of the suffix that is sent again is acknowledged
(R134; assumption log 149). -/
def execJournalAck (ctx dev n : Nat) (s : State) : Host.Outcome State Fault Refusal :=
  .next (
    let jr := (s.ctx ctx).journal
    let live := s.jstate ctx == 1 || s.jstate ctx == 3
    if !live || !s.fromPartner ctx dev then s
    else
      let s := s.setJournal ctx { jr with lastMsg := s.time }
      if jr.made < n then s
      else
        let t := s.setAcked ctx (max (s.acked ctx) n)
        let t := t.setJournal ctx { (t.ctx ctx).journal with recs := reclaim (t.acked ctx) jr.recs }
        let t := if t.jstate ctx = 3 ∧ jr.resendTo ≤ t.acked ctx then t.setJstate ctx 1 else t
        t.releaseHeld ctx)

/-- PARTNER_IDLE_MESSAGE (R334): the partner is alive. -/
def execPartnerIdleMessage (ctx dev : Nat) (s : State) : Host.Outcome State Fault Refusal :=
  .next (if s.fromPartner ctx dev then s.setJournal ctx { (s.ctx ctx).journal with lastMsg := s.time } else s)

/-- The partner of a bound context is lost (R334, R381): event to the foreman cores, vector 2 of function 0, and cause
0x15 armed in every group of the context. -/
def State.partnerLost (s : State) (ctx : Nat) : State :=
  if s.jstate ctx = 1 then
    let t := s.setJstate ctx 2
    { t with
      groups := t.groups.map (fun e => (e.1, if e.2.ctx = ctx then { e.2 with armed := true } else e.2))
      foreman := t.foreman ++ [.partnerLost ctx]
      msix := t.msix ++ [⟨2, ctx⟩] }
  else s

/-- Silence limit of a context in cycles (R333): values of JTO below 10,000 act as 10,000. -/
def State.silenceCycles (s : State) (ctx : Nat) : Nat := Config.nsCycles (max 10000 (bits (s.ctxReg ctx 0x167) 0 32))

/-- PARTNER_SILENCE (R334): no message from the partner for JTO. -/
def execPartnerSilence (ctx : Nat) (s : State) : Host.Outcome State Fault Refusal :=
  .next (if s.silenceCycles ctx ≤ s.time - (s.ctx ctx).journal.lastMsg then s.partnerLost ctx else s)

/-- ALSTAT of a port. -/
def alstat (port : Nat) : Nat := 0x034 + port

/-- AVASH_LINK_DOWN (R334, R383): the port is down, and contexts whose partner is behind it lose it. -/
def execAvashLinkDown (port : Nat) (s : State) : Host.Outcome State Fault Refusal :=
  .next (
    let w := s.pkgReg (alstat port)
    if !w.getLsbD 63 then s
    else
      let t := s.setPkgReg (alstat port) (setBits (setBits w 63 1 0) 0 16 (satAt 0xFFFF (bits w 0 16 + 1)))
      let t : State := { t with msix := t.msix ++ [⟨3, 0⟩] }
      (t.ctxs.map (fun e => e.1)).foldl (fun u c =>
        if (State.ctx u c).journal.partner.any (fun p => p.1 == port) then State.partnerLost u c else u) t)

/-- AVASH_LINK_TRAINED (R383): the port is up, with device `peer` behind it. -/
def execAvashLinkTrained (port peer : Nat) (s : State) : Host.Outcome State Fault Refusal :=
  .next (s.setPkgReg (alstat port) (setBits (setBits (s.pkgReg (alstat port)) 63 1 1) 32 16 peer))

/-! ### Records held for other devices (R334, R337) -/

/-- A record of context `ctx` of device `src`, of an earlier numbering of it or of the last. -/
def PartnerRec.of (r : PartnerRec) (src ctx : Nat) (past : Bool) : Bool := r.src == src && r.ctx == ctx && r.past == past

/-- Bytes of the journal region that a record takes. -/
def PartnerRec.place (r : PartnerRec) : Nat := (r.bytes.length + 63) / 64 * 64

/-- Records find room in the journal region, each after those of its context before it, and are acknowledged; the others wait
without an acknowledgement (R334; assumption log 133). -/
def partnerFill (region : Nat) : List PartnerRec → Nat → List PartnerRec → List PartnerRec × List (Nat × Nat × Nat)
  | [], _, done => (done, [])
  | r :: rest, used, done =>
    if r.stored then partnerFill region rest used (done ++ [r])
    else if done.any (fun q => q.of r.src r.ctx r.past && !q.stored) || decide (region < used + r.place) then
      partnerFill region rest used (done ++ [r])
    else
      let x := partnerFill region rest (used + r.place) (done ++ [{ r with stored := true }])
      (x.1, (r.src, r.ctx, r.num) :: x.2)

/-- `s` after records held for other devices have found what room there is. -/
def State.partnerStore (s : State) : State :=
  let used := (s.partnerRecs.filter (fun r => r.stored)).foldl (fun n r => n + r.place) 0
  let x := partnerFill Config.journalRegion s.partnerRecs used []
  { s with partnerRecs := x.1, partnerAcks := s.partnerAcks ++ x.2 }

/-- The records held for other devices once a context of one has begun a new numbering: what it held stays as records of an
earlier numbering, without those not yet acknowledged (R334; assumption log 147). -/
def renumbered (src ctx : Nat) (rs : List PartnerRec) : List PartnerRec :=
  (rs.filter (fun r => !r.of src ctx false || r.stored)).map (fun r => if r.of src ctx false then { r with past := true } else r)

/-- JOURNAL_RECORD_RECEIVE (R334): record `num` of a context of another device is stored in ascending number order and
acknowledged, once the journal region has room; one that has been stored before is acknowledged again. A number already passed
that comes with another record begins a new numbering (assumption log 147). -/
def execJournalRecordReceive (src : JournalSource) (num : Nat) (rec : List Byte) (s : State) : Host.Outcome State Fault Refusal :=
  .next (
    let mine := s.partnerRecs.filter (fun r => r.of src.dev src.ctx false)
    if mine.any (fun r => r.num == num && r.bytes == rec) then
      if mine.any (fun r => !r.stored && decide (r.num ≤ num)) then s
      else { s with partnerAcks := s.partnerAcks ++ [(src.dev, src.ctx, num)] }
    else
      let old := if mine.any (fun r => decide (num ≤ r.num)) then renumbered src.dev src.ctx s.partnerRecs else s.partnerRecs
      State.partnerStore { s with partnerRecs := old ++ [⟨src.dev, src.ctx, num, rec, false, false, false⟩] })

/-- Records of a numbering of a context that can be reclaimed: those before its first that is not marked (R337). -/
def reclaimFor (src ctx : Nat) (past : Bool) : List PartnerRec → List PartnerRec
  | [] => []
  | r :: t => if r.of src ctx past then (if r.truncated then reclaimFor src ctx past t else r :: t)
    else r :: reclaimFor src ctx past t

/-- JOURNAL_TRUNCATE_RECEIVE (R337): acknowledged records of sequence `sq` of a context of another device up to number `upto`
are marked, and space is reclaimed in ascending number. -/
def execJournalTruncateReceive (src : JournalSource) (sq upto : Nat) (s : State) : Host.Outcome State Fault Refusal :=
  .next (State.partnerStore { s with partnerRecs := reclaimFor src.dev src.ctx true (reclaimFor src.dev src.ctx false
      (s.partnerRecs.map (fun r =>
    if r.src = src.dev ∧ r.ctx = src.ctx ∧ r.stored ∧ leNat (r.bytes.take 4) = sq ∧ r.num ≤ upto then { r with truncated := true } else r))) })

end Sys2Proof.Machine
end

