-- ==== Sys2Proof/Machine/Control.lean ====
section
/-!
DEFINITION. Control flow, divergence, regions and the format register: majors 0x10 and 0x11 (R222 to R229).
-/
namespace Sys2Proof.Machine

/-- A word offset from an address (R187). -/
def Split.offset (sp : Split) (n v : Nat) : Word := sp.pc + 8 * sextW n v

/-- A branch (R222): where the condition fails the split goes to the next clause header; a misaligned target of
`brx` or `ret` traps with the branch not taken; `link` writes the return address of a taken `call`. -/
def branchOp (o : BR) (needs : List Nat) (target : Issue → Word) (checked : Bool) (link : Option Nat)
    (s : State) (i : Issue) : State :=
  issue (fun _ => { scal := needs, preds := if 13 ≤ o.cond then [o.p] else [] })
    (fun t j =>
      if !j.taken o then t.done j
      else
        let x := target j
        if checked && decide (x.toNat % 8 ≠ 0) then t.trapAt j 3 x
        else
          let sp := match link with
            | some k => j.sp.put k (j.sp.pc + 8)
            | none => j.sp
          let u := t.setGroup j.gid { j.g with splits := j.g.splits.set j.sid (sp.jump x) }
          (match link with
            | some k => u.scalClear j.g j.sid k 1
            | none => u).settle j.gid) s i

/-- `br` (R222). -/
def execBr (o : BR) (s : State) : Host.Outcome State Fault Refusal :=
  onIssue s (branchOp o [] (fun j => j.sp.offset 28 o.off) false none)
/-- `brx` (R222). -/
def execBrx (o : BR) (s : State) : Host.Outcome State Fault Refusal :=
  onIssue s (branchOp o [o.sa] (fun j => j.sp.get o.sa + 8 * sextW 28 o.off) true none)
/-- `call` (R222). -/
def execCall (o : BR) (s : State) : Host.Outcome State Fault Refusal :=
  onIssue s (branchOp o [] (fun j => j.sp.offset 28 o.off) false (some o.sa))
/-- `ret` (R222). -/
def execRet (o : BR) (s : State) : Host.Outcome State Fault Refusal :=
  onIssue s (branchOp o [o.sa] (fun j => j.sp.get o.sa) true none)

/-- A word is a valid clause header (R178). -/
def headerWord (w : Word) : Bool := (Decode.header w.toNat).isSome

/-- Effect of `split` (R144, R224): the join check, the record, the division. -/
def splitEffect (o : SP) (t : State) (j : Issue) : State :=
  let join := j.sp.offset 20 o.join
  let target := j.sp.offset 20 o.target
  let f := t.fetch j.g.core j.g.ctx join
  let bad := match f with
    | .ok w => !headerWord w
    | .error _ => false
  if bad then t.trapAt j 1 10
  else
    match j.g.divide j.sid j.sp (j.guard o.p o.pn) target join (j.g.hintOn && decide (o.u = 1)) t.time with
    | none => t.trapAt j 0x17 (w64 (2 ^ 62))
    | some g =>
      match f with
      | .error e => t.trapAt j e.cause e.x
      | .ok _ => ((t.setGroup j.gid g).copiedClear j.g g).settle j.gid

/-- `split` (R224). -/
def execSplit (o : SP) (s : State) : Host.Outcome State Fault Refusal :=
  onIssue s (issue (fun _ => { preds := [o.p] }) (splitEffect o))

/-- Effect of `join` (R225). -/
def joinEffect (t : State) (j : Issue) : State :=
  match j.sp.youngest.bind (fun d => j.g.recs.get? d) with
  | none => t.trapAt j 1 4
  | some r => (t.setGroup j.gid { j.g with splits := j.g.splits.set j.sid (j.sp.jump r.join) }).settle j.gid

/-- `join` (R225). -/
def execJoin (s : State) : Host.Outcome State Fault Refusal :=
  onIssue s (issue (fun _ => {}) joinEffect)

/-- The exit of lanes `m` starts the fall-through part of a serial record (R145). -/
def Issue.exitStarts (j : Issue) (m : Mask) : Bool :=
  decide (j.sp.mask &&& ~~~ m = 0) && ((j.g.leaveRecs m).pendingSerial j.sp.youngest 16).isSome

/-- Effect of `exit` (R226): the guarded lanes end; a group without lanes is ending (R149). Where a fall-through part starts, every
access of the taken part comes first (R120). -/
def exitEffect (o : EX) (t : State) (j : Issue) : State :=
  if j.exitStarts (j.guard o.p o.pn) && t.unperformed j.gid then t.hold j
  else
  let g := j.g.exitLanes t.time j.sid j.sp.advance (j.guard o.p o.pn)
  let g : Group := if g.splits.isEmpty && g.recs.isEmpty && g.status == .running then { g with status := .ending } else g
  ((t.setGroup j.gid g).copiedClear j.g g).settle j.gid

/-- `exit` (R226). -/
def execExit (o : EX) (s : State) : Host.Outcome State Fault Refusal :=
  onIssue s (issue (fun _ => { preds := [o.p] }) (exitEffect o))

/-- `ient` (R227): the region entry is the header of this clause, and a new region starts. -/
def execIent (s : State) : Host.Outcome State Fault Refusal :=
  onIssue s (issue (fun _ => {}) (fun t j =>
    t.putSplit j (fun sp => { sp with region := sp.hdr, restarted := false, paritySeen := false })))

/-- `fmt` (R228). -/
def execFmt (o : YF) (s : State) : Host.Outcome State Fault Refusal :=
  onIssue s (issue (fun _ => {}) (fun t j => t.putSplit j (fun sp => { sp with fmt := BitVec.ofNat 8 o.code })))

/-- `nop` (R229). -/
def execNop (s : State) : Host.Outcome State Fault Refusal :=
  onIssue s (issue (fun _ => {}) (fun t j => t.done j))

end Sys2Proof.Machine
end

