-- ==== Sys2Proof/Machine/Fetch.lean ====
section
/-!
DEFINITION. From readiness to the next instruction: ready splits (R164), the pick (R165), entering a clause
(R26, R178, R193), and the word that issues next.
-/
namespace Sys2Proof.Machine

/-- The split's wait does not keep it from issuing: none, or one that has ended (R164). -/
def Split.unwaiting (sp : Split) : Bool := sp.wait == .none || sp.awake

/-- A split that may issue apart from its fetch (R164). -/
def Split.able (sp : Split) : Bool :=
  sp.unwaiting && !sp.parked && !sp.atRecord && sp.checking.isNone && sp.pendTrap.isNone && !sp.restartPend && (sp.watchdog.isNone || sp.trap.hnd) &&
  (!sp.halted || sp.stepping) && (!sp.haltReq || sp.awake) && decide (sp.mask ≠ 0)

/-- A group whose splits may issue: running, or in a save or restore handler, with no event to be taken (R164, R351). -/
def State.groupAble (s : State) (g : Group) : Bool :=
  (g.status == .running || g.status == .saving) && (g.deferred.isEmpty || !g.mayStop) &&
  (match s.blocks.get? g.bid with
    | some b => !b.rolling
    | none => true)

/-- The wait slots of a header are clear (R167). -/
def Group.slotsClear (g : Group) (wait : Nat) : Bool :=
  (List.range 8).all (fun k => !wait.testBit k || g.sb.getD k 0 == 0)

/-- The next clause of a split has been fetched, or its fetch ends in a trap, and its wait slots are clear (R164). -/
def State.headerClear (s : State) (g : Group) (sp : Split) : Bool :=
  !sp.code.isEmpty ||
  (s.fetchReady g.core g.ctx sp.pc.toNat 8 &&
  (match s.fetch g.core g.ctx sp.pc with
    | .error _ => true
    | .ok w => match Decode.header w.toNat with
      | some h => g.slotsClear h.2.2 && s.fetchReady g.core g.ctx sp.pc.toNat (8 * (h.1 + 2))
      | none => !sp.mid || s.fetchReady g.core g.ctx (sp.pc.toNat - 128) 264))

/-- The split is ready (R164). -/
def State.ready (s : State) (g : Group) (sp : Split) : Bool := sp.able && s.groupAble g && s.headerClear g sp

/-- A group after a step, with what became ready in it marked (R164). -/
def State.retimed (s : State) (g : Group) : Group :=
  let up := fun (t : Nat) (was is : Bool) => if is && !was then max t s.time else t
  let is := g.splits.any (fun e => s.ready g e.2)
  { g with
    splits := g.splits.map (fun e =>
      (e.1, { e.2 with readyTime := up e.2.readyTime e.2.wasReady (s.ready g e.2), wasReady := s.ready g e.2 }))
    readySince := up g.readySince g.wasReady is, wasReady := is }

/-- `s` at the end of a step: the ready time of a split or group is the cycle in which it became ready after being not ready
(R164). -/
def State.retime (s : State) : State := { s with groups := s.groups.map (fun e => (e.1, s.retimed e.2)) }

/-- The scheduler number of a group: core and quadrant (R34). -/
def Group.schedNo (g : Group) : Nat := g.core * 4 + g.quad

/-- Of a group's splits the ready one that became ready first, ties to the lowest id (R165); under a debug step the one
that is stepped, the lowest first (R363). -/
def State.pickSplit (s : State) (g : Group) : Option (Nat × Split) :=
  match g.splits.find? (fun e => e.2.stepping) with
  | some e => if s.ready g e.2 then some e else none
  | none => minBy (fun e => e.2.readyTime * 4 + e.1) (g.splits.filter (fun e => s.ready g e.2))

/-- The pick of a group scheduler (R165): an aged group first, then the highest priority; then the earliest
ready time, ties to the lowest slot index. -/
def State.pick (s : State) (sched : Nat) : Option (Nat × Nat) :=
  let cand := s.groups.filterMap (fun e =>
    if e.2.schedNo = sched then (s.pickSplit e.2).map (fun p => (e.1, e.2, p)) else none)
  let aged := cand.filter (fun e => decide (64 ≤ s.time - e.2.1.readySince))
  let top := cand.foldl (fun m e => max m e.2.1.pri) 0
  let pool := if aged.isEmpty then cand.filter (fun e => e.2.1.pri == top) else aged
  (minBy (fun e => e.2.1.readySince * 4096 + e.2.1.order) pool).map (fun e => (e.1, e.2.2.1))

/-- `k` code words from `va` on. -/
def State.fetchWords (s : State) (core ctx : Nat) (va : Word) : Nat → Except XErr (List Word)
  | 0 => .ok []
  | n + 1 =>
    match s.fetch core ctx va with
    | .error e => .error e
    | .ok w => match s.fetchWords core ctx (va + 8) n with
      | .error e => .error e
      | .ok ws => .ok (w :: ws)

/-- The nearest header at most 16 words before `pc` whose clause holds `pc`: its address and the words from it
to `pc` (R235; assumption log 8). -/
def State.clauseOf (s : State) (core ctx : Nat) (pc : Word) : Option (Word × Nat × Nat × Nat) :=
  (List.range 16).findSome? (fun k =>
    match s.fetch core ctx (pc - 8 * w64 (k + 1)) with
    | .error _ => none
    | .ok w => match Decode.header w.toNat with
      | some h => if k ≤ h.1 then some (pc - 8 * w64 (k + 1), k, h.1, h.2.1) else none
      | none => none)

/-- Split `sid` of group `gid` enters the clause at its PC (R26, R193, R235): its words are latched, or the
fetch traps with TRAPI the header's address. Where the split resumes inside a clause and the fetch of its remainder faults,
TRAPI is the word at which it resumes, so that no instruction of the clause is repeated (assumption log 116). A header word at which a
split resumes inside a clause begins a clause (assumption log 151). -/
def State.enterClause (s : State) (gid sid : Nat) : State :=
  match s.split? gid sid with
  | none => s
  | some (g, sp) =>
    let i : Issue := ⟨gid, sid, g, sp⟩
    match s.fetch g.core g.ctx sp.pc with
    | .error e => s.trapAt i e.cause e.x
    | .ok w =>
      match Decode.header w.toNat with
      | some (count, cls, _) =>
        let s := s.fetchTouch g.core g.ctx sp.pc.toNat (8 * (count + 2))
        match s.fetchWords g.core g.ctx (sp.pc + 8) (count + 1) with
        | .error e => s.trapAt i e.cause e.x
        | .ok ws =>
          let sp : Split := { sp with hdr := sp.pc, pc := sp.pc + 8, code := ws, cls := cls, mid := false }
          s.setGroup gid { g with splits := g.splits.set sid sp }
      | none =>
        if !sp.mid then s.trapAt i 1 6
        else
          match s.clauseOf g.core g.ctx sp.pc with
          | none => s.trapAt i 1 6
          | some (hdr, k, count, cls) =>
            let s := s.fetchTouch g.core g.ctx hdr.toNat (8 * (count + 2))
            match s.fetchWords g.core g.ctx sp.pc (count + 1 - k) with
            | .error e => s.trapAt i e.cause e.x
            | .ok ws =>
              let sp : Split := { sp with hdr := hdr, code := ws, cls := cls, mid := false }
              s.setGroup gid { g with splits := g.splits.set sid sp }

/-- A group scheduler picks a split and it enters its clause, or goes on with a clause cut short (R165). -/
def State.groupPick (s : State) (core q : Nat) : State :=
  let sched := core * 4 + q
  let busy := match s.sched.get? sched with
    | none => false
    | some (gid, sid) => match s.split? gid sid with
      | some (g, sp) => !sp.code.isEmpty && sp.able && s.groupAble g
      | none => false
  if busy then { s with turn := sched }
  else
    match s.pick sched with
    | none => { s with turn := sched, sched := s.sched.erase sched }
    | some (gid, sid) =>
      let t : State := { s with turn := sched, sched := s.sched.set sched (gid, sid) }
      match t.split? gid sid with
      | some (_, sp) => if sp.code.isEmpty then t.enterClause gid sid else t
      | none => t

/-- The split that issues an instruction in this step: the word, and whether it is the last of its clause (R165). -/
def State.issuing (s : State) : Option (Issue × Word × Bool) :=
  match s.issuer with
  | none => none
  | some i =>
    if i.sp.able && s.groupAble i.g then
      match i.sp.code with
      | [] => none
      | w :: rest => some (i, w, rest.isEmpty)
    else none

/-- The splits that go on with what split `i` had before its instruction: itself, and those that have its lanes after a division
or a merge (R144, R145). -/
def Issue.heir (i : Issue) (e : Nat × Split) : Bool := e.1 == i.sid || decide (e.2.mask &&& i.sp.mask ≠ 0)

/-- The group with `f` applied to the splits that go on after instruction `i`. -/
def Group.heirs (g : Group) (i : Issue) (f : Nat → Split → Split) : Group :=
  { g with splits := g.splits.map (fun e => (e.1, if i.heir e then f e.1 e.2 else e.2)) }

/-- The split parked while results are outstanding (R167). -/
def Split.parkNow (sp : Split) (g : Group) (sid : Nat) : Split :=
  if sp.wait == .none && g.outstanding sid && sp.pendTrap.isNone then { sp with parked := true } else sp

/-- After an instruction with the switch marker its split is parked while results are outstanding (R167). -/
def State.parkAfter (s : State) (i : Issue) : State :=
  s.modGroup i.gid (fun g => g.heirs i (fun sid sp => sp.parkNow g sid))

/-- A stepped split is halted again after its instruction: parked as with a switch marker while results are outstanding, in its
wait where the instruction waits; an instruction that holds has not issued, and the step goes on (R363). -/
def Split.stepEnd (sp : Split) (g : Group) (sid : Nat) : Split :=
  if !sp.stepping then sp.parkNow g sid
  else
    match sp.pendTrap with
    | some r => { sp.haltFault g sid r with pendTrap := none }
    | none =>
      match sp.wait with
      | .hold _ => sp
      | .replay _ => sp
      | _ =>
        if g.outstanding sid || sp.checking.isSome then { sp with parked := true }
        else (if sp.restartPend then sp.atRegion else sp).stepDone g sid

/-- `s` after a step of split `i`, whose results that have arrived are written. -/
def State.stepAfter (s : State) (i : Issue) : State :=
  let t := match s.groups.get? i.gid with
    | none => s
    | some g => ((g.splits.filter (fun e => i.heir e)).map (fun (e : Nat × Split) => e.1)).foldl (fun u k => State.flush u i.gid k) s
  t.modGroup i.gid (fun g => g.heirs i (fun sid sp => sp.stepEnd g sid))

/-- A scheduler lets go of a split that its instruction has suspended: what is left of its clause is picked later like a clause
(R165, R168). -/
def State.letGo (s : State) (i : Issue) : State :=
  match s.split? i.gid i.sid with
  | none => s
  | some (g, sp) =>
    if !sp.able && s.sched.get? g.schedNo == some (i.gid, i.sid) then { s with sched := s.sched.erase g.schedNo } else s

/-- What follows an instruction in its step: a new ready time at the end of the clause, the end of a debug step, the switch
marker, and the pick of what a suspension leaves of the clause (R164, R165, R167, R363). -/
def State.afterIssue (s : State) (i : Issue) (sw : Bool) : State :=
  let s := s.modGroup i.gid (fun g => match g.splits.get? i.sid with
    | some sp => if sp.code.isEmpty then
        { g with readySince := s.time, splits := g.splits.set i.sid { sp with readyTime := max s.time sp.readyTime } }
      else g
    | none => { g with readySince := s.time })
  let s := if i.sp.stepping then s.stepAfter i else s
  (if sw then s.parkAfter i else s).letGo i

end Sys2Proof.Machine
end

