-- ==== Sys2Proof/Machine/Place.lean ====
section
/-!
DEFINITION. Launch records (R137 to R140), placement of blocks (R161, R162), the start of groups (R141), the
end of groups (R149), and packed groups (R153, R154).
-/
namespace Sys2Proof.Machine

/-! ### Launch records -/

/-- Fields of a CONFIG word (R138). -/
structure Shape where
  pri : Nat
  rb : Bool
  acc : Nat
  pwords : Nat
  spill : Nat
  shm : Nat
  regs : Nat
  statics : Nat
  spwn : Nat
  deriving DecidableEq, Repr

/-- The fields of a CONFIG word; `regs` in registers, `statics` the number of static groups (R138). -/
def shapeOf (w : Word) : Shape where
  pri := bits w 62 2
  rb := w.getLsbD 61
  acc := bits w 58 3
  pwords := bits w 52 6
  spill := bits w 42 10
  shm := bits w 32 10
  regs := bits w 27 5 * 64
  statics := bits w 23 4 + 1
  spwn := bits w 19 4

/-- Group slots of a block (R139). -/
def Shape.slots (c : Shape) : Nat := c.statics + c.spwn

/-- Program registers of quadrant `q` (R34). -/
def quadRegs (q : Nat) : Nat := if q = 0 then 1792 else 2048

/-- A quadrant as the distributor sees it: its free runs of registers in ascending order, as first register and length, and its
free places for groups (R34). -/
structure Quad where
  runs : List (Nat × Nat)
  places : Nat
  deriving DecidableEq, Repr

/-- The free runs of `n` registers of which those of a list, as first register and length, are taken. -/
def freeRuns (n : Nat) (used : List (Nat × Nat)) : List (Nat × Nat) :=
  let walk := (sortBy (fun a b => decide (a.1 ≤ b.1)) used).foldl (fun (a : Nat × List (Nat × Nat)) u =>
    (u.1 + u.2, if a.1 < u.1 then a.2 ++ [(a.1, u.1 - a.1)] else a.2)) (0, [])
  if walk.1 < n then walk.2 ++ [(walk.1, n - walk.1)] else walk.2

/-- Free registers of a quadrant. -/
def Quad.free (q : Quad) : Nat := q.runs.foldl (fun n r => n + r.2) 0

/-- The first register of the run that a group of `n` registers takes in a quadrant, the lowest that is long enough (R34;
assumption log 129), and the quadrant then. -/
def Quad.take (q : Quad) (n : Nat) : Option (Nat × Quad) :=
  if q.places = 0 then none
  else (q.runs.find? (fun r => decide (n ≤ r.2))).map (fun r =>
    (r.1, ⟨q.runs.filterMap (fun x => if x ≠ r then some x else if r.2 = n then none else some (r.1 + n, r.2 - n)), q.places - 1⟩))

/-- Quadrants and first registers for `k` group slots of `n` registers: each slot takes, of the quadrants with a free run, the one
with the most free registers, ties to the lowest (R34, R162). -/
def assignQuads (n : Nat) : Nat → List Quad → Option (List (Nat × Nat))
  | 0, _ => some []
  | k + 1, quads =>
    let cand := ((List.range quads.length).zip quads).filterMap (fun e => (e.2.take n).map (fun x => (e.1, e.2.free, x)))
    match minBy (fun e => 4096 - e.2.1) cand with
    | none => none
    | some (q, _, base, rest) => (assignQuads n k (putAt q rest quads)).map (fun l => (q, base) :: l)

/-- The quadrants of an empty core (R34). -/
def emptyQuads : List Quad := (List.range 4).map (fun q => ⟨[(0, quadRegs q)], 12⟩)

/-- Every field of a CONFIG word lies in its range, and a block fits an empty core (R138, R139). -/
def Shape.valid (c : Shape) (w : Word) : Bool :=
  decide (bits w 0 19 = 0) && decide (c.acc ≤ 5) && decide (c.pwords ≤ 32) && decide (c.spill ≤ 512) &&
  decide (c.shm ≤ 512) && decide (64 ≤ c.regs) && decide (c.regs ≤ 1536) && decide (c.slots ≤ 16) &&
  decide (c.shm * 1024 + c.slots * c.spill * 256 ≤ 524288) && (assignQuads c.regs c.slots emptyQuads).isSome

/-- The byte offset of the first 8-byte word of a launch record that holds an invalid field (R139). -/
def recordBad (r : List Byte) : Option Nat :=
  let n := fun (a k : Nat) => leNat ((r.drop a).take k)
  let cfg := w64 (n 0x18 8)
  let c := shapeOf cfg
  if c.pwords ≠ 0 ∧ n 8 8 % 8 ≠ 0 then some 8
  else if n 0x10 4 = 0 ∨ n 0x14 2 = 0 ∨ n 0x16 2 = 0 then some 0x10
  else if !c.valid cfg then some 0x18
  else ((List.range 4).find? (fun k => n (0x20 + 8 * k) 8 ≠ 0)).map (fun k => 0x20 + 8 * k)

/-- The parameter words of a launch record, read as a copy source (R140). -/
def State.readParams (s : State) (ctx : Nat) (r : List Byte) : Except XErr (List Word) :=
  let c := shapeOf (w64 (leNat ((r.drop 0x18).take 8)))
  match s.readCtx ctx (leNat ((r.drop 8).take 8)) (8 * c.pwords) with
  | .error e => .error e
  | .ok bs => .ok ((List.range c.pwords).map (fun k => w64 (leNat ((bs.drop (8 * k)).take 8))))

/-- The lowest grid id that no live grid of the context has (R232). -/
def State.freeGridId (s : State) (ctx : Nat) : Option Nat :=
  let used := (s.grids.filter (fun e => e.2.ctx == ctx)).map (fun e => e.2.id)
  if 4096 ≤ used.length then none
  else (List.range (used.length + 1)).find? (fun k => !used.contains k)

/-- A grid in state Pending from a valid launch record (R150, R231). -/
def State.launch (s : State) (ctx id depth : Nat) (parent : Option Nat) (node : Option (Nat × Nat))
    (r : List Byte) (params : List Word) : State :=
  let n := fun (a k : Nat) => leNat ((r.drop a).take k)
  let g : Grid := {
    ctx := ctx, id := id, depth := depth, parent := parent, entry := w64 (n 0 8)
    gx := n 0x10 4, gy := n 0x14 2, gz := n 0x16 2, config := w64 (n 0x18 8), params := params
    st := .pending, next := 0, retired := 0, waitSince := s.time, reserved := none, evictedFor := [], node := node }
  let (uid, t) := s.newId
  { t with grids := t.grids.set uid g }

/-! ### Resources of a core (R14, R34, R54, R161) -/

/-- The group slots of a block that hold registers and spill slots: not evicted (R149, R356). -/
def State.heldSlots (s : State) (bid : Nat) (b : Block) : List Nat :=
  if b.evicted then []
  else (List.range b.quads.length).filter (fun k =>
    !(s.groupsOf bid).any (fun e => e.2.slot == k && e.2.status == .evicted))

/-- The blocks on a core. -/
def State.blocksOn (s : State) (core : Nat) : List (Nat × Block) := s.blocks.filter (fun e => e.2.core == core)

/-- Quadrant `q` of a core as it stands. -/
def State.quadFree (s : State) (core q : Nat) : Quad :=
  let used := (s.blocksOn core).flatMap (fun e =>
    ((s.heldSlots e.1 e.2).filter (fun j => e.2.quads.getD j 4 == q)).map (fun j => (e.2.bases.getD j 0, e.2.nregs)))
  ⟨freeRuns (quadRegs q) used, 12 - used.length⟩

/-- The quadrants of a core as they stand. -/
def State.quads (s : State) (core : Nat) : List Quad := (List.range 4).map (s.quadFree core)

/-- KiB that `n` rows of 256 bytes take, since what follows them begins on a 1 KiB boundary (R38). -/
def rowsKib (n : Nat) : Nat := (n + 3) / 4

/-- `n` rows of the shared memory array from KiB number `k` on (R33). -/
def rowsFrom (k n : Nat) : List Nat := (List.range n).map (fun i => 4 * k + i)

/-- The run of KiB that rows take, as first KiB and length. -/
def rowsRun (rows : List Nat) : List (Nat × Nat) := (rows.head?.map (fun r => (r / 4, rowsKib rows.length))).toList

/-- The runs of KiB of the shared memory array of a core that neither a block nor a spill stack holds, ascending (R14, R33). -/
def State.freeKib (s : State) (core : Nat) : List (Nat × Nat) :=
  freeRuns 512 ((s.blocksOn core).flatMap (fun e =>
    (if e.2.evicted then [] else rowsRun e.2.rows) ++ (s.heldSlots e.1 e.2).flatMap (fun j => rowsRun (e.2.spillRows.getD j []))))

/-- Runs of a list of lengths in KiB, each the lowest that is free and long enough: their first KiB (R13, R38; assumption log
129). -/
def takeRuns : List (Nat × Nat) → List Nat → Option (List Nat)
  | _, [] => some []
  | runs, 0 :: t => (takeRuns runs t).map (fun l => 0 :: l)
  | runs, n :: t =>
    match runs.find? (fun r => decide (n ≤ r.2)) with
    | none => none
    | some r => (takeRuns (runs.map (fun x => if x = r then (r.1 + n, r.2 - n) else x)) t).map (fun l => r.1 :: l)

/-- Where the shared memory of a block and the spill stacks of its group slots come to lie on a core: their first KiB (R13, R14,
R38). -/
def State.shmPlan (s : State) (core : Nat) (c : Shape) : Option (List Nat) :=
  takeRuns (s.freeKib core) (c.shm :: List.replicate c.slots (rowsKib c.spill))

/-- Free physical tiles of a core, ascending (R54). -/
def State.freeTiles (s : State) (core : Nat) : List Nat :=
  (List.range 5).filter (fun k => (s.tileOf core k).owner.isNone && decide ((s.tileOf core k).busy = 0))

/-- The quadrants and runs a block of shape `c` takes on a core, if it fits (R161). -/
def State.fits (s : State) (core : Nat) (c : Shape) : Option (List (Nat × Nat)) :=
  if (s.shmPlan core c).isSome ∧ c.acc ≤ (s.freeTiles core).length then
    assignQuads c.regs c.slots (s.quads core)
  else none

/-- Free registers of a core. -/
def State.freeRegs (s : State) (core : Nat) : Nat := (s.quads core).foldl (fun n f => n + f.free) 0

/-- A context may place blocks on a core (R380). -/
def State.permitted (s : State) (ctx core : Nat) : Bool :=
  if core < 64 then (s.ctxReg ctx 0x169).getLsbD core else (s.ctxReg ctx 0x16A).getLsbD (core - 64)

/-- A core is open to new blocks of grid `uid`: it is not kept for another block, and no evicted group of equal
or higher priority waits there, but for those evicted for the block itself (R162, R172, R175). -/
def State.coreOpen (s : State) (uid : Nat) (g : Grid) (core : Nat) : Bool :=
  s.permitted g.ctx core &&
  !s.grids.any (fun e => e.1 != uid && e.2.reserved == some core) &&
  !s.groups.any (fun e => e.2.core == core && e.2.status == .evicted && decide (bits g.config 62 2 ≤ e.2.pri) &&
    !g.evictedFor.contains e.1)

/-- The core for the next block of a grid: of the permitted cores on which it fits, the one with the most free
registers after placement, ties to the lowest (R162). A block for which a core is kept may still take another that comes to fit
it (assumption log 122). -/
def State.coreFor (s : State) (uid : Nat) (g : Grid) : Option Nat :=
  let c := shapeOf g.config
  minBy (fun k => (8192 - s.freeRegs k) * 128 + k)
    ((List.range 96).filter (fun k => s.coreOpen uid g k && (s.fits k c).isSome))

/-! ### Groups -/

/-- The lowest slot index of a scheduler that no resident group has (R165). -/
def State.freeOrder (s : State) (core q : Nat) : Nat :=
  let used := (s.groups.filter (fun e => e.2.core == core && e.2.quad == q && e.2.status != .evicted)).map (fun e => e.2.order)
  ((List.range (used.length + 1)).find? (fun k => !used.contains k)).getD 0

/-- A group at its start (R35, R141). -/
def Group.start (b : Block) (bid gridId slot order seed now : Nat) (pc : Word) (mask : Mask) (params : List Word) :
    Group where
  ctx := b.ctx
  core := b.core
  bid := bid
  grid := b.grid
  gridId := gridId
  slot := slot
  quad := b.quads.getD slot 0
  base := b.bases.getD slot 0
  order := order
  pri := b.pri
  nregs := b.nregs
  nspill := b.nspill
  packed := decide (b.statics ≤ slot)
  status := .running
  started := now
  seed := seed
  v := []
  p := []
  spill := []
  bd := []
  gst := 0
  hintOn := true
  sb := []
  outs := []
  counters := []
  ops := []
  errs := []
  errLists := []
  overflow := []
  recs := []
  splits := [(0, { (Split.blank seed pc).putAll 32 params with mask := mask, readyTime := now })]
  handler := none
  armed := false
  deferred := []
  opDirty := []
  evictedAt := 0
  saved := none
  savedRecs := []
  lateDogs := []
  readySince := now
  wasReady := false

/-- `s` with fresh parity on what a group starts with: its parameters from `s32` on, and `v0` and `v1` of a packed group (R56, R141). -/
def State.startClear (s : State) (g : Group) (params lanes : Nat) : State :=
  let t := s.scalClear g 0 32 params
  if t.parity.isEmpty then t
  else (List.range lanes).foldl (fun u l => (State.regClear u g 0 l).regClear g 1 l) t

/-- Starts a group of block `bid` in group slot `slot` (R141). -/
def State.startGroup (s : State) (bid slot : Nat) (pc : Word) (mask : Mask) (lanes : Sparse Word) : State :=
  match s.blocks.get? bid with
  | none => s
  | some b =>
    let (gid, t) := s.newId
    let (seed, t) := t.newSeed
    let (params, gridId) := match s.grids.get? b.grid with
      | some g => (g.params, g.id)
      | none => ([], 0)
    let order := t.freeOrder b.core (b.quads.getD slot 0)
    let g := Group.start b bid gridId slot order seed t.time pc mask params
    ((t.startClear g params.length (lanes.length / 2)).setGroup gid { g with v := lanes }).setBlock bid { b with begun := true }

/-- Places the next block of grid `uid` on a core and starts its static groups (R161, R162). The next block of the grid waits from
now on (assumption log 121). -/
def State.placeBlock (s : State) (uid : Nat) (g : Grid) (core : Nat) (quads : List (Nat × Nat)) : State :=
  let c := shapeOf g.config
  let (bid, t) := s.newId
  let (seed, t) := t.newSeed
  let tiles := (t.freeTiles core).take c.acc
  let plan := (t.shmPlan core c).getD []
  let b : Block := {
    ctx := g.ctx, grid := uid, x := g.next % g.gx, y := g.next / g.gx % g.gy, z := g.next / (g.gx * g.gy)
    core := core, shmKiB := c.shm, shm := ⟨some seed, []⟩, tiles := tiles, quads := quads.map (fun q => q.1)
    bases := quads.map (fun q => q.2), rows := rowsFrom (plan.headD 0) (4 * c.shm)
    spillRows := plan.tail.map (fun k => rowsFrom k c.spill), nregs := c.regs, nspill := c.spill, statics := c.statics, packedSlots := c.spwn, pri := c.pri, rb := c.rb, limit := 2 ^ 24
    begun := false, evicting := false, evicted := false, blockVa := 0, rolling := false, checkpoint := none }
  let t := t.setBlock bid b
  let t := tiles.foldl (fun u k =>
    let (sd, v) := State.newSeed u
    v.setTile core k ⟨some bid, sd, [], [], 0, false⟩) t
  let t := t.modGrid uid (fun x => { x with
    st := if x.st = .pending then .running else x.st
    next := x.next + 1, waitSince := t.time, reserved := none, evictedFor := [] })
  (List.range c.statics).foldl (fun u k => State.startGroup u bid k g.entry allLanes []) t

/-- Grids with a block to place, in the order in which the distributor serves them (R162). -/
def State.pendingGrids (s : State) : List (Nat × Grid) :=
  sortBy (fun a b => decide (bits b.2.config 62 2 < bits a.2.config 62 2) ||
    (decide (bits b.2.config 62 2 = bits a.2.config 62 2) && decide (a.1 ≤ b.1)))
    (s.grids.filter (fun e => (e.2.st == .pending || e.2.st == .running) && decide (e.2.next < e.2.total)))

/-- The first grid in the order of service whose next block fits a core, and that core (R162). -/
def State.placeFirst (s : State) : Option (Nat × Grid × Nat) :=
  s.pendingGrids.findSome? (fun e => (s.coreFor e.1 e.2).map (fun k => (e.1, e.2, k)))

/-- The distributor's next placement on a die, if any: a grid of lower priority does not go before one that is served on another
die (R162). -/
def State.placeNext (s : State) (die : Nat) : Option (Nat × Grid × Nat × List (Nat × Nat)) :=
  match s.placeFirst with
  | none => none
  | some (uid, g, k) => if dieOf k = die then (s.fits k (shapeOf g.config)).map (fun q => (uid, g, k, q)) else none

/-- BLOCK_PLACE: the distributor places at most one block on a die (R162). -/
def execBlockPlace (die : Nat) (s : State) : Host.Outcome State Fault Refusal :=
  .next (match s.placeNext die with
    | none => s
    | some (uid, g, core, quads) => s.placeBlock uid g core quads)

/-- `s` after block `bid` and all it holds on its core are gone; operations that still use its tiles count as over. -/
def State.released (s : State) (bid : Nat) : State :=
  match s.blocks.get? bid with
  | none => s
  | some b => b.tiles.foldl (fun t k => State.setTile t b.core k Tile.init) (s.removeBlock bid)

/-- The fewest whole blocks of a list whose retirement would let shape `c` fit the core (R162). -/
def State.releases (s : State) (core : Nat) (c : Shape) (bids : List Nat) : Option Nat :=
  let sets := bids.foldl (fun acc b => acc ++ acc.map (fun l => b :: l)) [[]]
  minBy id ((sets.filter (fun l =>
    (State.fits (l.foldl (fun u b => State.released u b) s) core c).isSome)).map (fun l => l.length))

/-- The core that is to be kept for the next block of grid `uid`, which has waited 2^20 cycles and fits no core: the one that needs
the fewest releases, of those not kept for another (R162; assumption log 95). -/
def State.starveCore (s : State) (uid : Nat) (g : Grid) : Option Nat :=
  if g.next < g.total ∧ 2 ^ 20 ≤ s.time - g.waitSince ∧ g.reserved.isNone ∧ (s.coreFor uid g).isNone then
    let c := shapeOf g.config
    let cand := (List.range 96).filterMap (fun k =>
      if s.permitted g.ctx k && !s.grids.any (fun e => e.1 != uid && e.2.reserved == some k) then
        (s.releases k c ((s.blocksOn k).map (fun e => e.1))).map (fun n => (k, n))
      else none)
    (minBy (fun e => e.2 * 128 + e.1) cand).map (fun e => e.1)
  else none

/-- PLACEMENT_STARVATION: a core is kept for the next block of grid `uid` (R162). -/
def execPlacementStarvation (uid : Nat) (s : State) : Host.Outcome State Fault Refusal :=
  .next (match s.grids.get? uid with
    | none => s
    | some g => match s.starveCore uid g with
      | none => s
      | some k => s.modGrid uid (fun x => { x with reserved := some k }))

/-! ### Packed groups (R153 to R155) -/

/-- Items the spawn queue of a core holds: those queued, in bins, and of formed groups (assumption log 17). -/
def Core.spawned (c : Core) : Nat :=
  c.spawnQ.length + (c.bins.foldl (fun n b => n + b.items.length) 0) + (c.formed.foldl (fun n b => n + b.items.length) 0)

/-- One item moves from the queue into its bin; 32 items form a packed group (R154). -/
def Core.binItem (c : Core) (x : SpawnItem) : Core :=
  let mine := c.bins.find? (fun b => b.bid == x.bid && b.pc == x.pc)
  let b : Formed := match mine with
    | some b => { b with items := b.items ++ [x] }
    | none => ⟨x.bid, x.pc, [x]⟩
  let others := c.bins.filter (fun a => !(a.bid == x.bid && a.pc == x.pc))
  if 32 ≤ b.items.length then { c with bins := others, formed := c.formed ++ [b] }
  else
    match mine with
    | some _ => { c with bins := c.bins.map (fun a => if a.bid = x.bid ∧ a.pc = x.pc then b else a) }
    | none => { c with bins := c.bins ++ [b] }

/-- The packing unit empties the queue into the bins, in queue order (R154). -/
def Core.pack (c : Core) : Core := (c.spawnQ.foldl Core.binItem { c with spawnQ := [] })

/-- Every group of the block has ended or waits at a barrier or in `gwait` (R154); one that is ending or evicted has not. -/
def State.blockWaits (s : State) (bid : Nat) : Bool :=
  (s.groupsOf bid).all (fun e => !e.2.splits.isEmpty && e.2.splits.all (fun f => match f.2.wait with
    | .barrier _ _ _ _ => !f.2.awake
    | .gwait _ => !f.2.awake
    | _ => false))

/-- The bin may form a partial packed group now (R154). -/
def State.binDue (s : State) (b : Formed) : Bool :=
  (match b.items.head? with
    | some x => decide (1024 ≤ s.time - x.time)
    | none => false) || s.blockWaits b.bid

/-- SPAWN_BIN_TIMEOUT: bin number `k` of a core forms a packed group of the items it holds (R154). -/
def execSpawnBinTimeout (core k : Nat) (s : State) : Host.Outcome State Fault Refusal :=
  .next (match (s.core core).bins[k]? with
    | none => s
    | some b =>
      if s.binDue b then s.modCore core (fun c => { c with bins := dropAt k c.bins, formed := c.formed ++ [b] })
      else s)

/-- The lowest packed-group slot of a block that no group has (R154). -/
def State.freePacked (s : State) (bid : Nat) (b : Block) : Option Nat :=
  ((List.range b.packedSlots).map (fun k => b.statics + k)).find? (fun k =>
    !(s.groupsOf bid).any (fun e => e.2.slot == k))

/-- A formed group whose block has a free packed-group slot, the first formed one (R154); the groups of other blocks do not wait
for one whose block has none (assumption log 119), and no group of a block that is evicted whole starts. -/
def State.packedNext (s : State) (core : Nat) : Option (Nat × Formed × Nat) :=
  (((List.range (s.core core).formed.length).zip (s.core core).formed).filterMap (fun e =>
    match s.blocks.get? e.2.bid with
    | none => none
    | some b => if b.evicted || b.evicting then none else (s.freePacked e.2.bid b).map (fun k => (e.1, e.2, k)))).head?

/-- PACKED_GROUP_START: a formed group starts in a free slot of its block; lane `l` gets item `l`'s payload in
`v0` and `v1` (R141, R154). -/
def execPackedGroupStart (core : Nat) (s : State) : Host.Outcome State Fault Refusal :=
  .next (match s.packedNext core with
    | none => s
    | some (n, b, slot) =>
      let t := s.modCore core (fun c => { c with formed := dropAt n c.formed })
      let items := (List.range b.items.length).zip b.items
      let lanes := items.foldl (fun m e => Sparse.set (Sparse.set m (vkey 0 e.1) e.2.w0) (vkey 1 e.1) e.2.w1) []
      t.startGroup b.bid slot b.pc (maskOf (fun l => decide (l < b.items.length))) lanes)

/-! ### The end of a group -/

/-- The exit of a group is a release: it belongs to a node of a task graph (R132). -/
def State.nodeGroup (s : State) (g : Group) : Bool := (s.grids.get? g.grid).any (fun x => x.node.isSome)

/-- A group has nothing left to wait for (R149): for a group of a node its atomics too (R132), and where the device reads or
writes main memory at its end, the channels (R69). -/
def State.mayEnd (s : State) (gid : Nat) (g : Group) : Bool :=
  g.splits.isEmpty && g.outs.isEmpty && g.ops.all (s.opSettled g) && (!s.nodeGroup g || !s.unperformed gid) &&
  (s.memOpen || !(s.nodeGroup g || g.handler.isSome || (s.blockOf g).any (fun b => b.evicting)))

/-- The group of a task-graph node releases at `.sys` when it exits (R132). -/
def State.nodeExit (s : State) (g : Group) : State := if s.nodeGroup g then s.wbDrainAll g.core else s

/-- Bytes of a tile in a block record: 128 × 192 FP32 elements (R355). -/
def Tile.bytes (t : Tile) : List Byte :=
  (List.range 24576).flatMap (fun k => leBytes 4 (t.data.getD k ((Config.freeWord t.seed k).setWidth 32)).toNat)

/-- Bytes of an attention partition in a block record: for each of 128 rows the reference exponent with its set
mark, then the sum, in 48 bytes (R355; assumption log 18). -/
def Tile.partition (t : Tile) : List Byte :=
  (List.range 128).flatMap (fun r => match t.rows.get? r with
    | none => List.replicate 48 0
    | some x => leBytes 8 (b2n x.eref.isSome) ++ leBytes 8 (BitVec.ofInt 64 (x.eref.getD 0)).toNat ++
        leBytes 4 x.sum.toNat ++ List.replicate 28 0)

/-- Bytes of a save record of a context (R352). -/
def State.recordStride (s : State) (ctx : Nat) : Nat := bits (s.ctxReg ctx 0x162) 0 16 * 65536

/-- The number of a save record, from its address. -/
def State.recordNo (s : State) (ctx va : Nat) : Nat :=
  (va - bits (s.ctxReg ctx 0x162) 16 36 * 65536) / max 1 (s.recordStride ctx)

/-- `s` after save record `va` of a context is free again. -/
def State.recordDrop (s : State) (ctx va : Nat) : State :=
  let c := s.ctx ctx
  s.setCtx ctx { c with recordsUsed := c.recordsUsed.filter (fun r => r != s.recordNo ctx va) }

/-- The first 64 KiB of a block record: limit, SHM, ACC and watched phases, and zeros (R355). -/
def Block.head (b : Block) (ws : List Watch) : List Byte :=
  let phases := (ws.take 64).flatMap (fun w => leBytes 8 w.off ++ leBytes 8 (w.start + w.limit))
  leBytes 8 b.limit ++ leBytes 2 b.shmKiB ++ leBytes 1 b.tiles.length ++ List.replicate 0x35 0 ++ phases ++
    List.replicate (0xFFC0 - phases.length) 0

/-- The device writes the block record's own parts after a whole-block eviction, zeros where nothing is listed (R355, R356);
shared memory too where no handler was given it to save (assumption log 136). -/
def State.writeBlockRecord (s : State) (bid : Nat) (b : Block) : State :=
  let put := fun (u : State) (va : Nat) (bs : List Byte) => match u.writeCtx b.ctx va bs with
    | .ok v => v
    | .error _ => u
  let saved := (s.groupsOf bid).any (fun e => e.2.saved.any (fun h => decide (h.blockVa ≠ 0)))
  let s := put s b.blockVa (b.head ((s.core b.core).watch.filter (fun w => w.bid == bid)))
  let s := if saved then s else put s (b.blockVa + 0x10000) (s.shmRead bid 0 (b.shmKiB * 1024))
  let t := b.blockVa + blockTilesAt b.shmKiB
  let s := put s (b.blockVa + 0x10000 + b.shmKiB * 1024) (List.replicate (blockTilesAt b.shmKiB - 0x10000 - b.shmKiB * 1024) 0)
  ((List.range b.tiles.length).zip b.tiles).foldl (fun u e =>
    let x := u.tileOf b.core e.2
    put (put u (t + 0x18000 * e.1) x.bytes) (t + 0x18000 * b.tiles.length + 0x1800 * e.1) x.partition) s

/-- The eviction of block `bid` as a whole ends once every group of it has been evicted or has ended (R355, R356); where none is
left, the block is evicted no more and its record is free. -/
def State.wholeDone (s : State) (bid : Nat) : State :=
  match s.blocks.get? bid with
  | none => s
  | some b =>
    if !b.evicting then s
    else if (s.groupsOf bid).isEmpty then (s.recordDrop b.ctx b.blockVa).setBlock bid { b with evicting := false }
    else if (s.groupsOf bid).all (fun e => e.2.status == .evicted) then
      let u := s.writeBlockRecord bid b
      let u := u.modCore b.core (fun x => { x with
        tiles := x.tiles.map (fun e => (e.1, if e.2.owner = some bid then e.2.drop else e.2))
        watch := x.watch.filter (fun w => w.bid != bid) })
      let u : State := { u with groups := u.groups.map (fun e => (e.1, if e.2.bid = bid then
        { e.2 with saved := e.2.saved.map (fun h => { h with whole := true }) } else e.2)) }
      u.setBlock bid { b with evicted := true, evicting := false, checkpoint := none }
    else s

/-- The context has no group resident on the core but evicted ones. -/
def State.leftCore (s : State) (ctx core : Nat) : Bool :=
  s.groups.all (fun e => e.2.ctx != ctx || e.2.core != core || e.2.status == .evicted)

/-- A save handler has ended (R356): the group's registers and staging area are free and its record is kept. A copy that has finished
waits for its batch, and a batch with a cancelled copy for the restore (R358). The last group of a whole block leaves the device to
write the block record. Groups are evicted in the order in which their handlers end (R172; assumption log 123). -/
def State.evictDone (s : State) (gid : Nat) (g : Group) (h : Handler) : State :=
  let t := (s.releaseSlots g.core gid).forgetGroup g.core gid
  let c := t.ctx g.ctx
  let t := t.setCtx g.ctx { c with stagesUsed := c.stagesUsed.filter (fun e => e != (dieOf g.core, h.stage)) }
  let t := t.setCtxReg g.ctx 0x16B (setBits (t.ctxReg g.ctx 0x16B) 32 32 0)
  let t := t.setGroup gid { g with
    status := .evicted, splits := [], ops := g.ops.filter (fun o => !o.done), handler := none, deferred := [], saved := some h
    evictedAt := t.time }
  let t := t.wholeDone g.bid
  if t.leftCore g.ctx g.core && (t.core g.core).frames.ctx == some g.ctx then t.emptyCache g.core else t

/-- `s` after a group has ended for good (R149): its block may retire, or its eviction as a whole may be over (R356). -/
def State.groupGone (s : State) (gid : Nat) (g : Group) : State :=
  (((s.nodeExit g).removeGroup gid).wholeDone g.bid).blockCheck g.bid

/-- GROUP_END: a group without live lanes ends once its results and batches are complete (R149), or ends its save
handler (R356). -/
def execGroupEnd (gid : Nat) (s : State) : Host.Outcome State Fault Refusal :=
  .next (match s.groups.get? gid with
    | none => s
    | some g =>
      if !s.mayEnd gid g || g.status == .evicted then s
      else
        match g.status, g.handler with
        | .saving, some h => if h.restore then s.groupGone gid g else s.evictDone gid g h
        | _, _ => s.groupGone gid g)

end Sys2Proof.Machine
end

