-- ==== Sys2Proof/Machine/Sched.lean ====
section
/-!
DEFINITION. The events of the schedulers and of results: GROUP_PICK (R165), HOLD_CLEAR (R168), RESULT_WRITEBACK
(R167), RETURN_SLOT_REPLY (R51) and WB_DRAIN_TIMEOUT (R46).
-/
namespace Sys2Proof.Machine

/-- GROUP_PICK (R165). -/
def execGroupPick (core q : Nat) (s : State) : Host.Outcome State Fault Refusal := .next (s.groupPick core q)

/-- HOLD_CLEAR (R168): the held split is ready and its clause resumes at the held instruction. -/
def execHoldClear (gid sid : Nat) (s : State) : Host.Outcome State Fault Refusal :=
  .next (s.modSplit gid sid (fun sp => match sp.wait with
    | .hold _ => { sp with awake := true, readyTime := s.time }
    | .replay _ => { sp with awake := true, readyTime := s.time }
    | _ => sp))

/-- RESULT_WRITEBACK (R167): result number `k` of a group is written. -/
def execResultWriteback (gid k : Nat) (s : State) : Host.Outcome State Fault Refusal :=
  .next ((s.writeback gid k).settle gid)

/-- The group a reply goes to. -/
def Reply.group : Reply → Nat
  | .atomic gid _ _ => gid
  | .wmon gid _ _ => gid
  | .bench gid _ _ _ _ => gid

/-- RETURN_SLOT_REPLY (R51): reply number `k` of a core is delivered. -/
def execReturnSlotReply (core k : Nat) (s : State) : Host.Outcome State Fault Refusal :=
  .next (match (s.core core).replies[k]? with
    | none => s
    | some r =>
      (((s.modCore core (fun c => { c with replies := dropAt k c.replies })).takeReply r).settle r.group))

/-- WB_DRAIN_TIMEOUT (R46): entry number `k` of a core's write buffer drains. -/
def execWbDrainTimeout (core k : Nat) (s : State) : Host.Outcome State Fault Refusal :=
  .next (s.wbDrain core k)

end Sys2Proof.Machine
end

