-- ==== Sys2Proof/Machine/MainMem.lean ====
section
/-!
DEFINITION. Main memory at work: schedulers and completions (R60 to R65), flits (R75), errors and scrub (R74), the CXL
ports (R78, R79, R382), the migration engine (R80 to R84), and the invalidation of translations (R28).
-/
namespace Sys2Proof.Machine

/-! ### A request performed (R61, R72, R76) -/

/-- What a request brings back when it has been performed. -/
structure Outcome_ where
  status : MemStatus
  data : List Byte
  bad : List Nat
  free : List Nat
  old : Sparse Word
  x : Word
  deriving DecidableEq, Repr

/-- A request that failed with a status. -/
def Outcome_.failed (st : MemStatus) : Outcome_ := ⟨st, [], [], [], [], 0⟩

/-- A request performed on the bytes at `pa`: the state, and what it brings back (R61). One that meets poison is not
applied (R76); an error that can be corrected is (R74), and the bytes pass the channel's lines (R66). -/
def State.performAt (s : State) (r : MemReq) (pa : Nat) : State × Outcome_ :=
  match r.op with
  | .atomic _ _ _ op es =>
    let es := es.map (fun e => { e with addr := e.addr - r.pa + pa })
    match r.spoilt with
    | some u => (s, ⟨.poison, [], [], [], [], poisonX 1 (u - r.pa + pa)⟩)
    | none =>
      match s.atomPoison (es.map (fun e => e.addr)) op.size with
      | some (o, u) => (s, ⟨.poison, [], [], [], [], poisonX o u⟩)
      | none =>
        let s := es.foldl (fun t e => (State.correct t e.addr op.size).bursts e.addr op.size) s
        let (t, olds) := s.memAtomic op es
        (es.foldl (fun t e => State.bursts t e.addr op.size) t, ⟨.good, [], [], [], olds, 0⟩)
  | .probe _ => (s, ⟨.good, [], [], [], [], 0⟩)
  | .scrub => ((s.correct pa 32).bursts pa 32, ⟨.good, [], [], [], [], 0⟩)
  | .hostRead _ _ len =>
    let t := (s.correct pa len).bursts pa len
    let bad := t.badAt pa len
    (t, ⟨if bad.isEmpty then .good else .poison, t.memRead none pa len, bad, [], [], 0⟩)
  | .hostWrite bytes =>
    ((s.writePa pa bytes).bursts pa bytes.length, ⟨.good, [], [], [], [], 0⟩)
  | .read copy _ len =>
    let t := (s.correct pa len).bursts pa len
    let bad := t.badAt pa len
    (t, ⟨if bad.isEmpty then .good else .poison, t.memRead (some copy) pa len, bad, t.flightOffsets (some copy) pa len, [], 0⟩)
  | .write copy _ bytes bad =>
    let t := (((s.memPut pa bytes bad).copyWrote copy).bursts pa bytes.length)
    (t, match s.writeError pa bytes.length with
      | some (o, u) => ⟨.poison, [], [], [], [], poisonX o u⟩
      | none => ⟨.good, [], [], [], [], 0⟩)
  | .reduce copy _ op bytes bad free =>
    let n := op.size
    let has := fun (l : List Nat) (k : Nat) => l.any (fun b => decide (n * k ≤ b) && decide (b < n * k + n))
    let ks := List.range (bytes.length / n)
    let es : List Elem := ks.filterMap (fun k =>
      if has bad k || has free k then none
      else some ⟨k, pa + n * k, w64 (leNat ((bytes.drop (n * k)).take n)), 0⟩)
    let s := (s.correct pa bytes.length).bursts pa bytes.length
    let errs := es.filterMap (fun e => s.unitError e.addr n)
    let t := es.foldl (fun u e => if (State.unitError u e.addr n).isSome then u else (State.memAtomic u op [e]).1) s
    let t := (ks.filter (fun k => has free k)).foldl (fun u k => State.writePa u (pa + n * k) ((bytes.drop (n * k)).take n)) t
    let t := ((t.poisonBad pa bad).copyWrote copy).bursts pa bytes.length
    match minBy (fun e => e.2) errs with
    | some (o, u) => (t, ⟨.poison, [], [], [], [], poisonX o u⟩)
    | none => (t, ⟨.good, [], [], [], [], 0⟩)

/-- `s` after the completion of a request is sent (R61, R63). -/
def State.sendBack (s : State) (r : MemReq) (o : Outcome_) : State :=
  { s with completions := s.completions ++ [⟨r, o.status, o.data, o.bad, o.free, o.old, o.x, decide (s.slack r.stamp < 0)⟩] }

/-- `s` after a request fails with a status: the expander lines that it was to write are undefined (R79). -/
def State.failReq (s : State) (r : MemReq) (st : MemStatus) : State :=
  let t := match r.op with
    | .write _ _ bytes _ => if inHbm r.pa 1 then s else s.lostWrite r.pa bytes.length
    | _ => s
  t.sendBack r (.failed st)

/-! ### The schedulers (R64) -/

/-- A scheduler's requests that may be picked (R64): those of the slot's eligible numbers. -/
def State.waitingAt (s : State) (sched : Nat) : List MemReq :=
  s.requests.filter (fun r => !r.lost && (match r.route with
    | .channel n => n == sched
    | .port p => 384 + p == sched
    | .mig _ => false))

/-- The pick of R64 among requests `e`: class, quota left, and request. -/
def State.pickReq (s : State) (sched : Nat) (e : List MemReq) : Option (Nat × Nat × MemReq) :=
  let ch := s.channel sched
  let has := fun c => e.any (fun r => r.cls == c)
  let (cur, quota) := ch.choose s.weight has
  (minBy (fun r => (s.slack r.stamp + 32768).toNat) (e.filter (fun r => r.cls == cur))).map (fun r => (cur, quota - 1, r))

/-- CHANNEL_PICK (R64): scheduler `sched` (384 and 385 are the CXL ports) picks one of the requests whose bank or link can
accept a command and performs it; a channel that changes its rate accepts none (R69), and a refresh command that can no longer
be postponed comes first. -/
def execChannelPick (sched : Nat) (eligible : List Nat) (s : State) : Host.Outcome State Fault Refusal :=
  .next (
    let e := (s.waitingAt sched).filter (fun r => eligible.contains r.id)
    if (s.channel sched).switching then s
    else
      match s.pickReq sched e with
      | none => s
      | some (cur, quota, r) =>
        let s := if sched < 384 then s.refreshFirst (sched / 32) else s
        let t := s.setChannel sched { s.channel sched with cur := cur, quota := quota }
        let t : State := { t with requests := t.requests.filter (fun q => q.id != r.id) }
        if 384 ≤ sched ∧ !t.portUp (sched - 384) then t.failReq r .linkDown
        else
          let (u, o) := t.performAt r r.pa
          u.sendBack r o)

/-! ### Completions (R61, R65) -/

/-- Cause of a request that did not complete: a timeout or a link that is down (R79). -/
def MemStatus.cause : MemStatus → Nat
  | .timeout => 0x0B
  | _ => 0x0C

/-- An atomic's reply arrives: the old values, or a trap at the atomic with the lanes concerned (R76). -/
def State.atomicBack (s : State) (c : Completion) (gid : Nat) (pend : Option Nat) (sid : Nat) (es : List Elem) : State :=
  let old : Sparse Word := match c.status with
    | .good => c.old
    | _ => []
  let t := match pend with
    | some p => s.takeReply (.atomic gid p old)
    | none => s
  let owner := fun (m : Mask) => ((t.groups.get? gid).map (fun g => g.splitOf sid m)).getD sid
  let t := match c.status with
    | .good => t
    | .poison =>
      let unit := bits c.x 0 44
      let m := maskList ((es.filter (fun (e : Elem) => decide (e.addr % 65536 / 32 = unit % 65536 / 32))).map (fun (e : Elem) => e.lane))
      let t := match t.groups.get? gid with
        | some g => t.poisonLog g.core c.x
        | none => t
      t.takeTrap gid (owner m) ⟨7, w64 c.req.va, m, c.x⟩
    | st =>
      let m := maskList (es.map (fun (e : Elem) => e.lane))
      t.takeTrap gid (owner m) ⟨MemStatus.cause st, w64 c.req.va, m, Config.freeWord s.occ 0⟩
  t.settle gid

/-- Bytes that a request of a copy moves. -/
def MemReq.size (r : MemReq) : Nat :=
  match r.op with
  | .read _ _ len => len
  | .write _ _ bytes _ => bytes.length
  | .reduce _ _ _ bytes _ _ => bytes.length
  | _ => 0

/-- The completion of a copy's write or reduction. -/
def State.copyBack (s : State) (c : Completion) (copy off : Nat) : State :=
  match s.copies.find? (fun x => x.id == copy) with
  | none => s
  | some x =>
    (match c.status with
      | .good => s
      | .poison => s.copyErr x ⟨7, c.x⟩
      | st => s.copyLine' copy st.cause (x.dst.toNat + off) c.req.size).copyLess copy

/-- Requests to the tier with one of them answered (R78). -/
def answerAsk (id : Nat) (st : MemStatus) (l : List TierAsk) : List TierAsk :=
  l.map (fun a => if a.id = id then { a with status := some st } else a)

/-- A part of a host read has come back: with its last one the host has its answer, poison where a part is poisoned or the base-die
image has failed (R378, R384). -/
def State.hostPart (s : State) (acc off : Nat) (data : List Byte) (bad : Bool) : State :=
  match s.hostWaits.find? (fun w => w.id == acc) with
  | none => s
  | some w =>
    let got := (data.zip (List.range data.length)).foldl (fun m e => Sparse.set m (off + e.2) e.1) w.got
    let w : HostWait := { w with left := w.left - 1, got := got, bad := w.bad || bad }
    let rest := s.hostWaits.filter (fun v => v.id != acc)
    if w.left = 0 then
      { s with
        hostWaits := rest
        hostRead := if w.bad || (s.pkgReg 5).getLsbD 1 then .poison else .data (w.got.map (fun e => e.2)) }
    else { s with hostWaits := rest ++ [w] }

/-- What a requester does with its completion (R61). -/
def State.deliverMem (s : State) (c : Completion) : State :=
  match c.req.op with
  | .atomic gid pend sid _ es => s.atomicBack c gid pend sid es
  | .read copy off len =>
    match s.copies.find? (fun x => x.id == copy) with
    | none => s
    | some x =>
      (if c.status = .good ∨ c.status = .poison then
        s.copyPut x off (s.shared x off
          ((c.data.zip (List.range c.data.length)).map (fun e => ⟨e.1, c.bad.contains e.2, c.free.contains e.2⟩)))
      else s.lostRead x off len c.status.cause).copyLess copy
  | .write copy off _ _ => s.copyBack c copy off
  | .reduce copy off _ _ _ _ => s.copyBack c copy off
  | .probe (.split gid sid) => s.modSplit gid sid (fun sp => match sp.wait with
    | .tier l =>
      let l := answerAsk c.req.id c.status l
      if l.any (fun a => a.status.isNone) then { sp with wait := .tier l }
      else { sp with wait := .tier l, awake := true, readyTime := s.time }
    | _ => sp)
  | .scrub => s
  | .hostRead acc off _ => s.hostPart acc off c.data (c.status != .good)
  | .hostWrite _ => s
  | .probe (.attn core id) =>
    let answered := fun (o : AttnOp) => if o.id = id then { o with tier := answerAsk c.req.id c.status o.tier } else o
    s.modCore core (fun k => { k with
      attnQ := k.attnQ.map answered, attnRun := k.attnRun.map (fun r => { r with op := answered r.op }) })

/-- MEM_COMPLETION (R61): the completion of request `id` returns to its requester; a missed one is counted (R65). -/
def execMemCompletion (id : Nat) (s : State) : Host.Outcome State Fault Refusal :=
  .next (match s.completions.find? (fun c => c.req.id == id) with
    | none => s
    | some c =>
      let t : State := { s with
        completions := s.completions.filter (fun d => d.req.id != id), flits := s.flits.filter (fun f => f.id.request != some id) }
      (if c.missed then t.countMiss c.req else t).deliverMem c)

/-! ### Flits (R75) -/

/-- The offsets of a request's bytes that lie in 64-byte part `k` of their granule. -/
def MemReq.partBytes (r : MemReq) (k n : Nat) : List Nat := (List.range n).filter (fun j => (r.pa + j) / 64 % 4 == k)

/-- The elements of an atomic that lie in 64-byte part `k` of their granule. -/
def partElems (k : Nat) (es : List Elem) : List Elem := es.filter (fun e => e.addr / 64 % 4 == k)

/-- A completion one of whose flits is delivered marked poison (R75, R76). -/
def Completion.spoilt (c : Completion) (k : Nat) : Completion :=
  match c.req.op with
  | .read _ _ _ =>
    match c.req.partBytes k c.data.length with
    | [] => c
    | l => { c with status := .poison, bad := (l ++ c.bad).eraseDups }
  | .atomic _ _ _ _ es =>
    match minBy id ((partElems k es).map (fun e => e.addr)) with
    | some a => { c with status := .poison, x := poisonX 1 (a / 32 * 32) }
    | none => c
  | _ => c

/-- A request one of whose flits is delivered marked poison: a write stores it as poison, and an atomic or a reduced element
is not applied (R75, R76). -/
def MemReq.spoil (r : MemReq) (k : Nat) : MemReq :=
  match r.op with
  | .read _ _ _ => r
  | .probe _ => r
  | .hostRead _ _ _ => r
  | .scrub => r
  | .hostWrite _ => r
  | .write c off bytes bad => { r with op := .write c off bytes (r.partBytes k bytes.length ++ bad).eraseDups }
  | .reduce c off op bytes bad free =>
    { r with op := .reduce c off op bytes (r.partBytes k bytes.length ++ bad).eraseDups free }
  | .atomic _ _ _ _ es =>
    match minBy (fun (n : Nat) => n) ((partElems k es).map (fun e => e.addr)) with
    | some a => { r with spoilt := some (a / 32 * 32) }
    | none => r

/-- A flit that an Avash Link port has sent fails its CRC at the peer: it is re-sent, at most three times, and counted in RETRY
of ALSTAT; the data of a fourth goes on marked poison, to the peer (R75, R383; assumption log 148). -/
def State.avashFlit (s : State) (port n : Nat) (crcOk : Bool) : State :=
  let id := FlitId.avash port n
  let tries := ((s.flits.find? (fun f => f.id == id)).map (fun f => f.tries)).getD 0 + 1
  let rest := s.flits.filter (fun f => f.id != id)
  let w := s.pkgReg (alstat port)
  if !w.getLsbD 63 then s
  else if crcOk ∨ 4 ≤ tries then { s with flits := rest }
  else { s.setPkgReg (alstat port) (setBits w 16 16 (satAt 0xFFFF (bits w 16 16 + 1))) with flits := rest ++ [⟨id, tries⟩] }

/-- Flit number `id`, part `id mod 4` of the data of request `id / 4` on its way to the memory or of
its completion on its way back, is received; after a fourth transmission that fails its CRC its data is delivered marked
poison. -/
def State.dieFlit (s : State) (id : Nat) (crcOk : Bool) : State :=
  if !s.inFlight.any (fun r => r.id == id / 4) then s
  else
    let tries := ((s.flits.find? (fun f => f.id == .die id)).map (fun f => f.tries)).getD 0 + 1
    let rest := s.flits.filter (fun f => f.id != .die id)
    let spoil := fun (r : MemReq) => if r.id = id / 4 then r.spoil (id % 4) else r
    if crcOk then { s with flits := rest }
    else if tries < 4 then { s with flits := rest ++ [⟨.die id, tries⟩] }
    else { s with
      flits := rest
      requests := s.requests.map spoil
      migs := s.migs.map (fun e => (e.1, { e.2 with queue := e.2.queue.map spoil }))
      completions := s.completions.map (fun c => if c.req.id = id / 4 then c.spoilt (id % 4) else c) }

/-- DIE_FLIT_RECEIVE (R75, R383): a flit is received, between the dies of the package or at the peer of an Avash Link port. -/
def execDieFlitReceive (id : FlitId) (crcOk : Bool) (s : State) : Host.Outcome State Fault Refusal :=
  .next (match id with
    | .die n => s.dieFlit n crcOk
    | .avash port n => s.avashFlit port n crcOk)

/-! ### Errors in storage (R33, R74) -/

/-- MBUD of MWRR: the deadline budget of background migration and patrol scrub (R64). -/
def State.mbud (s : State) : Nat := bits (s.pkgReg 0) 32 12

/-- The number of the `n`-th 32-byte unit of a stack in the order of its patrol scrub, round and round (R59, R74;
assumption log 152). -/
def scrubUnit (stack n : Nat) : Nat := (n % 2 ^ 31 / 8 * 12 + stack) * 8 + n % 8

/-- `s` with one more unit of a stack scrubbed, where it is the next of its round (R74). -/
def State.scrubCount (s : State) (unit : Nat) : State :=
  let k := unit / 8 % 12
  let b := s.baseDie k
  if scrubUnit k b.scrubbed = unit then s.setBaseDie k { b with scrubbed := b.scrubbed + 1 } else s

/-- PATROL_SCRUB (R74): 32-byte unit number `unit` is read in class 3 with budget MBUD, and corrected if it can be; while its channel
changes its rate the request waits there (R69). -/
def execPatrolScrub (unit : Nat) (s : State) : Host.Outcome State Fault Refusal :=
  let t := s.scrubCount unit
  .next (if t.canServe (32 * unit) 32 then t.serveRead 3 (32 * unit) 32
    else t.memSendAt ((t.dlclk + t.mbud) % 65536) (.channel (schedOf (32 * unit))) (32 * unit) 0 .scrub 96 0 3 [])

/-- STORAGE_ERROR (R33): `n` bits of an on-die unit, or `n` symbols of an HBM unit, are corrupted in place (R56, R74). An
even number of bits leaves the parity of an on-die unit right. A unit of an expander so corrupted returns CXL poison (R77). -/
def execStorageError (u : Unit_) (n : Nat) (s : State) : Host.Outcome State Fault Refusal :=
  .next (match u with
    | .onDie kind core holder unit off =>
      if n % 2 = 1 then s.parityMark kind core holder unit (if kind = 8 then off / 4 * 4 else off) 1 else s
    | .main pa =>
      if n = 0 then s
      else if !inHbm pa 1 then
        (if s.populated (pa / 32 * 32) 32 then s.poisonPa (pa / 32 * 32) 32 2 else s)
      else
        match s.unitErrs.get? (pa / 32) with
        | none => { s with unitErrs := s.unitErrs.set (pa / 32) (if n = 1 then .correctable else .uncorrectable) }
        | some .correctable => { s with unitErrs := s.unitErrs.set (pa / 32) .uncorrectable }
        | some _ => s)

/-! ### The CXL ports (R78, R79, R382) -/

/-- CXPSTAT of a port. -/
def cxpstat (port : Nat) : Nat := 0x032 + port

/-- Completion timeout of a port in cycles (R78). -/
def State.cxlTimeoutCycles (s : State) (port : Nat) : Nat :=
  Config.nsCycles (min (max (bits (s.pkgReg (0x030 + port)) 0 32) 1000) 1000000)

/-- Request `id` waits at a port past its timeout. -/
def State.timedOut (s : State) (r : MemReq) : Bool :=
  match r.route with
  | .port p => !r.lost && decide (s.cxlTimeoutCycles p ≤ s.time - r.sent)
  | _ => false

/-- CXL_TIMEOUT (R78): request `id` fails with timeout status. -/
def execCxlTimeout (id : Nat) (s : State) : Host.Outcome State Fault Refusal :=
  .next (match s.requests.find? (fun r => r.id == id) with
    | none => s
    | some r =>
      if s.timedOut r then
        ({ s with requests := s.requests.map (fun (q : MemReq) => if q.id = id then { q with lost := true } else q) } : State).failReq r .timeout
      else s)

/-- CXL_LATE_COMPLETION (R78): a completion that arrives after the timeout is discarded. -/
def execCxlLateCompletion (id : Nat) (s : State) : Host.Outcome State Fault Refusal :=
  .next { s with requests := s.requests.filter (fun r => !(r.id == id && r.lost)) }

/-- CXL_LINK_DOWN (R79, R382): UP and EN read 0, and every outstanding request of the port fails with link-down status. -/
def execCxlLinkDown (port : Nat) (s : State) : Host.Outcome State Fault Refusal :=
  .next (
    let w := s.pkgReg (cxpstat port)
    if !w.getLsbD 63 then s
    else
      let t := s.setPkgReg (cxpstat port) (setBits (setBits w 62 2 0) 0 32 (satAt 0xFFFFFFFF (bits w 0 32 + 1)))
      let mine := t.requests.filter (fun r => r.route == .port port)
      let t : State := { t with
        requests := t.requests.filter (fun r => r.route != .port port)
        foreman := t.foreman ++ [.cxlDown port], msix := t.msix ++ [⟨3, 0⟩] }
      (mine.filter (fun r => !r.lost)).foldl (fun u r => State.failReq u r .linkDown) t)

/-- CXL_LINK_TRAINED (R382): UP reads 1, with the capacity found behind the port. -/
def execCxlLinkTrained (port cap : Nat) (s : State) : Host.Outcome State Fault Refusal :=
  .next (s.setPkgReg (cxpstat port) (setBits (setBits (s.pkgReg (cxpstat port)) 63 1 1) 32 16 cap))

/-- `s` after a write of EN of a port (R382): a write of 1 while UP = 0 has no effect. -/
def State.cxpEnable (s : State) (port : Nat) (en : Bool) : State :=
  let w := s.pkgReg (cxpstat port)
  if en && !w.getLsbD 63 then s else s.setPkgReg (cxpstat port) (setBits w 62 1 (b2n en))

/-- CXPSTAT_ENABLE (R382). -/
def execCxpstatEnable (port : Nat) (s : State) : Host.Outcome State Fault Refusal := .next (s.cxpEnable port true)

/-! ### Migration (R80 to R84) -/

/-- MIGS of a slot. -/
def migsReg (slot : Nat) : Nat := 0x080 + slot

/-- The status of a line transfer or request that touches physical addresses `pas` (R84): only the CXL tier fails one, and a port that is
down fails every one (R79). -/
def State.linkOf (s : State) (pas : List Nat) : LineStatus → Option MemStatus
  | .good => if s.anyDown pas then some .linkDown else none
  | .timeout => if s.anyDown pas then some .linkDown else if pas.any (fun a => (portOf a).isSome) then some .timeout else none
  | .linkDown => if pas.any (fun a => (portOf a).isSome) then some .linkDown else none

/-- A request performed at one frame in a slot of its scheduler, its outcome not yet sent (R64). -/
def State.migPerform (s : State) (r : MemReq) (pa : Nat) : State × Outcome_ := (s.pickOne r.cls pa).performAt r pa

/-- A request performed at one frame, its completion sent. -/
def State.migAnswer (s : State) (r : MemReq) (pa : Nat) : State :=
  let (t, o) := s.migPerform r pa
  t.sendBack r o

/-- A write performed at the frames listed, one after the other (R83): it completes after the last, with the first status that is not
good. -/
def State.migWrites (s : State) (r : MemReq) : List Nat → State × Outcome_
  | [] => (s, ⟨.good, [], [], [], [], 0⟩)
  | pa :: rest =>
    let (t, o) := s.migPerform r pa
    let (u, p) := t.migWrites r rest
    (u, if o.status = .good then p else o)

/-- A dual write one of whose frames could not be reached: the other is written, the lines that were lost are undefined (R79), the bit of
the line stays as it is, and the request fails (assumption log 143). -/
def State.migHalf (s : State) (r : MemReq) (pas : List Nat) (link : LineStatus) (bytes : List Byte) (bad : List Nat) (st : MemStatus) :
    State :=
  (pas.foldl (fun u pa => if (State.linkOf u [pa] link).isSome then State.lostWrite u pa bytes.length else u.memPut pa bytes bad) s).sendBack r
    (.failed st)

/-- Dual-write mode before finish (R83): reads go to OLD, a write to both frames, an atomic or reduction to OLD with the
line then copied to NEW. Such a request has its answer from OLD: a line copy that fails after it is counted and tried again alone (R84;
assumption log 144). -/
def State.migDualServe (s : State) (k off : Nat) (r : MemReq) (link : LineStatus) : State :=
  let old := s.migOld k + off
  let new := s.migNew k + off
  match r.op with
  | .read _ _ _ => match s.linkOf [old] link with
    | none => s.migAnswer r old
    | some st => s.failReq r st
  | .write _ _ bytes bad => match s.linkOf [old, new] link with
    | none => let (t, o) := s.migWrites r [old, new]; t.sendBack r o
    | some st => s.migHalf r [old, new] link bytes bad st
  | _ =>
    let (t, o) := s.migPerform r old
    ((match t.linkOf [old, new] link with
      | none => t.migCopy k (off / 256) r.cls
      | some _ => t.migFail k (off / 256))).sendBack r o

/-- A write that covers the whole line at a page offset (R82). -/
def MemReq.fillsLine (r : MemReq) (off : Nat) : Bool :=
  match r.op with
  | .write _ _ bytes _ => decide (off % 256 = 0) && decide (bytes.length = 256)
  | _ => false

/-- A request performed at one frame of slot `k`, which fails with the link of that frame (R79, R84). -/
def State.migAt (s : State) (r : MemReq) (pa : Nat) (link : LineStatus) : State :=
  match s.linkOf [pa] link with
  | none => s.migAnswer r pa
  | some st => s.failReq { r with pa := pa } st

/-- A routed request served by slot `k` (R81 to R84): one to a clear line pulls it first, unless it writes all of it. -/
def State.migServe (s : State) (k : Nat) (r : MemReq) (link : LineStatus) : State :=
  let off := s.migOffset k r
  let old := s.migOld k + off
  let new := s.migNew k + off
  if s.migDual k && !(s.mig k).finished then
    if s.migState k = 0 then s.migAt r old link else s.migDualServe k off r link
  else if s.pullDue k off (r.fillsLine off) then
    match s.linkOf [old, new] link with
    | none => (s.migPull k (off / 256) r.cls).migAnswer r new
    | some st => (s.migFail k (off / 256)).failReq { r with pa := new } st
  else
    let t := s.migAt r new link
    if s.pullDue k off false && (s.linkOf [new] link).isNone then t.migMark k (off / 256) else t

/-- The channels of both frames of slot `k` accept commands for the line at page offset `off` (R69). -/
def State.migReady (s : State) (k off : Nat) : Bool := s.canServe (s.migOld k + off) 1 && s.canServe (s.migNew k + off) 1

/-- MIG_ROUTED_REQUEST (R81): slot `slot` serves the first request of its queue; in an armed slot it waits, and while a
channel of it changes its rate (R69). `link` is how a transfer to or from the CXL tier ends. -/
def execMigRoutedRequest (slot : Nat) (link : LineStatus) (s : State) : Host.Outcome State Fault Refusal :=
  .next (match (s.mig slot).queue with
    | [] => s
    | r :: rest =>
      if s.migState slot = 1 ∨ !s.migReady slot (s.migOffset slot r) then s
      else (s.setMig slot { s.mig slot with queue := rest }).migServe slot r link)

/-- The next line of the background transfer of a slot: the lowest clear one that has not failed, else the first that
has (R82 to R84). -/
def State.migNext (s : State) (k : Nat) : Option Nat :=
  let m := s.mig k
  let clear := (List.range (s.migBytes k / 256)).filter (fun l => !m.bits.contains l)
  (clear.find? (fun l => !m.last.contains l)).or (m.last.find? clear.contains)

/-- Slot `k` transfers lines in the background: it is running, or in dual-write mode not finished and a line copy has failed since it
was done (R82 to R84). -/
def State.migFills (s : State) (k : Nat) : Bool :=
  decide (s.migState k = 2) || (s.migDual k && !(s.mig k).finished && (decide (s.migState k = 3) || decide (s.migState k = 4)))

/-- MIG_BACKGROUND_FILL (R82, R83): a slot transfers its next clear line, in class 3 with budget MBUD, under which a transfer served in
the step that sends it is never missed (R62, R65). -/
def execMigBackgroundFill (slot : Nat) (link : LineStatus) (s : State) : Host.Outcome State Fault Refusal :=
  .next (if !s.migFills slot then s
    else
      match s.migNext slot with
      | none => s
      | some line =>
        if !s.migReady slot (line * 256) then s
        else
          match s.linkOf [s.migOld slot + line * 256, s.migNew slot + line * 256] link with
          | some _ => s.migFail slot line
          | none => s.migPull slot line 3)

/-- CMD arm (R80, R82). -/
def State.migArm (s : State) (k : Nat) : State :=
  if s.migState k = 0 ∧ s.populated (s.migOld k) (s.migBytes k) ∧ s.populated (s.migNew k) (s.migBytes k) then
    let t := s.setMig k { s.mig k with bits := [], finished := false, last := [] }
    (t.setPkgReg (migsReg k) (setBits (setBits (t.pkgReg (migsReg k)) 32 16 0) 0 14 0)).setMigState k 1
  else s
/-- CMD start (R82, R83). -/
def State.migStart (s : State) (k : Nat) : State := if s.migState k = 1 then s.setMigState k 2 else s
/-- CMD switch (R83). -/
def State.migSwitch (s : State) (k : Nat) : State :=
  if s.migState k = 4 ∧ s.migDual k ∧ !(s.mig k).finished then s.setMigState k 3 else s
/-- The slot goes to done and EVT is set (R80). -/
def State.migDone (s : State) (k : Nat) : State :=
  let t := s.setMigState k 4
  t.setPkgReg (migsReg k) (setBits (t.pkgReg (migsReg k)) 58 1 1)
/-- CMD finish (R83). -/
def State.migFinish (s : State) (k : Nat) : State :=
  if s.migState k = 3 then (s.setMig k { s.mig k with finished := true }).migDone k else s
/-- CMD abort (R84): pull mode marks every clear line of NEW as poison and goes to done; dual-write mode before switch
goes to idle. -/
def State.migAbort (s : State) (k : Nat) : State :=
  let st := s.migState k
  if s.migDual k then
    if st = 1 ∨ st = 2 ∨ (st = 4 ∧ !(s.mig k).finished) then s.setMigState k 0 else s
  else if st = 1 ∨ st = 2 then
    let clear := (List.range (s.migBytes k / 256)).filter (fun l => !(s.mig k).bits.contains l)
    (clear.foldl (fun t l => State.poisonPa t (s.migNew k + l * 256) 256 2) s).migDone k
  else s
/-- CMD clear (R82, R83): a slot that is done, and finished in dual-write mode, goes to idle. -/
def State.migClear (s : State) (k : Nat) : State :=
  if s.migState k = 4 ∧ (!s.migDual k ∨ (s.mig k).finished) then s.setMigState k 0 else s

/-- MIG_ARM (R82). -/
def execMigArm (slot : Nat) (s : State) : Host.Outcome State Fault Refusal := .next (s.migArm slot)
/-- MIG_START (R82). -/
def execMigStart (slot : Nat) (s : State) : Host.Outcome State Fault Refusal := .next (s.migStart slot)
/-- MIG_SWITCH (R83). -/
def execMigSwitch (slot : Nat) (s : State) : Host.Outcome State Fault Refusal := .next (s.migSwitch slot)
/-- MIG_FINISH (R83). -/
def execMigFinish (slot : Nat) (s : State) : Host.Outcome State Fault Refusal := .next (s.migFinish slot)
/-- MIG_ABORT (R84). -/
def execMigAbort (slot : Nat) (s : State) : Host.Outcome State Fault Refusal := .next (s.migAbort slot)
/-- MIG_CLEAR (R82). -/
def execMigClear (slot : Nat) (s : State) : Host.Outcome State Fault Refusal := .next (s.migClear slot)

/-- `s` after a write of MIGS (R80): SIZE and MODE in idle, EVT, then the command. -/
def State.migWriteReg (s : State) (k : Nat) (v : Word) : State :=
  let w := s.pkgReg (migsReg k)
  let w := if s.migState k = 0 then setBits w 59 2 (bits v 59 2) else w
  let w := if v.getLsbD 58 then setBits w 58 1 0 else w
  let t := s.setPkgReg (migsReg k) w
  match bits v 16 3 with
  | 1 => t.migArm k
  | 2 => t.migStart k
  | 3 => t.migSwitch k
  | 4 => t.migFinish k
  | 5 => t.migAbort k
  | 6 => t.migClear k
  | _ => t

/-! ### Invalidation of translations (R28) -/

/-- The pages of a leaf meet the range. -/
def leafMeets (vpn level first pages : Nat) : Bool :=
  let n := pageBytes level / 65536
  let lo := vpn / n * n
  decide (0 < pages) && decide (lo < first + pages) && decide (first < lo + n)

/-- A kept translation covers a page of the range: its leaf's pages meet it. -/
def Kept.covers (k : Kept) (first pages : Nat) : Bool := leafMeets k.vpn k.level first pages

/-- A request that used a translation of the range: one of the context that was translated through a leaf whose pages meet
it. -/
def MemReq.usedBy (r : MemReq) (ctx first pages : Nat) (all : Bool) : Bool :=
  r.ctx == ctx && (all || r.leaves.any (fun l => leafMeets l.1 l.2 first pages))

/-- A copy that has begun and goes on using a translation of the range (R24). A page routed to an armed migration slot came
through the new leaf (R82). -/
def State.copyUses (s : State) (c : CopyOp) (ctx first pages : Nat) (all : Bool) : Bool :=
  c.ctx == ctx && c.begun && !c.finished && (c.srcX ++ c.dstX).any (fun p => match p.2.frame with
    | some x => (all || leafMeets p.1 x.level first pages) && !(x.routesWrite && (match s.migFind x.pa with
        | some (k, _) => s.migState k == 1
        | none => false))
    | none => false)

/-- The requests on their way that do not wait at an armed migration slot. -/
def State.movingReqs (s : State) : List MemReq :=
  s.requests ++ ((s.migs.filter (fun m => s.migState m.1 != 1)).flatMap (fun m => m.2.queue)) ++
    s.completions.map (fun c => c.req)

/-- The command of a write to XLINVC (R28). -/
def State.invalidate (s : State) (v : Word) : State :=
  if (s.pkgReg 3).getLsbD 63 then s
  else
    let ctx := bits v 48 8
    let all := v.getLsbD 32
    let pages := bits v 0 32
    let first := bits (s.pkgReg 2) 16 36
    let gone := fun (k : Kept) => k.ctx == ctx && (all || k.covers first pages)
    let t : State := { s with
      cores := s.cores.map (fun e => (e.1, { e.2 with tlb := e.2.tlb.filter (fun k => !gone k) }))
      xlinv := some ((s.movingReqs.filter (fun r => r.usedBy ctx first pages all)).map (fun r => r.id) ++
        (s.copies.filter (fun c => s.copyUses c ctx first pages all)).map (fun c => c.id)) }
    t.setPkgReg 3 (w64 (2 ^ 63 + ctx * 2 ^ 48 + b2n all * 2 ^ 32 + pages))

/-- XLINVC_COMMAND (R28). -/
def execXlinvcCommand (v : Word) (s : State) : Host.Outcome State Fault Refusal := .next (s.invalidate v)

/-- The invalidation that runs has nothing left to wait for (R28). -/
def State.invalidated (s : State) : Bool :=
  match s.xlinv with
  | none => false
  | some ids => !s.inFlight.any (fun r => ids.contains r.id) && !s.copies.any (fun c => !c.finished && ids.contains c.id)

/-- XLINVC_COMPLETE (R28): BUSY returns to 0. -/
def execXlinvcComplete (s : State) : Host.Outcome State Fault Refusal :=
  .next (if s.invalidated then { s.setPkgReg 3 (setBits (s.pkgReg 3) 63 1 0) with xlinv := none } else s)

end Sys2Proof.Machine
end

