-- ==== Sys2Proof/Machine/Channels.lean ====
section
/-!
DEFINITION. What an HBM stack does beside its requests: interface coding (R66), thermal states and data rates (R67 to
R69), and refresh ownership (R70, R71).
-/
namespace Sys2Proof.Machine

/-! ### Interface coding (R66) -/

/-- DBI_WINDOW_END (R66): after 4,096 bursts the counts of the window are reported and the mode of the next one is chosen. The
counts are those of the channel: an event that names others is none of this channel. -/
def execDbiWindowEnd (ch ones toggles : Nat) (s : State) : Host.Outcome State Fault Refusal :=
  let c := s.channel ch
  .next (if 4096 ≤ c.bursts ∧ c.ones = ones ∧ c.trans = toggles then s.windowEnd ch else s)

/-! ### Thermal states and rates (R67, R68) -/

/-- Threshold k of MTHERM, 1 to 3. -/
def State.threshold (s : State) (k : Nat) : Nat := bits (s.pkgReg 1) (8 * (k - 1)) 8
/-- HYS of MTHERM. -/
def State.hysteresis (s : State) : Nat := bits (s.pkgReg 1) 24 8
/-- The thresholds of MTHERM are in order. -/
def State.thermOk (s : State) : Bool :=
  decide (s.threshold 1 ≤ s.threshold 2) && decide (s.threshold 2 ≤ s.threshold 3)

/-- The thermal state a channel acts on (R67). -/
def State.thermalOf (s : State) (ch : Nat) : Nat := if s.thermOk then (s.channel ch).thermal else 3

/-- A rate as the number of steps below the full rate. -/
def Rate.steps : Rate → Nat
  | .full => 0
  | .mid => 1
  | .low => 2
/-- The rate of a number of steps. -/
def rateOf (n : Nat) : Rate := if n = 0 then .full else if n = 1 then .mid else .low

/-- The target rate of a channel (R68). -/
def State.targetRate (s : State) (ch : Nat) : Rate := rateOf (max (s.thermalOf ch) (bits (s.pkgReg 1) 32 2))

/-- `s` after a channel begins a switch (R69); its coding window starts again (R66). -/
def State.switchRate (s : State) (ch : Nat) (r : Rate) : State :=
  let s := s.closeWindow ch
  s.setChannel ch { (s.channel ch).restart with rate := r, switching := true, lastSwitch := s.time }

/-- The thermal state that a channel acts on becomes 3: reported to the foreman cores (R68). -/
def State.actThermal (s : State) (ch : Nat) : State :=
  let t := s.thermalOf ch
  if t = (s.channel ch).acted then s
  else
    let u := s.setChannel ch { s.channel ch with acted := t }
    if t = 3 then { u with foreman := u.foreman ++ [.thermal ch], msix := u.msix ++ [⟨3, 0⟩] } else u

/-- A channel looks at its thermal state and its target: a state that becomes 3 is reported, and a target slower than the
rate is switched to at once. While it switches, this waits until the switch ends (R68). -/
def State.evalRate (s : State) (ch : Nat) : State :=
  if (s.channel ch).switching then s
  else
    let t := s.actThermal ch
    if (t.channel ch).rate.steps < (t.targetRate ch).steps then t.switchRate ch (t.targetRate ch) else t

/-- `s` after every channel has looked at its target. -/
def State.evalRates (s : State) : State := (List.range 384).foldl State.evalRate s

/-- HBMMAX and TSMAX of PWRSTAT from the channels (R386). -/
def State.reportHeat (s : State) : State :=
  let hot := s.channels.foldl (fun n e => max n e.2.temp) 0
  let ts := s.channels.foldl (fun n e => max n (s.thermalOf e.1)) (if s.thermOk then 0 else 3)
  s.setPkgReg 4 (setBits (setBits (s.pkgReg 4) 16 8 (satAt 255 hot)) 8 2 ts)

/-- THERMAL_SAMPLE (R67): a channel's temperature; its state rises as soon as a threshold is reached. -/
def execThermalSample (ch temp : Nat) (s : State) : Host.Outcome State Fault Refusal :=
  .next (
    let c := s.channel ch
    let up := ([1, 2, 3].filter (fun k => decide (s.threshold k ≤ temp))).foldl max c.thermal
    let below := [1, 2, 3].foldl (fun (m : Sparse Nat) k =>
      if temp + s.hysteresis < s.threshold k then (if (m.get? k).isSome then m else m.set k s.time) else m.erase k) c.below
    let t := s.setChannel ch { c with temp := temp, thermal := up, below := below }
    t.reportHeat.evalRate ch)

/-- A channel's thermal state falls now (R67). -/
def State.fallDue (s : State) (ch : Nat) : Bool :=
  let c := s.channel ch
  decide (0 < c.thermal) && (match c.below.get? c.thermal with
    | some since => decide (Config.msCycles ≤ s.time - since)
    | none => false)

/-- THERMAL_STATE_FALL (R67). -/
def execThermalStateFall (ch : Nat) (s : State) : Host.Outcome State Fault Refusal :=
  .next (if s.fallDue ch then
    (s.setChannel ch { s.channel ch with thermal := (s.channel ch).thermal - 1 }).reportHeat.evalRate ch else s)

/-- A channel's rate may rise one step now (R68). -/
def State.riseDue (s : State) (ch : Nat) : Bool :=
  !(s.channel ch).switching && decide ((s.targetRate ch).steps < (s.channel ch).rate.steps) &&
  decide (Config.msCycles ≤ s.time - (s.channel ch).lastSwitch)

/-- RATE_RISE_TIMER (R68). -/
def execRateRiseTimer (ch : Nat) (s : State) : Host.Outcome State Fault Refusal :=
  .next (if s.riseDue ch then s.switchRate ch (rateOf ((s.channel ch).rate.steps - 1)) else s)

/-! ### Host accesses (R61, R62, R378) -/

/-- The deadline stamp of a host access: that of class 2 under the physical function's BUD2 (R62). -/
def State.hostStamp (s : State) : Nat := s.stamp 0 2

/-- What a host read of `n` bytes at `pa` returns: poison for poisoned data, and for every read after the base-die image has
failed (R135, R378, R384). -/
def State.hostLoad (s : State) (pa n : Nat) : HostRead :=
  if (s.pkgReg 5).getLsbD 1 || (s.unitError pa n).isSome then .poison else .data (s.memRead none pa n)

/-- `s` after a part of a host access is queued at its channel as a request of class 2 of the physical function (R62, R69). -/
def State.hostSendPart (s : State) (op : MemOp) (pa : Nat) : State :=
  s.memSendAt s.hostStamp (.channel (schedOf pa)) pa 0 op 96 0 2 []

/-- `s` after a host read of `n` bytes at `pa` (R378): served at once, or, where a channel accepts no command, queued in its granules,
which are then picked like every request (R61, R64, R69). -/
def State.hostReadAt (s : State) (pa n : Nat) : State :=
  if s.canServe pa n then
    let t := s.serveRead 2 pa n
    { t with hostRead := t.hostLoad pa n }
  else
    let ps := linesOf pa n
    let (id, t) := s.newId
    ps.foldl (fun u p => u.hostSendPart (.hostRead id (p.1 - pa) p.2) p.1)
      { t with hostWaits := t.hostWaits ++ [⟨id, ps.length, [], false⟩] }

/-- `s` after a host write of bytes at `pa` (R378), at once or queued as a read is. -/
def State.hostWriteAt (s : State) (pa : Nat) (bs : List Byte) : State :=
  if s.canServe pa bs.length then s.putPa 2 pa bs
  else (linesOf pa bs.length).foldl (fun u p => u.hostSendPart (.hostWrite ((bs.drop (p.1 - pa)).take p.2)) p.1) s

/-- A channel of the stack changes its rate (R69). -/
def State.stackStalls (s : State) (stack : Nat) : Bool := (List.range 32).any (fun k => (s.channel (stack * 32 + k)).switching)

/-- The fallback sequencer owns the refresh of a stack (R70). -/
def State.fallback (s : State) (stack : Nat) : Bool := (s.pkgReg (0x020 + stack)).getLsbD 63

/-- `s` after the fallback sequencer of a stack, once no channel of it stalls, has issued what was postponed (R69, R70). -/
def State.catchUp (s : State) (stack : Nat) : State :=
  let b := s.baseDie stack
  if s.fallback stack && !s.stackStalls stack then s.setBaseDie stack { b with issued := b.issued + b.postponed, postponed := 0 } else s

/-- RATE_SWITCH_END (R68, R69): the channel accepts commands again and looks at what has changed meanwhile; a fallback sequencer issues
the refreshes that the stall has postponed. -/
def execRateSwitchEnd (ch : Nat) (s : State) : Host.Outcome State Fault Refusal :=
  let t := (s.setChannel ch { s.channel ch with switching := false }).catchUp (ch / 32)
  .next (t.evalRate ch)

/-- `s` with a channel at the full rate after a reset of its base die; its coding window restarts where that changes its rate (R66, R68). -/
def State.channelReset (s : State) (ch : Nat) : State :=
  let s := s.closeWindow ch
  let c := s.channel ch
  s.setChannel ch { (if c.rate = .full then c else c.restart) with rate := .full, switching := false }

/-- BASE_DIE_RESET (R68): every channel of the stack returns to the full rate. What a reset does beside that is the model's
choice (assumption log 114). -/
def execBaseDieReset (stack : Nat) (s : State) : Host.Outcome State Fault Refusal :=
  .next ((List.range 32).foldl (fun t k => State.channelReset t (stack * 32 + k))
    (s.setBaseDie stack { BaseDie.init with scrubbed := (s.baseDie stack).scrubbed }))

/-! ### Refresh (R70, R71) -/

/-- BDSTAT of a stack. -/
def bdstat (stack : Nat) : Nat := 0x020 + stack

/-- A tREFI of the stack has passed since its last boundary. -/
def State.boundary (s : State) (stack : Nat) : Bool := decide (Config.trefiCycles ≤ s.time - (s.baseDie stack).lastBoundary)

/-- Refresh can return to the controller core at this boundary (R71). -/
def State.handbackDue (s : State) (stack : Nat) : Bool :=
  s.fallback stack && (s.pkgReg (bdstat stack)).getLsbD 61 && (s.baseDie stack).beatSeen

/-- `s` after refresh has returned to the controller core: FB and REL read 0 (R71). -/
def State.handback (s : State) (stack : Nat) : State :=
  s.setPkgReg (bdstat stack) (setBits (setBits (s.pkgReg (bdstat stack)) 63 1 0) 61 1 0)

/-- `n` refresh commands fall due in one interval: issued by the fallback sequencer with what is postponed, or by the
controller core, or postponed while the core is stalled or a channel switches (R69, R70). A core that beats postpones nothing of its own
(assumption log 142). -/
def BaseDie.refresh (b : BaseDie) (fb stall : Bool) (n : Nat) : BaseDie :=
  if !stall && (fb || b.beatSeen) then { b with issued := b.issued + b.postponed + n, postponed := 0 }
  else { b with postponed := b.postponed + n }

/-- Refresh commands of one interval of a stack: at the doubled rate while a channel of it is in thermal state 3 (R67, R70). -/
def State.refreshPer (s : State) (stack : Nat) : Nat :=
  if (List.range 32).any (fun k => s.thermalOf (stack * 32 + k) == 3) then 2 else 1

/-- REFRESH_DUE (R70): a tREFI boundary of a stack. -/
def execRefreshDue (stack : Nat) (s : State) : Host.Outcome State Fault Refusal :=
  .next (if !s.boundary stack then s
    else
      let b := (s.baseDie stack).refresh (s.fallback stack) (s.stackStalls stack) (s.refreshPer stack)
      let t := if s.handbackDue stack then s.handback stack else s
      t.setBaseDie stack { b with
        missed := if b.beatSeen then 0 else b.missed + 1, beatSeen := false, lastBoundary := s.time })

/-- REFRESH_HANDBACK (R71): at a boundary, with REL and a heartbeat in the interval that ends. -/
def execRefreshHandback (stack : Nat) (s : State) : Host.Outcome State Fault Refusal :=
  .next (if s.boundary stack && s.handbackDue stack then s.handback stack else s)

/-- The sequencer takes over: FB and EVT are set, and the event is reported. It issues its first refresh with what is
postponed at once, or as soon as a rate switch of the stack ends, before the next boundary (R70, R71). -/
def State.takeover (s : State) (stack : Nat) : State :=
  let t := (s.setPkgReg (bdstat stack) (setBits (s.pkgReg (bdstat stack)) 62 2 3)).catchUp stack
  { t with foreman := t.foreman ++ [.takeover stack], msix := t.msix ++ [⟨3, 0⟩] }

/-- FALLBACK_TAKEOVER (R70): two whole intervals have passed without a heartbeat. -/
def execFallbackTakeover (stack : Nat) (s : State) : Host.Outcome State Fault Refusal :=
  .next (if !s.fallback stack && decide (2 ≤ (s.baseDie stack).missed) then s.takeover stack else s)

/-- `s` after REL is written: no effect while FB = 0 (R71). -/
def State.setRel (s : State) (stack : Nat) (rel : Bool) : State :=
  if s.fallback stack then s.setPkgReg (bdstat stack) (setBits (s.pkgReg (bdstat stack)) 61 1 (b2n rel)) else s

/-- BDSTAT_REL (R70, R71). -/
def execBdstatRel (stack : Nat) (s : State) : Host.Outcome State Fault Refusal := .next (s.setRel stack true)

/-- `s` after a write of BDSTAT (R70): EVT, REL, and the heartbeat with a changed value. -/
def State.bdstatWrite (s : State) (stack : Nat) (v : Word) : State :=
  let w := s.pkgReg (bdstat stack)
  let beat := bits v 0 16
  let w' := setBits (if v.getLsbD 62 then setBits w 62 1 0 else w) 0 16 beat
  let t := s.setPkgReg (bdstat stack) w'
  let t := if beat ≠ bits w 0 16 then t.setBaseDie stack { t.baseDie stack with beatSeen := true } else t
  t.setRel stack (v.getLsbD 61)

end Sys2Proof.Machine
end

