-- ==== Sys2Proof/Machine/System.lean ====
section
/-!
DEFINITION. Traps, returns and control registers, major 0x7D (R234 to R238, R345, R356, R357, R364).
-/
namespace Sys2Proof.Machine

/-- `trap` (R234): cause 0x12 with its code. -/
def execTrap (o : YF) (s : State) : Host.Outcome State Fault Refusal :=
  onIssue s (issue (fun _ => {}) (fun t j => t.trapAt j 0x12 (w64 (o.code % 65536))))

/-- The split stops at a `brk` for the debugger (R364): CAUSE 0x11, nothing pending. -/
def Split.breakHere (sp : Split) (g : Group) (sid : Nat) (x : Word) : Split :=
  let y := sp.record g sid ⟨0x11, sp.pc, sp.mask, x⟩
  { y.cut with
    trap := { y.trap with pend := 0 }
    pendFault := none, halted := true, haltReq := false, stepping := false, wait := .none, awake := false }

/-- Effect of `brk` (R234, R344, R364): a halt with a debugger attached, in a handler too; else cause 0x11. -/
def brkEffect (o : YF) (t : State) (j : Issue) : State :=
  let x := w64 (o.code % 65536)
  if (t.ctx j.g.ctx).attached then
    (t.setGroup j.gid { j.g with splits := j.g.splits.set j.sid (j.sp.breakHere j.g j.sid x) }).settle j.gid
  else t.trapAt j 0x11 x

/-- `brk` (R234, R364). -/
def execBrk (o : YF) (s : State) : Host.Outcome State Fault Refusal := onIssue s (issue (fun _ => {}) (brkEffect o))

/-! ### `eret` (R235, R345) -/

/-- Where `eret` resumes (R235): a clause header that TRAPI names begins again in modes 1 and 2. -/
def State.resumeAt (s : State) (j : Issue) (mode : Nat) : Word :=
  match mode with
  | 0 => j.sp.trap.trape
  | 1 => j.sp.trap.trapi
  | _ => if s.midAt j.g j.sp.trap.trapi then j.sp.trap.trapi + 8 else j.sp.trap.trapi

/-- Lanes that no other split and no divergence record of the group holds (R143, R145). -/
def Issue.freeLanes (j : Issue) : Mask :=
  let others := (j.g.splits.filter (fun e => e.1 != j.sid)).foldl (fun m e => m ||| e.2.mask) 0
  let kept := j.g.recs.foldl (fun m e => if e.2.serial then m ||| (if e.2.fallStarted then e.2.takenMask else e.2.fallMask) else m) 0
  ~~~ (others ||| kept)

/-- The barrier wait that `eret.retry` after cause 0x0D takes up again, unwatched and without an arrival (R348). -/
def Split.waitAgain (sp : Split) (mode : Nat) : Option (Nat × Nat × Bool) :=
  if mode = 1 ∧ sp.trap.cause = 0x0D then sp.shadow.bind (fun h => h.barrier) else none

/-- The split that `eret` resumes (R235, R345). -/
def State.resumed (s : State) (j : Issue) (mode : Nat) : Split :=
  let pc := s.resumeAt j mode
  let sp := (j.sp.leave j.freeLanes).jump pc
  match j.sp.waitAgain mode with
  | some (off, ph, bar) => { sp with mid := true, wait := .barrier off ph false bar, awake := true }
  | none => { sp with mid := s.midAt j.g pc }

/-- Effect of `eret`: outside a handler cause 0x06; in a restore handler the control part is reloaded (R357), unless its read meets a
marked unit (R57); in a save handler the context ends (R356); else the split resumes (R345), its scalars `s60` to `s63` with fresh
parity (R56). -/
def eretEffect (o : YF) (t : State) (j : Issue) : State :=
  if !j.sp.trap.hnd then t.trapAt j 6 0
  else
    match j.g.status, j.g.handler with
    | .saving, some h =>
      if h.restore then
        match t.spdParity j.g.core (t.spBase j.g.ctx j.die + h.stageOff) 0x8000 with
        | some u => t.consumeMem j j.sp.mask u
        | none => (t.endRestore j.gid j.g h).settle j.gid
      else t.terminate j.g.ctx 1 j.sp.trap.cause.toNat j.sp.trap.trapi j.sp.trap.trapx j.sp.trap.traps
    | _, _ =>
      let t := if j.sp.shadow.isSome then t.scalClear j.g j.sid 60 4 else t
      (t.setGroup j.gid { j.g with splits := j.g.splits.set j.sid (t.resumed j o.code) }).settle j.gid

/-- `eret` (R235, R345). -/
def execEret (o : YF) (s : State) : Host.Outcome State Fault Refusal := onIssue s (issue (fun _ => {}) (eretEffect o))

/-! ### Control registers (R236 to R238) -/

/-- The value of a context control register as a program reads it (R236): `XCFG` of its group, `WDLIM` of its block, else
the register of its context. -/
def State.control (s : State) (j : Issue) (n : Nat) : Word :=
  if n = 0x150 then w64 (b2n j.g.hintOn)
  else if n = 0x151 then w64 (((s.blockOf j.g).map (fun b => b.limit)).getD 0)
  else s.ctxReg j.g.ctx n

/-- `csrr` (R236). -/
def execCsrr (o : YF) (s : State) : Host.Outcome State Fault Refusal :=
  onIssue s (scalarOp [] o.sd (fun t j => t.control j o.code))

/-- Effect of `csrw` (R236, R237): only `XCFG` can be written. -/
def csrwEffect (o : YF) (t : State) (j : Issue) : State :=
  if o.code = 0x150 then
    (t.setGroup j.gid { j.g with
      hintOn := (j.sp.get o.sa).getLsbD 0, splits := j.g.splits.set j.sid j.sp.advance }).settle j.gid
  else t.trapAt j 6 (w64 o.code)

/-- `csrw` (R236, R237). -/
def execCsrw (o : YF) (s : State) : Host.Outcome State Fault Refusal :=
  onIssue s (issue (fun _ => { scal := [o.sa] }) (csrwEffect o))

/-- The watchdog limit that a value sets (R238). -/
def wdogLimit (v : Nat) : Nat := min (max v (2 ^ 10)) (2 ^ 40)

/-- Effect of `wdog` (R238): the limit before the instruction goes to `s`SD. -/
def wdogEffect (o : YF) (t : State) (j : Issue) : State :=
  let old := ((t.blockOf j.g).map (fun b => b.limit)).getD 0
  (t.modBlock j.g.bid (fun b => { b with limit := wdogLimit (j.sp.get o.sa).toNat })).putScalar j o.sd (w64 old)

/-- `wdog` (R238). -/
def execWdog (o : YF) (s : State) : Host.Outcome State Fault Refusal :=
  onIssue s (issue (fun _ => { scal := [o.sa] }) (wdogEffect o))

/-- `wdog.q` (R238): the limit is only read. -/
def execWdogQ (o : YF) (s : State) : Host.Outcome State Fault Refusal :=
  onIssue s (scalarOp [] o.sd (fun t j => w64 (((t.blockOf j.g).map (fun b => b.limit)).getD 0)))

end Sys2Proof.Machine
end

