-- ==== Sys2Proof/Machine/Debug.lean ====
section
/-!
DEFINITION. The debugger (R362 to R364, R387): the commands of DBGCTL, DBGSTAT, and the debug window.
-/
namespace Sys2Proof.Machine

/-! ### What a command selects -/

/-- DBGCTL. -/
def dbgctl : Nat := 0x600
/-- DBGVSEL. -/
def dbgvsel : Nat := 0x602

/-- The group that a word of DBGCTL selects: CTX, CORE and GSLOT; the one with the lowest number where several blocks of the
context have a group in that slot. -/
def State.dbgGroup (s : State) (v : Word) : Option (Nat × Group) :=
  s.groups.find? (fun e => e.2.ctx == bits v 38 8 && e.2.core == bits v 46 7 && e.2.slot == bits v 53 4 &&
    e.2.status != .evicted)

/-- The groups that a command names (R387): SCOPE 0 and 1 the selected one, 2 those of its block, 3 those of the context. -/
def State.dbgGroups (s : State) (v : Word) : List (Nat × Group) :=
  match bits v 59 2 with
  | 3 => s.groups.filter (fun e => e.2.ctx == bits v 38 8 && e.2.status != .evicted)
  | 2 => match s.dbgGroup v with
    | some e => (s.groupsOf e.2.bid).filter (fun f => f.2.status != .evicted)
    | none => []
  | _ => (s.dbgGroup v).toList

/-- The splits that a command names, by group and id. -/
def State.dbgSplits (s : State) (v : Word) : List (Nat × Nat) :=
  (s.dbgGroups v).flatMap (fun e =>
    (e.2.liveIds.filter (fun i => decide (bits v 59 2 ≠ 0) || i == bits v 57 2)).map (fun i => (e.1, i)))

/-- A step is under way (R387). -/
def State.dbgBusy (s : State) : Bool := s.groups.any (fun e => e.2.splits.any (fun f => f.2.stepping))

/-- Every live split of a group is halted. -/
def Group.allHalted (g : Group) : Bool := !g.splits.isEmpty && g.splits.all (fun e => e.2.halted)

/-! ### Halt (R362) -/

/-- `s` after the debugger asks splits to halt: a bench request that has not been served is withdrawn (R332), and each split
stops at its boundary. -/
def State.dbgHaltAt (s : State) (ts : List (Nat × Nat)) : State :=
  let t := ts.foldl (fun u e => State.sendWithdraw (State.modSplit u e.1 e.2 (fun sp =>
    if sp.halted then sp else { sp with haltReq := true })) e.1 e.2) s
  ((ts.map (fun e => e.1)).eraseDups).foldl (fun u g => State.settle u g) t

/-! ### The debug window (R387) -/

/-- The key of a byte that the debugger has written: its group, and its offset in the control part; bytes of the register
that DBGVSEL shows lie from 0x10000 on. -/
def windowKey (gid sel off : Nat) : Nat :=
  gid * 2 ^ 20 + (if 0x7700 ≤ off ∧ off < 0x7800 then 0x10000 + 256 * sel + (off - 0x7700) else off)

/-- `s` after a write at byte `off` of the debug window: kept until the resume, while every live split of the selected group
is halted. -/
def State.windowPut (s : State) (off : Nat) (v : Word) : State :=
  match s.dbgGroup (s.pkgReg dbgctl) with
  | none => s
  | some (gid, g) =>
    if off % 8 = 0 ∧ off < 0x8000 ∧ g.allHalted then
      let sel := bits (s.pkgReg dbgvsel) 0 11
      let put := fun (m : Sparse Byte) (e : Nat × Byte) => Sparse.set m (windowKey gid sel (off + e.1)) e.2
      { s with windowWrites := List.foldl put s.windowWrites ((List.range 8).zip (leBytes 8 v.toNat)) }
    else s

/-- The group with the bytes of vector registers that the debugger has written, keys as in `windowKey`. -/
def Group.windowRegs (g : Group) : Sparse Byte → Group
  | [] => g
  | (a, b) :: rest =>
    let k := a % 2 ^ 20 - 0x10000
    let r := k / 256
    let l := k % 256 / 8
    let g : Group := if a % 2 ^ 20 < 0x10000 ∨ g.nregs ≤ r then g
      else { g with v := g.v.set (vkey r l) (setBits (g.v? r l) (8 * (k % 8)) 8 b.toNat) }
    g.windowRegs rest

/-- A split as reloaded from its record, with what the record does not hold taken from the split as it stood; a split that
the debugger has added is halted. -/
def Split.keepDebug (new : Split) (old : Option Split) (mid : Bool) : Split :=
  match old with
  | none => { new with mid := mid, halted := true }
  | some o => { new with
      mid := mid, shadow := o.shadow, pendFault := o.pendFault, halted := o.halted, haltReq := o.haltReq
      stepping := o.stepping, parked := o.parked, watchdog := o.watchdog, awake := o.awake
      wait := match o.wait, new.wait with
        | .barrier _ _ w r, .barrier a b _ _ => .barrier a b w r
        | .barrier _ _ _ _, x => x
        | x, .none => x
        | _, x => x }

/-- The control part of a group with the bytes that the debugger has written. -/
def State.windowImage (s : State) (gid : Nat) (g : Group) : Memory :=
  let base : Memory := Memory.writeBytes ⟨none, []⟩ 0 (piecesBytes (s.controlPart gid g 0x0E))
  (s.windowWrites.filter (fun e => e.1 / 2 ^ 20 == gid && decide (e.1 % 2 ^ 20 < 0x10000))).foldl
    (fun (m : Memory) e => m.write (e.1 % 2 ^ 20) e.2) base

/-- `s` with fresh parity on the unit that a byte of the debug window written to a group lies in: a register lane's half, a predicate, or
a scalar's half (R56, R353, R354). -/
def State.windowClear (s : State) (g : Group) (a : Nat) : State :=
  let o := a % 2 ^ 20
  let k := o - 0x10000
  let c := o - 0x700
  if 0x10000 ≤ o then s.parityClear 0 g.core g.quad (g.base + k / 256) (k % 256 / 4) 1
  else if 0x540 ≤ o ∧ o < 0x6C0 then s.predClear g ((o - 0x540) / 4)
  else if 0x700 ≤ o ∧ o < 0x1700 ∧ c % 0x400 < 0x200 then
    s.parityClear 2 g.core g.place (c % 0x400 / 8) (2 * (c / 0x400) + o % 8 / 4) 1
  else s

/-- `s` after the writes of the debug window to group `gid` take effect; state that R357 rejects ends the context with
WHY 3. -/
def State.windowApply (s : State) (gid : Nat) : State :=
  match s.groups.get? gid with
  | none => s
  | some g =>
    let mine := s.windowWrites.filter (fun e => e.1 / 2 ^ 20 == gid)
    if mine.isEmpty then s
    else
      let t : State := { s with windowWrites := s.windowWrites.filter (fun e => e.1 / 2 ^ 20 != gid) }
      let m := s.windowImage gid g
      if controlOk m g then
        let r := (g.reload m s.time).windowRegs mine
        let t := if t.parity.isEmpty then t else mine.foldl (fun u e => State.windowClear u g e.1) t
        t.setGroup gid { r with
          status := g.status, handler := g.handler, saved := g.saved
          splits := r.splits.map (fun e => (e.1, e.2.keepDebug (g.splits.get? e.1) (s.midAt g e.2.pc)))
          recs := r.recs.map (fun e => (e.1, e.2.recall (g.recs.get? e.1))) }
      else t.terminate g.ctx 3 0 0 0 (g.identity 0)

/-! ### Resume (R351, R362) -/

/-- `s` without the armed word, the request and the reply of the `wmon` of a split. -/
def State.wmonForget (s : State) (g : Group) (gid sid : Nat) : State :=
  let t := s.modCore g.core (fun c => { c with
    monitors := c.monitors.filter (fun m => !(m.gid == gid && m.sid == sid))
    replies := c.replies.filter (fun r => match r with
      | .wmon i k _ => !(i == gid && k == sid)
      | _ => true) })
  t.modDie (dieOf g.core) (fun d => { d with slices := d.slices.map (fun e =>
    (e.1, { e.2.keepReqs (fun q => match q with
        | .wmon i k _ _ _ => !(i == gid && k == sid)
        | _ => true) with monitors := e.2.monitors.filter (fun m => !(m.gid == gid && m.sid == sid)) })) })

/-- `s` after a `wmon` that still waits ends with return 3, its split resumed by the debugger (R276). -/
def State.wmonRelease (s : State) (gid sid : Nat) : State :=
  match s.split? gid sid with
  | none => s
  | some (g, sp) => match sp.wait with
    | .wmon _ sd none => ((s.wmonForget g gid sid).scalClear g sid sd 1).modSplit gid sid (fun x => (x.put sd 3).advance)
    | _ => s

/-- The split freed from a halt. -/
def Split.unhalt (sp : Split) (now : Nat) : Split :=
  { sp with halted := false, haltReq := false, pendFault := none, trap := { sp.trap with pend := 0 }, readyTime := now }

/-- `s` after a split is freed: a pending fault is taken if the split goes on at its TRAPI, else discarded (R351). -/
def State.dbgRelease (s : State) (gid sid : Nat) : State :=
  match s.split? gid sid with
  | none => s
  | some (_, sp) =>
    let t := (s.wmonRelease gid sid).modSplit gid sid (fun x => x.unhalt s.time)
    match sp.pendFault with
    | some r => if sp.halted ∧ sp.pc = r.pc then t.takeTrap gid sid r else t
    | none => t

/-- `s` after a resume of splits: the writes of the debug window first. -/
def State.dbgResumeAt (s : State) (v : Word) : State :=
  let gids := (s.dbgGroups v).map (fun e => e.1)
  let t := gids.foldl (fun u g => State.windowApply u g) s
  gids.foldl (fun u g => State.settle u g) ((t.dbgSplits v).foldl (fun u e => State.dbgRelease u e.1 e.2) t)

/-! ### Step (R363) -/

/-- A halted split that stands at an instruction is to issue it. -/
def Split.step (sp : Split) : Split :=
  if sp.halted && sp.unwaiting && !sp.atRecord then
    { sp with stepping := true, pendFault := none, trap := { sp.trap with pend := 0 } }
  else sp

/-- `s` after a step of the selected split. -/
def State.dbgStepOne (s : State) (v : Word) : State :=
  match s.dbgGroup v with
  | some (gid, _) => s.modSplit gid (bits v 57 2) Split.step
  | none => s

/-- `s` after a step of every halted split of the selected group. -/
def State.dbgStepGroup (s : State) (v : Word) : State :=
  match s.dbgGroup v with
  | some (gid, g) => g.liveIds.foldl (fun u i => State.modSplit u gid i Split.step) s
  | none => s

/-! ### DBGCTL and DBGSTAT (R387) -/

/-- `s` with the debugger attached to a context, or not. -/
def State.dbgAttached (s : State) (ctx : Nat) (on : Bool) : State := s.setCtx ctx { s.ctx ctx with attached := on }

/-- A write of DBGCTL: ignored while BUSY; CMD reads 0. -/
def State.debugCommand (s : State) (v : Word) : State :=
  if s.dbgBusy then s
  else
    let t := s.setPkgReg dbgctl (w64 (bits v 38 23 * 2 ^ 38))
    match bits v 61 3 with
    | 1 => t.dbgHaltAt (t.dbgSplits v)
    | 2 => t.dbgResumeAt v
    | 3 => t.dbgStepOne v
    | 4 => t.dbgStepGroup v
    | 5 => t.dbgAttached (bits v 38 8) true
    | 6 => t.dbgAttached (bits v 38 8) false
    | _ => t

/-- DBGSTAT. -/
def State.dbgstat (s : State) : Word :=
  let v := s.pkgReg dbgctl
  let halted := match s.dbgGroup v with
    | some (_, g) => keyBits ((g.splits.filter (fun e => e.2.halted)).map (fun e => e.1))
    | none => 0
  w64 (b2n s.dbgBusy * 2 ^ 63 + b2n (s.ctx (bits v 38 8)).attached * 2 ^ 62 + halted * 2 ^ 58)

/-- The word at byte `off` of the debug window: what R353 and R354 lay out there, with the debugger's writes; 0 unless every
live split of the selected group is halted. -/
def State.windowWord (s : State) (off : Nat) : Word :=
  match s.dbgGroup (s.pkgReg dbgctl) with
  | none => 0
  | some (gid, g) =>
    if !g.allHalted then 0
    else
      let sel := bits (s.pkgReg dbgvsel) 0 11
      let m := s.windowImage gid g
      w64 (leNat ((List.range 8).map (fun i =>
        let a := off + i
        if 0x7700 ≤ a ∧ a < 0x7800 then
          match s.windowWrites.get? (windowKey gid sel a) with
          | some b => b
          | none => if g.nregs ≤ sel then 0 else
              BitVec.ofNat 8 (bits (g.v? sel ((a - 0x7700) / 8)) (8 * (a % 8)) 8)
        else m.read a)))

/-- DBG_HALT (R362). -/
def execDbgHalt (v : Word) (s : State) : Host.Outcome State Fault Refusal := .next (s.debugCommand (setBits v 61 3 1))
/-- DBG_RESUME (R362). -/
def execDbgResume (v : Word) (s : State) : Host.Outcome State Fault Refusal := .next (s.debugCommand (setBits v 61 3 2))
/-- DBG_STEP (R363). -/
def execDbgStep (v : Word) (s : State) : Host.Outcome State Fault Refusal := .next (s.debugCommand (setBits v 61 3 3))
/-- DBG_STEP_ALL (R363). -/
def execDbgStepAll (v : Word) (s : State) : Host.Outcome State Fault Refusal := .next (s.debugCommand (setBits v 61 3 4))
/-- DBG_ATTACH (R387). -/
def execDbgAttach (v : Word) (s : State) : Host.Outcome State Fault Refusal := .next (s.debugCommand (setBits v 61 3 5))
/-- DBG_DETACH (R387). -/
def execDbgDetach (v : Word) (s : State) : Host.Outcome State Fault Refusal := .next (s.debugCommand (setBits v 61 3 6))
/-- DEBUG_WINDOW_WRITE (R387). -/
def execDebugWindowWrite (off : Nat) (v : Word) (s : State) : Host.Outcome State Fault Refusal := .next (s.windowPut off v)

end Sys2Proof.Machine
end

