-- ==== Sys2Proof/Machine/Launch.lean ====
section
/-!
DEFINITION. Spawn and child grids, major 0x7C (R153, R230 to R233), and task graphs: objects, kicks, replays and
nodes (R156 to R160).
-/
namespace Sys2Proof.Machine

/-! ### `spawn` (R153, R230) -/

/-- Needs of `spawn`. -/
def spawnNeeds (o : XF) (i : Issue) : Needs :=
  { rd := [o.f2, o.f2 + 1], lanes := i.guard o.p o.pn, preds := [o.p], scal := [o.sa] }

/-- The items of a `spawn`, one for each lane of the guard in ascending lane order. -/
def State.spawnItems (s : State) (o : XF) (j : Issue) : List SpawnItem :=
  (lanesOf (j.guard o.p o.pn)).map (fun l =>
    ⟨j.sp.get o.sa, s.vread j.g o.f2 l, s.vread j.g (o.f2 + 1) l, j.g.bid, s.time⟩)

/-- The limit of R153 on a hold that waits for queue room has passed. -/
def State.spawnLate (s : State) (sp : Split) : Bool :=
  match sp.roomSince with
  | some t => decide (4096 ≤ s.time - t)
  | none => false

/-- Effect of `spawn` (R230): all its items enter the queue, or none. -/
def spawnEffect (o : XF) (t : State) (j : Issue) : State :=
  let items := t.spawnItems o j
  let n := (t.core j.g.core).spawned
  if (j.sp.get o.sa).toNat % 8 ≠ 0 then t.trapAt j 3 (j.sp.get o.sa)
  else if ((t.blockOf j.g).map (fun b => b.packedSlots)).getD 0 = 0 then t.trapAt j 6 0
  else if n + items.length ≤ 2048 then
    (t.modCore j.g.core (fun c => { c with spawnQ := c.spawnQ ++ items }.pack)).done j
  else if t.spawnLate j.sp then t.trapLanes j 0x16 (j.guard o.p o.pn) (w64 (2048 - n))
  else t.holdRoom j

/-- `spawn` (R230). -/
def execSpawn (o : XF) (s : State) : Host.Outcome State Fault Refusal := onIssue s (issue (spawnNeeds o) (spawnEffect o))

/-- The instruction that split `sp` is held at, if it decodes, with its switch marker. -/
def Split.heldWord (sp : Split) : Option (Bool × Instr) :=
  match sp.code with
  | [] => none
  | w :: rest => match Decode.decodeAt sp.cls rest.isEmpty w.toNat with
    | .ok x => some x
    | .error _ => none

/-- The instruction that split `sp` is held at, if it decodes. -/
def Split.heldInstr (sp : Split) : Option Instr := sp.heldWord.map (fun x => x.2)

/-- The split is held at a `spawn` past the limit of R153. -/
def State.spawnDue (s : State) (sp : Split) : Bool :=
  s.spawnLate sp && !sp.awake && !sp.halted && (match sp.heldInstr with
    | some (.spawn _) => true
    | _ => false)

/-- SPAWN_HOLD_TIMEOUT (R153): a `spawn` held for 4,096 cycles enters its items if there is room, else traps with cause
0x16; what follows an instruction follows it (R164, R167). -/
def execSpawnHoldTimeout (gid sid : Nat) (s : State) : Host.Outcome State Fault Refusal :=
  .next (match s.split? gid sid with
    | none => s
    | some (g, sp) =>
      if !s.spawnDue sp then s
      else
        match sp.heldWord with
        | some (sw, .spawn o) => (issue (spawnNeeds o) (spawnEffect o) s ⟨gid, sid, g, sp⟩).afterIssue ⟨gid, sid, g, sp⟩ sw
        | _ => s)

/-! ### `glaunch` and `gwait` (R231 to R233) -/

/-- Depth of the issuing grid (R151). -/
def State.depthOf (s : State) (g : Group) : Nat := ((s.grids.get? g.grid).map (fun x => x.depth)).getD 1

/-- The parameter block that a launch record names: its address and its bytes (R137, R140). -/
def paramRange (r : List Byte) : Nat × Nat :=
  (leNat ((r.drop 8).take 8), 8 * (shapeOf (w64 (leNat ((r.drop 0x18).take 8)))).pwords)

/-- What `glaunch` reads with a record at `va`: the record, and the parameter block once the record can be read (R140). -/
def State.launchReads (s : State) (g : Group) (va : Nat) : List (Nat × Nat) :=
  (va, 64) :: (match s.kvRead g.core g.ctx .copy va 64 with
    | .ok r => [paramRange r]
    | .error _ => [])

/-- The parameter words of a launch record as `glaunch` reads them (R140). -/
def State.launchParams (s : State) (g : Group) (r : List Byte) : Except XErr (List Word) :=
  let n := (shapeOf (w64 (leNat ((r.drop 0x18).take 8)))).pwords
  match s.kvRead g.core g.ctx .copy (paramRange r).1 (paramRange r).2 with
  | .error e => .error e
  | .ok bs => .ok ((List.range n).map (fun k => w64 (leNat ((bs.drop (8 * k)).take 8))))

/-- `glaunch` after its record has been read: parameter block, validity, and a free id (R231, R232). -/
def glaunchRecord (o : YF) (t : State) (j : Issue) (r : List Byte) : State :=
  match t.launchParams j.g r with
  | .error e => t.trapAt j e.cause e.x
  | .ok params =>
    match recordBad r with
    | some off => t.trapAt j 4 (w64 off)
    | none =>
      match t.freeGridId j.g.ctx with
      | none => t.putScalar j o.sd allOnes
      | some id => (t.launch j.g.ctx id (t.depthOf j.g + 1) (some j.g.grid) none r params).putScalar j o.sd (w64 id)

/-- Effect of `glaunch`: its checks in the order of R231. -/
def glaunchEffect (o : YF) (t : State) (j : Issue) : State :=
  let va := j.sp.get o.sa
  if j.g.slot ≠ 0 then t.trapAt j 6 0
  else if 10 ≤ t.depthOf j.g then t.trapAt j 0x17 (w64 10)
  else if bits va 52 12 ≠ 0 then t.trapAt j 4 va
  else if bits va 0 3 ≠ 0 then t.trapAt j 3 va
  else
    let reads := t.launchReads j.g va.toNat
    match t.kvWait j (reads.all (fun r => t.kvReady j.g.core j.g.ctx .copy false r.1 r.2))
        (reads.flatMap (fun r => t.kvTier j.g.core j.g.ctx .copy false r.1 r.2)) with
    | .inl u => u
    | .inr fails =>
      let a := KvAct.failing ⟨reads, .code 0⟩ fails
      let u := t.kvTouch j.g.core j.g.ctx .copy fails a.reads
      match a.fin with
      | .fault e => u.trapAt j e.cause e.x
      | _ =>
        match t.kvRead j.g.core j.g.ctx .copy va.toNat 64 with
        | .error e => u.trapAt j e.cause e.x
        | .ok r => glaunchRecord o u j r

/-- `glaunch` (R231). -/
def execGlaunch (o : YF) (s : State) : Host.Outcome State Fault Refusal :=
  onIssue s (issue (fun _ => { scal := [o.sa] }) (glaunchEffect o))

/-- The live child of the issuing grid that an id names (R233). -/
def State.childOf (s : State) (g : Group) (id : Word) : Option Nat :=
  (s.grids.find? (fun e => e.2.ctx == g.ctx && e.2.id == id.toNat && e.2.parent == some g.grid)).map (fun e => e.1)

/-- Effect of `gwait`: the split waits for a live child grid (R233). -/
def gwaitEffect (o : YF) (t : State) (j : Issue) : State :=
  match t.childOf j.g (j.sp.get o.sa) with
  | none => t.done j
  | some uid => (t.modSplit j.gid j.sid (fun sp => { sp with wait := .gwait uid, awake := false })).settle j.gid

/-- `gwait` at issue, and when its grid may have retired. -/
def gwaitOp (o : YF) (t : State) (j : Issue) : State :=
  match j.sp.wait with
  | .gwait uid => if (t.grids.get? uid).isSome then
      (t.modSplit j.gid j.sid (fun sp => { sp with awake := false })).settle j.gid else t.done j
  | _ => issue (fun _ => { scal := [o.sa] }) (gwaitEffect o) t j

/-- `gwait` (R233). -/
def execGwait (o : YF) (s : State) : Host.Outcome State Fault Refusal := onIssue s (gwaitOp o)

/-! ### Task-graph objects and the kick (R156 to R160) -/

/-- The windows of function `ctx` respond (R384): function 0 always; a context not after a boot whose foreman firmware or
service image has failed. -/
def State.responds (s : State) (ctx : Nat) : Bool :=
  decide (ctx = 0) || (!(s.pkgReg 5).getLsbD 0 && !(s.pkgReg 5).getLsbD 2)

/-- The register bits of a TGOBJ that a write sets (R156). -/
def tgobjMask (v : Word) : Word := w64 (bits v 63 1 * 2 ^ 63 + bits v 6 46 * 2 ^ 6)

/-- A write to a TGOBJ register: ignored while the slot holds a kick (R156). -/
def State.tgobjSet (s : State) (ctx slot : Nat) (v : Word) : State :=
  if (s.tgSlot ctx slot).kicks.isEmpty then s.setCtxReg ctx (0x130 + slot) (tgobjMask v) else s

/-- TGOBJ_WRITE (R156). -/
def execTgobjWrite (ctx slot : Nat) (v : Word) (s : State) : Host.Outcome State Fault Refusal :=
  .next (if slot < 16 ∧ s.responds ctx then s.tgobjSet ctx slot v else s)

/-- `s` with ERR and CODE of a slot's TGSTAT set (R160). -/
def State.tgError (s : State) (ctx slot code : Nat) : State :=
  let w := s.ctxReg ctx (tgstat slot)
  s.setCtxReg ctx (tgstat slot) (setBits (setBits w 63 1 1) 58 4 code)

/-- A kick (R158): the write of TGKICK. A terminated context refuses it with CODE 5 (R381); without a service image no context
exists that it could start anything in (R384). -/
def State.kick (s : State) (ctx : Nat) (v : Word) : State :=
  let slot := bits v 60 4
  let x := s.tgSlot ctx slot
  let w := s.ctxReg ctx (tgstat slot)
  let t := s.setCtxReg ctx 0x200 (w64 (slot * 2 ^ 60 + bits v 4 48 * 16))
  if (s.pkgReg 5).getLsbD 2 then t
  else if (t.ctxReg ctx 0x16C).getLsbD 63 then t.tgError ctx slot 5
  else if !(t.ctxReg ctx (0x130 + slot)).getLsbD 63 then t.tgError ctx slot 1
  else if 4 ≤ x.kicks.length then t.setCtxReg ctx (tgstat slot) (setBits w 62 1 1)
  else
    (t.setTgSlot ctx slot { x with kicks := x.kicks ++ [w64 (bits v 4 48 * 16)] }).setCtxReg ctx (tgstat slot)
      (setBits w 53 3 (x.kicks.length + 1))

/-- KICK (R158, R384). -/
def execKick (ctx : Nat) (v : Word) (s : State) : Host.Outcome State Fault Refusal :=
  .next (if s.responds ctx then s.kick ctx v else s)

/-- Why a replay cannot start: CODE and NODE of R160. -/
structure ReplayBad where
  code : Nat
  node : Nat
  deriving DecidableEq, Repr

/-- A number in a list of bytes. -/
def fieldAt (bs : List Byte) (a k : Nat) : Nat := leNat ((bs.drop a).take k)

/-- A read of the object, a parameter block or the table: its failure is CODE 4 (R160). -/
def State.replayRead (s : State) (ctx va n node : Nat) : Except ReplayBad (List Byte) :=
  match s.readCtx ctx va n with
  | .ok bs => .ok bs
  | .error _ => .error ⟨4, node⟩

/-- The node count and the successor offset of a well-formed header (R157). -/
def objHeader (h : List Byte) : Option (Nat × Nat) :=
  let n := fieldAt h 0 4
  let succ := fieldAt h 8 8
  if 1 ≤ n ∧ n ≤ 1024 ∧ fieldAt h 4 4 = 0 ∧ succ % 2 = 0 ∧ fieldAt h 0x10 48 = 0 then some (n, succ) else none

/-- A list of results, or the first failure. -/
def allOk {α β : Type} (f : α → Except ReplayBad β) : List α → Except ReplayBad (List β)
  | [] => .ok []
  | a :: t =>
    match f a with
    | .error e => .error e
    | .ok b => match allOk f t with
      | .error e => .error e
      | .ok bs => .ok (b :: bs)

/-- A node of an object as read: its record, its successors, and whether its own part of the object is malformed. -/
structure NodeImage where
  image : List Byte
  succs : List Nat
  bad : Bool
  deriving DecidableEq, Repr

/-- Node `k` of an object of `n` nodes (R157): malformed unless its record is valid, its reserved bytes are zero, and its
successors are nodes. -/
def State.readNode (s : State) (ctx obj succ n k : Nat) : Except ReplayBad NodeImage :=
  match s.replayRead ctx (obj + 0x40 + 128 * k) 128 k with
  | .error e => .error e
  | .ok r =>
    let bad := (recordBad r).isSome || decide (fieldAt r 0x50 48 ≠ 0)
    match s.replayRead ctx (obj + succ + 2 * fieldAt r 0x4C 4) (2 * fieldAt r 0x4A 2) k with
    | .error e => if bad then .ok ⟨r, [], true⟩ else .error e
    | .ok bs =>
      let succs := (List.range (fieldAt r 0x4A 2)).map (fun i => fieldAt bs (2 * i) 2)
      .ok ⟨r, succs, bad || !succs.all (fun j => decide (j < n))⟩

/-- Nodes left of a graph after those without predecessors are taken away, `fuel` times: a cycle leaves some. -/
def peelNodes (ns : List (Nat × NodeImage)) : Nat → List (Nat × NodeImage)
  | 0 => ns
  | fuel + 1 =>
    let rest := ns.filter (fun e => ns.any (fun f => f.2.succs.contains e.1))
    if rest.length = ns.length then ns else peelNodes rest fuel

/-- The lowest malformed node of an object (R157, R160): by its own record, because its PREDS differs from its appearances, or
because it lies on or behind a cycle. -/
def graphBad (ns : List NodeImage) : Option Nat :=
  let num := (List.range ns.length).zip ns
  let wrong := (num.filter (fun e =>
    decide (fieldAt e.2.image 0x48 2 ≠ (ns.flatMap (fun x => x.succs)).count e.1))).map (fun e => e.1)
  let stuck := (peelNodes num ns.length).map (fun e => e.1)
  let bad := (num.filter (fun e => e.2.bad)).map (fun e => e.1)
  minBy id (bad ++ wrong ++ stuck)

/-- The entries of a parameter-patch table: node, word and value (R159). -/
def State.readPatch (s : State) (ctx patch : Nat) (ns : List NodeImage) : Except ReplayBad (List (Nat × Nat × Word)) :=
  if patch = 0 then .ok []
  else
    match s.replayRead ctx patch 16 0x7FF with
    | .error e => .error e
    | .ok h =>
      if 4096 < fieldAt h 0 4 ∨ fieldAt h 4 12 ≠ 0 then .error ⟨3, 0x7FF⟩
      else
        match s.replayRead ctx (patch + 16) (16 * fieldAt h 0 4) 0x7FF with
        | .error e => .error e
        | .ok bs =>
          allOk (fun i =>
            let e := (bs.drop (16 * i)).take 16
            let node := fieldAt e 0 2
            let off := fieldAt e 2 2
            let pwords := match ns[node]? with
              | some x => (shapeOf (w64 (fieldAt x.image 0x18 8))).pwords
              | none => 0
            if off % 8 = 0 ∧ off < 8 * pwords ∧ fieldAt e 4 4 = 0 then
              .ok (node, off / 8, w64 (fieldAt e 8 8)) else .error ⟨3, 0x7FF⟩) (List.range (fieldAt h 0 4))

/-- `s` with the completion words of an object written 0 in node order, up to the first that cannot be (R159). -/
def State.clearCompletions (s : State) (ctx obj : Nat) (n : Nat) : State × Option ReplayBad :=
  (List.range n).foldl (fun acc k =>
    match acc.2 with
    | some _ => acc
    | none =>
      match acc.1.writeCtx ctx (completionAt obj k) (leBytes 8 0) with
      | .ok u => (u, none)
      | .error _ => (acc.1, some ⟨4, k⟩)) (s, none)

/-- The parameter copies of a replay, patched in table order (R159). -/
def patched (params : List (List Word)) : List (Nat × Nat × Word) → List (List Word)
  | [] => params
  | (node, k, v) :: t => patched (putAt node (putAt k v (params.getD node [])) params) t

/-- What the validation of a replay gives: the nodes of the object and the entries of the table, or why it fails (R157, R159,
R160; assumption log 69). -/
def State.validate (s : State) (ctx obj patch : Nat) : Except ReplayBad (List NodeImage × List (Nat × Nat × Word)) :=
  match s.replayRead ctx obj 64 0x7FF with
  | .error e => .error e
  | .ok h =>
    match objHeader h with
    | none => .error ⟨2, 0x7FF⟩
    | some (n, succ) =>
      match allOk (s.readNode ctx obj succ n) (List.range n) with
      | .error e => .error e
      | .ok ns =>
        match graphBad ns with
        | some k => .error ⟨2, k⟩
        | none =>
          match s.readPatch ctx patch ns with
          | .error e => .error e
          | .ok es => .ok (ns, es)

/-- The parameter copies of the nodes of an object (R140, R159). -/
def State.nodeParams (s : State) (ctx : Nat) (ns : List NodeImage) : Except ReplayBad (List (List Word)) :=
  allOk (fun e => match s.readParams ctx e.2.image with
    | .ok ws => .ok ws
    | .error _ => .error ⟨4, e.1⟩) ((List.range ns.length).zip ns)

/-- `s` after the requests of a validation have been served: the header, the node records, their successors and the table
(R60, R132). -/
def State.validateTouch (s : State) (ctx obj patch : Nat) (ns : List NodeImage) (entries : Nat) : State :=
  let t := s.touchCtx ctx obj (64 + 128 * ns.length)
  let succ := match s.readCtx ctx (obj + 8) 8 with
    | .ok bs => leNat bs
    | .error _ => 0
  let t := ns.foldl (fun u n =>
    u.touchCtx ctx (obj + succ + 2 * fieldAt n.image 0x4C 4) (2 * fieldAt n.image 0x4A 2)) t
  if patch = 0 then t else t.touchCtx ctx patch (16 + 16 * entries)

/-- The replay of an object up to the start of its nodes (R159, R160): what has been written stays when a later part fails. -/
def State.prepare (s : State) (ctx obj patch : Nat) : State × Except ReplayBad Replay :=
  match s.validate ctx obj patch with
  | .error e => (s.touchCtx ctx obj 64, .error e)
  | .ok (ns, es) =>
    match (s.validateTouch ctx obj patch ns es.length).clearCompletions ctx obj ns.length with
    | (t, some e) => (t, .error e)
    | (t, none) =>
      match t.nodeParams ctx ns with
      | .error e => (t, .error e)
      | .ok params =>
        (ns.foldl (fun u n => u.touchCtx ctx (paramRange n.image).1 (paramRange n.image).2) t,
         .ok ⟨obj, (ns.zip (patched params es)).map (fun e => ⟨e.1.image.take 128, e.2, false, false⟩)⟩)

/-- A kick waits in a slot, no replay runs, and the channels accept what it reads (R69, R158). -/
def State.replayDue (s : State) (ctx slot : Nat) : Bool :=
  let x := s.tgSlot ctx slot
  x.replay.isNone && !x.kicks.isEmpty && s.memOpen

/-- REPLAY_START (R159, R160): the oldest kick of a slot begins its replay, or ends with a CODE. -/
def execReplayStart (ctx slot : Nat) (s : State) : Host.Outcome State Fault Refusal :=
  .next (if !s.replayDue ctx slot then s
    else if (s.ctxReg ctx 0x16C).getLsbD 63 then s.replayEnd ctx slot 5 0
    else
      let x := s.tgSlot ctx slot
      let obj := bits (s.ctxReg ctx (0x130 + slot)) 6 46 * 64
      match s.prepare ctx obj (x.kicks.headD 0).toNat with
      | (t, .error e) => t.replayEnd ctx slot e.code e.node
      | (t, .ok r) => t.setTgSlot ctx slot { x with replay := some r })

/-- The completion word of a node that has not started has reached PREDS (R159). -/
def State.nodeDue (s : State) (ctx : Nat) (r : Replay) (node : Nat) : Bool :=
  match r.nodes[node]? with
  | none => false
  | some n =>
    !n.started && s.memOpen && (match s.readCtx ctx (completionAt r.obj node) 8 with
      | .ok bs => leNat bs == fieldAt n.image 0x48 2
      | .error _ => false) && (s.freeGridId ctx).isSome

/-- NODE_START (R159, R160): a node whose predecessors have retired launches its grid at depth 1, with the parameter copy of
the replay. -/
def execNodeStart (ctx slot node : Nat) (s : State) : Host.Outcome State Fault Refusal :=
  .next (match (s.tgSlot ctx slot).replay with
    | none => s
    | some r =>
      if !s.nodeDue ctx r node then s
      else
        match r.nodes[node]?, s.freeGridId ctx with
        | some n, some id =>
          let s := s.touchCtx ctx (completionAt r.obj node) 8
          let t := s.setTgSlot ctx slot { s.tgSlot ctx slot with
            replay := some { r with nodes := putAt node { n with started := true } r.nodes } }
          t.launch ctx id 1 none (some (slot, node)) n.image n.params
        | _, _ => s)

end Sys2Proof.Machine
end

