-- ==== Sys2Proof/Machine/Preempt.lean ====
section
/-!
DEFINITION. The distributor's evictions (R172, R174, R175, R352), time slices (R380), and restores (R357).
-/
namespace Sys2Proof.Machine

/-! ### Save records and staging areas (R352) -/

/-- Virtual address of save record `n`. -/
def State.recordVa (s : State) (ctx n : Nat) : Nat := bits (s.ctxReg ctx 0x162) 16 36 * 65536 + n * s.recordStride ctx
/-- The lowest free save record of a context, if its size covers `bytes`. -/
def State.freeRecord (s : State) (ctx bytes : Nat) : Option Nat :=
  if s.recordStride ctx < bytes then none
  else
    let used := (s.ctx ctx).recordsUsed
    (List.range (min (bits (s.ctxReg ctx 0x162) 52 12) (used.length + 1))).find? (fun n => !used.contains n)
/-- Window offset of staging area `i`. -/
def State.stageOffset (s : State) (ctx i : Nat) : Nat := bits (s.ctxReg ctx 0x163) 0 32 + 0x8000 * i
/-- The lowest free staging area of a context on a die that lies in its window. -/
def State.freeStage (s : State) (ctx die : Nat) : Option Nat :=
  let used := ((s.ctx ctx).stagesUsed.filter (fun e => e.1 == die)).map (fun e => e.2)
  (List.range (min (bits (s.ctxReg ctx 0x163) 32 12) (used.length + 1))).find? (fun i =>
    !used.contains i && decide (s.stageOffset ctx i + 0x8000 ≤ s.spExtent ctx die))

/-- The context of a group has used up its time slice (R380). -/
def State.expired (s : State) (ctx : Nat) : Bool :=
  let w := s.ctxReg ctx 0x16B
  decide (bits w 0 32 ≠ 0) && decide (bits w 0 32 ≤ bits w 32 32)

/-- A group that may be evicted for a block of priority `pri` (R174, R352). -/
def State.evictable (s : State) (pri : Nat) (g : Group) : Bool :=
  g.status == .running && g.deferred.isEmpty && (decide (g.pri < pri) || s.expired g.ctx) &&
  g.splits.all (fun e => !e.2.halted && !e.2.haltReq)

/-- Bytes of the record of a group as it stands. -/
def State.recordBytes (s : State) (gid : Nat) (g : Group) : Nat :=
  groupRecordBytes g.nregs g.nspill (s.ownedSlots g.core gid).length

/-- `s` after group `gid` is chosen as a victim: a save record and a staging area are its own, and cause 0x0E or 0x0F
waits for it, 0x0F where its context's time slice has expired, of whatever priority the group is (R175, R352; assumption log 150). -/
def State.chooseGroup (s : State) (gid : Nat) : Option State :=
  match s.groups.get? gid with
  | none => none
  | some g =>
    match s.freeRecord g.ctx (s.recordBytes gid g), s.freeStage g.ctx (dieOf g.core) with
    | some n, some i =>
      let cause := if s.expired g.ctx then 0x0F else 0x0E
      let h : Handler := ⟨false, false, cause, i, s.stageOffset g.ctx i, n, s.recordVa g.ctx n, 0⟩
      let c := s.ctx g.ctx
      let t := s.setCtx g.ctx { c with
        recordsUsed := n :: c.recordsUsed, stagesUsed := (dieOf g.core, i) :: c.stagesUsed }
      some (t.setGroup gid { g with saved := some h, deferred := g.deferred ++ [cause] })
    | _, _ => none

/-- `s` after every group of a list is chosen, if each can be. -/
def State.chooseGroups (s : State) : List Nat → Option State
  | [] => some s
  | gid :: rest =>
    match s.chooseGroup gid with
    | none => none
    | some t => t.chooseGroups rest

/-- The groups of a block that have not been evicted. -/
def State.residents (s : State) (bid : Nat) : List Nat :=
  ((s.groupsOf bid).filter (fun e => e.2.status != .evicted)).map (fun e => e.1)

/-- `s` after a block is chosen as a whole: a record for the block beside those of its groups; a group that has been evicted before
keeps its own (R174, R355). -/
def State.chooseBlock (s : State) (bid : Nat) : Option State :=
  match s.blocks.get? bid with
  | none => none
  | some b =>
    match s.freeRecord b.ctx (blockRecordBytes b.shmKiB b.tiles.length) with
    | none => none
    | some n =>
      let c := s.ctx b.ctx
      let t := s.setCtx b.ctx { c with recordsUsed := n :: c.recordsUsed }
      (t.setBlock bid { b with evicting := true, blockVa := s.recordVa b.ctx n }).chooseGroups (s.residents bid)

/-! ### Victims (R174) -/

/-- What is evicted in one piece: one group, or a whole block. -/
structure Victim where
  gids : List Nat
  whole : Option Nat
  deriving DecidableEq, Repr

/-- Groups of a core that may be evicted, in the order in which they are taken: lowest priority, youngest, highest slot. -/
def State.victimOrder (s : State) (core pri : Nat) : List (Nat × Group) :=
  sortBy (fun a b => decide (a.2.pri < b.2.pri) || (decide (a.2.pri = b.2.pri) &&
      (decide (b.2.started < a.2.started) || (decide (a.2.started = b.2.started) && decide (b.2.slot ≤ a.2.slot)))))
    (s.groups.filter (fun e => e.2.core == core && s.evictable pri e.2))

/-- A block all of whose groups may be evicted, but for those that have been. -/
def State.wholeEvictable (s : State) (pri bid : Nat) : Bool :=
  (s.groupsOf bid).all (fun e => e.2.status == .evicted || s.evictable pri e.2)

/-- The piece that the eviction of a group takes: its whole block where that holds tiles (R55, R174). -/
def State.victimOf (s : State) (pri : Nat) (e : Nat × Group) : Option Victim :=
  match s.blocks.get? e.2.bid with
  | none => none
  | some b =>
    if b.tiles.isEmpty then some ⟨[e.1], none⟩
    else if s.wholeEvictable pri e.2.bid then some ⟨s.residents e.2.bid, some e.2.bid⟩
    else none

/-- `s` as it will stand once the groups of victims have been evicted; only resources matter. -/
def State.afterVictim (s : State) (v : Victim) : State :=
  let t := v.gids.foldl (fun u gid => State.modGroup u gid (fun g => { g with status := .evicted })) s
  match v.whole with
  | none => t
  | some bid =>
    match t.blocks.get? bid with
    | none => t
    | some b =>
      (b.tiles.foldl (fun u k => State.setTile u b.core k Tile.init) t).setBlock bid { b with evicted := true }

/-- Shared memory, spill stacks and tiles are enough for shape `c` (R54, R161). -/
def State.roomFor (s : State) (core : Nat) (c : Shape) : Bool :=
  (s.shmPlan core c).isSome && decide (c.acc ≤ (s.freeTiles core).length)

/-- The state after every group of a core that may go as a single one has gone, with its spill stack (R174). -/
def State.spillGone (s : State) (core pri : Nat) : State :=
  ((s.victimOrder core pri).filterMap (fun e => (s.victimOf pri e).bind (fun v => if v.whole.isNone then some v else none))).foldl
    (fun t v => State.afterVictim t v) s

/-- A group's block holds some of what is lacking for shape `c`: tiles, or shared memory. -/
def State.holdsLack (s : State) (core : Nat) (c : Shape) (bid : Nat) : Bool :=
  (s.blocks.get? bid).any (fun b =>
    (decide ((s.freeTiles core).length < c.acc) && !b.tiles.isEmpty) ||
    ((s.shmPlan core c).isNone && decide (0 < b.shmKiB)))

/-- Whole blocks taken one after another until shared memory and tiles are enough but for what single groups can give up (R174):
the state then, and the victims. -/
def State.takeBlocks (s : State) (core pri : Nat) (c : Shape) : Nat → Option (State × List Victim)
  | 0 => if (s.spillGone core pri).roomFor core c then some (s, []) else none
  | n + 1 =>
    let t := s.spillGone core pri
    if t.roomFor core c then some (s, [])
    else
      match (s.victimOrder core pri).find? (fun e => s.wholeEvictable pri e.2.bid && t.holdsLack core c e.2.bid) with
      | none => none
      | some e =>
        let v : Victim := ⟨s.residents e.2.bid, some e.2.bid⟩
        ((s.afterVictim v).takeBlocks core pri c n).map (fun r => (r.1, v :: r.2))

/-- Single groups of quadrants `qs` taken until their spill stacks leave enough shared memory for shape `c` (R174): the victims. -/
def State.takeSpill (s : State) (core pri : Nat) (c : Shape) (qs : List Nat) : Nat → Option (List Victim)
  | 0 => none
  | n + 1 =>
    if s.roomFor core c then some []
    else
      match ((s.victimOrder core pri).filter (fun e => decide (0 < e.2.nspill) && qs.contains e.2.quad)).findSome? (fun e =>
          (s.victimOf pri e).bind (fun v => if v.whole.isNone then some v else none)) with
      | none => none
      | some v => ((s.afterVictim v).takeSpill core pri c qs n).map (fun r => v :: r)

/-- Victims of quadrant `q` until it has a run of `regs` registers and a place for one more group: the state then, and the
victims. -/
def State.takeGroups (s : State) (core pri q regs : Nat) : Nat → Option (State × List Victim)
  | 0 => none
  | n + 1 =>
    if ((s.quadFree core q).take regs).isSome then some (s, [])
    else
      match ((s.victimOrder core pri).filter (fun e => e.2.quad == q)).findSome? (s.victimOf pri) with
      | none => none
      | some v => ((s.afterVictim v).takeGroups core pri q regs n).map (fun r => (r.1, v :: r.2))

/-- A stand-in for the group slots of the new block that have been given a quadrant. -/
def State.giveQuad (s : State) (bid core q : Nat) (c : Shape) : State :=
  let base := (((s.quadFree core q).take c.regs).map (fun x => x.1)).getD 0
  match s.blocks.get? bid with
  | some b => s.setBlock bid { b with quads := b.quads ++ [q], bases := b.bases ++ [base] }
  | none =>
    s.setBlock bid {
      ctx := 0, grid := 0, x := 0, y := 0, z := 0, core := core, shmKiB := c.shm, shm := ⟨none, []⟩, tiles := [], quads := [q]
      bases := [base], rows := [], spillRows := [], nregs := c.regs, nspill := c.spill, statics := c.statics, packedSlots := c.spwn, pri := c.pri, rb := false, limit := 0
      begun := false, evicting := false, evicted := false, blockVa := 0, rolling := false, checkpoint := none }

/-- Quadrants for `k` group slots of a block on a core: each takes the one with the fewest victims, then the most free
registers, then the lowest (R174). The state then, the victims, and the quadrants. -/
def State.takeQuads (s : State) (core pri : Nat) (c : Shape) : Nat → Option (State × List Victim × List Nat)
  | 0 => some (s, [], [])
  | k + 1 =>
    let cand := (List.range 4).filterMap (fun q => (s.takeGroups core pri q c.regs 13).map (fun r => (q, r)))
    match minBy (fun e => ((e.2.2.flatMap (fun v => v.gids)).length * 4096 + (4095 - (s.quadFree core e.1).free)) * 4 + e.1) cand with
    | none => none
    | some (q, t, vs) => ((t.giveQuad s.nextId core q c).takeQuads core pri c k).map (fun r => (r.1, vs ++ r.2.1, q :: r.2.2))

/-- The victims by which a block of shape `c` would fit a core (R174): whole blocks first, then groups of the quadrants assigned, for
their registers and then for their spill stacks; groups of other quadrants only where the spill stacks of these do not suffice
(assumption log 137). -/
def State.victims (s : State) (core pri : Nat) (c : Shape) : Option (List Victim) :=
  match s.takeBlocks core pri c 17 with
  | none => none
  | some (t, vs) =>
    match t.takeQuads core pri c c.slots with
    | none => none
    | some (u, ws, qs) =>
      ((u.takeSpill core pri c qs 49).or (u.takeSpill core pri c [0, 1, 2, 3] 49)).map (fun xs => vs ++ ws ++ xs)

/-- `s` after victims are chosen (R175), if records and staging areas are enough. -/
def State.chooseVictims (s : State) : List Victim → Option State
  | [] => some s
  | v :: rest =>
    match (match v.whole with
      | some bid => s.chooseBlock bid
      | none => s.chooseGroups v.gids) with
    | none => none
    | some t => t.chooseVictims rest

/-- An eviction for grid `uid` is under way. -/
def State.evictingFor (s : State) (g : Grid) : Bool :=
  g.evictedFor.any (fun gid => match s.groups.get? gid with
    | some x => x.status != .evicted
    | none => false)

/-- The core and victims of an eviction for a pending block: the core with the fewest evicted groups (R174). -/
def State.evictPlan (s : State) (uid : Nat) (g : Grid) : Option (Nat × List Victim × State) :=
  let c := shapeOf g.config
  let cand := (List.range 96).filterMap (fun k =>
    if s.coreOpen uid g k && s.groups.any (fun e => e.2.core == k && s.evictable c.pri e.2) then
      match s.victims k c.pri c with
      | some vs => (s.chooseVictims vs).map (fun t => (k, vs, t))
      | none => none
    else none)
  minBy (fun e => (e.2.1.flatMap (fun v => v.gids)).length * 128 + e.1) cand

/-- A pending block has waited long enough for an eviction (R174). -/
def State.evictDue (s : State) (uid : Nat) (g : Grid) : Bool :=
  decide (g.next < g.total) && decide (4096 ≤ s.time - g.waitSince) && !s.evictingFor g && (s.coreFor uid g).isNone

/-- The distributor evicts for grid `uid` (R174): the victims' groups take their traps at their boundaries. -/
def State.evictFor (s : State) (uid : Nat) : State :=
  match s.grids.get? uid with
  | none => s
  | some g =>
    if !s.evictDue uid g then s
    else
      match s.evictPlan uid g with
      | none => s
      | some (core, vs, t) =>
        let gids := vs.flatMap (fun v => v.gids)
        let t := t.modGrid uid (fun x => { x with reserved := some core, evictedFor := x.evictedFor ++ gids })
        gids.foldl (fun u gid => State.settle u gid) t

/-- EVICTION_SELECT (R174). -/
def execEvictionSelect (uid : Nat) (s : State) : Host.Outcome State Fault Refusal := .next (s.evictFor uid)

/-- A context has a resident group. -/
def State.resident (s : State) (ctx : Nat) : Bool := s.groups.any (fun e => e.2.ctx == ctx && e.2.status != .evicted)

/-- Another context has a block to place. -/
def State.othersWait (s : State) (ctx : Nat) : List (Nat × Grid) := s.pendingGrids.filter (fun e => e.2.ctx != ctx)

/-- `s` after `k` microseconds: USED of every context that is resident while another has a block to place (R380). -/
def State.countSlices (s : State) (k : Nat) : State :=
  s.ctxs.foldl (fun t e =>
    if s.resident e.1 && !(s.othersWait e.1).isEmpty then
      let w := s.ctxReg e.1 0x16B
      State.setCtxReg t e.1 0x16B (setBits w 32 32 (satAt 0xFFFFFFFF (bits w 32 32 + k)))
    else t) s

/-- The state in which a step happens: `n` + 1 cycles later, with a fresh occasion for undefined values, and the
microseconds that have ended counted (R3, R380; assumption log 24). -/
def State.tick (s : State) (n : Nat) : State :=
  let t : State := { s with time := s.time + 1 + n, fresh := s.fresh + 1 }
  let k := t.time / Config.nsCycles 1000 - s.time / Config.nsCycles 1000
  if k = 0 then t else t.countSlices k

/-- TIME_SLICE_EXPIRE (R380): USED has reached SLICE; the context's groups may be chosen with cause 0x0F, at once for the
first pending block of another context that has waited long enough. -/
def execTimeSliceExpire (ctx : Nat) (s : State) : Host.Outcome State Fault Refusal :=
  .next (
    let w := s.ctxReg ctx 0x16B
    if bits w 0 32 = 0 ∨ !s.resident ctx ∨ (s.othersWait ctx).isEmpty then s
    else
      let t := s.setCtxReg ctx 0x16B (setBits w 32 32 (max (bits w 0 32) (bits w 32 32)))
      match (t.othersWait ctx).find? (fun e => t.evictDue e.1 e.2) with
      | some e => t.evictFor e.1
      | none => t)

/-! ### Restore (R172, R357) -/

/-- The operand slots that a save record names. -/
def State.recordSlots (s : State) (ctx va : Nat) : Except XErr (List Nat) :=
  match s.readCtx ctx (va + 0x28) 2 with
  | .ok bs => .ok ((List.range 16).filter (leNat bs).testBit)
  | .error e => .error e

/-- The operand slots that a save record names are free on a core (R53). -/
def State.slotsFree (s : State) (core : Nat) (g : Group) (h : Handler) : Bool :=
  match s.recordSlots g.ctx h.recordVa with
  | .ok ks => ks.all (fun k => (s.slotOf core k).st == .free)
  | .error _ => true

/-- A group's registers, in whatever quadrant, spill slots and operand slots are free on a core, and a staging area is (R34, R172,
R357). -/
def State.groupFits (s : State) (core : Nat) (g : Group) (h : Handler) : Bool :=
  (assignQuads g.nregs 1 (s.quads core)).isSome && (takeRuns (s.freeKib core) [rowsKib g.nspill]).isSome &&
  (s.freeStage g.ctx (dieOf core)).isSome && s.slotsFree core g h

/-- The shape of a block that has been evicted whole. -/
def Block.shape (b : Block) : Shape where
  pri := b.pri
  rb := b.rb
  acc := b.tiles.length
  pwords := 0
  spill := b.nspill
  shm := b.shmKiB
  regs := b.nregs
  statics := b.statics
  spwn := b.packedSlots

/-- `s` with fresh parity on a tile and its partition (R56). -/
def State.tileFresh (s : State) (core k : Nat) : State :=
  if s.parity.isEmpty then s else (s.parityClear 7 core 0 k 0 24576).parityClear 8 core 0 k 0 6144

/-- A tile as its block record holds it (R355). -/
def tileFrom (bid seed : Nat) (data part : List Byte) : Tile :=
  let n := fun (l : List Byte) (a k : Nat) => leNat ((l.drop a).take k)
  { owner := some bid, seed := seed
    data := (List.range 24576).map (fun k => (k, BitVec.ofNat 32 (n data (4 * k) 4)))
    rows := (List.range 128).filterMap (fun r =>
      let a := 48 * r
      let sum := BitVec.ofNat 32 (n part (a + 16) 4)
      if n part a 8 = 1 then some (r, ⟨some (BitVec.ofNat 64 (n part (a + 8) 8)).toInt, sum⟩)
      else if sum = 0 then none else some (r, ⟨none, sum⟩))
    busy := 0, spoilt := false }

/-- `s` after a block evicted whole has its shared memory, tiles, partitions, limit and watched phases again, on a core
with the quadrants given (R355, R357); its spawned items and packed groups that wait go with it. -/
def State.restoreBlock (s : State) (bid core : Nat) (b : Block) (quads : List (Nat × Nat)) : Except XErr State :=
  let s := ((s.touchCtx b.ctx b.blockVa 0x440).touchCtx b.ctx (b.blockVa + 0x10000) (b.shmKiB * 1024)).touchCtx b.ctx
    (b.blockVa + blockTilesAt b.shmKiB) (b.tiles.length * (0x18000 + 0x1800))
  match s.readCtx b.ctx b.blockVa 0x440, s.readCtx b.ctx (b.blockVa + 0x10000) (b.shmKiB * 1024),
      s.readCtx b.ctx (b.blockVa + blockTilesAt b.shmKiB) (b.tiles.length * (0x18000 + 0x1800)) with
  | .ok head, .ok shm, .ok acc =>
    let n := fun (a k : Nat) => leNat ((head.drop a).take k)
    let tiles := (s.freeTiles core).take b.tiles.length
    let (seed, t) := s.newSeed
    let t := ((List.range tiles.length).zip tiles).foldl (fun u e =>
      State.setTile (State.tileFresh u core e.2) core e.2 (tileFrom bid seed ((acc.drop (0x18000 * e.1)).take 0x18000)
        ((acc.drop (0x18000 * tiles.length + 0x1800 * e.1)).take 0x1800))) t
    let ws := ((List.range 64).map (fun i => (n (0x40 + 0x10 * i) 4, n (0x48 + 0x10 * i) 8))).filter (fun w => w.2 != 0)
    let t := ws.foldl (fun u w => State.modCore u core (fun c =>
      if 64 ≤ c.watch.length then c else { c with watch := c.watch ++ [⟨bid, w.1, u.time, w.2 - u.time⟩] })) t
    let t := t.recordDrop b.ctx b.blockVa
    let plan := (t.shmPlan core b.shape).getD []
    let x : Block := { b with
      core := core, quads := quads.map (fun q => q.1), bases := quads.map (fun q => q.2), tiles := tiles, limit := n 0 8
      rows := rowsFrom (plan.headD 0) (4 * b.shmKiB), spillRows := plan.tail.map (fun k => rowsFrom k b.nspill)
      shm := Memory.writeBytes ⟨some seed, []⟩ 0 shm, evicted := false, evicting := false }
    let old := t.core b.core
    let t := (t.modCore b.core (fun c => { c with
      spawnQ := c.spawnQ.filter (fun e => e.bid != bid), bins := c.bins.filter (fun e => e.bid != bid)
      formed := c.formed.filter (fun e => e.bid != bid) })).modCore core (fun c => { c with
        spawnQ := c.spawnQ ++ old.spawnQ.filter (fun e => e.bid == bid), bins := c.bins ++ old.bins.filter (fun e => e.bid == bid)
        formed := c.formed ++ old.formed.filter (fun e => e.bid == bid) })
    let t := (t.setBlock bid x).shmClear x 0 (b.shmKiB * 1024)
    .ok { t with groups := t.groups.map (fun e => (e.1, if e.2.bid = bid then { e.2 with core := core } else e.2)) }
  | .error e, _, _ => .error e
  | _, .error e, _ => .error e
  | _, _, .error e => .error e

/-- `s` with the registers and spill rows of a group that is restored set aside in its block, and the group with its place. -/
def State.seatGroup (s : State) (g : Group) : State × Group :=
  match assignQuads g.nregs 1 (s.quads g.core), s.blocks.get? g.bid with
  | some ((q, base) :: _), some b =>
    let rows := rowsFrom (((takeRuns (s.freeKib g.core) [rowsKib g.nspill]).getD []).headD 0) g.nspill
    (s.setBlock g.bid { b with
      quads := putAt g.slot q b.quads, bases := putAt g.slot base b.bases, spillRows := putAt g.slot rows b.spillRows },
      { g with quad := q, base := base })
  | _, _ => (s, g)

/-- The restore handler of group `gid` starts (R357). -/
def State.startRestore (s : State) (gid : Nat) (g : Group) (h : Handler) (k : Nat) (slots : List Nat) : State :=
  let vec := s.ctxReg g.ctx 0x161
  let die := dieOf g.core
  match s.freeStage g.ctx die with
  | none => s
  | some i =>
    if !vec.getLsbD 63 then s.terminate g.ctx 0 h.cause 0 0 (g.identity 0)
    else
      let (s, g) := s.seatGroup g
      let c := s.ctx g.ctx
      let t := s.setCtx g.ctx { c with stagesUsed := (die, i) :: c.stagesUsed }
      let (seed, t) := t.newSeed
      let t := slots.foldl (fun u n => State.setSlot u g.core n ⟨.claimed, gid, 0, false, ⟨some seed, []⟩, []⟩) t
      let h : Handler := { h with restore := true, stage := i, stageOff := s.stageOffset g.ctx i }
      let g : Group := { g with
        status := .saving, seed := seed, v := [], p := [], spill := [], sb := [], outs := [], recs := []
        handler := some h, deferred := [], started := t.time, order := s.freeOrder g.core g.quad
        readySince := t.time, wasReady := false }
      let sp := (handlerSplit (Split.blank seed 0) g h vec t.time).put 59 (w64 k)
      ((t.handlerClear g).scalClear g 0 59 1).setGroup gid { g.laneIndex with splits := [(0, sp)] }

/-- `s` after evicted group `gid` starts its restore; a record that cannot be read ends the context (R357). -/
def State.restoreGroup (s : State) (gid : Nat) : State :=
  match s.groups.get? gid with
  | none => s
  | some g =>
    match g.saved with
    | none => s
    | some h =>
      let s := s.touchCtx g.ctx (h.recordVa + 0x28) 10
      match s.readCtx g.ctx (h.recordVa + 0x30) 2, s.recordSlots g.ctx h.recordVa with
      | .ok bs, .ok ks => s.startRestore gid g h (leNat bs) ks
      | _, _ => s.terminate g.ctx 3 0 0 0 (g.identity 0)

/-- Evicted groups in eviction order (R172). -/
def State.evictedGroups (s : State) : List (Nat × Group) :=
  sortBy (fun a b => decide (a.2.evictedAt ≤ b.2.evictedAt)) (s.groups.filter (fun e => e.2.status == .evicted))

/-- The resources that a core has free are kept for a block that groups have been evicted for: its victims, and evicted groups of
lower priority, wait for it; a block evicted whole from another core does not come to a core that is kept (R162, R172, R175). -/
def State.keptFor (s : State) (core gid : Nat) (g : Group) (home : Bool) : Bool :=
  s.grids.any (fun e => e.2.reserved == some core && (!home || (!e.2.evictedFor.isEmpty &&
    (e.2.evictedFor.contains gid || decide (g.pri < bits e.2.config 62 2)))))

/-- An evicted group waits to be restored on a core: its block stands there, or was evicted whole from its die and may be placed
there (R142, R172, R380). -/
def State.waitsOn (s : State) (core gid : Nat) (g : Group) : Bool :=
  g.saved.isSome &&
  (match s.blocks.get? g.bid with
    | some b => !s.keptFor core gid g (b.core == core) &&
      (if b.evicted then dieOf b.core == dieOf core && s.permitted g.ctx core else b.core == core && !b.evicting)
    | none => false)

/-- An evicted group can be restored on a core now; for a block evicted whole, its quadrants and runs there (R142, R172). -/
def State.restorable (s : State) (core : Nat) (g : Group) : Option (Option (List (Nat × Nat))) :=
  match s.blocks.get? g.bid, g.saved with
  | some b, some h =>
    if b.evicted then
      if (s.freeStage g.ctx (dieOf core)).isSome ∧ s.slotsFree core g h then (s.fits core b.shape).map some else none
    else if s.groupFits core g h then some none else none
  | _, _ => none

/-- What is restored on a core: the first, in eviction order, of the evicted groups that wait there and can be (R172). -/
def State.restoreNext (s : State) (core : Nat) : Option (Nat × Option (List (Nat × Nat))) :=
  s.evictedGroups.findSome? (fun e =>
    if s.waitsOn core e.1 e.2 then (s.restorable core e.2).map (fun q => (e.1, q)) else none)

/-- GROUP_RESTORE (R172, R357). -/
def execGroupRestore (core : Nat) (s : State) : Host.Outcome State Fault Refusal :=
  .next (match s.restoreNext core with
    | none => s
    | some (gid, none) => s.restoreGroup gid
    | some (gid, some quads) =>
      match s.groups.get? gid with
      | none => s
      | some g =>
        match s.blocks.get? g.bid with
        | none => s
        | some b =>
          match s.restoreBlock g.bid core b quads with
          | .ok t => t.restoreGroup gid
          | .error _ => s.terminate g.ctx 3 0 0 0 (g.identity 0))

end Sys2Proof.Machine
end

