-- ==== Sys2Proof/Machine/Host.lean ====
section
/-!
DEFINITION. What the host and system software do (R376 to R385): register windows, host memory accesses, host bench
ports, termination on request, boot and attestation.
-/
namespace Sys2Proof.Machine

/-! ### Boot (R384) -/

/-- BOOTSTAT: DONE with the images that failed. -/
def bootstat (foreman baseDie service : Bool) : Word :=
  w64 (2 ^ 63 + b2n (!service) * 4 + b2n (!baseDie) * 2 + b2n (!foreman))

/-- BOOT (R384): the images are verified once after package reset; without a base-die image every stack refreshes under its
fallback sequencer. -/
def execBoot (foreman baseDie service : Bool) (s : State) : Host.Outcome State Fault Refusal :=
  .next (if s.booted then s
    else
      let t : State := { s.setPkgReg 5 (bootstat foreman baseDie service) with booted := true }
      if baseDie then t
      else (List.range 12).foldl (fun u k =>
        State.setPkgReg u (bdstat k) (setBits (State.pkgReg u (bdstat k)) 63 1 1)) t)

/-! ### Registers (R377) -/

/-- The bits of a word that lie in the fields listed as (low bit, width). -/
def fieldsOf (v : Word) (fs : List (Nat × Nat)) : Word := w64 (fs.foldl (fun n f => n + bits v f.1 f.2 * 2 ^ f.1) 0)

/-- A write of TERMREP (R381): V and OVW are cleared first, then KILL ends the context with WHY 4. -/
def State.termrepWrite (s : State) (ctx : Nat) (v : Word) : State :=
  let w := s.ctxReg ctx 0x16C
  let w := if v.getLsbD 63 then setBits w 63 1 0 else w
  let w := if v.getLsbD 61 then setBits w 61 1 0 else w
  let t := s.setCtxReg ctx 0x16C w
  if v.getLsbD 62 then t.terminate ctx 4 0 0 0 0 else t

/-- A write of TGSTAT (R160): ERR and DROP are cleared by 1. -/
def State.tgstatWrite (s : State) (ctx slot : Nat) (v : Word) : State :=
  let w := s.ctxReg ctx (tgstat slot)
  let w := if v.getLsbD 63 then setBits w 63 1 0 else w
  s.setCtxReg ctx (tgstat slot) (if v.getLsbD 62 then setBits w 62 1 0 else w)

/-- A write of PARLOG of a core (R57): LOG and its overflow mark are cleared by 1. -/
def State.parlogWrite (s : State) (core : Nat) (v : Word) : State :=
  let w := s.pkgReg (0x160 + core)
  let w := if v.getLsbD 63 then setBits w 63 1 0 else w
  s.setPkgReg (0x160 + core) (if v.getLsbD 62 then setBits w 62 1 0 else w)

/-- The write of a package register (R377). -/
def State.writePackage (s : State) (n : Nat) (v : Word) : State :=
  let put := fun (fs : List (Nat × Nat)) => s.setPkgReg n (fieldsOf v fs)
  if n = 0 then put [(0, 44)]
  else if n = 1 then (put [(0, 34)]).evalRates
  else if n = 2 then put [(16, 36)]
  else if n = 3 then s.invalidate v
  else if n = 6 then put [(32, 10), (0, 10)]
  else if 7 ≤ n ∧ n ≤ 0xB then put [(0, 64)]
  else if 0x10 ≤ n ∧ n ≤ 0x1B then put [(0, 16)]
  else if 0x20 ≤ n ∧ n ≤ 0x2B then s.bdstatWrite (n - 0x20) v
  else if n = 0x30 ∨ n = 0x31 then put [(0, 32)]
  else if n = 0x32 ∨ n = 0x33 then s.cxpEnable (n - 0x32) (v.getLsbD 62)
  else if 0x40 ≤ n ∧ n < 0x80 then put [(32, 28), (0, 28)]
  else if 0x80 ≤ n ∧ n < 0xC0 then s.migWriteReg (n - 0x80) v
  else if 0x100 ≤ n ∧ n < 0x160 then put [(0, 64)]
  else if 0x160 ≤ n ∧ n < 0x1C0 then s.parlogWrite (n - 0x160) v
  else if 0x1C0 ≤ n ∧ n < 0x220 then put [(0, 32)]
  else if n = dbgctl then s.debugCommand v
  else if n = dbgvsel then put [(0, 11)]
  else if 0x1000 ≤ n ∧ n < 0x2000 then s.windowPut ((n - 0x1000) * 8) v
  else s

/-- The write of a context register in the privileged window (R377). -/
def State.writePrivileged (s : State) (ctx n : Nat) (v : Word) : State :=
  let put := fun (fs : List (Nat × Nat)) => s.setCtxReg ctx n (fieldsOf v fs)
  if 0x100 ≤ n ∧ n ≤ 0x103 then put [(16, 11), (0, 11)]
  else if n = 0x104 then put [(16, 9), (0, 8)]
  else if 0x110 ≤ n ∧ n ≤ 0x11F then put [(62, 2), (56, 2), (24, 24), (8, 6), (0, 6)]
  else if n = 0x120 then put [(52, 4), (14, 38), (0, 1)]
  else if n = 0x121 then put [(10, 42)]
  else if n = 0x122 then put [(0, 50)]
  else if n = 0x123 then put [(0, 64)]
  else if 0x130 ≤ n ∧ n ≤ 0x13F then s.tgobjSet ctx (n - 0x130) v
  else if 0x140 ≤ n ∧ n ≤ 0x14F then s.tgstatWrite ctx (n - 0x140) v
  else if n = 0x160 then put [(16, 28), (0, 1)]
  else if n = 0x161 then put [(63, 1), (3, 49)]
  else if n = 0x162 then put [(0, 64)]
  else if n = 0x163 then put [(0, 44)]
  else if n = 0x164 then put [(8, 6), (0, 6)]
  else if n = 0x166 then s.jbufSet ctx v
  else if n = 0x167 then (if v.getLsbD 63 then s.jcfgEnable ctx v else s.jcfgUnbind ctx v)
  else if n = 0x169 then put [(0, 64)]
  else if n = 0x16A then put [(0, 32)]
  else if n = 0x16B then s.setCtxReg ctx n (setBits (s.ctxReg ctx n) 0 32 (bits v 0 32))
  else if n = 0x16C then s.termrepWrite ctx v
  else if n = 0x200 then s.kick ctx v
  else s

/-- The write of a register in the window of function `ctx` (R377). -/
def State.writeContext (s : State) (ctx n : Nat) (v : Word) : State :=
  if 0x130 ≤ n ∧ n ≤ 0x13F then s.tgobjSet ctx (n - 0x130) v
  else if 0x140 ≤ n ∧ n ≤ 0x14F then s.tgstatWrite ctx (n - 0x140) v
  else if n = 0x200 then s.kick ctx v
  else s

/-- PWRSTAT as it reads (R386): what is measured of power and of the compute dies is free once the machine has begun
(assumption log 93). -/
def State.pwrstat (s : State) : Word :=
  if s.time = 0 then s.pkgReg 4
  else setBits (setBits (s.pkgReg 4) 32 16 (Config.packageWatts s.time).toNat) 24 8 (Config.dieHottest s.time).toNat

/-- A package register as it reads (R377): PWRSTAT, DBGSTAT and the debug window show the state of the machine. -/
def State.readPackage (s : State) (n : Nat) : Word :=
  if n = 4 then s.pwrstat
  else if n = 0x601 then s.dbgstat
  else if 0x1000 ≤ n ∧ n < 0x2000 then s.windowWord ((n - 0x1000) * 8)
  else s.pkgReg n

/-- A number that the window of a function shows (R158, R236, R377). -/
def shownNumber (n : Nat) : Bool :=
  decide (0x100 ≤ n ∧ n ≤ 0x104) || decide (0x110 ≤ n ∧ n ≤ 0x11F) || decide (0x120 ≤ n ∧ n ≤ 0x123) ||
  decide (0x130 ≤ n ∧ n ≤ 0x14F) || decide (n = 0x200)

/-- A context register as the privileged window reads it, or the window of the function itself, which shows the numbers of
R236 alone (R20, R343, R377). XCFG and WDLIM, held elsewhere, read 0. -/
def State.readContext (s : State) (privileged : Bool) (ctx n : Nat) : Word :=
  if n = 0x150 ∨ n = 0x151 then 0 else if privileged || shownNumber n then s.ctxReg ctx n else 0

/-! ### Host bench ports (R379) -/

/-- The port of region `r` of function `ctx`. -/
def State.port (s : State) (ctx r : Nat) : HostPort := (s.ctx ctx).ports.getD r HostPort.init
/-- `s` with that port replaced. -/
def State.setPort (s : State) (ctx r : Nat) (p : HostPort) : State :=
  s.setCtx ctx { s.ctx ctx with ports := (s.ctx ctx).ports.set r p }

/-- A reserved tag that the host may use (R385): a request for a report, and its reply. -/
def State.hostTag (s : State) (ctx r : Nat) (op tag : Nat) : Bool :=
  !reservedTag tag || (r == s.mailbox ctx && ((op == 0 && tag == 0xFFFF0010) || (op != 0 && tag == 0xFFFF0011)))

/-- A request word that is answered with ST 3 (R379). -/
def State.hostRefuses (s : State) (ctx r : Nat) (w : Word) : Bool :=
  bits w 0 2 == 3 || bits w 2 2 != 0 || bits w 11 1 != 0 || bits w 15 17 != 0 ||
  !s.benchUsable ctx r || !(s.benchd ctx r).getLsbD 62 || !s.hostTag ctx r (bits w 0 2) (bits w 32 32)

/-- The bench request of a host request word; the port holds words 1 to 7 (R379). -/
def HostPort.request (p : HostPort) (id ctx r : Nat) (w : Word) : BenchReq where
  id := id
  op := if bits w 0 2 = 0 then .dep else if bits w 0 2 = 1 then .cpy else .tak
  ctx := ctx
  region := r
  tag := bits w 32 32
  mask := if bits w 0 2 = 0 then 0 else bits w 4 7
  fields := if bits w 0 2 = 0 then (List.range (bits w 12 3)).map (fun i => p.words.getD (i + 1) 0)
    else (List.range 7).map (fun i => if (bits w 4 7).testBit i then p.words.getD (i + 1) 0 else 0)
  poll := true
  gate := none
  who := .host ctx r

/-- The write of request word 0 (R379): DONE is cleared and the request sent, or it is refused at once; ignored while
DONE is 0. The port keeps the word without its reserved bits (R5). -/
def State.hostSend (s : State) (ctx r : Nat) (w : Word) : State :=
  let p := s.port ctx r
  if !p.reply.getLsbD 63 then s
  else
    let p : HostPort := { p with words := p.words.set 0 (fieldsOf w [(32, 32), (12, 3), (4, 7), (0, 2)]) }
    if s.hostRefuses ctx r w then
      s.setPort ctx r { p with reply := w64 (2 ^ 63 + 3 * 2 ^ 61), fields := [] }
    else
      let (id, t) := s.newId
      (t.setPort ctx r { p with reply := 0, fields := [] }).benchSend (p.request id ctx r w)

/-- The write of word `n` of a host bench port (R379). -/
def State.writePort (s : State) (ctx r n : Nat) (w : Word) : State :=
  if n = 0 then s.hostSend ctx r w
  else if n ≤ 7 then s.setPort ctx r { s.port ctx r with words := (s.port ctx r).words.set n w }
  else s

/-- Word `n` of a host bench port as it reads: the request words, the reply word and its fields (R379). -/
def State.readPort (s : State) (ctx r n : Nat) : Word :=
  let p := s.port ctx r
  if n < 8 then p.words.getD n 0 else if n = 8 then p.reply else if n < 16 then p.fields.getD (n - 9) 0 else 0

/-- `s` after the host sends a request with operation `op`, if the window responds. -/
def State.hostRequest (s : State) (ctx r : Nat) (w : Word) (op : Nat) : State :=
  if s.responds ctx ∧ r < 16 then s.hostSend ctx r (setBits w 0 2 op) else s

/-- The bench request of a foreman core (R330): TAG, MASK and NF as in a host request word, its own fields, polling; the tag
may be a reserved one (R105). -/
def foremanRequest (id : Nat) (op : BenchOp) (ctx r : Nat) (w : Word) (fields : List Word) : BenchReq where
  id := id
  op := op
  ctx := ctx
  region := r
  tag := bits w 32 32
  mask := if op = .dep then 0 else bits w 4 7
  fields := if op = .dep then (List.range (bits w 12 3)).map (fieldOf fields)
    else (List.range 7).map (fun i => if (bits w 4 7).testBit i then fieldOf fields i else 0)
  poll := true
  gate := none
  who := .foreman

/-- `s` after a foreman core sends a bench request to a region with a usable descriptor; a deposit in the mailbox of a context
raises vector 0 (R330, R381; assumption log 132). Foreman firmware that has failed is not started (R384). -/
def State.foremanSend (s : State) (op : BenchOp) (ctx r : Nat) (w : Word) (fields : List Word) : State :=
  if (s.pkgReg 5).getLsbD 0 ∨ !s.benchUsable ctx r then s
  else
    let (id, t) := s.newId
    let u := t.benchSend (foremanRequest id op ctx r w fields)
    if op = .dep ∧ r = s.mailbox ctx then { u with msix := u.msix ++ [⟨0, ctx⟩] } else u

/-- `s` after a bench request from outside the cores (R330, R379). -/
def State.outsideBench (s : State) (src : BenchSource) (op : BenchOp) (code r : Nat) (w : Word) : State :=
  match src with
  | .host ctx => s.hostRequest ctx r w code
  | .foreman ctx fields => s.foremanSend op ctx r w fields

/-- HOST_BENCH_DEPOSIT (R379), or the deposit of a foreman core (R330). -/
def execHostBenchDeposit (src : BenchSource) (region : Nat) (w : Word) (s : State) : Host.Outcome State Fault Refusal :=
  .next (s.outsideBench src .dep 0 region w)
/-- HOST_BENCH_COPY (R379), or the copy of a foreman core (R330). -/
def execHostBenchCopy (src : BenchSource) (region : Nat) (w : Word) (s : State) : Host.Outcome State Fault Refusal :=
  .next (s.outsideBench src .cpy 1 region w)
/-- HOST_BENCH_TAKE (R379), or the take of a foreman core (R330). -/
def execHostBenchTake (src : BenchSource) (region : Nat) (w : Word) (s : State) : Host.Outcome State Fault Refusal :=
  .next (s.outsideBench src .tak 2 region w)
/-- HOST_BENCH_REFUSED_OP (R379). -/
def execHostBenchRefusedOp (ctx region : Nat) (w : Word) (s : State) : Host.Outcome State Fault Refusal :=
  .next (s.hostRequest ctx region w 3)

/-- `s` after `sxld` writes the low `n` bytes of `v`, a piece of a `.const` section, at byte `off` of the constant window of a
context into the store of every core (R17, R367; assumption log 131). -/
def State.constPut (s : State) (ctx off n : Nat) (v : Word) : State :=
  if s.cnExtent ctx < off + n then s
  else (List.range 96).foldl (fun t k => State.cnsWrite t k (s.cnBase ctx + off) (leBytes n v.toNat)) s

/-- An aligned write of eight bytes to register `n` of a window (R376, R377, R379). -/
def State.viewWrite (s : State) (n : Nat) (v : Word) : View → State
  | .package => s.writePackage n v
  | .privileged c => if c ≤ 192 then s.writePrivileged c n v else s
  | .context c => if c ≤ 192 ∧ s.responds c then s.writeContext c n v else s
  | .benchPort c r => if c ≤ 192 ∧ r < 16 ∧ s.responds c then s.writePort c r n v else s

/-- Register `n` of a window, if the window responds (R376, R377, R379, R384). -/
def State.viewRead (s : State) (n : Nat) : View → Option Word
  | .package => some (s.readPackage n)
  | .privileged c => if c ≤ 192 then some (s.readContext true c n) else none
  | .context c => if c ≤ 192 ∧ s.responds c then some (s.readContext false c n) else none
  | .benchPort c r => if c ≤ 192 ∧ r < 16 ∧ s.responds c then some (s.readPort c r n) else none

/-- An access to a register: one that is not an aligned access of eight bytes reads all ones, or its write is discarded (R377). A
window that does not respond answers nothing (R384; assumption log 99). -/
def State.viewAccess (s : State) (w : View) (n : Nat) (v : Word) (read : Bool) (size low : Nat) : State :=
  let whole := size = 8 ∧ low = 0
  if read then
    match s.viewRead n w with
    | none => { s with hostRead := .none }
    | some x => { s with hostRead := .data (if whole then leBytes 8 x.toNat else List.replicate size 0xFF) }
  else if whole then s.viewWrite n v w
  else s

/-- REGISTER_WRITE (R376, R377, R379): an access to a register window, in its short form an aligned write of eight bytes; in the
window of constants, the bytes from the one that the number counts. -/
def execRegisterWrite (win : Window) (num : Nat) (v : Word) (s : State) : Host.Outcome State Fault Refusal :=
  .next (match win with
    | .package => s.viewWrite num v .package
    | .privileged c => s.viewWrite num v (.privileged c)
    | .context c => s.viewWrite num v (.context c)
    | .benchPort c r => s.viewWrite num v (.benchPort c r)
    | .constants c n => if c ≤ 192 then s.constPut c num n v else s
    | .access w read size low => s.viewAccess w num v read size low)

/-- TERMREP_KILL (R381). -/
def execTermrepKill (ctx : Nat) (v : Word) (s : State) : Host.Outcome State Fault Refusal :=
  .next (if v.getLsbD 62 then s.termrepWrite ctx v else s)

/-! ### Host memory accesses (R378) -/

/-- The span of HMLIM and HBM hold the bytes. -/
def State.hostAllowed (s : State) (pa len : Nat) : Bool :=
  let lim := s.pkgReg 6
  let lo := bits lim 0 10 * 2 ^ 30
  decide (lo ≤ pa) && decide (pa + len ≤ lo + bits lim 32 10 * 2 ^ 30) && inHbm pa len

/-- `s` with one refusal counted in HMERR. -/
def State.hostRefused (s : State) : State := s.setPkgReg 7 (w64 (satAt (2 ^ 64 - 1) ((s.pkgReg 7).toNat + 1)))

/-- HOST_MEM_READ (R378): the bytes, or CXL poison for a refused read. -/
def execHostMemRead (pa len : Nat) (s : State) : Host.Outcome State Fault Refusal :=
  .next (if s.hostAllowed pa len then s.hostReadAt pa len else { s.hostRefused with hostRead := .poison })

/-- HOST_MEM_WRITE (R378): the bytes are written, or a refused write is dropped. -/
def execHostMemWrite (pa : Nat) (bytes : List Byte) (s : State) : Host.Outcome State Fault Refusal :=
  .next (if s.hostAllowed pa bytes.length then s.hostWriteAt pa bytes else s.hostRefused)

/-! ### Attestation (R385) -/

/-- The bytes of a report for a context and a nonce of 48 bytes: what rests on the images, the device and its key is free. -/
def State.report (s : State) (ctx : Nat) (nonce : List Byte) : List Byte :=
  leBytes 4 1 ++ leBytes 4 ctx ++ leBytes 8 Config.deviceId.toNat ++ nonce ++
  (List.range 0x100).map (fun i => Config.attestByte 0 (0x40 + i)) ++
  (List.range 0x84).map (fun i => Config.attestByte (s.occ + 1) (0x140 + i)) ++ List.replicate 0x3C 0

/-- The fields of the oldest request for a report that a foreman core has taken from the mailbox of a context. -/
def State.reportAsked (s : State) (ctx : Nat) : Option (List Word) :=
  s.foreman.findSome? (fun e => match e with
    | .asked c fields => if c = ctx then some fields else none
    | _ => none)

/-- `s` after a foreman core sends the polling take for a request for a report (R330, R385). -/
def State.reportTake (s : State) (ctx : Nat) : State :=
  if !(s.pkgReg 5).getLsbD 0 && s.benchUsable ctx (s.mailbox ctx) then
    let (id, t) := s.newId
    t.benchSend ⟨id, .tak, ctx, s.mailbox ctx, 0xFFFF0010, 0, [], true, none, .attest ctx⟩
  else s

/-- `s` after the report for a request is written: field 0 of the reply is 0, or 1 where it could not be. -/
def State.reportWrite (s : State) (ctx : Nat) (fields : List Word) : State × Nat :=
  let va := (fieldOf fields 6).toNat
  let nonce := (List.range 6).flatMap (fun i => leBytes 8 (fieldOf fields i).toNat)
  if va % 1024 ≠ 0 then (s, 1)
  else
    match s.writeCtx ctx va (s.report ctx nonce) with
    | .ok u => (u, 0)
    | .error _ => (s, 1)

/-- ATTESTATION_REPORT (R385): a foreman core that has taken a request writes the report and deposits the reply, of which
vector 0 tells the driver (R381); otherwise it sends the take for one. -/
def execAttestationReport (ctx : Nat) (s : State) : Host.Outcome State Fault Refusal :=
  .next (match s.reportAsked ctx with
    | none => s.reportTake ctx
    | some fields =>
      if !s.memOpen then s
      else
        let (u, code) := { s with foreman := s.foreman.erase (.asked ctx fields) }.reportWrite ctx fields
        u.foremanSend .dep ctx (s.mailbox ctx) (w64 (0xFFFF0011 * 2 ^ 32 + 2 ^ 12)) [w64 code])

end Sys2Proof.Machine
end

