-- ==== Sys2Proof/Machine/Dispatch.lean ====
section
/-!
DEFINITION. The dispatch: one arm for each constructor of `Instr`, each a direct call of its meaning.
-/
namespace Sys2Proof.Machine

/-- The meaning of an instruction or event in a state. -/
def exec (i : Instr) (s : State) : Host.Outcome State Fault Refusal :=
  match i with
  | .sadd o => Sys2Proof.Machine.execSadd o s
  | .ssub o => Sys2Proof.Machine.execSsub o s
  | .smul o => Sys2Proof.Machine.execSmul o s
  | .smulh o => Sys2Proof.Machine.execSmulh o s
  | .smulhn o => Sys2Proof.Machine.execSmulhn o s
  | .sand o => Sys2Proof.Machine.execSand o s
  | .sor o => Sys2Proof.Machine.execSor o s
  | .sxor o => Sys2Proof.Machine.execSxor o s
  | .sshl o => Sys2Proof.Machine.execSshl o s
  | .sshr o => Sys2Proof.Machine.execSshr o s
  | .ssra o => Sys2Proof.Machine.execSsra o s
  | .smin o => Sys2Proof.Machine.execSmin o s
  | .smax o => Sys2Proof.Machine.execSmax o s
  | .sminn o => Sys2Proof.Machine.execSminn o s
  | .smaxn o => Sys2Proof.Machine.execSmaxn o s
  | .scmp o => Sys2Proof.Machine.execScmp o s
  | .saddi o => Sys2Proof.Machine.execSaddi o s
  | .sandi o => Sys2Proof.Machine.execSandi o s
  | .sori o => Sys2Proof.Machine.execSori o s
  | .sxori o => Sys2Proof.Machine.execSxori o s
  | .sshli o => Sys2Proof.Machine.execSshli o s
  | .sshri o => Sys2Proof.Machine.execSshri o s
  | .ssrai o => Sys2Proof.Machine.execSsrai o s
  | .sli o => Sys2Proof.Machine.execSli o s
  | .slih o => Sys2Proof.Machine.execSlih o s
  | .scmpi o => Sys2Proof.Machine.execScmpi o s
  | .sgetv o => Sys2Proof.Machine.execSgetv o s
  | .sballot o => Sys2Proof.Machine.execSballot o s
  | .spopc o => Sys2Proof.Machine.execSpopc o s
  | .sclz o => Sys2Proof.Machine.execSclz o s
  | .sffs o => Sys2Proof.Machine.execSffs o s
  | .srd o => Sys2Proof.Machine.execSrd o s
  | .swr o => Sys2Proof.Machine.execSwr o s
  | .br o => Sys2Proof.Machine.execBr o s
  | .brx o => Sys2Proof.Machine.execBrx o s
  | .call o => Sys2Proof.Machine.execCall o s
  | .ret o => Sys2Proof.Machine.execRet o s
  | .split o => Sys2Proof.Machine.execSplit o s
  | .join => Sys2Proof.Machine.execJoin s
  | .exit o => Sys2Proof.Machine.execExit o s
  | .ient => Sys2Proof.Machine.execIent s
  | .fmt o => Sys2Proof.Machine.execFmt o s
  | .nop => Sys2Proof.Machine.execNop s
  | .vadd ty o => Sys2Proof.Machine.execVadd ty o s
  | .vsub ty o => Sys2Proof.Machine.execVsub ty o s
  | .vmul ty o => Sys2Proof.Machine.execVmul ty o s
  | .vmulh ty o => Sys2Proof.Machine.execVmulh ty o s
  | .vmulhn ty o => Sys2Proof.Machine.execVmulhn ty o s
  | .vand ty o => Sys2Proof.Machine.execVand ty o s
  | .vor ty o => Sys2Proof.Machine.execVor ty o s
  | .vxor ty o => Sys2Proof.Machine.execVxor ty o s
  | .vshl ty o => Sys2Proof.Machine.execVshl ty o s
  | .vshr ty o => Sys2Proof.Machine.execVshr ty o s
  | .vsra ty o => Sys2Proof.Machine.execVsra ty o s
  | .vmin ty o => Sys2Proof.Machine.execVmin ty o s
  | .vmax ty o => Sys2Proof.Machine.execVmax ty o s
  | .vminn ty o => Sys2Proof.Machine.execVminn ty o s
  | .vmaxn ty o => Sys2Proof.Machine.execVmaxn ty o s
  | .vabs ty o => Sys2Proof.Machine.execVabs ty o s
  | .vneg ty o => Sys2Proof.Machine.execVneg ty o s
  | .vclz ty o => Sys2Proof.Machine.execVclz ty o s
  | .vpopc ty o => Sys2Proof.Machine.execVpopc ty o s
  | .vaddi ty o => Sys2Proof.Machine.execVaddi ty o s
  | .vandi ty o => Sys2Proof.Machine.execVandi ty o s
  | .vori ty o => Sys2Proof.Machine.execVori ty o s
  | .vxori ty o => Sys2Proof.Machine.execVxori ty o s
  | .vshli ty o => Sys2Proof.Machine.execVshli ty o s
  | .vshri ty o => Sys2Proof.Machine.execVshri ty o s
  | .vsrai ty o => Sys2Proof.Machine.execVsrai ty o s
  | .vli o => Sys2Proof.Machine.execVli o s
  | .vcmp c ty o => Sys2Proof.Machine.execVcmp c ty o s
  | .vfcmp c ty o => Sys2Proof.Machine.execVfcmp c ty o s
  | .pand o => Sys2Proof.Machine.execPand o s
  | .por o => Sys2Proof.Machine.execPor o s
  | .pxor o => Sys2Proof.Machine.execPxor o s
  | .pandn o => Sys2Proof.Machine.execPandn o s
  | .pnot o => Sys2Proof.Machine.execPnot o s
  | .pmov o => Sys2Proof.Machine.execPmov o s
  | .pset o => Sys2Proof.Machine.execPset o s
  | .pclr o => Sys2Proof.Machine.execPclr o s
  | .ptest o => Sys2Proof.Machine.execPtest o s
  | .vsel o => Sys2Proof.Machine.execVsel o s
  | .vmov o => Sys2Proof.Machine.execVmov o s
  | .vbcast o => Sys2Proof.Machine.execVbcast o s
  | .vlane o => Sys2Proof.Machine.execVlane o s
  | .vfadd ty o => Sys2Proof.Machine.execVfadd ty o s
  | .vfsub ty o => Sys2Proof.Machine.execVfsub ty o s
  | .vfmul ty o => Sys2Proof.Machine.execVfmul ty o s
  | .vfma ty o => Sys2Proof.Machine.execVfma ty o s
  | .vfms ty o => Sys2Proof.Machine.execVfms ty o s
  | .vfnma ty o => Sys2Proof.Machine.execVfnma ty o s
  | .vfmin ty o => Sys2Proof.Machine.execVfmin ty o s
  | .vfmax ty o => Sys2Proof.Machine.execVfmax ty o s
  | .vfabs ty o => Sys2Proof.Machine.execVfabs ty o s
  | .vfneg ty o => Sys2Proof.Machine.execVfneg ty o s
  | .vfclass ty o => Sys2Proof.Machine.execVfclass ty o s
  | .vrcp o => Sys2Proof.Machine.execVrcp o s
  | .vrsq o => Sys2Proof.Machine.execVrsq o s
  | .vsqrt o => Sys2Proof.Machine.execVsqrt o s
  | .vexp2 o => Sys2Proof.Machine.execVexp2 o s
  | .vlog2 o => Sys2Proof.Machine.execVlog2 o s
  | .vcvt o => Sys2Proof.Machine.execVcvt o s
  | .vpack o => Sys2Proof.Machine.execVpack o s
  | .vunpack o => Sys2Proof.Machine.execVunpack o s
  | .vscl o => Sys2Proof.Machine.execVscl o s
  | .vdot8 o => Sys2Proof.Machine.execVdot8 o s
  | .vdot4 o => Sys2Proof.Machine.execVdot4 o s
  | .vdoti8 o => Sys2Proof.Machine.execVdoti8 o s
  | .tmv o => Sys2Proof.Machine.execTmv o s
  | .vperm o => Sys2Proof.Machine.execVperm o s
  | .vred o => Sys2Proof.Machine.execVred o s
  | .vscan o => Sys2Proof.Machine.execVscan o s
  | .vconf o => Sys2Proof.Machine.execVconf o s
  | .vcomp o => Sys2Proof.Machine.execVcomp o s
  | .lds o => Sys2Proof.Machine.execLds o s
  | .sts o => Sys2Proof.Machine.execSts o s
  | .ldx o => Sys2Proof.Machine.execLdx o s
  | .stx o => Sys2Proof.Machine.execStx o s
  | .ldc o => Sys2Proof.Machine.execLdc o s
  | .vspill o => Sys2Proof.Machine.execVspill o s
  | .vfill o => Sys2Proof.Machine.execVfill o s
  | .vgth o => Sys2Proof.Machine.execVgth o s
  | .vsct o => Sys2Proof.Machine.execVsct o s
  | .aadd o => Sys2Proof.Machine.execAadd o s
  | .afadd o => Sys2Proof.Machine.execAfadd o s
  | .amin o => Sys2Proof.Machine.execAmin o s
  | .amax o => Sys2Proof.Machine.execAmax o s
  | .aand o => Sys2Proof.Machine.execAand o s
  | .aor o => Sys2Proof.Machine.execAor o s
  | .axchg o => Sys2Proof.Machine.execAxchg o s
  | .acas o => Sys2Proof.Machine.execAcas o s
  | .bar o => Sys2Proof.Machine.execBar o s
  | .barr o => Sys2Proof.Machine.execBarr o s
  | .barw o => Sys2Proof.Machine.execBarw o s
  | .wmon o => Sys2Proof.Machine.execWmon o s
  | .fence o => Sys2Proof.Machine.execFence o s
  | .fenceOp o => Sys2Proof.Machine.execFenceOp o s
  | .cpy o => Sys2Proof.Machine.execCpy o s
  | .cpyr o => Sys2Proof.Machine.execCpyr o s
  | .bclose o => Sys2Proof.Machine.execBclose o s
  | .bwait o => Sys2Proof.Machine.execBwait o s
  | .cquiesce o => Sys2Proof.Machine.execCquiesce o s
  | .cquiesceRst o => Sys2Proof.Machine.execCquiesceRst o s
  | .cstat o => Sys2Proof.Machine.execCstat o s
  | .oclaim o => Sys2Proof.Machine.execOclaim o s
  | .oclaimAny o => Sys2Proof.Machine.execOclaimAny o s
  | .orel o => Sys2Proof.Machine.execOrel o s
  | .mma o => Sys2Proof.Machine.execMma o s
  | .mmas o => Sys2Proof.Machine.execMmas o s
  | .mzero o => Sys2Proof.Machine.execMzero o s
  | .accrd o => Sys2Proof.Machine.execAccrd o s
  | .accwr o => Sys2Proof.Machine.execAccwr o s
  | .mlease o => Sys2Proof.Machine.execMlease o s
  | .mleaseFol o => Sys2Proof.Machine.execMleaseFol o s
  | .smask o => Sys2Proof.Machine.execSmask o s
  | .attnBrim o => Sys2Proof.Machine.execAttnBrim o s
  | .attnBrimRes o => Sys2Proof.Machine.execAttnBrimRes o s
  | .kvmap o => Sys2Proof.Machine.execKvmap o s
  | .kvapp o => Sys2Proof.Machine.execKvapp o s
  | .kvreq o => Sys2Proof.Machine.execKvreq o s
  | .kvsum o => Sys2Proof.Machine.execKvsum o s
  | .kvlink o => Sys2Proof.Machine.execKvlink o s
  | .kvtrim o => Sys2Proof.Machine.execKvtrim o s
  | .pgget o => Sys2Proof.Machine.execPgget o s
  | .pgput o => Sys2Proof.Machine.execPgput o s
  | .bdep o => Sys2Proof.Machine.execBdep o s
  | .bcpy o => Sys2Proof.Machine.execBcpy o s
  | .btak o => Sys2Proof.Machine.execBtak o s
  | .jrec o => Sys2Proof.Machine.execJrec o s
  | .jack o => Sys2Proof.Machine.execJack o s
  | .jtrunc o => Sys2Proof.Machine.execJtrunc o s
  | .rngc o => Sys2Proof.Machine.execRngc o s
  | .bdset o => Sys2Proof.Machine.execBdset o s
  | .bdget o => Sys2Proof.Machine.execBdget o s
  | .bdclr o => Sys2Proof.Machine.execBdclr o s
  | .spawn o => Sys2Proof.Machine.execSpawn o s
  | .glaunch o => Sys2Proof.Machine.execGlaunch o s
  | .gwait o => Sys2Proof.Machine.execGwait o s
  | .trap o => Sys2Proof.Machine.execTrap o s
  | .eret o => Sys2Proof.Machine.execEret o s
  | .csrr o => Sys2Proof.Machine.execCsrr o s
  | .csrw o => Sys2Proof.Machine.execCsrw o s
  | .brk o => Sys2Proof.Machine.execBrk o s
  | .wdog o => Sys2Proof.Machine.execWdog o s
  | .wdogQ o => Sys2Proof.Machine.execWdogQ o s
  | .groupPick core q => Sys2Proof.Machine.execGroupPick core q s
  | .holdClear gid sid => Sys2Proof.Machine.execHoldClear gid sid s
  | .resultWriteback gid idx => Sys2Proof.Machine.execResultWriteback gid idx s
  | .returnSlotReply core idx => Sys2Proof.Machine.execReturnSlotReply core idx s
  | .wbDrainTimeout core idx => Sys2Proof.Machine.execWbDrainTimeout core idx s
  | .serviceGroupExec die slice => Sys2Proof.Machine.execServiceGroupExec die slice s
  | .benchServe die slice => Sys2Proof.Machine.execBenchServe die slice s
  | .benchWithdraw gid sid => Sys2Proof.Machine.execBenchWithdraw gid sid s
  | .channelPick sched eligible => Sys2Proof.Machine.execChannelPick sched eligible s
  | .memCompletion id => Sys2Proof.Machine.execMemCompletion id s
  | .dieFlitReceive id crcOk => Sys2Proof.Machine.execDieFlitReceive id crcOk s
  | .patrolScrub unit => Sys2Proof.Machine.execPatrolScrub unit s
  | .dbiWindowEnd ch ones toggles => Sys2Proof.Machine.execDbiWindowEnd ch ones toggles s
  | .thermalSample ch temp => Sys2Proof.Machine.execThermalSample ch temp s
  | .thermalStateFall ch => Sys2Proof.Machine.execThermalStateFall ch s
  | .rateRiseTimer ch => Sys2Proof.Machine.execRateRiseTimer ch s
  | .rateSwitchEnd ch => Sys2Proof.Machine.execRateSwitchEnd ch s
  | .baseDieReset stack => Sys2Proof.Machine.execBaseDieReset stack s
  | .fallbackTakeover stack => Sys2Proof.Machine.execFallbackTakeover stack s
  | .refreshHandback stack => Sys2Proof.Machine.execRefreshHandback stack s
  | .bdstatRel stack => Sys2Proof.Machine.execBdstatRel stack s
  | .cxlTimeout id => Sys2Proof.Machine.execCxlTimeout id s
  | .cxlLateCompletion id => Sys2Proof.Machine.execCxlLateCompletion id s
  | .cxlLinkDown port => Sys2Proof.Machine.execCxlLinkDown port s
  | .cxlLinkTrained port cap => Sys2Proof.Machine.execCxlLinkTrained port cap s
  | .cxpstatEnable port => Sys2Proof.Machine.execCxpstatEnable port s
  | .xlinvcCommand v => Sys2Proof.Machine.execXlinvcCommand v s
  | .xlinvcComplete => Sys2Proof.Machine.execXlinvcComplete s
  | .migArm slot => Sys2Proof.Machine.execMigArm slot s
  | .migStart slot => Sys2Proof.Machine.execMigStart slot s
  | .migSwitch slot => Sys2Proof.Machine.execMigSwitch slot s
  | .migFinish slot => Sys2Proof.Machine.execMigFinish slot s
  | .migAbort slot => Sys2Proof.Machine.execMigAbort slot s
  | .migClear slot => Sys2Proof.Machine.execMigClear slot s
  | .migRoutedRequest slot link => Sys2Proof.Machine.execMigRoutedRequest slot link s
  | .migBackgroundFill slot link => Sys2Proof.Machine.execMigBackgroundFill slot link s
  | .copyBatchComplete gid batch => Sys2Proof.Machine.execCopyBatchComplete gid batch s
  | .matrixOpStart core => Sys2Proof.Machine.execMatrixOpStart core s
  | .matrixOpRetire core => Sys2Proof.Machine.execMatrixOpRetire core s
  | .startLimitWindow die => Sys2Proof.Machine.execStartLimitWindow die s
  | .arrayIdle core => Sys2Proof.Machine.execArrayIdle core s
  | .leaseIdleExpire core => Sys2Proof.Machine.execLeaseIdleExpire core s
  | .attnStart core => Sys2Proof.Machine.execAttnStart core s
  | .attnVisit core => Sys2Proof.Machine.execAttnVisit core s
  | .blockPlace die => Sys2Proof.Machine.execBlockPlace die s
  | .placementStarvation bid => Sys2Proof.Machine.execPlacementStarvation bid s
  | .evictionSelect bid => Sys2Proof.Machine.execEvictionSelect bid s
  | .groupRestore core => Sys2Proof.Machine.execGroupRestore core s
  | .timeSliceExpire ctx => Sys2Proof.Machine.execTimeSliceExpire ctx s
  | .groupEnd gid => Sys2Proof.Machine.execGroupEnd gid s
  | .spawnHoldTimeout gid sid => Sys2Proof.Machine.execSpawnHoldTimeout gid sid s
  | .spawnBinTimeout core idx => Sys2Proof.Machine.execSpawnBinTimeout core idx s
  | .packedGroupStart core => Sys2Proof.Machine.execPackedGroupStart core s
  | .barrierWatchdogExpire core idx => Sys2Proof.Machine.execBarrierWatchdogExpire core idx s
  | .tgobjWrite ctx slot v => Sys2Proof.Machine.execTgobjWrite ctx slot v s
  | .kick ctx v => Sys2Proof.Machine.execKick ctx v s
  | .replayStart ctx slot => Sys2Proof.Machine.execReplayStart ctx slot s
  | .nodeStart ctx slot node => Sys2Proof.Machine.execNodeStart ctx slot node s
  | .frameGrant core => Sys2Proof.Machine.execFrameGrant core s
  | .grantTakeRetry core => Sys2Proof.Machine.execGrantTakeRetry core s
  | .jcfgBind ctx v => Sys2Proof.Machine.execJcfgBind ctx v s
  | .jcfgDisable ctx v => Sys2Proof.Machine.execJcfgDisable ctx v s
  | .jbufWrite ctx v => Sys2Proof.Machine.execJbufWrite ctx v s
  | .journalAck ctx dev n => Sys2Proof.Machine.execJournalAck ctx dev n s
  | .partnerIdleMessage ctx dev => Sys2Proof.Machine.execPartnerIdleMessage ctx dev s
  | .partnerSilence ctx => Sys2Proof.Machine.execPartnerSilence ctx s
  | .avashLinkDown port => Sys2Proof.Machine.execAvashLinkDown port s
  | .hostBenchDeposit src region w => Sys2Proof.Machine.execHostBenchDeposit src region w s
  | .hostBenchCopy src region w => Sys2Proof.Machine.execHostBenchCopy src region w s
  | .hostBenchTake src region w => Sys2Proof.Machine.execHostBenchTake src region w s
  | .hostBenchRefusedOp ctx region w => Sys2Proof.Machine.execHostBenchRefusedOp ctx region w s
  | .hostMemRead pa len => Sys2Proof.Machine.execHostMemRead pa len s
  | .hostMemWrite pa bytes => Sys2Proof.Machine.execHostMemWrite pa bytes s
  | .attestationReport ctx => Sys2Proof.Machine.execAttestationReport ctx s
  | .termrepKill ctx v => Sys2Proof.Machine.execTermrepKill ctx v s
  | .dbgHalt v => Sys2Proof.Machine.execDbgHalt v s
  | .dbgResume v => Sys2Proof.Machine.execDbgResume v s
  | .dbgStep v => Sys2Proof.Machine.execDbgStep v s
  | .dbgStepAll v => Sys2Proof.Machine.execDbgStepAll v s
  | .dbgAttach v => Sys2Proof.Machine.execDbgAttach v s
  | .dbgDetach v => Sys2Proof.Machine.execDbgDetach v s
  | .debugWindowWrite off v => Sys2Proof.Machine.execDebugWindowWrite off v s
  | .boot foreman baseDie service => Sys2Proof.Machine.execBoot foreman baseDie service s
  | .registerWrite win num v => Sys2Proof.Machine.execRegisterWrite win num v s
  | .copyEngineTransfer core => Sys2Proof.Machine.execCopyEngineTransfer core s
  | .avashLinkTrained port peer => Sys2Proof.Machine.execAvashLinkTrained port peer s
  | .journalRecordReceive src num rec => Sys2Proof.Machine.execJournalRecordReceive src num rec s
  | .journalTruncateReceive src seq upto => Sys2Proof.Machine.execJournalTruncateReceive src seq upto s
  | .refreshDue stack => Sys2Proof.Machine.execRefreshDue stack s
  | .storageError u bits => Sys2Proof.Machine.execStorageError u bits s

end Sys2Proof.Machine
end

