-- ==== Sys2Proof/Machine/Holds.lean ====
section
/-!
DEFINITION. Whether the hold of a split at its instruction is over (R168): its instruction is tried on a copy of the state.
-/
namespace Sys2Proof.Machine

/-- `s` with split `sid` of group `gid` on its scheduler, at the instruction at which it holds. -/
def State.atHold (s : State) (gid sid : Nat) (g : Group) : State :=
  { s.modSplit gid sid (fun sp => { sp with awake := true }) with
    turn := g.schedNo, sched := s.sched.set g.schedNo (gid, sid) }

/-- The entries that a `cquiesce.rst` which holds has queued. -/
def Wait.queued : Wait → Option Nat
  | .replay k => some k
  | _ => Option.none

/-- An outcome in which split `sid` of group `gid` holds at `pc`; in a `cquiesce.rst`, with no more than `k` entries queued. -/
def holdsAgain (gid sid : Nat) (pc : Word) (k : Option Nat) : Host.Outcome State Fault Refusal → Bool
  | .next t => match t.split? gid sid with
    | some (_, sp) => (match sp.wait with
      | .hold _ => sp.pc == pc
      | .replay j => sp.pc == pc && k == some j
      | _ => false)
    | none => false
  | _ => false

/-- The hold of split `sid` of group `gid` is over: its instruction, were it issued now, would not hold (R168; assumption log
130). -/
def State.holdGone (s : State) (gid sid : Nat) : Bool :=
  match s.split? gid sid with
  | none => false
  | some (g, sp) => match sp.heldInstr with
    | none => true
    | some i => !holdsAgain gid sid sp.pc sp.wait.queued (exec i (s.atHold gid sid g))

end Sys2Proof.Machine
end

