-- ==== Sys2Proof/Machine/Internal.lean ====
section
/-!
DEFINITION. The event the machine takes of itself when no event is scheduled and no split stands inside a clause
(assumption log 4, 5): the first of the lists below that holds one. Only events whose condition holds are chosen.
-/
namespace Sys2Proof.Machine

/-- The first event of a list of candidates. -/
def firstOf (l : List (Option Instr)) : Option Instr := l.findSome? id

/-! ### Results, replies and the write buffer -/

/-- A result whose values have arrived (R167). -/
def State.resultNext (s : State) : Option Instr :=
  s.groups.findSome? (fun e => ((indicesOf (fun p => p.need == 0) e.2.outs).head?).map (fun k => .resultWriteback e.1 k))

/-- A reply on its way to a return slot (R51). -/
def State.replyNext (s : State) : Option Instr :=
  s.cores.findSome? (fun e => if e.2.replies.isEmpty then none else some (.returnSlotReply e.1 0))

/-- A split of the core holds at issue. -/
def State.heldOn (s : State) (core : Nat) : Bool :=
  s.groups.any (fun e => e.2.core == core && e.2.splits.any (fun f => !f.2.awake && (match f.2.wait with
    | .hold _ => true
    | _ => false)))

/-- A write-buffer entry that drains: one 4,096 cycles old, or the first while a split holds (R46). -/
def State.drainNext (s : State) : Option Instr :=
  s.cores.findSome? (fun e =>
    match (indicesOf (fun (w : WbEntry) => decide (4096 ≤ s.time - w.alloc)) e.2.wbuf).head? with
    | some k => some (.wbDrainTimeout e.1 k)
    | none => if !e.2.wbuf.isEmpty && s.heldOn e.1 then some (.wbDrainTimeout e.1 0) else none)

/-! ### Service groups, copies, main memory -/

/-- The event that serves the head of a slice's queue (R49). -/
def headEvent (die slice : Nat) : SvcReq → Instr
  | .bench _ => .benchServe die slice
  | .withdraw gid sid _ => .benchWithdraw gid sid
  | _ => .serviceGroupExec die slice

/-- A slice with a request in its queue. -/
def State.serveNext (s : State) : Option Instr :=
  s.dies.findSome? (fun e => e.2.slices.findSome? (fun f => (f.2.queue.head?).map (headEvent e.1 f.1)))

/-- A copy that an engine can take (R280). -/
def State.copyDue (s : State) : Option Instr :=
  s.copies.findSome? (fun c => if (s.copyNext c.core).isSome then some (.copyEngineTransfer c.core) else none)

/-- A scheduler with a request that it can perform, every bank and link ready (R64). -/
def State.pickNext (s : State) : Option Instr :=
  s.requests.findSome? (fun r =>
    let k := match r.route with
      | .channel n => some n
      | .port p => some (384 + p)
      | .mig _ => none
    match k with
    | none => none
    | some n => if r.lost || (s.channel n).switching then none
        else some (.channelPick n ((s.waitingAt n).map (fun q => q.id))))

/-- A completion on its way (R61). -/
def State.completionNext (s : State) : Option Instr := (s.completions.head?).map (fun c => .memCompletion c.req.id)

/-- A migration slot with a request that it can serve (R81). -/
def State.routedNext (s : State) : Option Instr :=
  s.migs.findSome? (fun e => (e.2.queue.head?).bind (fun r =>
    if s.migState e.1 ≠ 1 ∧ s.migReady e.1 (s.migOffset e.1 r) then some (.migRoutedRequest e.1 .good) else none))

/-- A copy batch that is complete (R126). -/
def State.batchNext (s : State) : Option Instr :=
  s.groups.findSome? (fun e => e.2.ops.findSome? (fun o =>
    if o.cls = 0 ∧ s.batchReady e.1 e.2 o.batch then some (.copyBatchComplete e.1 o.batch) else none))

/-! ### The engines -/

/-- A start of arrays is granted, or has not been asked for (R170). -/
def State.startReady (s : State) (cores : List Nat) : Bool :=
  let t := s.rollWindow (dieOf (cores.headD 0))
  !cores.any (fun k => t.arrayIdle k && !(t.core k).array.granted && (t.core k).array.requested)

/-- An array that can begin an operation (R173). -/
def State.matrixDue (s : State) (core : Nat) : Bool :=
  let t := (s.leaseNext core).bondNext (core / 2 * 2 + 1)
  match t.arrayPick core with
  | none => false
  | some o => decide (o.core ≠ core) || (match o.kind with
    | .smask => true
    | _ => t.startReady (if o.pair then [core, core + 1] else [core]))

/-- An operation of the attention engine has a request to send to the tier, or may use the array (R78, R170). -/
def State.tierClear (s : State) (tier : TierStep) (core pri : Nat) : Bool :=
  match tier with
  | .ask _ => true
  | .wait => false
  | .go => s.attnTurn core pri && s.startReady [core]

/-- The attention engine of a core can begin an operation, or cut one off (R308, R317). -/
def State.attnDue (s : State) (core : Nat) : Bool :=
  let c := s.core core
  c.attnQ.any (fun o => s.blockLeaves o.bid) ||
  (match c.attnRun, c.attnQ with
    | none, o :: _ => s.startServes o && s.tierClear (s.startTier o) core (s.attnPri o)
    | _, _ => false)

/-- The running attention operation can go on (R312). -/
def State.visitDue (s : State) (core : Nat) : Bool :=
  match (s.core core).attnRun with
  | none => false
  | some r =>
    (s.attnParity r true).isSome ||
    (match s.attnNext r with
      | .error _ => true
      | .ok (k, entry) =>
        let (first, n) := entrySlots entry
        s.attnReady r k first n && s.tierClear (r.op.tierStep (s.attnLines r k first n)) core (s.attnPri r.op))

/-- What the engines of the cores do next. -/
def State.engineNext (s : State) : Option Instr :=
  s.cores.findSome? (fun e =>
    if e.2.array.busy.isSome then some (.matrixOpRetire e.1)
    else if s.matrixDue e.1 then some (.matrixOpStart e.1)
    else if s.attnDue e.1 then some (.attnStart e.1)
    else if s.visitDue e.1 then some (.attnVisit e.1)
    else if !e.2.frames.grants.isEmpty then some (.frameGrant e.1)
    else none)

/-! ### Groups, blocks and grids -/

/-- A group that ends (R149). -/
def State.endNext (s : State) : Option Instr :=
  s.groups.findSome? (fun e => if s.mayEnd e.1 e.2 && e.2.status != .evicted then some (.groupEnd e.1) else none)

/-- A node or a replay that starts (R159). -/
def State.graphNext (s : State) : Option Instr :=
  s.ctxs.findSome? (fun e => e.2.tg.findSome? (fun f =>
    match f.2.replay with
    | some r => ((List.range r.nodes.length).find? (s.nodeDue e.1 r)).map (fun k => .nodeStart e.1 f.1 k)
    | none => if s.replayDue e.1 f.1 then some (.replayStart e.1 f.1) else none))

/-- A block that a distributor places (R162). -/
def State.blockNext (s : State) : Option Instr :=
  s.placeFirst.map (fun e => .blockPlace (dieOf e.2.2))

/-- A packed group that starts, or a bin whose items have waited long enough (R154). -/
def State.packedDue (s : State) : Option Instr :=
  s.cores.findSome? (fun e =>
    if (s.packedNext e.1).isSome then some (.packedGroupStart e.1)
    else ((indicesOf s.binDue e.2.bins).head?).map (fun k => .spawnBinTimeout e.1 k))

/-- A split past the limit of a `spawn` (R153). -/
def State.spawnHoldNext (s : State) : Option Instr :=
  s.groups.findSome? (fun e => e.2.splits.findSome? (fun f =>
    if s.spawnDue f.2 then some (.spawnHoldTimeout e.1 f.1) else none))

/-- A group that is restored (R172). -/
def State.restoreDue (s : State) : Option Instr :=
  if s.evictedGroups.isEmpty || !s.memOpen then none
  else (List.range 96).findSome? (fun k => if (s.restoreNext k).isSome then some (.groupRestore k) else none)

/-- A grid whose next block has waited too long (R162, R174). -/
def State.waitNext (s : State) : Option Instr :=
  s.pendingGrids.findSome? (fun e =>
    if s.evictDue e.1 e.2 && (s.evictPlan e.1 e.2).isSome then some (.evictionSelect e.1)
    else (s.starveCore e.1 e.2).map (fun _ => .placementStarvation e.1))

/-! ### Timers -/

/-- A timer of a core that has run out: a watched phase, an idle array, a lease, a window of the start limiter. -/
def State.coreTimer (s : State) : Option Instr :=
  s.cores.findSome? (fun e =>
    match (indicesOf (fun (w : Watch) => decide (w.limit ≤ s.time - w.start)) e.2.watch).head? with
    | some k => some (.barrierWatchdogExpire e.1 k)
    | none =>
      if e.2.array.active && s.arrayIdle e.1 then some (.arrayIdle e.1)
      else match e.2.lease with
        | some l => if s.arrayFree e.1 && e.2.matQ.all (fun o => o.gid != l.gid) && decide (64 ≤ s.time - l.idleSince)
            then some (.leaseIdleExpire e.1) else none
        | none => none)

/-- A die whose start limiter has a new window for requests that wait (R170). -/
def State.windowTimer (s : State) : Option Instr :=
  s.dies.findSome? (fun e => if !e.2.limiter.waiting.isEmpty && s.time / 64 != e.2.limiter.window
    then some (.startLimitWindow e.1) else none)

/-- A channel whose window of interface coding is over, whose thermal state or rate changes with time, or whose switch ends
(R66 to R69). -/
def State.channelTimer (s : State) : Option Instr :=
  s.channels.findSome? (fun e =>
    if 384 ≤ e.1 then none
    else if s.fallDue e.1 then some (.thermalStateFall e.1)
    else if s.riseDue e.1 then some (.rateRiseTimer e.1)
    else if decide (4096 ≤ e.2.bursts) then some (.dbiWindowEnd e.1 e.2.ones e.2.trans)
    else if e.2.switching && decide (Config.nsCycles 640 ≤ s.time - e.2.lastSwitch) then some (.rateSwitchEnd e.1)
    else none)

/-- A CXL request past its timeout (R78). -/
def State.cxlTimer (s : State) : Option Instr :=
  s.requests.findSome? (fun r => if s.timedOut r then some (.cxlTimeout r.id) else none)

/-- A journal whose partner has been silent (R334). -/
def State.journalTimer (s : State) : Option Instr :=
  s.ctxs.findSome? (fun e =>
    if s.jstate e.1 = 1 ∧ s.silenceCycles e.1 ≤ s.time - e.2.journal.lastMsg then some (.partnerSilence e.1) else none)

/-- Cycles of a period of patrol scrub, 24 hours (R74). -/
def scrubPeriod : Nat := 86400 * 1000 * Config.msCycles

/-- A stack whose patrol scrub reads its next unit: every unit once per period, while its controller core has it in hand (R70, R74;
assumption log 152). -/
def State.scrubTimer (s : State) : Option Instr :=
  (List.range 12).findSome? (fun k =>
    let n := (s.baseDie k).scrubbed
    if !s.fallback k ∧ (n + 1) * scrubPeriod ≤ s.time * 2 ^ 31 then some (.patrolScrub (scrubUnit k n)) else none)

/-- A stack whose sequencer takes refresh over (R70). -/
def State.refreshTimer (s : State) : Option Instr :=
  s.baseDies.findSome? (fun e => if !s.fallback e.1 && decide (2 ≤ e.2.missed) then some (.fallbackTakeover e.1) else none)

/-! ### Schedulers -/

/-- The schedulers with a split to pick, or inside a clause. -/
def State.pickable (s : State) (sched : Nat) : Bool :=
  (s.pick sched).isSome ||
  (match s.sched.get? sched with
    | none => false
    | some (gid, sid) => match s.split? gid sid with
      | some (g, sp) => !sp.code.isEmpty && sp.able && s.groupAble g
      | none => false)

/-- The next scheduler in turn that has something to issue. -/
def State.turnNext (s : State) : Option Instr :=
  let ks := ((s.groups.map (fun e => e.2.schedNo)).eraseDups).filter s.pickable
  (minBy (fun k => (k + 384 - (s.turn + 1) % 384) % 384) ks).map (fun k => .groupPick (k / 4) (k % 4))

/-- The end of the hold of split `sid` of group `gid`, if its hold is over. -/
def State.clearHold (s : State) (gid sid : Nat) (sp : Split) : Option Instr :=
  if sp.awake || sp.halted || !s.holdGone gid sid then none else some (.holdClear gid sid)

/-- A held split whose hold is over (R168). -/
def State.holdNext (s : State) : Option Instr :=
  s.groups.findSome? (fun e => e.2.splits.findSome? (fun f =>
    match f.2.wait with
    | .hold _ => s.clearHold e.1 f.1 f.2
    | .replay _ => s.clearHold e.1 f.1 f.2
    | _ => none))

/-- A take for a grant that was refused (R105). -/
def State.takeRetry (s : State) : Option Instr :=
  s.cores.findSome? (fun e => if e.2.frames.refill.isSome && !e.2.frames.taking && e.2.frames.grants.isEmpty
    then some (.grantTakeRetry e.1) else none)

/-- A migration slot with a line left to transfer (R82, R84). -/
def State.fillNext (s : State) : Option Instr :=
  s.migs.findSome? (fun e => if s.migFills e.1 ∧ (s.migNext e.1).any (fun l => s.migReady e.1 (l * 256)) then some (.migBackgroundFill e.1 .good) else none)

/-- The internal event that happens next at a clause boundary, if any. -/
def State.internal (s : State) : Option Instr :=
  firstOf [
    s.resultNext, s.replyNext, s.drainNext, s.serveNext, s.copyDue, s.pickNext, s.completionNext, s.routedNext,
    s.batchNext, s.engineNext, s.endNext, s.graphNext, s.blockNext, s.packedDue, s.spawnHoldNext, s.restoreDue,
    s.waitNext, s.coreTimer, s.windowTimer, s.channelTimer, s.cxlTimer, s.journalTimer, s.refreshTimer, s.scrubTimer,
    (if s.invalidated then some .xlinvcComplete else none), s.holdNext, s.turnNext, s.fillNext, s.takeRetry]

end Sys2Proof.Machine
end

