-- ==== Sys2Proof/Machine/Step.lean ====
section
/-!
DEFINITION. One step of the machine: the scheduled event; else the instruction of the split that issues; else
an internal event; else a cycle passes (assumption log 4, 5). At its end ready times are brought up to date (R164).
-/
namespace Sys2Proof.Machine

/-- An outcome whose next state is changed by `f`. -/
def mapNext (f : State → State) : Host.Outcome State Fault Refusal → Host.Outcome State Fault Refusal
  | .next s => .next (f s)
  | .fault r => .fault r
  | .refused r => .refused r

/-- The step of an issuing split: its word is decoded at its place in the clause and executed (R165, R179); an
illegal word traps with its REASON (R193). -/
def stepInstr (s : State) (i : Issue) (w : Word) (last : Bool) : Host.Outcome State Fault Refusal :=
  match Decode.decodeAt i.sp.cls last w.toNat with
  | .error r => .next (s.trapAt i 1 (w64 r))
  | .ok (sw, x) => mapNext (fun t => t.afterIssue i sw) (exec x s)

/-- One step, apart from ready times. -/
def stepRaw (s : State) : Host.Outcome State Fault Refusal :=
  match s.agenda with
  | e :: rest => exec e.event { s.tick e.delay with agenda := rest }
  | [] =>
    match (s.tick 0).issuing with
    | some (i, w, last) => stepInstr (s.tick 0) i w last
    | none =>
      match s.internal with
      | some e => exec e (s.tick 0)
      | none => .next (s.tick 0)

/-- One step. -/
def step (s : State) : Host.Outcome State Fault Refusal := mapNext State.retime (stepRaw s)

/-- The block that holds the group of `withFetchWord`. -/
def loadBlock : Block where
  ctx := 1
  grid := 0
  x := 0
  y := 0
  z := 0
  core := 0
  shmKiB := 512
  shm := ⟨none, []⟩
  tiles := [0, 1, 2, 3, 4]
  quads := [0]
  bases := [0]
  rows := List.range 2048
  spillRows := []
  nregs := 1536
  nspill := 0
  statics := 1
  packedSlots := 0
  pri := 0
  rb := false
  limit := 2 ^ 24
  begun := true
  evicting := false
  evicted := false
  blockVa := 0
  rolling := false
  checkpoint := none

/-- The group of `withFetchWord`, standing at the one word of its clause (R141). -/
def loadGroup (w : Word) (cls : Nat) : Group :=
  let g := Group.start loadBlock 0 0 0 0 0 0 0 allLanes []
  let sp : Split := { Split.blank 0 0 with hdr := 0, pc := 8, code := [w], cls := cls }
  { g with splits := [(0, sp)] }

/-- The class of a clause that permits the major of a word (R179). -/
def classFor (w : Nat) : Nat :=
  ((List.range 3).find? (fun c => Decode.classOk c (w / 2 ^ 56 % 128))).getD 0

/-- `s` with an instruction word where the next step issues it (assumption log 10): a group of one block on core 0
whose split stands at the only word of its clause, and no event scheduled before it. -/
def State.withFetchWord (s : State) (nbits w : Nat) : State :=
  let w := w % 2 ^ (min nbits 64)
  { s with
    agenda := []
    turn := 0
    sched := s.sched.set 0 (0, 0)
    blocks := s.blocks.set 0 loadBlock
    groups := s.groups.set 0 (loadGroup (w64 w) (classFor w))
    nextId := max 1 s.nextId }

end Sys2Proof.Machine
end

