-- ==== Sys2Proof/Safety.lean ====
section
/-!
DEFINITION. The terms in which claims speak: what a safe run is, a split that issues with nothing else going on
(`steady`), the state in which it has gone on to its next instruction (`goOn`), and the invariant of every step.
-/
namespace Sys2Proof.Machine

/-- An outcome that is a next state. -/
def isNext : Host.Outcome State Fault Refusal → Bool
  | .next _ => true
  | .fault _ => false
  | .refused _ => false

/-- A run is safe for `n` steps: no step faults or refuses. -/
def safeFor : Nat → State → Bool
  | 0, _ => true
  | n + 1, s =>
    match step s with
    | .next t => safeFor n t
    | .fault _ => false
    | .refused _ => false

/-- The invariant of every step: main memory keeps its canonical form, so that equal memories are equal data. -/
def Inv (s : State) : Prop := s.main.wf = true

/-- `i` issues in `s` and nothing is due at its boundaries: no divergence record is in use (R145), no halt, watchdog,
eviction, rollback, trap or restart waits (R349, R351, R361), and no storage holds a parity error (R57). -/
def poised (s : State) (i : Issue) : Bool :=
  s.issuer == some i && i.g.recs.isEmpty && i.g.deferred.isEmpty && i.g.status == .running &&
  i.g.splits.all (fun e => !e.2.haltReq && e.2.watchdog.isNone) && !i.sp.haltReq && i.sp.watchdog.isNone &&
  !i.sp.stepping && i.sp.pendTrap.isNone && !i.sp.restartPend && s.parity.isEmpty &&
  (match s.blocks.get? i.g.bid with
    | some b => !b.rolling && b.checkpoint.isNone
    | none => true)

/-- As `poised`, and no result of the group is outstanding and no engine operation of it is unwaited for (R126, R167). -/
def calm (s : State) (i : Issue) : Bool := poised s i && i.g.outs.isEmpty && i.g.ops.isEmpty

/-- As `calm`, and the split issues its instruction for the first time: it is in no wait or hold (R164, R168). -/
def steady (s : State) (i : Issue) : Bool := calm s i && i.sp.wait == .none

/-- `s` after the issuing split has gone on to the next word of its clause, or to the next clause header (R179), with
the group `g` and the split `sp` as its instruction leaves them. -/
def State.goOn (s : State) (i : Issue) (g : Group) (sp : Split) : State :=
  s.setGroup i.gid { g with splits := g.splits.set i.sid { sp with
    pc := sp.pc + 8, code := sp.code.tail, wait := .none, awake := false, roomSince := none } }

/-- `s` after the issuing split has been sent to `pc`, where a clause header is expected (R222). -/
def State.goTo (s : State) (i : Issue) (g : Group) (sp : Split) (pc : Word) : State :=
  s.setGroup i.gid { g with splits := g.splits.set i.sid { sp with
    pc := pc, code := [], mid := false, wait := .none, awake := false, roomSince := none } }

/-- `s` after a trap entry of the issuing split (R343): the trap registers as R342 lays them out, the shadow saved,
HND set, FMT 0x38, the PC at TRAPVEC.ENTRY. For a cause whose rule names no lanes, TRAPM is all the lanes of the split (assumption
log 11). -/
def State.entered (s : State) (i : Issue) (cause : Nat) (m : Mask) (x : Word) : State :=
  s.setGroup i.gid { i.g with splits := i.g.splits.set i.sid { i.sp with
    pc := w64 (bits (s.ctxReg i.g.ctx 0x161) 3 49 * 8), code := [], mid := false, wait := .none, awake := false
    roomSince := none
    fmt := 0x38, parked := false, pendTrap := none, atRecord := false
    trap := { cause := BitVec.ofNat 8 cause, hnd := true, pend := i.sp.trap.pend, trape := i.sp.region, trapi := i.sp.pc
              trapm := m.setWidth 64, trapx := x, traps := i.g.identity i.sid }
    shadow := some ⟨i.sp.mask, i.sp.fmt, i.sp.cc, (List.range 4).map (fun k => i.sp.get (60 + k)), none⟩ } }

/-- The group after split `sid` has written lanes of register `r`: `z` discards (R181, R240), and a written register is
not visible to the engines before a `fence.op` of the split (R127). -/
def Group.wrote (g : Group) (sid r : Nat) (vals : List (Nat × Word)) : Group :=
  if r = zReg ∨ vals = [] then g
  else { g with
    v := vals.foldl (fun m e => Sparse.set m (vkey r e.1) e.2) g.v
    opDirty := dirtied g.opDirty sid [r] (maskList (vals.map (fun e => e.1))) }

/-- `s` after a variable-latency result of a run of registers is on its way under a scoreboard slot (R37, R167) and the
issuing split has gone on; `data` lists the lane values by register key, and `checks` the parts that range registers check when
it is written (R262), with the address of the instruction. -/
def State.sendRun (s : State) (i : Issue) (rs : List Nat) (m : Mask) (data : Sparse Word) (fl : BitVec 6)
    (sb : Option Nat) (checks : List Part := []) (pc : Word := 0) : State :=
  if rs = [] ∨ m = 0 then s.goOn i { i.g with gst := i.g.gst ||| fl } i.sp
  else State.goOn { s with nextId := s.nextId + 1 } i { i.g with
    outs := [{ id := s.nextId, sid := i.sid, regs := rs, lanes := m, data := data
               need := 0, sb := sb, ret := false, flags := fl, undef := 0, checks := checks, pc := pc }]
    sb := match sb with
      | some k => i.g.sb.set k (i.g.sb.getD k 0 + 1)
      | none => i.g.sb } i.sp

/-- As `sendRun` for lanes of one register `r`; a result for `z` only sets its flags. -/
def State.sendOn (s : State) (i : Issue) (r : Nat) (m : Mask) (vals : List (Nat × Word)) (fl : BitVec 6)
    (sb : Option Nat) : State :=
  s.sendRun i (if r = zReg then [] else [r]) m (vals.map (fun e => (vkey r e.1, e.2))) fl sb

/-- As `sendOn` for a float result, whose elements of format `f` are checked when it is written: the first `cnt` of each lane
(R262). -/
def State.sendFloat (s : State) (i : Issue) (r : Nat) (m : Mask) (vals : List (Nat × Word)) (f : Fmt) (cnt : Nat) (fl : BitVec 6)
    (sb : Option Nat) : State :=
  s.sendRun i (if r = zReg then [] else [r]) m (if r = zReg then [] else vals.map (fun e => (vkey r e.1, e.2))) fl sb
    (vals.map (fun e => ⟨r, e.1, f, cnt, e.2⟩)) i.sp.pc

/-- A scoreboard slot, if one is named, has room for another result (R167). -/
def Group.room (g : Group) (sb : Option Nat) : Prop := ∀ k, sb = some k → g.sb.getD k 0 < 63

/-- A vector register that a group may name: `z`, or one of its allocation (R181). -/
def Group.names (g : Group) (r : Nat) : Bool := r == zReg || decide (r < g.nregs)

end Sys2Proof.Machine
end

