-- ==== Sys2Proof/Certificates/Slice0/Obligations.lean ====
section
/-!
DEFINITION. The statements for the provers. A statement about a program instruction speaks of a split that issues with
nothing else going on in its group (`steady`), gives the next state whole, and so says also what does not change.
-/
section

open Sys2Proof Sys2Proof.Machine

/-! ### Scalars (R213 to R221) -/

/-- The scalar that an instruction of majors 0x00 to 0x02 writes, and its value, in the words of R214, R216 and R219. -/
def Sys2Proof.Machine.scalarRule (x : Instr) (sp : Split) : Option (Nat × Word) :=
  let u := fun k => (sp.get k).toNat
  let z := fun k => (sp.get k).toInt
  let imm := fun (v : Nat) => if v < 2 ^ 31 then (v : Int) else v - 2 ^ 32
  match x with
  | .sadd o => some (o.sd, BitVec.ofNat 64 (u o.sa + u o.sb))
  | .ssub o => some (o.sd, BitVec.ofInt 64 (u o.sa - u o.sb))
  | .smul o => some (o.sd, BitVec.ofNat 64 (u o.sa * u o.sb))
  | .smulh o => some (o.sd, BitVec.ofInt 64 (z o.sa * z o.sb / 2 ^ 64))
  | .smulhn o => some (o.sd, BitVec.ofNat 64 (u o.sa * u o.sb / 2 ^ 64))
  | .sand o => some (o.sd, BitVec.ofNat 64 (u o.sa &&& u o.sb))
  | .sor o => some (o.sd, BitVec.ofNat 64 (u o.sa ||| u o.sb))
  | .sxor o => some (o.sd, BitVec.ofNat 64 (u o.sa ^^^ u o.sb))
  | .sshl o => some (o.sd, BitVec.ofNat 64 (u o.sa * 2 ^ u o.sb))
  | .sshr o => some (o.sd, BitVec.ofNat 64 (u o.sa / 2 ^ u o.sb))
  | .ssra o => some (o.sd, BitVec.ofInt 64 (z o.sa / 2 ^ u o.sb))
  | .smin o => some (o.sd, BitVec.ofInt 64 (min (z o.sa) (z o.sb)))
  | .smax o => some (o.sd, BitVec.ofInt 64 (max (z o.sa) (z o.sb)))
  | .sminn o => some (o.sd, BitVec.ofNat 64 (min (u o.sa) (u o.sb)))
  | .smaxn o => some (o.sd, BitVec.ofNat 64 (max (u o.sa) (u o.sb)))
  | .saddi o => some (o.sd, BitVec.ofInt 64 (u o.sa + imm o.imm))
  | .sandi o => some (o.sd, sp.get o.sa &&& BitVec.ofInt 64 (imm o.imm))
  | .sori o => some (o.sd, sp.get o.sa ||| BitVec.ofInt 64 (imm o.imm))
  | .sxori o => some (o.sd, sp.get o.sa ^^^ BitVec.ofInt 64 (imm o.imm))
  | .sshli o => some (o.sd, BitVec.ofNat 64 (u o.sa * 2 ^ o.imm))
  | .sshri o => some (o.sd, BitVec.ofNat 64 (u o.sa / 2 ^ o.imm))
  | .ssrai o => some (o.sd, BitVec.ofInt 64 (z o.sa / 2 ^ o.imm))
  | .sli o => some (o.sd, BitVec.ofInt 64 (imm o.imm))
  | .slih o => some (o.sd, BitVec.ofNat 64 (u o.sd % 2 ^ 32 + 2 ^ 32 * o.imm))
  | .spopc o => some (o.sd, BitVec.ofNat 64 ((List.range 64).filter (u o.sa).testBit).length)
  | .sclz o => some (o.sd, if u o.sa = 0 then 64 else BitVec.ofNat 64 (63 - Nat.log2 (u o.sa)))
  | .sffs o => some (o.sd, BitVec.ofNat 64 (((List.range 64).find? (u o.sa).testBit).getD 64))
  | _ => none

/-- The flags of R215 for two 64-bit patterns. -/
def Sys2Proof.Machine.compareRule (a b : Word) : CC where
  z := a == b
  n := (a - b).getLsbD 63
  c := decide (b.toNat ≤ a.toNat)
  v := decide (a.toInt - b.toInt < -2 ^ 63 ∨ 2 ^ 63 ≤ a.toInt - b.toInt)

/-- R214 to R216, R219: every well-formed scalar instruction completes; it writes the value of its rule to its destination
and changes nothing else but the position of its split. The compares write only the condition-code set K of SD bits 1:0:
V is set exactly when the signed difference leaves 64 bits. -/
def Obligations.ScalarInstructionsWriteTheirRule : Prop :=
  (∀ (s : State) (i : Issue) (x : Instr) (k : Nat) (v : Word), steady s i = true → x.wf = true →
     scalarRule x i.sp = some (k, v) → exec x s = .next (s.goOn i i.g (i.sp.put k v))) ∧
  (∀ (s : State) (i : Issue), steady s i = true →
     (∀ o : SR, exec (.scmp o) s = .next (s.goOn i i.g { i.sp with
       cc := i.sp.cc.set (o.sd % 4) (compareRule (i.sp.get o.sa) (i.sp.get o.sb)) })) ∧
     (∀ o : SI, exec (.scmpi o) s = .next (s.goOn i i.g { i.sp with
       cc := i.sp.cc.set (o.sd % 4) (compareRule (i.sp.get o.sa) (sextW 32 o.imm)) })))

/-- R217, R218: `sgetv` reads any lane of an allocated register, or of `z`, active or not, shifted right by 4 × sub bits,
and `sballot` gives the active lanes in which the predicate is true. Their words are those of major 0x02, minors 0 and 1,
with the fields of the rules at their bits and every other bit zero. -/
def Obligations.LaneReadsReachScalars : Prop :=
  (∀ (s : State) (i : Issue) (o : XF), steady s i = true →
    (o.f2 = zReg ∨ o.f2 < i.g.nregs → exec (.sgetv o) s = .next (s.goOn i i.g
      (i.sp.put o.f1 (BitVec.ofNat 64 ((i.g.v? o.f2 (o.f3 / 16 % 32)).toNat / 2 ^ (4 * (o.f3 % 16))))))) ∧
    ∃ w : Word, exec (.sballot o) s = .next (s.goOn i i.g (i.sp.put o.f1 w)) ∧
      ∀ l, w.getLsbD l = (decide (l < 32) && i.sp.mask.getLsbD l && i.g.pget o.f2 l)) ∧
  (∀ (w : Nat) (sw : Bool) (o : XF), w < 2 ^ 64 →
    let field := Decode.fld w
    let xform := fun (minor : Nat) => field 56 7 = 0x02 ∧ field 49 7 = minor ∧ field 41 8 = 0 ∧ field 36 5 = 0 ∧
      field 0 8 = 0 ∧ sw = decide (field 63 1 = 1)
    (Decode.decode w = .ok (sw, .sgetv o) ↔ xform 0 ∧ field 17 2 = 0 ∧ (field 19 11 < 1536 ∨ field 19 11 = 2047) ∧
      o = ⟨0, 0, field 30 6, field 19 11, field 8 9, 0, 0⟩) ∧
    (Decode.decode w = .ok (sw, .sballot o) ↔ xform 1 ∧ field 8 11 = 0 ∧ field 26 4 = 0 ∧ field 19 7 < 96 ∧
      o = ⟨0, 0, field 30 6, field 19 7, 0, 0, 0⟩))

/-- A trap of the split enters its handler: TRAPVEC is valid and the split is in no handler (R343). -/
def Sys2Proof.Machine.traps (s : State) (i : Issue) : Bool := (s.ctxReg i.g.ctx 0x161).getLsbD 63 && !i.sp.trap.hnd

/-- What special register `n` reads (R142, R220): TRAPC in the fields of R342, `%sibs` with a bit for every other live
split, `%lane` the lowest active lane. -/
def Sys2Proof.Machine.specialRule (s : State) (i : Issue) (n : Nat) (v : Word) : Prop :=
  match n with
  | 0x000 => ∀ l < 32, i.sp.mask.getLsbD l = true → (∀ k < l, i.sp.mask.getLsbD k = false) → v = w64 l
  | 0x001 => v = w64 i.g.slot
  | 0x002 => ∀ b, s.blocks.get? i.g.bid = some b → v = w64 b.x
  | 0x003 => ∀ b, s.blocks.get? i.g.bid = some b → v = w64 b.y
  | 0x004 => ∀ b, s.blocks.get? i.g.bid = some b → v = w64 b.z
  | 0x005 => v = w64 i.g.gridId
  | 0x006 => v = w64 i.g.core
  | 0x007 => v = w64 (i.g.core / 24)
  | 0x008 => v = w64 i.sid
  | 0x009 => v = w64 ((((i.g.splits.map (fun e => e.1)).filter (fun k => k != i.sid)).map (fun k => 2 ^ k)).sum)
  | 0x00A => v = w64 s.time
  | 0x00B => v = i.sp.fmt.setWidth 64
  | 0x00C => v = i.g.gst.setWidth 64
  | 0x00D => v = i.sp.mask.setWidth 64
  | 0x00E => v = i.sp.region
  | 0x010 => v = w64 (i.sp.trap.cause.toNat + (if i.sp.trap.hnd then 2 ^ 8 else 0) + i.sp.trap.pend.toNat * 2 ^ 16)
  | 0x011 => v = i.sp.trap.trape
  | 0x012 => v = i.sp.trap.trapi
  | 0x013 => v = i.sp.trap.trapm
  | 0x014 => v = i.sp.trap.trapx
  | 0x015 => v = i.sp.trap.traps
  | _ => True

/-- R142, R220, R221, R236 to R238: `srd` completes with the named special register in SD, for every register of the table,
and changes nothing else; `csrr` completes with the named control register. `swr` completes: it writes a legal FMT, bits 5:0
of `%gst`, and in a handler an aligned TRAPE or TRAPI; an illegal FMT traps with cause 0x01, and `%trape` or `%trapi` outside
a handler with cause 0x06 and TRAPX 0. `csrw` writes bit 0 of `XCFG` and traps with cause 0x06 on any other register; `wdog`
sets the block's limit within its bounds and returns the one before, which `wdog.q` reads. Of what the entry saved, a new TRAPI
forgets only the barrier wait that `eret` would take up again (R348). -/
def Obligations.SpecialRegistersAreReadAndWritten : Prop :=
  (∀ (s : State) (i : Issue) (o : YF), steady s i = true →
     (∃ v, exec (.srd o) s = .next (s.goOn i i.g (i.sp.put o.sd v)) ∧ specialRule s i o.code v) ∧
     (∃ v, exec (.csrr o) s = .next (s.goOn i i.g (i.sp.put o.sd v)) ∧
       (o.code = 0x150 → v = if i.g.hintOn then 1 else 0) ∧
       (∀ b, s.blocks.get? i.g.bid = some b → o.code = 0x151 → v = w64 b.limit) ∧
       (o.code ≠ 0x150 → o.code ≠ 0x151 → v = s.ctxReg i.g.ctx o.code))) ∧
  (∀ (s : State) (i : Issue) (o : YF) (v : Word), steady s i = true → v = i.sp.get o.sa →
     (o.code = 0x00B → v.toNat < 2 ^ 8 → v.toNat / 16 = 3 ∨ v.toNat / 16 = 4 → v.getLsbD 2 = false →
       exec (.swr o) s = .next (s.goOn i i.g { i.sp with fmt := v.setWidth 8 })) ∧
     (o.code = 0x00B → 2 ^ 8 ≤ v.toNat ∨ (v.toNat / 16 ≠ 3 ∧ v.toNat / 16 ≠ 4) ∨ v.getLsbD 2 = true →
       traps s i = true → exec (.swr o) s = .next (s.entered i 1 i.sp.mask 4)) ∧
     (o.code = 0x00C → exec (.swr o) s = .next (s.goOn i { i.g with gst := v.setWidth 6 } i.sp)) ∧
     (o.code = 0x011 → i.sp.trap.hnd = true → v.toNat % 8 = 0 →
       exec (.swr o) s = .next (s.goOn i i.g { i.sp with trap := { i.sp.trap with trape := v } })) ∧
     (o.code = 0x012 → i.sp.trap.hnd = true → v.toNat % 8 = 0 →
       exec (.swr o) s = .next (s.goOn i i.g { i.sp with
         trap := { i.sp.trap with trapi := v }
         shadow := if v = i.sp.trap.trapi then i.sp.shadow else i.sp.shadow.map (fun h => { h with barrier := none }) })) ∧
     (o.code = 0x011 ∨ o.code = 0x012 → traps s i = true →
       exec (.swr o) s = .next (s.entered i 6 i.sp.mask 0))) ∧
  (∀ (s : State) (i : Issue) (o : YF), steady s i = true →
     (o.code = 0x150 → exec (.csrw o) s =
       .next (s.goOn i { i.g with hintOn := (i.sp.get o.sa).getLsbD 0 } i.sp)) ∧
     (o.code ≠ 0x150 → traps s i = true →
       exec (.csrw o) s = .next (s.entered i 6 i.sp.mask (BitVec.ofNat 64 o.code))) ∧
     (∀ b, s.blocks.get? i.g.bid = some b →
       exec (.wdog o) s = .next (State.goOn
         (s.setBlock i.g.bid { b with limit := min (max (i.sp.get o.sa).toNat (2 ^ 10)) (2 ^ 40) })
         i i.g (i.sp.put o.sd (BitVec.ofNat 64 b.limit))) ∧
       exec (.wdogQ o) s = .next (s.goOn i i.g (i.sp.put o.sd (BitVec.ofNat 64 b.limit)))))

/-! ### Control flow (R188, R222 to R229) -/

/-- A condition on condition codes by its COND number (R188). -/
def Sys2Proof.Machine.condRule (f : CC) (cond : Nat) : Bool :=
  match cond with
  | 1 => f.z
  | 2 => !f.z
  | 3 => f.n ^^ f.v
  | 4 => !(f.n ^^ f.v)
  | 5 => !f.z && !(f.n ^^ f.v)
  | 6 => f.z || (f.n ^^ f.v)
  | 7 => !f.c
  | 8 => f.c
  | 9 => f.c && !f.z
  | 10 => !f.c || f.z
  | 11 => f.v
  | 12 => !f.v
  | _ => true

/-- Whether a branch is taken (R188, R222). -/
def Sys2Proof.Machine.takes (i : Issue) (o : BR) : Bool :=
  if o.cond = 13 then (List.range 32).all (fun l => !(i.sp.mask.getLsbD l && i.g.pget o.p l))
  else if o.cond = 14 then (List.range 32).any (fun l => i.sp.mask.getLsbD l && i.g.pget o.p l)
  else condRule (i.sp.ccGet o.cc) o.cond

/-- A signed field of `n` bits as a number of words, in bytes (R187, R188). -/
def Sys2Proof.Machine.wordsOff (n v : Nat) : Word := BitVec.ofInt 64 (8 * (if v < 2 ^ (n - 1) then (v : Int) else v - 2 ^ n))

/-- R144, R224 to R226: `split` makes a record of the join address, FMT and lanes; where both parts have lanes and a split
id is free, the taken lanes become a new split at the target with copies of the scalars and condition codes, and the
others fall through; else the one part goes on alone. `join` sets the PC of its split to the join address of its youngest
record; what R145 makes of the arrival follows at the boundary. `exit` ends the guarded lanes: a split with lanes left
goes on with them; one without ends, and with its last split the group is ending (R149). -/
def Obligations.DivergenceDividesJoinsAndEndsLanes : Prop :=
  (∀ (s : State) (i : Issue) (o : SP) (w : Word) (join target : Word) (t f : Mask), steady s i = true →
     (∀ e ∈ i.g.splits, e.2.youngest = none ∧ e.2.atRecord = false) → i.sp.youngest = none → i.sp.atRecord = false →
     join = i.sp.pc + wordsOff 20 o.join → target = i.sp.pc + wordsOff 20 o.target →
     s.fetch i.g.core i.g.ctx join = .ok w → (Decode.header w.toNat).isSome = true →
     t = i.guard o.p o.pn → f = i.sp.mask &&& ~~~ t → target ≠ join → i.sp.pc + 8 ≠ join →
     ∃ (r : DivRec) (sps : Sparse Split) (dirty : List (Nat × Nat × Mask)),
       exec (.split o) s = .next (s.setGroup i.gid { i.g with recs := [(0, r)], splits := sps, opDirty := dirty }) ∧
       (i.g.opDirty = [] → dirty = []) ∧
       r.join = join ∧ r.fmt = i.sp.fmt ∧ r.members = i.sp.mask ∧ r.parent = i.sid ∧ r.older = none ∧
       (t ≠ 0 → f ≠ 0 → ∀ id, id < 4 → i.g.splits.get? id = none → (∀ k < id, i.g.splits.get? k ≠ none) →
         r.serial = false ∧
         (∃ a b, sps.get? id = some a ∧ sps.get? i.sid = some b ∧
           a.mask = t ∧ a.pc = target ∧ a.fmt = i.sp.fmt ∧ a.seed = i.sp.seed ∧ a.s = i.sp.s ∧ a.cc = i.sp.cc ∧
           a.youngest = some 0 ∧
           b.mask = f ∧ b.pc = i.sp.pc + 8 ∧ b.fmt = i.sp.fmt ∧ b.seed = i.sp.seed ∧ b.s = i.sp.s ∧ b.cc = i.sp.cc ∧
           b.youngest = some 0) ∧
         (∀ k, k ≠ id → k ≠ i.sid → sps.get? k = i.g.splits.get? k)) ∧
       (t ≠ 0 → f = 0 → (∃ b, sps.get? i.sid = some b ∧ b.mask = i.sp.mask ∧ b.pc = target ∧ b.s = i.sp.s) ∧
         ∀ k, k ≠ i.sid → sps.get? k = i.g.splits.get? k) ∧
       (t = 0 → (∃ b, sps.get? i.sid = some b ∧ b.mask = i.sp.mask ∧ b.pc = i.sp.pc + 8 ∧ b.s = i.sp.s) ∧
         ∀ k, k ≠ i.sid → sps.get? k = i.g.splits.get? k)) ∧
  (∀ (s : State) (i : Issue) (d : Nat) (r : DivRec), s.issuer = some i → i.sp.youngest = some d →
     i.g.recs.get? d = some r → exec .join s = .next ((s.goTo i i.g i.sp r.join).settle i.gid)) ∧
  (∀ (s : State) (i : Issue) (o : EX) (rest : Mask), steady s i = true → i.sp.youngest = none →
     (∀ e ∈ i.g.splits, e.2.shadow = none) → rest = i.sp.mask &&& ~~~ i.guard o.p o.pn →
     ∃ dirty : List (Nat × Nat × Mask), ((∀ e ∈ i.g.opDirty, e.1 ≠ i.sid) → dirty = i.g.opDirty) ∧
     (rest ≠ 0 → exec (.exit o) s = .next (s.goOn i { i.g with opDirty := dirty } { i.sp with mask := rest })) ∧
     (rest = 0 → (i.g.splits.erase i.sid).isEmpty = false →
       exec (.exit o) s = .next (s.setGroup i.gid { i.g with splits := i.g.splits.erase i.sid, opDirty := dirty })) ∧
     (rest = 0 → (i.g.splits.erase i.sid).isEmpty = true →
       exec (.exit o) s = .next (s.setGroup i.gid { i.g with splits := [], status := .ending, opDirty := dirty })))

/-- R188, R222, R227 to R229: a branch that is not taken goes to the next word; a taken one to its target, `call` leaving the
address of the next word in its link scalar; a misaligned target of `brx` or `ret` is a trap and not among these. `ient`
makes the header of its clause the region entry and starts a new region; `fmt` writes FMT; `nop` changes no state. -/
def Obligations.BranchesRegionsAndFormats : Prop :=
  (∀ (s : State) (i : Issue) (o : BR), steady s i = true →
     (takes i o = false → ∀ x ∈ [Instr.br o, .brx o, .call o, .ret o], exec x s = .next (s.goOn i i.g i.sp)) ∧
     (takes i o = true →
       exec (.br o) s = .next (s.goTo i i.g i.sp (i.sp.pc + wordsOff 28 o.off)) ∧
       exec (.call o) s = .next (s.goTo i i.g (i.sp.put o.sa (i.sp.pc + 8)) (i.sp.pc + wordsOff 28 o.off)) ∧
       (∀ x, x = i.sp.get o.sa + wordsOff 28 o.off → x.toNat % 8 = 0 →
         exec (.brx o) s = .next (s.goTo i i.g i.sp x)) ∧
       ((i.sp.get o.sa).toNat % 8 = 0 → exec (.ret o) s = .next (s.goTo i i.g i.sp (i.sp.get o.sa))))) ∧
  (∀ (s : State) (i : Issue), steady s i = true →
     exec .ient s = .next (s.goOn i i.g { i.sp with region := i.sp.hdr, restarted := false, paritySeen := false }) ∧
     (∀ o : YF, exec (.fmt o) s = .next (s.goOn i i.g { i.sp with fmt := BitVec.ofNat 8 o.code })) ∧
     exec .nop s = .next (s.goOn i i.g i.sp))

/-! ### Operands (R35, R181, R182, R184) -/

/-- R35, R181, R182, R184: the guarded lanes of a split; `p0` reads true and discards its writes; `z` reads zero; and
the source lanes of the lane patterns. -/
def Obligations.GuardsPatternsAndHardWiredRegisters : Prop :=
  (∀ (i : Issue) (p pn l : Nat), (i.guard p pn).getLsbD l =
    (decide (l < 32) && i.sp.mask.getLsbD l && (i.g.pget p l ^^ decide (pn = 1)))) ∧
  (∀ (g : Group) (l : Nat), g.pget 0 l = true ∧ g.v? zReg l = 0) ∧
  (∀ (s : State) (gid : Nat) (m : Mask) (f : Nat → Bool) (g : Group) (p l : Nat), s.groups.get? gid = some g →
    ∃ h, (s.pwrite gid 0 m f).groups.get? gid = some h ∧ h.pget p l = g.pget p l) ∧
  (∀ (s : State) (i : Issue) (vals : List (Nat × Word)), s.vwrite i zReg vals = s) ∧
  (∀ amt l, patLane 0 amt l = l ∧ patLane 1 amt l = (l + amt) % 32 ∧ patLane 2 amt l = 31 - l ∧
    patLane 3 amt l = Nat.xor l amt ∧ patLane 4 amt l = amt)

/-! ### Integer vectors (R187, R196, R240 to R248) -/

/-- An element of `w` bits read as signed. -/
def Sys2Proof.Machine.sg (w a : Nat) : Int := if a < 2 ^ (w - 1) then (a : Int) else a - 2 ^ w

/-- The element result of a two-operand instruction of R242, to be taken modulo 2^w. -/
def Sys2Proof.Machine.intRule (x : Instr) : Option (IntTy × V3 × (Nat → Nat → Nat → Int)) :=
  match x with
  | .vadd t o => some (t, o, fun _ a b => (a : Int) + b)
  | .vsub t o => some (t, o, fun _ a b => (a : Int) - b)
  | .vmul t o => some (t, o, fun _ a b => (a : Int) * b)
  | .vmulh t o => some (t, o, fun w a b => sg w a * sg w b / 2 ^ w)
  | .vmulhn t o => some (t, o, fun w a b => (a : Int) * b / 2 ^ w)
  | .vand t o => some (t, o, fun _ a b => ((a &&& b : Nat) : Int))
  | .vor t o => some (t, o, fun _ a b => ((a ||| b : Nat) : Int))
  | .vxor t o => some (t, o, fun _ a b => ((a ^^^ b : Nat) : Int))
  | .vshl t o => some (t, o, fun _ a b => (a : Int) * 2 ^ b)
  | .vshr t o => some (t, o, fun _ a b => (a : Int) / 2 ^ b)
  | .vsra t o => some (t, o, fun w a b => sg w a / 2 ^ b)
  | .vmin t o => some (t, o, fun w a b => min (sg w a) (sg w b))
  | .vmax t o => some (t, o, fun w a b => max (sg w a) (sg w b))
  | .vminn t o => some (t, o, fun _ a b => ((min a b : Nat) : Int))
  | .vmaxn t o => some (t, o, fun _ a b => ((max a b : Nat) : Int))
  | _ => none

/-- The element result of a one-operand instruction of R242, to be taken modulo 2^w. -/
def Sys2Proof.Machine.intRule1 (x : Instr) : Option (IntTy × V3 × (Nat → Nat → Int)) :=
  match x with
  | .vabs t o => some (t, o, fun w a => ((sg w a).natAbs : Int))
  | .vneg t o => some (t, o, fun _ a => -(a : Int))
  | .vclz t o => some (t, o, fun w a => if a = 0 then w else w - 1 - Nat.log2 a)
  | .vpopc t o => some (t, o, fun w a => ((List.range w).filter a.testBit).length)
  | _ => none

/-- The element result of an immediate instruction of R243, to be taken modulo 2^w; IMM19 is sign-extended (R187). -/
def Sys2Proof.Machine.immRule (x : Instr) : Option (IntTy × VI × (Nat → Nat → Int)) :=
  let im := fun (o : VI) (w : Nat) => ((sg 19 o.imm) % 2 ^ w).toNat
  match x with
  | .vaddi t o => some (t, o, fun _ a => a + sg 19 o.imm)
  | .vandi t o => some (t, o, fun w a => ((a &&& im o w : Nat) : Int))
  | .vori t o => some (t, o, fun w a => ((a ||| im o w : Nat) : Int))
  | .vxori t o => some (t, o, fun w a => ((a ^^^ im o w : Nat) : Int))
  | .vshli t o => some (t, o, fun _ a => (a : Int) * 2 ^ o.imm)
  | .vshri t o => some (t, o, fun _ a => (a : Int) / 2 ^ o.imm)
  | .vsrai t o => some (t, o, fun w a => sg w a / 2 ^ o.imm)
  | _ => none

/-- R187, R196, R240, R242, R243: an integer instruction of two operands, of one, or with an immediate completes: in every
guarded lane each element of VD becomes the result of its rule on the elements of VA and of the patterned VB or the
sign-extended immediate, modulo 2^w; every other lane, register and all else stay. -/
def Obligations.IntegerVectorsComputeByElement : Prop :=
  (∀ (s : State) (i : Issue) (x : Instr) (t : IntTy) (o : V3) (f : Nat → Nat → Nat → Int), steady s i = true →
     x.wf = true → intRule x = some (t, o, f) → i.g.names o.vd = true → i.g.names o.va = true → i.g.names o.vb = true →
     ∃ res : Nat → Word,
       exec x s = .next (s.goOn i (i.g.wrote i.sid o.vd (onLanes (i.guard o.p o.pn) res)) i.sp) ∧
       ∀ l j, j < 64 / Checks.intWidth t → (getE (Checks.intWidth t) j (res l) : Int) =
         f (Checks.intWidth t) (getE (Checks.intWidth t) j (i.g.v? o.va l))
           (getE (Checks.intWidth t) j (i.g.v? o.vb (patLane o.kind o.amt l))) % 2 ^ Checks.intWidth t) ∧
  (∀ (s : State) (i : Issue) (x : Instr) (t : IntTy) (f : Nat → Nat → Int), steady s i = true → x.wf = true →
     (∀ o : V3, intRule1 x = some (t, o, f) → i.g.names o.vd = true → i.g.names o.va = true → ∃ res : Nat → Word,
       exec x s = .next (s.goOn i (i.g.wrote i.sid o.vd (onLanes (i.guard o.p o.pn) res)) i.sp) ∧
       ∀ l j, j < 64 / Checks.intWidth t → (getE (Checks.intWidth t) j (res l) : Int) =
         f (Checks.intWidth t) (getE (Checks.intWidth t) j (i.g.v? o.va l)) % 2 ^ Checks.intWidth t) ∧
     (∀ o : VI, immRule x = some (t, o, f) → i.g.names o.vd = true → i.g.names o.va = true → ∃ res : Nat → Word,
       exec x s = .next (s.goOn i (i.g.wrote i.sid o.vd (onLanes (i.guard o.p o.pn) res)) i.sp) ∧
       ∀ l j, j < 64 / Checks.intWidth t → (getE (Checks.intWidth t) j (res l) : Int) =
         f (Checks.intWidth t) (getE (Checks.intWidth t) j (i.g.v? o.va l)) % 2 ^ Checks.intWidth t))


/-! ### Compares and predicates (R245, R246) -/

/-- A condition on two integer elements of `w` bits (R245). -/
def Sys2Proof.Machine.intCond (c : IntCmp) (w a b : Nat) : Prop :=
  match c with
  | .eq => a = b
  | .ne => a ≠ b
  | .lt => sg w a < sg w b
  | .le => sg w a ≤ sg w b
  | .ltn => a < b
  | .len => a ≤ b

/-- The rational that a finite float value stands for (R197). -/
def Sys2Proof.Machine.FVal.exact : FVal → Rat
  | .fin n m e => (if n then -1 else 1) * (m : Rat) * (2 : Rat) ^ e
  | _ => 0

/-- A value is finite. -/
def Sys2Proof.Machine.FVal.finite : FVal → Bool
  | .fin _ _ _ => true
  | _ => false

/-- The order of float values that are not NaN: −∞ below every finite value, ∞ above (R245). -/
def Sys2Proof.Machine.FVal.below (x y : FVal) : Prop :=
  match x, y with
  | .nan _, _ => False
  | _, .nan _ => False
  | .inf n, .inf k => n = true ∧ k = false
  | .inf n, .fin _ _ _ => n = true
  | .fin _ _ _, .inf k => k = false
  | .fin _ _ _, .fin _ _ _ => x.exact < y.exact

/-- A condition on two float elements (R245): `un` holds where either is a NaN, the ordered conditions only where
neither is, and `ne` where they are not equal. -/
def Sys2Proof.Machine.floatCond (c : FloatCmp) (x y : FVal) : Prop :=
  let num := x.isNan = false ∧ y.isNan = false
  match c with
  | .eq => num ∧ ¬ x.below y ∧ ¬ y.below x
  | .ne => ¬ (num ∧ ¬ x.below y ∧ ¬ y.below x)
  | .lt => num ∧ x.below y
  | .le => num ∧ ¬ y.below x
  | .un => ¬ num

/-- The result in a lane of a predicate instruction (R246), its destination and the lane's two sources. -/
def Sys2Proof.Machine.predRule (x : Instr) (i : Issue) : Option (V3 × Nat × (Bool → Bool → Bool)) :=
  match x with
  | .pand o => some (o, o.vd, fun a b => a && b)
  | .por o => some (o, o.vd, fun a b => a || b)
  | .pxor o => some (o, o.vd, fun a b => a ^^ b)
  | .pandn o => some (o, o.vd, fun a b => a && !b)
  | .pnot o => some (o, o.vd, fun a _ => !a)
  | .pmov o => some (o, o.vd, fun a _ => a)
  | .pset o => some (o, o.vd, fun _ _ => true)
  | .pclr o => some (o, o.vd, fun _ _ => false)
  | .ptest o => some (o, o.va, fun _ _ => (i.sp.ccGet (o.vd % 4)).z)
  | _ => none

/-- R245, R246: `vcmp` and `vfcmp` write to PD, in the guarded lanes alone, whether the condition holds for every element of
the lane; no register is written. Each predicate instruction completes; in the guarded lanes its destination takes the result
of its rule on PA and the patterned PB, every other lane and predicate keeps its value, and so does `p0`. -/
def Obligations.ComparesAndLogicWriteAPredicate : Prop :=
  (∀ (s : State) (i : Issue) (o : V3), steady s i = true → i.g.names o.va = true → i.g.names o.vb = true →
     (∀ (c : IntCmp) (t : IntTy), ∃ f : Nat → Bool,
       exec (.vcmp c t o) s = .next (s.goOn i (i.g.pputs o.vd f (lanesOf (i.guard o.p o.pn))) i.sp) ∧
       ∀ l, f l = true ↔ ∀ j < 64 / Checks.intWidth t, intCond c (Checks.intWidth t)
         (getE (Checks.intWidth t) j (i.g.v? o.va l))
         (getE (Checks.intWidth t) j (i.g.v? o.vb (patLane o.kind o.amt l)))) ∧
     (∀ (c : FloatCmp) (t : FloatTy), ∃ f : Nat → Bool,
       exec (.vfcmp c t o) s = .next (s.goOn i (i.g.pputs o.vd f (lanesOf (i.guard o.p o.pn))) i.sp) ∧
       ∀ l, f l = true ↔ ∀ j < 64 / (tyFmt t).width, floatCond c
         ((tyFmt t).val (getE (tyFmt t).width j (i.g.v? o.va l)))
         ((tyFmt t).val (getE (tyFmt t).width j (i.g.v? o.vb (patLane o.kind o.amt l)))))) ∧
  (∀ (s : State) (i : Issue) (x : Instr) (o : V3) (d : Nat) (f : Bool → Bool → Bool), steady s i = true →
     predRule x i = some (o, d, f) → ∃ g : Group,
       exec x s = .next (s.goOn i g i.sp) ∧ { g with p := i.g.p } = i.g ∧
       ∀ q l, q < 128 → l < 32 → g.pget q l =
         if q = d ∧ d ≠ 0 ∧ (i.guard o.p o.pn).getLsbD l = true
         then f (i.g.pget o.va l) (i.g.pget o.vb (patLane o.kind o.amt l)) else i.g.pget q l)

/-! ### Cross-lane operations (R256, R258, R259) -/

/-- R244, R247, R248, R256, R258, R259: `vli` writes its immediate by the form in SEL, `vsel` chooses by its guard in every
active lane, and `vmov`, `vbcast` and `vlane` write the guarded lanes. `vperm` collects bytes of any lane, `vconf` gives the
lower guarded lanes that hold the lane's value, and `vcomp` marks a lane with a nonzero source, counts those and ranks them. -/
def Obligations.MovesAndCrossLaneOperations : Prop :=
  (∀ (s : State) (i : Issue), steady s i = true →
     (∀ o : VL, (Instr.vli o).wf = true → i.g.names o.vd = true → exec (.vli o) s = .next (s.goOn i
       (i.g.wrote i.sid o.vd (onLanes i.sp.mask (fun l => match o.sel / 16 with
         | 0 => BitVec.ofInt 64 (sg 32 o.imm)
         | 1 => BitVec.ofNat 64 o.imm
         | 2 => BitVec.ofNat 64 ((i.g.v? o.vd l).toNat / 2 ^ 32 * 2 ^ 32 + o.imm)
         | _ => BitVec.ofNat 64 ((i.g.v? o.vd l).toNat % 2 ^ 32 + o.imm * 2 ^ 32)))) i.sp)) ∧
     (∀ o : V3, i.g.names o.vd = true → i.g.names o.va = true → i.g.names o.vb = true →
       exec (.vsel o) s = .next (s.goOn i (i.g.wrote i.sid o.vd (onLanes i.sp.mask (fun l =>
         if (i.guard o.p o.pn).getLsbD l then i.g.v? o.va l else i.g.v? o.vb (patLane o.kind o.amt l)))) i.sp)) ∧
     (∀ o : V3, i.g.names o.vd = true → i.g.names o.va = true →
       exec (.vmov o) s = .next (s.goOn i (i.g.wrote i.sid o.vd (onLanes (i.guard o.p o.pn) (i.g.v? o.va))) i.sp)) ∧
     (∀ o : VS, i.g.names o.vd = true → exec (.vbcast o) s = .next (s.goOn i
       (i.g.wrote i.sid o.vd (onLanes (i.guard o.p o.pn) (fun _ => i.sp.get o.sa))) i.sp)) ∧
     (∀ (o : VS) (x : Nat), i.g.names o.vd = true → i.g.names o.va = true →
       (x : Int) = ((i.sp.get o.sa).toNat + sg 13 o.imm) % 512 → exec (.vlane o) s = .next (s.goOn i
       (i.g.wrote i.sid o.vd (onLanes (i.guard o.p o.pn) (fun _ =>
         BitVec.ofNat 64 ((i.g.v? o.va (x / 16)).toNat / 2 ^ (4 * (x % 16)))))) i.sp))) ∧
  (∀ (s : State) (i : Issue) (o : V3), steady s i = true → i.g.names o.vd = true → i.g.names o.va = true →
     (i.g.names o.vb = true → ∃ res : Nat → Word,
       exec (.vperm o) s = .next (s.goOn i (i.g.wrote i.sid o.vd (onLanes (i.guard o.p o.pn) res)) i.sp) ∧
       ∀ l k x, k < 8 → x = getE 8 k (i.g.v? o.vb (patLane o.kind o.amt l)) →
         getE 8 k (res l) = getE 8 (x % 8) (i.g.v? o.va (x / 8))) ∧
     (∃ res : Nat → Word,
       exec (.vconf o) s = .next (s.goOn i (i.g.wrote i.sid o.vd (onLanes (i.guard o.p o.pn) res)) i.sp) ∧
       ∀ l m, l < 32 → ((res l).getLsbD m = true ↔
         m < l ∧ (i.guard o.p o.pn).getLsbD m = true ∧ i.g.v? o.va m = i.g.v? o.va l)) ∧
     (∃ res : Nat → Word,
       exec (.vcomp o) s = .next (s.goOn i (i.g.wrote i.sid o.vd (onLanes (i.guard o.p o.pn) res)) i.sp) ∧
       ∀ l, (i.guard o.p o.pn).getLsbD l = true →
         let sel := (List.range 32).filter (fun m => (i.guard o.p o.pn).getLsbD m && i.g.v? o.va m != 0)
         (res l).getLsbD 63 = (i.g.v? o.va l != 0) ∧ (res l).toNat / 2 ^ 32 % 2 ^ 31 = sel.length ∧
         (res l).toNat % 2 ^ 32 = (sel.filter (fun m => decide (m < l))).length))

/-! ### Float vectors (R198, R201, R202, R206, R207, R249, R250) -/

/-- A nonzero exact value rounded to a format in a mode (R202); SAT only where the instruction converts. -/
def Sys2Proof.Machine.roundsTo (f : Fmt) (sat : Bool) (mode : Nat) (q : Rat) (r : Nat) : Prop :=
  ∃ (n : Bool) (m : Nat) (e : Int), m ≠ 0 ∧ (FVal.fin n m e).exact = q ∧ r = (f.roundFin sat mode n m e).1

/-- The exact result of a float instruction of major 0x40 on finite elements d, a and b (R249); the flag says that the
old destination is an operand. -/
def Sys2Proof.Machine.floatRule (x : Instr) : Option (FloatTy × V3 × Bool × (Rat → Rat → Rat → Rat)) :=
  match x with
  | .vfadd t o => some (t, o, false, fun _ a b => a + b)
  | .vfsub t o => some (t, o, false, fun _ a b => a - b)
  | .vfmul t o => some (t, o, false, fun _ a b => a * b)
  | .vfma t o => some (t, o, true, fun d a b => d + a * b)
  | .vfms t o => some (t, o, true, fun d a b => d - a * b)
  | .vfnma t o => some (t, o, true, fun d a b => -d - a * b)
  | _ => none

/-- `s` after a fixed-latency float result: the destination's lanes are written and flags are joined into `%gst`. -/
def Sys2Proof.Machine.State.floatOn (s : State) (i : Issue) (r : Nat) (vals : List (Nat × Word)) (fl : BitVec 6) : State :=
  s.goOn i { i.g.wrote i.sid r vals with gst := i.g.gst ||| fl } i.sp

/-- R198, R202, R249: add, subtract, multiply and the fused forms round their exact result once, in the mode of FMT; a
NaN operand gives the canonical NaN; an exact zero gives a zero. Only the guarded lanes of VD and `%gst` change. -/
def Obligations.FloatVectorsRoundOnce : Prop :=
  ∀ (s : State) (i : Issue) (x : Instr) (t : FloatTy) (o : V3) (acc : Bool) (op : Rat → Rat → Rat → Rat),
    steady s i = true → floatRule x = some (t, o, acc, op) → i.g.bd = [] →
    i.g.names o.vd = true → i.g.names o.va = true → i.g.names o.vb = true →
    ∃ (res : Nat → Word) (fl : BitVec 6),
      exec x s = .next (s.floatOn i o.vd (onLanes (i.guard o.p o.pn) res) fl) ∧
      ∀ l j, (i.guard o.p o.pn).getLsbD l = true → j < 64 / (tyFmt t).width →
        let f := tyFmt t
        let d := f.val (getE f.width j (i.g.v? o.vd l))
        let a := f.val (getE f.width j (i.g.v? o.va l))
        let b := f.val (getE f.width j (i.g.v? o.vb (patLane o.kind o.amt l)))
        let r := getE f.width j (res l)
        let q := op d.exact a.exact b.exact
        (a.isNan = true ∨ b.isNan = true ∨ (acc = true ∧ d.isNan = true) → some r = f.nan) ∧
        (a.finite = true → b.finite = true → (acc = true → d.finite = true) →
          (q ≠ 0 → roundsTo f false (i.sp.fmt.toNat % 4) q r) ∧ (q = 0 → r % f.signBit = 0))

/-- R198, R206, R249: minimum and maximum prefer the number to a NaN and order −0 below +0; `vfabs` and `vfneg` set and
invert the sign bit, with a NaN made canonical; `vfclass` writes one bit for the class of each element. -/
def Obligations.FloatSelectionSignAndClass : Prop :=
  ∀ (s : State) (i : Issue) (t : FloatTy) (o : V3), steady s i = true → i.g.bd = [] →
    i.g.names o.vd = true → i.g.names o.va = true →
    let f := tyFmt t
    let m := i.guard o.p o.pn
    let ea := fun l j => getE f.width j (i.g.v? o.va l)
    let eb := fun l j => getE f.width j (i.g.v? o.vb (patLane o.kind o.amt l))
    (i.g.names o.vb = true → ∀ (x : Instr) (big : Bool), (x = .vfmax t o ∧ big = true) ∨ (x = .vfmin t o ∧ big = false) →
      ∃ (res : Nat → Word) (fl : BitVec 6), exec x s = .next (s.floatOn i o.vd (onLanes m res) fl) ∧
      ∀ l j, m.getLsbD l = true → j < 64 / f.width →
        let a := f.val (ea l j)
        let b := f.val (eb l j)
        let r := getE f.width j (res l)
        (a.isNan = true → b.isNan = true → some r = f.nan) ∧
        (a.isNan = true → b.isNan = false → r = eb l j) ∧ (a.isNan = false → b.isNan = true → r = ea l j) ∧
        (a.isNan = false → b.isNan = false → (r = ea l j ∨ r = eb l j) ∧
          (a.below b → r = if big then eb l j else ea l j) ∧ (b.below a → r = if big then ea l j else eb l j) ∧
          (a.isZero = true → b.isZero = true → a.neg? = true → b.neg? = false →
            r = if big then eb l j else ea l j) ∧
          (a.isZero = true → b.isZero = true → a.neg? = false → b.neg? = true →
            r = if big then ea l j else eb l j))) ∧
    (∀ (x : Instr) (neg : Bool), (x = .vfneg t o ∧ neg = true) ∨ (x = .vfabs t o ∧ neg = false) →
      ∃ (res : Nat → Word) (fl : BitVec 6), exec x s = .next (s.floatOn i o.vd (onLanes m res) fl) ∧
      ∀ l j, m.getLsbD l = true → j < 64 / f.width →
        ((f.val (ea l j)).isNan = true → some (getE f.width j (res l)) = f.nan) ∧
        ((f.val (ea l j)).isNan = false → getE f.width j (res l) =
          if neg then (ea l j + f.signBit) % 2 ^ f.width else ea l j % f.signBit)) ∧
    (∃ res : Nat → Word,
      exec (.vfclass t o) s = .next (s.goOn i (i.g.wrote i.sid o.vd (onLanes m res)) i.sp) ∧
      ∀ l j, m.getLsbD l = true → j < 64 / f.width → getE f.width j (res l) =
        match f.val (ea l j) with
        | .nan sig => if sig then 256 else 512
        | .inf n => if n then 1 else 128
        | .fin n k _ => if k = 0 then (if n then 8 else 16) else if k < 2 ^ f.mb then (if n then 4 else 32)
          else if n then 2 else 64)

/-- R202: under RNE no finite value of the format is nearer than the result, and the directed modes round towards zero,
up and down; where the result is finite. -/
def Obligations.RoundingIsNearestOrDirected : Prop :=
  ∀ (f : Fmt) (sat n : Bool) (m : Nat) (e : Int) (p : Nat), f ∈ [fp32, bf16, fp16, e4m3, e5m2, e2m1] → m ≠ 0 →
    p < 2 ^ f.width → (f.val p).finite = true →
    let q := (FVal.fin n m e).exact
    let r := fun mode : Nat => f.val (f.roundFin sat mode n m e).1
    ((r 0).finite = true → |(r 0).exact - q| ≤ |(f.val p).exact - q|) ∧
    (sat = false → f ≠ e2m1 → ((r 1).finite = true → |(r 1).exact| ≤ |q|) ∧
      ((r 2).finite = true → q ≤ (r 2).exact) ∧ ((r 3).finite = true → (r 3).exact ≤ q))

/-- The special-function instructions. -/
def Sys2Proof.Machine.sfuRule (x : Instr) : Option (Sfu × XF) :=
  match x with
  | .vrcp o => some (.rcp, o)
  | .vrsq o => some (.rsq, o)
  | .vsqrt o => some (.sqrt, o)
  | .vexp2 o => some (.exp2, o)
  | .vlog2 o => some (.log2, o)
  | _ => none

/-- The table of R207: the FP32 result of a special operand. -/
def Sys2Proof.Machine.sfuSpecial (k : Sfu) (v : FVal) : Option Nat :=
  match v with
  | .nan _ => some 0x7FC00000
  | .inf n =>
    match k with
    | .rcp => some (if n then 0x80000000 else 0)
    | .rsq => some (if n then 0x7FC00000 else 0)
    | .sqrt => some (if n then 0x7FC00000 else 0x7F800000)
    | .exp2 => some (if n then 0 else 0x7F800000)
    | .log2 => some (if n then 0x7FC00000 else 0x7F800000)
  | .fin n m _ =>
    if m = 0 then
      match k with
      | .rcp => some (if n then 0xFF800000 else 0x7F800000)
      | .rsq => some (if n then 0xFF800000 else 0x7F800000)
      | .sqrt => some (if n then 0x80000000 else 0)
      | .exp2 => some 0x3F800000
      | .log2 => some 0xFF800000
    else if n then
      match k with
      | .rcp => none
      | .rsq => some 0x7FC00000
      | .sqrt => some 0x7FC00000
      | .exp2 => none
      | .log2 => some 0x7FC00000
    else none

/-- `y` is the exact value of a special function at `q`. -/
def Sys2Proof.Machine.sfuExact (k : Sfu) (q y : Rat) : Prop :=
  match k with
  | .rcp => y * q = 1
  | .rsq => 0 < y ∧ y * y * q = 1
  | .sqrt => 0 ≤ y ∧ y * y = q
  | .exp2 => ∃ n : Int, -149 ≤ n ∧ n ≤ 127 ∧ q = n ∧ y = (2 : Rat) ^ n
  | .log2 => ∃ n : Int, q = (2 : Rat) ^ n ∧ y = n

/-- R207, R250: the five special functions complete under their scoreboard slot. Both FP32 elements of a guarded lane
take the table's result for a special operand, and where the function value is itself an FP32 value they take it
exactly. -/
def Obligations.SpecialFunctionsAreExactWhereTheyCanBe : Prop :=
  ∀ (s : State) (i : Issue) (x : Instr) (k : Sfu) (o : XF), steady s i = true → sfuRule x = some (k, o) → i.g.bd = [] →
    i.g.names o.f1 = true → i.g.names o.f2 = true → i.g.room o.sb → ∃ (res : Nat → Word) (fl : BitVec 6),
      exec x s = .next (s.sendFloat i o.f1 (i.guard o.p o.pn) (onLanes (i.guard o.p o.pn) res) fp32 2 fl o.sb) ∧
      ∀ l j, j < 2 →
        let v := fp32.val (getE 32 j (i.g.v? o.f2 l))
        let r := getE 32 j (res l)
        (∀ b, sfuSpecial k v = some b → r = b) ∧
        (sfuSpecial k v = none → ∀ p < 2 ^ 32, (fp32.val p).finite = true →
          sfuExact k v.exact (fp32.val p).exact → (fp32.val r).finite = true ∧ (fp32.val r).exact = (fp32.val p).exact)

/-- R254: the dot products add the exact sum of products of their elements to each half of VD: `vdoti8` modulo 2^32,
`vdot8` and `vdot4` rounded once to FP32; a NaN gives the canonical NaN. -/
def Obligations.DotProductsAccumulate : Prop :=
  ∀ (s : State) (i : Issue) (o : XF), steady s i = true → i.g.bd = [] → i.g.names o.f1 = true → i.g.names o.f2 = true →
    i.g.names o.f3 = true → i.g.room o.sb →
    (∃ res : Nat → Word,
      exec (.vdoti8 o) s = .next (s.sendFloat i o.f1 (i.guard o.p o.pn) (onLanes (i.guard o.p o.pn) res) fp32 0 0 o.sb) ∧
      ∀ l h, h < 2 → (getE 32 h (res l) : Int) = ((getE 32 h (i.g.v? o.f1 l) : Int) +
        ((List.range 4).map (fun e => sg 8 (getE 8 (4 * h + e) (i.g.v? o.f2 l)) *
          sg 8 (getE 8 (4 * h + e) (i.g.v? o.f3 l)))).sum) % 2 ^ 32) ∧
    (∀ (x : Instr) (f : Fmt) (w n : Nat),
      (x = .vdot8 o ∧ f = fmtOf (i.sp.fmt.toNat / 16) ∧ w = 8 ∧ n = 4) ∨ (x = .vdot4 o ∧ f = e2m1 ∧ w = 4 ∧ n = 8) →
      ∃ (res : Nat → Word) (fl : BitVec 6),
        exec x s = .next (s.sendFloat i o.f1 (i.guard o.p o.pn) (onLanes (i.guard o.p o.pn) res) fp32 2 fl o.sb) ∧
        ∀ l h, h < 2 →
          let d := fp32.val (getE 32 h (i.g.v? o.f1 l))
          let a := fun e => f.val (getE w (n * h + e) (i.g.v? o.f2 l))
          let b := fun e => f.val (getE w (n * h + e) (i.g.v? o.f3 l))
          let q := d.exact + ((List.range n).map (fun e => (a e).exact * (b e).exact)).sum
          let r := getE 32 h (res l)
          (d.isNan = true ∨ (∃ e < n, (a e).isNan = true ∨ (b e).isNan = true) → r = 0x7FC00000) ∧
          (d.finite = true → (∀ e < n, (a e).finite = true ∧ (b e).finite = true) →
            (q ≠ 0 → roundsTo fp32 false (i.sp.fmt.toNat % 4) q r) ∧ (q = 0 → r % 2 ^ 31 = 0)))

/-- The operation of an integer `vred` or `vscan` on elements of `w` bits (R257). -/
def Sys2Proof.Machine.redRule (op w a b : Nat) : Nat :=
  match op with
  | 0 => (a + b) % 2 ^ w
  | 1 => if sg w a ≤ sg w b then a else b
  | 2 => if sg w a ≤ sg w b then b else a
  | 3 => a &&& b
  | 4 => a ||| b
  | 5 => a ^^^ b
  | 6 => min a b
  | _ => max a b

/-- The elements of a list of lanes combined from the left. -/
def Sys2Proof.Machine.combined (f : Nat → Nat → Nat) : List Nat → Nat
  | [] => 0
  | a :: t => t.foldl f a

/-- Two nodes of a reduction tree combined, of which either may be empty (R209). -/
def Sys2Proof.Machine.nodeRule (op : Nat → Nat → Nat) : Option Nat → Option Nat → Option Nat
  | none, b => b
  | a, none => a
  | some a, some b => some (op a b)

/-- The node of a reduction tree over the `2^k` lane positions from `lo` (R209). -/
def Sys2Proof.Machine.treeRule (op : Nat → Nat → Nat) (val : Nat → Option Nat) : Nat → Nat → Option Nat
  | 0, lo => val lo
  | k + 1, lo => nodeRule op (treeRule op val k lo) (treeRule op val k (lo + 2 ^ k))

/-- The scan result of lane `l` (R210): the nodes of the aligned blocks that cover 0..l, largest first, folded from the left. -/
def Sys2Proof.Machine.scanRule (op : Nat → Nat → Nat) (val : Nat → Option Nat) (l : Nat) : Option Nat :=
  ([5, 4, 3, 2, 1, 0].filter (fun k => (l + 1).testBit k)).foldl (fun acc k =>
    nodeRule op acc (treeRule op val k ((l + 1) / 2 ^ (k + 1) * 2 ^ (k + 1)))) none

/-- The operation of a float `vred` or `vscan` (R257): the sum rounded once under RNE, or the minimum or maximum of R206. -/
def Sys2Proof.Machine.redFloatRule (op : Nat) (f : Fmt) (a b : Nat) : Nat :=
  if op = 0 then (faddBits f 0 a b).1 else (fminmax f (op == 2) a b).1

/-- An element with its NaN made canonical (R198). -/
def Sys2Proof.Machine.canonRule (f : Fmt) (x : Nat) : Nat := if (f.val x).isNan then f.nanBits else x

/-- R209, R210, R257: `vred` and `vscan` complete under their scoreboard slot. Integer `vred` gives every guarded lane the
combination of all guarded lanes, `vscan` that of the guarded lanes up to its own, for each element position; the float forms
give the root of the fixed tree and the left fold of its aligned blocks, with RNE at each node, the minimum and maximum of R206,
a NaN made canonical (R198). That a lone element that is a NaN becomes canonical too is the model's choice (log 33). -/
def Obligations.ReductionsCombineGuardedLanes : Prop :=
  ∀ (s : State) (i : Issue) (o : XF) (m : Mask), steady s i = true → i.g.bd = [] → i.g.names o.f1 = true →
    i.g.names o.f2 = true → i.g.room o.sb → m = i.guard o.p o.pn →
    (o.f3 / 32 % 2 = 0 →
      let rule := fun (keep : Nat → Bool) (w j : Nat) => combined (redRule (o.f3 / 4 % 8) w)
        (((List.range 32).filter (fun k => m.getLsbD k && keep k)).map (fun k => getE w j (i.g.v? o.f2 k)))
      (∃ res : Nat → Word,
        exec (.vred o) s = .next (s.sendFloat i o.f1 m (onLanes m res) (fmtOf (o.f3 % 4)) 0 0 o.sb) ∧
        ∀ l j w, m.getLsbD l = true → w = 8 * 2 ^ (o.f3 % 4) → j < 64 / w → getE w j (res l) = rule (fun _ => true) w j) ∧
      (∃ res : Nat → Word,
        exec (.vscan o) s = .next (s.sendFloat i o.f1 m (onLanes m res) (fmtOf (o.f3 % 4)) 0 0 o.sb) ∧
        ∀ l j w, m.getLsbD l = true → w = 8 * 2 ^ (o.f3 % 4) → j < 64 / w →
          getE w j (res l) = rule (fun k => decide (k ≤ l)) w j)) ∧
    (o.f3 / 32 % 2 = 1 → o.f3 / 4 % 8 ≤ 2 →
      let f := fmtOf (o.f3 % 4)
      let op := redFloatRule (o.f3 / 4 % 8) f
      let val := fun j k => if m.getLsbD k then some (getE f.width j (i.g.v? o.f2 k)) else none
      (∃ (res : Nat → Word) (fl : BitVec 6),
        exec (.vred o) s = .next (s.sendFloat i o.f1 m (onLanes m res) f (64 / f.width) fl o.sb) ∧
        ∀ l j, m.getLsbD l = true → j < 64 / f.width →
          getE f.width j (res l) = canonRule f ((treeRule op (val j) 5 0).getD 0)) ∧
      (∃ (res : Nat → Word) (fl : BitVec 6),
        exec (.vscan o) s = .next (s.sendFloat i o.f1 m (onLanes m res) f (64 / f.width) fl o.sb) ∧
        ∀ l j, m.getLsbD l = true → j < 64 / f.width →
          getE f.width j (res l) = canonRule f ((scanRule op (val j) l).getD 0)))

/-- R255: `tmv` reads an n × n FP32 matrix at an aligned offset of the constant window and gives each guarded lane, row
by row, the chain of fused multiply-adds of the row and the lane's vector from +0; the odd half keeps its value. -/
def Obligations.MatrixVectorProductsChainFusedAdds : Prop :=
  ∀ (s : State) (i : Issue) (o : XF) (n k off : Nat), steady s i = true → i.g.bd = [] → i.g.room o.sb →
    n = o.f4 + 1 → n ≤ 8 → k = (n + 1) / 2 → o.f1 + k ≤ min i.g.nregs 1536 → o.f2 + k ≤ min i.g.nregs 1536 →
    off = (i.sp.get (o.f3 % 64)).toNat → off % 4 = 0 → off + 4 * n * n ≤ s.cnExtent i.g.ctx →
    ∃ (res : Nat → Nat → Word) (fl : BitVec 6),
      exec (.tmv o) s = .next (s.sendRun i ((List.range k).map (fun r => o.f1 + r)) (i.guard o.p o.pn)
        ((List.range k).flatMap (fun r => (lanesOf (i.guard o.p o.pn)).map (fun l => (vkey (o.f1 + r) l, res r l))))
        fl o.sb
        ((List.range k).flatMap (fun r => (lanesOf (i.guard o.p o.pn)).map (fun l =>
          ⟨o.f1 + r, l, fp32, if 2 * r + 1 < n then 2 else 1, res r l⟩))) i.sp.pc) ∧
      (∀ l y, y < n → getE 32 (y % 2) (res (y / 2) l) = (List.range n).foldl (fun acc c =>
        (ffma fp32 (i.sp.fmt.toNat % 4) false false acc
          (leNat (((s.cnsRead i.g.core (s.cnBase i.g.ctx + off) (4 * n * n)).drop (4 * (n * y + c))).take 4))
          (getE 32 (c % 2) (i.g.v? (o.f2 + c / 2) l))).1) 0) ∧
      (n % 2 = 1 → ∀ l, getE 32 1 (res (n / 2) l) = getE 32 1 (i.g.v? (o.f1 + n / 2) l))

/-! ### Conversions (R203 to R205, R251 to R253) -/

/-- A conversion's fields, its numbers of source and destination registers, and the elements it converts (R251). -/
def Sys2Proof.Machine.cvtRule (x : Instr) : Option (XF × Nat × Nat × Nat) :=
  let w := Checks.fmtWidth
  match x with
  | .vcvt o => some (o, 1, 1, 64 / max (w o.b74) (w o.f4))
  | .vpack o => some (o, w o.b74 / w o.f4, 1, 64 / w o.f4)
  | .vunpack o => some (o, 1, w o.f4 / w o.b74, 64 / w o.b74)
  | _ => none

/-- The value of an element by format code: an integer for codes 6 and up (R190). -/
def Sys2Proof.Machine.elemVal (c x : Nat) : FVal :=
  if c < 6 then (fmtOf c).val x
  else .fin (decide (sg (Checks.fmtWidth c) x < 0)) (sg (Checks.fmtWidth c) x).natAbs 0

/-- The factor of a conversion: 1 unscaled, else the power of two of the scale byte (R205, R252). -/
def Sys2Proof.Machine.cvtFactor (o : XF) (sc : Nat) : Rat :=
  if o.f3 = zReg then 1 else if Checks.scaledFmt o.f4 then (2 : Rat) ^ (127 - (sc : Int)) else (2 : Rat) ^ ((sc : Int) - 127)

/-- R203, R205, R251, R252: the conversions complete at once and write their destination registers in the guarded lanes:
an element converted to a float format is its scaled value rounded under FMT, one converted to an integer format is that
value where it is in range and saturates beyond, and elements above the last are zero. -/
def Obligations.ConversionsRoundScaleAndSaturate : Prop :=
  ∀ (s : State) (i : Issue) (x : Instr) (o : XF) (ks kd n : Nat), steady s i = true → x.wf = true → i.g.bd = [] →
    cvtRule x = some (o, ks, kd, n) → (∀ r < ks, i.g.names (o.f2 + r) = true) → (∀ r < kd, i.g.names (o.f1 + r) = true) →
    i.g.names o.f3 = true →
    ∃ (res : Nat → Nat → Word) (fl : BitVec 6),
      let g := (List.range kd).foldl (fun (g : Group) r =>
        g.wrote i.sid (o.f1 + r) (onLanes (i.guard o.p o.pn) (res r))) i.g
      exec x s = .next (s.goOn i { g with gst := i.g.gst ||| fl } i.sp) ∧
      ∀ l e, (i.guard o.p o.pn).getLsbD l = true →
        let ws := Checks.fmtWidth o.b74
        let wd := Checks.fmtWidth o.f4
        let f := fmtOf o.f4
        let v := elemVal o.b74 (getE ws (e % (64 / ws)) (i.g.v? (o.f2 + e / (64 / ws)) l))
        let sc := (i.g.v? o.f3 l).toNat % 256
        let q := v.exact * cvtFactor o sc
        let r := getE wd (e % (64 / wd)) (res (e / (64 / wd)) l)
        (n ≤ e → e < kd * (64 / wd) → r = 0) ∧
        (e < n → o.f3 = zReg ∨ sc ≠ 255 →
          (v.finite = true → o.f4 < 6 → (q ≠ 0 → roundsTo f (i.sp.fmt.getLsbD 3) (i.sp.fmt.toNat % 4) q r) ∧
            (q = 0 → r % f.signBit = 0)) ∧
          (v.isNan = true → o.f4 < 5 → some r = f.nan) ∧
          (v.isNan = true → 5 ≤ o.f4 → r = 0) ∧
          (v.finite = true → 6 ≤ o.f4 →
            (∀ z : Int, q = z → -2 ^ (wd - 1) ≤ z → z < 2 ^ (wd - 1) → (r : Int) = z % 2 ^ wd) ∧
            ((2 : Rat) ^ (wd - 1) ≤ q → r = 2 ^ (wd - 1) - 1) ∧ (q ≤ -(2 : Rat) ^ (wd - 1) → r = 2 ^ (wd - 1))))

/-- R204, R253: `vscl` writes the biased power of two of the lane's largest magnitude less the emax of the format, 0 for
a lane of zeros and 0xFF where an element is not finite. Its source formats are FP32, BF16 and FP16, and those of its
scales E4M3, E5M2, E2M1, INT8 and INT4; it is minor 3 of major 0x50. The word worked out for `vcvt.f32.e4m3` stands for
it. -/
def Obligations.SharedScalesComeFromTheLargestMagnitude : Prop :=
  (∀ (s : State) (i : Issue) (o : XF) (emax : Int), steady s i = true → (Instr.vscl o).wf = true →
    i.g.names o.f1 = true → i.g.names o.f2 = true →
    (o.f4, emax) ∈ [(3, (8 : Int)), (4, 15), (5, 2), (8, 6), (9, 2)] → ∃ res : Nat → Word,
      exec (.vscl o) s = .next (s.goOn i (i.g.wrote i.sid o.f1 (onLanes (i.guard o.p o.pn) res)) i.sp) ∧
      ∀ l,
        let f := fmtOf o.b74
        let v := fun e => f.val (getE f.width e (i.g.v? o.f2 l))
        let n := 64 / f.width
        ((∃ e < n, (v e).finite = false) → res l = 0xFF) ∧
        ((∀ e < n, (v e).isZero = true) → res l = 0) ∧
        (∀ t : Int, (∀ e < n, (v e).finite = true ∧ |(v e).exact| < (2 : Rat) ^ (t + 1)) →
          (∃ e < n, (2 : Rat) ^ t ≤ |(v e).exact|) →
          res l = BitVec.ofInt 64 (max (-127) (min 127 (t - emax)) + 127))) ∧
  (∀ (w : Nat) (sw : Bool) (o : XF), Decode.decode w = .ok (sw, .vscl o) → Decode.fld w 56 7 = 0x50 ∧ Decode.fld w 49 7 = 3 ∧
    o.b74 ∈ [0, 1, 2] ∧ o.f4 ∈ [3, 4, 5, 8, 9] ∧ o.f1 = Decode.fld w 30 11 ∧ o.f2 = Decode.fld w 19 11 ∧
    o.b74 = Decode.fld w 4 4 ∧ o.f4 = Decode.fld w 0 4) ∧
  Decode.decode 0x5000000A00601E03 = .ok (false, .vcvt ⟨0, 0, 40, 12, 30, 0, 3⟩)

/-! ### Range registers (R260 to R263) -/

/-- R260 to R263: `bdset` writes a valid descriptor, HIT cleared, and its bounds; an invalid pair traps with cause 0x01,
REASON 4; `bdget` reads either word and `bdclr` clears the registers of its mask. With one range register on the
destination of an FP32 instruction, MODE 2 keeps every finite result within its bounds, and MODE 3 traps with cause 0x08
exactly where a finite result lies outside them, TRAPM holding the lanes concerned, TRAPX the register, the element, the
destination and the value of the lowest such lane (R264), and nothing being written; with no finite result outside, it writes the
results. HIT is set exactly where an element was out of bounds and clamped, or not finite. -/
def Obligations.RangeRegistersAreSetReadAndApplied : Prop :=
  (∀ (s : State) (i : Issue) (o : YF) (d b : Word), steady s i = true → d = i.sp.get o.sa → b = i.sp.get o.sd →
     (bdValid d = true → bdBounds b = true →
       (bits d 53 3 ≠ 1 ∨ ∃ k, s.blocks.get? i.g.bid = some k ∧ bits d 0 11 < k.tiles.length) →
       ∃ bd, exec (.bdset o) s = .next (s.goOn i { i.g with bd := bd } i.sp) ∧
         bd.get? (o.code % 32) = some (d &&& ~~~ (BitVec.ofNat 64 (2 ^ 56)), b) ∧
         ∀ k, k ≠ o.code % 32 → bd.get? k = i.g.bd.get? k) ∧
     (traps s i = true → bdValid d = false ∨ bdBounds b = false →
       exec (.bdset o) s = .next (s.entered i 1 i.sp.mask 4)) ∧
     (∀ v, v = (i.g.bd.get? (o.code % 32)).getD (0, 0) →
       exec (.bdget o) s = .next (s.goOn i i.g (i.sp.put o.sd (if o.code / 32 % 2 = 1 then v.2 else v.1)))) ∧
     (∃ bd, exec (.bdclr o) s = .next (s.goOn i { i.g with bd := bd } i.sp) ∧
       ∀ k, bd.get? k = if o.code.testBit k then none else i.g.bd.get? k)) ∧
  (∀ (s : State) (i i' : Issue) (x : Instr) (o : V3) (acc : Bool) (op : Rat → Rat → Rat → Rat) (k : Nat) (d b : Word)
     (res : Nat → Word) (fl : BitVec 6) (lo hi : FVal),
     steady s i = true → floatRule x = some (.f32, o, acc, op) → i.g.bd = [(k, (d, b))] → bdCovers d 0 o.vd = true →
     i' = { i with g := { i.g with bd := [] } } → lo = fp32.val (bits b 0 32) → hi = fp32.val (bits b 32 32) →
     lo.finite = true → hi.finite = true → lo.exact ≤ hi.exact → d.getLsbD 57 = false → o.vd ≠ zReg →
     i.g.names o.vd = true → i.g.names o.va = true → i.g.names o.vb = true →
     exec x (s.setGroup i.gid i'.g) =
       .next ((s.setGroup i.gid i'.g).floatOn i' o.vd (onLanes (i.guard o.p o.pn) res) fl) →
     let v := fun l j => fp32.val (getE 32 j (res l))
     let outside := fun l j => (v l j).finite = true ∧ ((v l j).exact < lo.exact ∨ hi.exact < (v l j).exact)
     (bdMode d = 2 → ∃ (out : Nat → Word) (hit : Bool),
       exec x s = .next (s.goOn i { i.g.wrote i.sid o.vd (onLanes (i.guard o.p o.pn) out) with
         gst := i.g.gst ||| fl, bd := if hit then [(k, (setBits d 56 1 1, b))] else i.g.bd } i.sp) ∧
       (hit = true ↔ ∃ l j, (i.guard o.p o.pn).getLsbD l = true ∧ j < 2 ∧ (outside l j ∨ (v l j).finite = false)) ∧
       ∀ l j, (i.guard o.p o.pn).getLsbD l = true → j < 2 →
         let w := fp32.val (getE 32 j (out l))
         (w.finite = true → lo.exact ≤ w.exact ∧ w.exact ≤ hi.exact) ∧
         (¬ outside l j → getE 32 j (out l) = getE 32 j (res l))) ∧
     (bdMode d = 3 → ∀ m : Mask,
       (∀ l, m.getLsbD l = true ↔ (i.guard o.p o.pn).getLsbD l = true ∧ (outside l 0 ∨ outside l 1)) →
       (m = 0 → ∃ hit : Bool,
         exec x s = .next (s.goOn i { i.g.wrote i.sid o.vd (onLanes (i.guard o.p o.pn) res) with
           gst := i.g.gst ||| fl, bd := if hit then [(k, (setBits d 56 1 1, b))] else i.g.bd } i.sp) ∧
         (hit = true ↔ ∃ l j, (i.guard o.p o.pn).getLsbD l = true ∧ j < 2 ∧ (v l j).finite = false)) ∧
       (traps s i = true → ∀ l e, m.getLsbD l = true → (∀ q < l, m.getLsbD q = false) → e < 2 → outside l e →
         (e = 1 → ¬ outside l 0) → exec x s = .next (s.entered i 8 m (BitVec.ofNat 64
           (k * 2 ^ 59 + e * 2 ^ 55 + o.vd % 2 ^ 11 * 2 ^ 44 + getE 32 e (res l)))))))

/-! ### Loads and stores (R10 to R12, R266 to R269) -/

/-- The loads, with their spaces. -/
def Sys2Proof.Machine.loadRule (x : Instr) : Option (Space × MF) :=
  match x with
  | .lds o => some (.shm, o)
  | .ldx o => some (.spd, o)
  | .ldc o => some (.cns, o)
  | .vgth o => some (if o.mx / 2 = 1 then .spd else .shm, o)
  | _ => none

/-- The stores, with their spaces. -/
def Sys2Proof.Machine.storeRule (x : Instr) : Option (Space × MF) :=
  match x with
  | .sts o => some (.shm, o)
  | .stx o => some (.spd, o)
  | .vsct o => some (if o.mx / 2 = 1 then .spd else .shm, o)
  | _ => none

/-- The offset of lane `l` of an access: two signed terms added without wrapping (R11, R266). -/
def Sys2Proof.Machine.offsetOf (i : Issue) (o : MF) (l : Nat) : Int := (i.sp.get o.sbase).toInt + (i.g.v? o.va l).toInt

/-- An access of `n` bytes at an offset is legal: within the extent, in no bench span, aligned (R12). -/
def Sys2Proof.Machine.fits (s : State) (g : Group) (sp : Space) (n : Nat) (a : Int) : Prop :=
  0 ≤ a ∧ a + n ≤ s.extent g sp ∧ a % n = 0 ∧
  (sp = .spd → s.inSpan g.ctx (dieOf g.core) (s.spBase g.ctx (dieOf g.core) + a.toNat) n = false)

/-- R11, R12, R266, R267, R269: a load whose lanes are all legal completes and sends, under its scoreboard slot, the
2^ISC bytes at each guarded lane's offset, zero-extended, after what its order drains. -/
def Obligations.LoadsReturnTheBytesAtTheirOffsets : Prop :=
  ∀ (s u : State) (i : Issue) (x : Instr) (sp : Space) (o : MF), steady s i = true → loadRule x = some (sp, o) →
    x.wf = true → i.g.names o.vd = true → i.g.names o.va = true → i.g.room o.sb →
    s.unperformed i.gid = false → u = s.ordered i o.order o.scope (o.mx % 2 == 1) →
    (∀ l, (i.guard o.p o.pn).getLsbD l = true → fits s i.g sp (2 ^ o.isc) (offsetOf i o l)) →
    exec x s = .next (u.sendOn i o.vd (i.guard o.p o.pn) (onLanes (i.guard o.p o.pn) (fun l =>
      BitVec.ofNat 64 (leNat (u.spaceRead i.g sp (offsetOf i o l).toNat (2 ^ o.isc))))) 0 o.sb)

/-- No monitor is armed and no engine operation is open: what else a store would touch (R43, R50, R308). -/
def Sys2Proof.Machine.quietMem (s : State) : Bool :=
  s.groups.all (fun e => e.2.ops.isEmpty) && s.cores.all (fun e => e.2.monitors.isEmpty) &&
  s.dies.all (fun e => e.2.slices.all (fun f => f.2.monitors.isEmpty))

/-- R11, R12, R40, R46, R267, R269: a store whose lanes are all legal completes. Shared memory takes each lane's low
2^ISC bytes at its offset, the highest lane's where lanes meet; the scratchpad takes them through the core's write
buffer. Every other byte reads as before, and nothing else changes. -/
def Obligations.StoresPutTheirBytesAtTheirOffsets : Prop :=
  ∀ (s u : State) (i : Issue) (x : Instr) (sp : Space) (o : MF) (k : Block), steady s i = true →
    storeRule x = some (sp, o) → x.wf = true → quietMem s = true → i.g.names o.vd = true → i.g.names o.va = true →
    s.blocks.get? i.g.bid = some k → s.unperformed i.gid = false →
    u = s.ordered i o.order o.scope false →
    (∀ l, (i.guard o.p o.pn).getLsbD l = true → fits s i.g sp (2 ^ o.isc) (offsetOf i o l)) →
    let m := i.guard o.p o.pn
    let last := fun l => m.getLsbD l = true ∧ ∀ q, l < q → m.getLsbD q = true → offsetOf i o q ≠ offsetOf i o l
    let apart := fun a : Nat => ∀ l, m.getLsbD l = true →
      (a : Int) < offsetOf i o l ∨ offsetOf i o l + 2 ^ o.isc ≤ a
    (sp = .shm → ∃ mem : Memory,
      exec x s = .next (State.goOn (if m = 0 then u else u.setBlock i.g.bid { k with shm := mem }) i i.g i.sp) ∧
      (k.shm.wf = true → mem.wf = true) ∧
      (∀ l, last l → mem.readBytes (offsetOf i o l).toNat (2 ^ o.isc) = leBytes (2 ^ o.isc) (i.g.v? o.vd l).toNat) ∧
      ∀ a, apart a → mem.read a = k.shm.read a) ∧
    (sp = .spd →
      u.wbRoom i.g.core ((lanesOf m).map (fun l => u.spBase i.g.ctx (dieOf i.g.core) + (offsetOf i o l).toNat)) = true →
      ∃ (buf : List WbEntry) (t : State),
        t = State.goOn (if m = 0 then u else u.setCore i.g.core { u.core i.g.core with wbuf := buf }) i i.g i.sp ∧
        exec x s = .next t ∧
        (∀ l, last l → t.spdRead i.g.core (u.spBase i.g.ctx (dieOf i.g.core) + (offsetOf i o l).toNat) (2 ^ o.isc) =
          leBytes (2 ^ o.isc) (i.g.v? o.vd l).toNat) ∧
        ∀ a, apart a → t.spdRead i.g.core (u.spBase i.g.ctx (dieOf i.g.core) + a) 1 =
          u.spdRead i.g.core (u.spBase i.g.ctx (dieOf i.g.core) + a) 1)

/-- R12, R266, R269: a load or store with a lane outside its space traps with cause 0x04 before anything happens,
TRAPM holding those lanes and TRAPX the offset of the lowest; a misaligned lane, all lanes being inside, traps with
cause 0x03. A gather or scatter raises the element fault 0x0A instead. -/
def Obligations.IllegalOffsetsTrapBeforeAnyEffect : Prop :=
  ∀ (s : State) (i : Issue) (x : Instr) (sp : Space) (o : MF) (bad : Nat → Prop) (m : Mask) (l : Nat) (c : Nat),
    steady s i = true → (loadRule x = some (sp, o) ∨ storeRule x = some (sp, o)) → x.wf = true →
    (∀ o', x ≠ .vgth o' ∧ x ≠ .vsct o') → traps s i = true →
    i.g.names o.vd = true → i.g.names o.va = true → (loadRule x = some (sp, o) → i.g.room o.sb) →
    ((c = 4 ∧ bad = fun q => offsetOf i o q < 0 ∨ (s.extent i.g sp : Int) < offsetOf i o q + 2 ^ o.isc) ∨
      (c = 3 ∧ bad = (fun q => offsetOf i o q % 2 ^ o.isc ≠ 0) ∧ ∀ q, (i.guard o.p o.pn).getLsbD q = true →
        0 ≤ offsetOf i o q ∧ offsetOf i o q + 2 ^ o.isc ≤ s.extent i.g sp ∧ (sp = .spd → s.inSpan i.g.ctx
          (dieOf i.g.core) (s.spBase i.g.ctx (dieOf i.g.core) + (offsetOf i o q).toNat) (2 ^ o.isc) = false))) →
    (∀ q, m.getLsbD q = true ↔ (i.guard o.p o.pn).getLsbD q = true ∧ bad q) → m.getLsbD l = true →
    (∀ q < l, m.getLsbD q = false) → exec x s = .next (s.entered i c m (BitVec.ofInt 64 (offsetOf i o l)))

/-- R269: a gather whose lanes partly fail loads the passing lanes at once and traps with cause 0x0A, TRAPM holding the
failing lanes; a scatter likewise stores the passing lanes of shared memory. -/
def Obligations.GathersAndScattersFaultByLane : Prop :=
  ∀ (s : State) (i : Issue) (o : MF) (k : Block) (ok m : Mask), steady s i = true → quietMem s = true →
    (Instr.vgth o).wf = true → o.mx / 2 = 0 → traps s i = true → o.vd < i.g.nregs → o.vd ≠ zReg →
    i.g.names o.va = true → i.g.room o.sb → s.blocks.get? i.g.bid = some k →
    (∀ l, ok.getLsbD l = true ↔ (i.guard o.p o.pn).getLsbD l = true ∧ fits s i.g .shm (2 ^ o.isc) (offsetOf i o l)) →
    (∀ l, m.getLsbD l = true ↔ (i.guard o.p o.pn).getLsbD l = true ∧ ok.getLsbD l = false) → m ≠ 0 →
    (∃ (t : State) (g : Group) (sp : Split), exec (.vgth o) s = .next t ∧ t.groups.get? i.gid = some g ∧
      g.splits.get? i.sid = some sp ∧ sp.trap.cause = 0x0A ∧ sp.trap.hnd = true ∧ sp.trap.trapi = i.sp.pc ∧
      sp.trap.trapm = m.setWidth 64 ∧ t.blocks = s.blocks ∧
      (∀ l, l < 32 → g.v? o.vd l = if ok.getLsbD l = true
        then BitVec.ofNat 64 (leNat (s.shmRead i.g.bid (offsetOf i o l).toNat (2 ^ o.isc))) else i.g.v? o.vd l) ∧
      ∀ r l, r ≠ o.vd → l < 32 → g.v? r l = i.g.v? r l) ∧
    (o.se = 0 → o.slot = 0 → ∃ (mem : Memory) (e : Word),
      exec (.vsct o) s =
        .next (State.entered (if ok = 0 then s else s.setBlock i.g.bid { k with shm := mem }) i 0x0A m e) ∧
      (∀ l, ok.getLsbD l = true → (∀ q, l < q → ok.getLsbD q = true → offsetOf i o q ≠ offsetOf i o l) →
        mem.readBytes (offsetOf i o l).toNat (2 ^ o.isc) = leBytes (2 ^ o.isc) (i.g.v? o.vd l).toNat) ∧
      ∀ a : Nat, (∀ l, ok.getLsbD l = true → (a : Int) < offsetOf i o l ∨ offsetOf i o l + 2 ^ o.isc ≤ a) →
        mem.read a = k.shm.read a)

/-- R14, R268: `vspill` writes all 32 lanes of a register to a spill slot of the group, whatever its lane mask, and
`vfill` sends them back; a slot the group does not have traps with cause 0x04. -/
def Obligations.SpillSlotsHoldWholeRegisters : Prop :=
  ∀ (s : State) (i : Issue) (o : MF), steady s i = true → i.g.names o.vd = true →
    (o.va < i.g.nspill → ∃ sl : Sparse Word,
      exec (.vspill o) s = .next (s.goOn i { i.g with spill := sl } i.sp) ∧
      ∀ k l, l < 32 → Group.spillGet { i.g with spill := sl } k l =
        if k = o.va then i.g.v? o.vd l else i.g.spillGet k l) ∧
    (o.va < i.g.nspill → i.g.room o.sb → exec (.vfill o) s = .next (s.sendOn i o.vd (BitVec.allOnes 32)
      ((List.range 32).map (fun l => (l, i.g.spillGet o.va l))) 0 o.sb)) ∧
    (i.g.nspill ≤ o.va → traps s i = true → (i.g.room o.sb → exec (.vfill o) s =
      .next (s.entered i 4 i.sp.mask (BitVec.ofNat 64 o.va))) ∧
      exec (.vspill o) s = .next (s.entered i 4 i.sp.mask (BitVec.ofNat 64 o.va)))

/-! ### Atomics (R41, R49, R72, R211, R270, R271) -/

/-- The operation of an atomic with the bytes of its elements. -/
def Sys2Proof.Machine.atomRule (x : Instr) : Option (MF × Nat × AtomOp) :=
  let w := fun o : MF => if o.isc % 2 = 0 then 32 else 64
  let t := fun o : MF => if o.isc = 0 then FloatTy.f32 else if o.isc = 1 then .bf16 else .f16
  let ft := fun c : Nat => if c = 0 then FloatTy.f32 else if c = 1 then FloatTy.bf16 else FloatTy.f16
  match x with
  | .aadd o => some (o, w o / 8, .add (w o))
  | .afadd o => some (o, (tyFmt (t o)).width / 8, .fadd (ft o.isc))
  | .amin o => some (o, w o / 8, .min (w o) (decide (o.isc ≤ 1)))
  | .amax o => some (o, w o / 8, .max (w o) (decide (o.isc ≤ 1)))
  | .aand o => some (o, w o / 8, .and (w o))
  | .aor o => some (o, w o / 8, .or (w o))
  | .axchg o => some (o, w o / 8, .xchg (w o))
  | .acas o => some (o, w o / 8, .cas (w o))
  | _ => none

/-- An element after one contribution (R72): `m` the element, `b` the operand, `c` the compare value. -/
def Sys2Proof.Machine.atomVal (op : AtomOp) (m b c : Nat) : Nat :=
  match op with
  | .add w => (m + b) % 2 ^ w
  | .fadd t => (faddBits (tyFmt t) 0 m b).1
  | .fmin t => (fminmax (tyFmt t) false m b).1
  | .fmax t => (fminmax (tyFmt t) true m b).1
  | .min w sgn => if sgn then (if sg w m ≤ sg w b then m else b) else min m b
  | .max w sgn => if sgn then (if sg w m ≤ sg w b then b else m) else max m b
  | .and _ => m &&& b
  | .or _ => m ||| b
  | .xchg _ => b
  | .cas _ => if m = c then b else m

/-- Operand and compare value of a lane of an atomic: `acas` takes its compare value from VD and its new value from
VD + 1 (R270). -/
def Sys2Proof.Machine.atomArgs (i : Issue) (op : AtomOp) (o : MF) (n l : Nat) : Nat × Nat :=
  match op with
  | .cas _ => ((i.g.v? (o.vd + 1) l).toNat % 2 ^ (8 * n), (i.g.v? o.vd l).toNat % 2 ^ (8 * n))
  | _ => ((i.g.v? (o.va + 1) l).toNat % 2 ^ (8 * n), 0)

/-- R41, R211, R271: an atomic on shared memory whose lanes are all legal completes. Lanes that target one element apply
in ascending order; the element takes the last value and each lane is sent the value before its own; a float add of one
lane likewise. Bytes of no element keep their values. -/
def Obligations.SharedMemoryAtomicsApplyInLaneOrder : Prop :=
  ∀ (s u : State) (i : Issue) (x : Instr) (o : MF) (n : Nat) (op : AtomOp) (k : Block), steady s i = true →
    atomRule x = some (o, n, op) → x.wf = true → o.sbase / 16 = 0 → quietMem s = true → s.copies = [] →
    s.blocks.get? i.g.bid = some k → s.unperformed i.gid = false → i.g.room o.sb → s.retSlots i.g.core < 128 →
    i.g.names o.vd = true → o.va + 1 < i.g.nregs → (∀ w, op = .cas w → o.vd + 1 < i.g.nregs) →
    u = s.ordered i o.order o.scope (o.sbase / 8 % 2 == 1) →
    let m := i.guard o.p o.pn
    let addr := fun l => (i.g.v? o.va l).toNat
    let same := fun l q => m.getLsbD q = true ∧ addr q = addr l
    (∀ l, m.getLsbD l = true → fits s i.g .shm n ((i.g.v? o.va l).toInt)) →
    (∀ t, op = .fadd t → ∀ l q, m.getLsbD l = true → same l q → q = l) →
    let old := fun l => ((List.range l).filter (fun q => m.getLsbD q && addr q == addr l)).foldl
      (fun v q => atomVal op v (atomArgs i op o n q).1 (atomArgs i op o n q).2) (k.shm.readN (addr l) n)
    ∃ (mem : Memory) (vals : List (Nat × Word)) (t : State),
      t = State.sendOn (if m = 0 then u else u.setBlock i.g.bid { k with shm := mem }) i o.vd m vals 0 o.sb ∧
      vals.Perm (onLanes m (fun l => BitVec.ofNat 64 (old l))) ∧
      exec x s = .next (if o.vd = zReg ∨ m = 0 then t else
        t.modGroup i.gid (fun g => { g with outs := g.outs.map (fun p => { p with ret := true }) })) ∧
      (∀ l, m.getLsbD l = true → (∀ q, l < q → ¬ same l q) →
        mem.readN (addr l) n = atomVal op (old l) (atomArgs i op o n l).1 (atomArgs i op o n l).2) ∧
      ∀ a, (∀ l, m.getLsbD l = true → a < addr l ∨ addr l + n ≤ a) → mem.read a = k.shm.read a

/-- R45, R49, R62, R271: an atomic on the scratchpad sends each home slice one request with the lanes at home there, and
one on main memory sends a request for each 256-byte part; the split goes on, and waits for the replies where it is an
acquire. No register and no memory changes before a request is performed. -/
def Obligations.DistantAtomicsAreSentToTheirHomes : Prop :=
  ∀ (s : State) (i : Issue) (x : Instr) (o : MF) (n : Nat) (op : AtomOp), steady s i = true →
    atomRule x = some (o, n, op) → x.wf = true → s.unperformed i.gid = false → i.g.room o.sb →
    s.retSlots i.g.core < 128 → i.g.names o.vd = true → o.va + 1 < i.g.nregs →
    (∀ w, op = .cas w → o.vd + 1 < i.g.nregs) →
    let m := i.guard o.p o.pn
    let addr := fun l => (i.g.v? o.va l).toNat
    let sent := fun t : State => exec x s = .next t ∧ t.main = s.main ∧ t.blocks = s.blocks ∧
      ∃ g sp, t.groups.get? i.gid = some g ∧ g.splits.get? i.sid = some sp ∧ g.v = i.g.v ∧ g.p = i.g.p ∧
        sp.pc = i.sp.pc + 8 ∧ sp.s = i.sp.s ∧ sp.cc = i.sp.cc ∧ (sp.parked = true ↔ o.order % 2 = 1 ∧ m ≠ 0 ∨
          i.sp.parked = true)
    (o.sbase / 16 = 1 → (∀ l, m.getLsbD l = true → fits s i.g .spd n ((i.g.v? o.va l).toInt)) →
      ∃ (t : State) (id : Option Nat), sent t ∧ ∀ h, (t.slice (dieOf i.g.core) h).all =
        (s.slice (dieOf i.g.core) h).all ++
          (let es := ((lanesOf m).filter (fun l => decide ((s.spBase i.g.ctx (dieOf i.g.core) + addr l) / 0x300000 = h))).map
            (fun l => (l, s.spBase i.g.ctx (dieOf i.g.core) + addr l))
          if es = [] then [] else [SvcReq.atomic i.g.core i.gid i.sid i.sp.pc id op (es.map (fun e =>
            ⟨e.1, e.2, i.g.v? (match op with | .cas _ => o.vd + 1 | _ => o.va + 1) e.1,
              match op with | .cas _ => i.g.v? o.vd e.1 | _ => 0⟩))])) ∧
    (o.sbase / 16 = 2 → ∀ pa : Nat → Xl,
      (∀ l, m.getLsbD l = true → addr l < 2 ^ 52 ∧ addr l % n = 0 ∧ s.unitError (pa l).pa n = none ∧
        s.walkReady i.g.core i.g.ctx (addr l) = true ∧
        s.translateRouted i.g.core i.g.ctx .atomic [.q, .w, .a, .hbm] true (addr l) = .ok (pa l)) →
      ∃ (t : State) (id : Option Nat), sent t ∧ ∀ l, m.getLsbD l = true → ∃ r ∈ t.inFlight, ∃ es,
        r.op = .atomic i.gid id i.sid op es ∧ r.core = i.g.core ∧ r.ctx = i.g.ctx ∧ r.pa = (pa l).pa / 256 * 256 ∧
        (⟨l, (pa l).pa, i.g.v? (match op with | .cas _ => o.vd + 1 | _ => o.va + 1) l,
          match op with | .cas _ => i.g.v? o.vd l | _ => 0⟩ : Elem) ∈ es)

/-! ### Synchronisation (R115, R127, R273 to R277) -/

/-- What an arrival makes of a well-formed barrier word (R274): PHASE, ARRIVED, COUNT, EXPECT from the top; `slot` is the
group slot that arrives. -/
def Sys2Proof.Machine.arrival (w slot : Nat) : Nat :=
  let expect := w % 2 ^ 16
  let count := w / 2 ^ 16 % 2 ^ 16
  if count + 1 = expect then (w / 2 ^ 48 + 1) % 2 ^ 16 * 2 ^ 48 + expect
  else w / 2 ^ 48 * 2 ^ 48 + (w / 2 ^ 32 % 2 ^ 16 ||| 2 ^ slot) * 2 ^ 32 + (count + 1) * 2 ^ 16 + expect

/-- R273, R274: an arrival raises COUNT and sets the group's ARRIVED bit, and the last one clears both and raises PHASE;
`barr` goes on, `bar` waits unless it completes the phase, `barw` waits on the phase it finds; a wait ends when PHASE
differs. A word that expects nothing or is over-full traps with cause 0x04. Only the word changes in shared memory. -/
def Obligations.BarrierWordsCountArrivals : Prop :=
  ∀ (s : State) (i : Issue) (o : MF) (k : Block) (a w : Nat), poised s i = true → quietMem s = true → s.copies = [] →
    s.blocks.get? i.g.bid = some k → i.g.slot < 16 →
    (steady s i = true → (a : Int) = (i.sp.get o.sbase).toInt → fits s i.g .shm 8 a → w = k.shm.readN a 8 →
      s.unperformed i.gid = false →
      let mem := k.shm.writeN a 8 (arrival w i.g.slot)
      let last := w / 2 ^ 16 % 2 ^ 16 + 1 = w % 2 ^ 16
      let result := fun (x : Instr) (wait : Wait) (adv : Bool) => ∃ t k' g sp, exec x s = .next t ∧
        t.blocks.get? i.g.bid = some k' ∧ k'.shm = mem ∧ t.groups.get? i.gid = some g ∧
        g.splits.get? i.sid = some sp ∧ sp.wait = wait ∧ sp.pc = (if adv then i.sp.pc + 8 else i.sp.pc) ∧
        sp.s = i.sp.s ∧ g.v = i.g.v ∧ g.p = i.g.p ∧ t.main = s.main
      (w / 2 ^ 16 % 2 ^ 16 < w % 2 ^ 16 →
        result (.barr o) .none true ∧
        result (.bar o) (if last then .none else .barrier a (w / 2 ^ 48) true true) (decide last)) ∧
      (w % 2 ^ 16 ≤ w / 2 ^ 16 % 2 ^ 16 → traps s i = true →
        ∀ x ∈ [Instr.barr o, .bar o], exec x s = .next (s.entered i 4 i.sp.mask (i.sp.get o.sbase))) ∧
      exec (.barw o) s = .next (s.setGroup i.gid { i.g with splits := i.g.splits.set i.sid { i.sp with
        wait := .barrier a (w / 2 ^ 48) true false, awake := false } })) ∧
    (∀ (off phase : Nat) (watched b : Bool), i.sp.wait = .barrier off phase watched b →
      k.shm.readN off 8 / 2 ^ 48 ≠ phase → ∀ x ∈ [Instr.bar o, .barw o], exec x s = .next (s.goOn i i.g i.sp))

/-- R43, R50, R276: `wmon` returns 0 at once for a word that differs from the expected bits and 2 when the table is full;
else it arms and waits, and its return value reaches SD when the monitor returns. On the scratchpad the check is sent to
the home slice. Main memory traps with cause 0x04. -/
def Obligations.MonitorsCheckArmAndReturn : Prop :=
  ∀ (s : State) (i : Issue) (o : YF) (a n : Nat), calm s i = true → n = (if o.code / 4 % 2 = 1 then 8 else 4) →
    (∀ b sd r, i.sp.wait = .wmon b sd (some r) → exec (.wmon o) s = .next (s.goOn i i.g (i.sp.put sd (BitVec.ofNat 64 r)))) ∧
    (i.sp.wait = .none → (a : Int) = (i.sp.get o.sa).toInt →
      let equal := leNat (s.shmRead i.g.bid a n) = (i.sp.get (o.code / 2 ^ 8 % 64)).toNat % 2 ^ (8 * n)
      (o.code % 4 = 0 → fits s i.g .shm n a →
        (¬ equal → exec (.wmon o) s = .next (s.goOn i i.g (i.sp.put o.sd 0))) ∧
        (equal → 64 ≤ (s.core i.g.core).monitors.length → exec (.wmon o) s = .next (s.goOn i i.g (i.sp.put o.sd 2))) ∧
        (equal → (s.core i.g.core).monitors.length < 64 → exec (.wmon o) s = .next
          ((s.setCore i.g.core { s.core i.g.core with
              monitors := (s.core i.g.core).monitors ++ [⟨a, n, i.g.bid, i.gid, i.sid⟩] }).setGroup i.gid { i.g with
            splits := i.g.splits.set i.sid { i.sp with wait := .wmon false o.sd none, awake := false } }))) ∧
      (o.code % 4 = 1 → fits s i.g .spd n a → s.retSlots i.g.core < 128 → ∃ t : State,
        let lin := s.spBase i.g.ctx (dieOf i.g.core) + a
        exec (.wmon o) s = .next t ∧
        t.groups = s.groups.set i.gid { i.g with
          splits := i.g.splits.set i.sid { i.sp with wait := .wmon true o.sd none, awake := false } } ∧
        (t.slice (dieOf i.g.core) (lin / 0x300000)).all = (s.slice (dieOf i.g.core) (lin / 0x300000)).all ++
          [.wmon i.gid i.sid lin n (BitVec.ofNat 64 ((i.sp.get (o.code / 2 ^ 8 % 64)).toNat % 2 ^ (8 * n)))]) ∧
      (o.code % 4 = 2 → traps s i = true →
        exec (.wmon o) s = .next (s.entered i 4 i.sp.mask (i.sp.get o.sa))))

/-- R46, R115, R127, R277: a `fence` whose split has no atomic unperformed completes, and of scope `.clus` or wider it
has drained the core's write buffer; `fence.op` of a split with no result outstanding makes its register writes visible to
the engines. -/
def Obligations.FencesDrainAndPublish : Prop :=
  ∀ (s u : State) (i : Issue) (o : MF), poised s i = true →
    (s.unperformed i.gid = false → u = (if 2 ≤ o.scope then s.wbDrainAll i.g.core else s) →
      exec (.fence o) s = .next (u.goOn i i.g i.sp) ∧ u.main = s.main ∧
      u.groups = s.groups ∧ (2 ≤ o.scope → (u.core i.g.core).wbuf = [])) ∧
    ((∀ p ∈ i.g.outs, p.sid ≠ i.sid) → exec (.fenceOp o) s =
      .next (s.goOn i { i.g with opDirty := i.g.opDirty.filter (fun e => e.1 ≠ i.sid) } i.sp))

/-! ### Copies and batches (R126, R278 to R287) -/

/-- R282 to R284: `bclose` numbers the open operations of its class and returns the number; `bwait` goes on once no
operation up to the number it names is incomplete, forgetting those it covers, and waits until then; `cstat` takes the
oldest entry of the error list. -/
def Obligations.BatchesAreClosedAwaitedAndReported : Prop :=
  ∀ (s : State) (i : Issue) (o : YF) (c n : Nat), poised s i = true → c = o.code % 4 →
    (n = i.g.counters.getD c 0 + 1 → ∃ g : Group,
      exec (.bclose o) s = .next (s.goOn i g (i.sp.put o.sd (BitVec.ofNat 64 n))) ∧
      { g with counters := i.g.counters, ops := i.g.ops, errs := i.g.errs } = i.g ∧ g.counters.get? c = some n ∧
      (∀ d, d ≠ c → g.counters.get? d = i.g.counters.get? d) ∧
      g.ops = i.g.ops.map (fun p => if p.cls = c ∧ p.batch = 0 then { p with batch := n } else p)) ∧
    (i.sp.wait = .none → i.sp.trap.hnd = false → n = min (i.sp.get o.sa).toNat (i.g.counters.getD c 0) →
      let due := fun p : OpRec => p.cls = c ∧ p.batch ≠ 0 ∧ p.batch ≤ n
      ((∃ p ∈ i.g.ops, due p ∧ p.done = false) → exec (.bwait o) s = .next (s.setGroup i.gid { i.g with
        splits := i.g.splits.set i.sid { i.sp with wait := .batch c n, awake := false } })) ∧
      ((∀ p ∈ i.g.ops, due p → p.done = true ∧ (c = 2 → p.spoilt = false)) → (∀ e ∈ i.g.errs, ¬ (e.cls = c ∧ e.batch ≠ 0 ∧ e.batch ≤ n)) →
        ∃ copies, exec (.bwait o) s = .next (State.goOn { s with copies := copies } i { i.g with
          ops := i.g.ops.filter (fun p => ¬ (p.cls = c ∧ p.batch ≠ 0 ∧ p.batch ≤ n)) } i.sp) ∧
          (c ≠ 0 → copies = s.copies)) ∧
      (steady s i = true → traps s i = true → ∀ e, i.g.errs = [e] → e.cls = c → e.batch ≠ 0 → e.batch ≤ n →
        0 < e.cause → e.cause ≠ 7 → e.cause ≠ 8 → e.cause ≠ 9 → ∃ t g sp, exec (.bwait o) s = .next t ∧
          t.groups.get? i.gid = some g ∧ g.splits.get? i.sid = some sp ∧ g.errs = [] ∧ sp.trap.hnd = true ∧
          sp.trap.cause = BitVec.ofNat 8 e.cause ∧ sp.trap.trapx = e.trapx ∧ sp.trap.trapi = i.sp.pc)) ∧
    (∀ w x : Word, (∀ e l, i.g.errLists.getD c [] = e :: l → x = e.trapx ∧
        w = BitVec.ofNat 64 (2 ^ 63 + (if i.g.overflow.getD c false then 2 ^ 62 else 0) + e.cause % 256 * 2 ^ 48 +
          e.batch % 2 ^ 48)) →
      (i.g.errLists.getD c [] = [] → x = 0 ∧ w = BitVec.ofNat 64 (if i.g.overflow.getD c false then 2 ^ 62 else 0)) →
      exec (.cstat o) s = .next (s.goOn i { i.g with
        errLists := i.g.errLists.set c (i.g.errLists.getD c []).tail, overflow := i.g.overflow.set c false }
        ((i.sp.put o.sd w).put (o.sd + 1) x)))

/-- R278 to R280, R285 to R287: a copy or copy-reduction whose ranges lie in bounds, are aligned and whose slots the group may
name is queued with its four scalars and joins the open set; the split goes on and no byte has moved. Outside a handler
`cquiesce` traps with cause 0x06. In one, it cancels the copies of the group, none of which has finished or written anything, stores the
64-byte entry of each in order at the window offset and returns their number; an entry gives back what it was made of; and
`cquiesce.rst` queues a copy for each legal entry, in order, where the queue has room for them. -/
def Obligations.CopiesAreQueuedQuiescedAndReissued : Prop :=
  (∀ (s : State) (i : Issue) (x : Instr) (o : YF) (red : Bool) (dst src len bar : Word), poised s i = true →
     (x = .cpy o ∧ red = false) ∨ (x = .cpyr o ∧ red = true) → dst = i.sp.get o.sa → src = i.sp.get (o.sa + 1) → len = i.sp.get (o.sa + 2) → bar = i.sp.get (o.sa + 3) →
     len.toNat ≤ 2 ^ 32 → s.copyBounds i.g (o.code % 8) (o.code / 64 % 4) dst len.toNat = true →
     s.copyBounds i.g (o.code / 8 % 8) (o.code / 256 % 4) src len.toNat = true →
     dst.toNat % 8 = 0 → src.toNat % 8 = 0 → len.toNat % 8 = 0 →
     (o.code % 8 = 3 → s.mayName i.gid i.g.core (dst.toNat / 65536 % 16) = true) →
     (o.code / 8 % 8 = 3 → s.mayName i.gid i.g.core (src.toNat / 65536 % 16) = true) →
     (o.code / 4096 % 2 = 1 → fits s i.g .shm 8 bar.toInt) → s.copyQueueFull i.g.core = false → s.openCopies i.gid < 64 →
     exec x s = .next (State.goOn { s with
         nextId := s.nextId + 1
         copies := s.copies ++ [{ id := s.nextId, gid := i.gid, sid := i.sid, ctx := i.g.ctx, core := i.g.core
                                  bid := i.g.bid, reduce := red, code := o.code, dst := dst, src := src
                                  len := len.toNat, bar := bar, begun := false, wrote := false, finished := false
                                  waiting := 0, failedLines := [], srcX := [], dstX := [] }] }
       i { i.g with ops := i.g.ops ++ [{ id := s.nextId, cls := 0, batch := 0, done := false, tiles := [], regs := []
                                         uses := [], spoilt := false }] } i.sp)) ∧
  (∀ (s : State) (i : Issue) (o : YF) (off n lin : Nat), poised s i = true → i.sp.wait = .none →
     off = (i.sp.get o.sa).toNat → (i.sp.get o.sa).toInt = off → off % 64 = 0 →
     lin = s.spBase i.g.ctx (dieOf i.g.core) + off →
     (steady s i = true → traps s i = true → exec (.cquiesce o) s = .next (s.entered i 6 i.sp.mask 0)) ∧
     (i.sp.trap.hnd = true → off + 4096 ≤ s.extent i.g .spd → s.inSpan i.g.ctx (dieOf i.g.core) lin 4096 = false →
       (∀ c ∈ s.copies, c.gid = i.gid ∧ c.wrote = false ∧ c.finished = false ∧ s.copyOpen c = true) →
       (s.copies.map (fun c => c.id)).Nodup → s.copies.length ≤ 64 →
       (∀ e ∈ s.groups, ∀ p ∈ e.2.ops, p.uses = []) →
       ∃ t g sp, exec (.cquiesce o) s = .next t ∧ t.copies = [] ∧ t.groups.get? i.gid = some g ∧
         g.splits.get? i.sid = some sp ∧ sp.pc = i.sp.pc + 8 ∧ sp.get o.sd = BitVec.ofNat 64 s.copies.length ∧
         g.v = i.g.v ∧ t.main = s.main ∧
         ∀ k c, s.copies[k]? = some c → t.spdRead i.g.core (lin + 64 * k) 64 = c.entry (i.g.batchOf c.id)) ∧
     (∀ (c : CopyOp) (b : Nat) (r : Replayed), r = replayOf (c.entry b) → c.code < 2 ^ 32 → c.len < 2 ^ 64 → b < 2 ^ 64 →
       r.dst = c.dst ∧ r.src = c.src ∧ r.len.toNat = c.len ∧ r.bar = c.bar ∧ r.code = c.code ∧ r.reduce = c.reduce ∧
       r.batch = b) ∧
     (n = (i.sp.get o.sd).toNat → i.g.ops = [] → off + 64 * n ≤ s.extent i.g .spd →
       s.inSpan i.g.ctx (dieOf i.g.core) lin (64 * n) = false → s.openCopies i.gid + n ≤ 64 →
       (s.copies.filter (fun c => c.core == i.g.core && !c.finished)).length + n ≤ max 1 Config.engineQueueDepth →
       let e := fun k => replayOf (s.spdRead i.g.core (lin + 64 * k) 64)
       (∀ k < n, (e k).legal = true ∧
         s.copyCheck i.gid i.g (e k).code (e k).dst (e k).src (e k).len (e k).bar = none) →
       ∃ (t : State) (g : Group) (q : List CopyOp), exec (.cquiesceRst o) s = .next t ∧ t.copies = s.copies ++ q ∧
         q.length = n ∧ (∀ k c, q[k]? = some c → c.dst = (e k).dst ∧ c.src = (e k).src ∧ c.len = (e k).len.toNat ∧
           c.bar = (e k).bar ∧ c.code = (e k).code ∧ c.reduce = (e k).reduce ∧ c.wrote = false ∧ c.gid = i.gid) ∧
         t.groups.get? i.gid = some g ∧ g.ops.map (fun p => p.batch) = (List.range n).map (fun k => (e k).batch) ∧
         g.v = i.g.v))

/-! ### Operand slots, tiles and the matrix engine (R53, R54, R289 to R303) -/

/-- R53, R289, R290: `oclaim` claims a free slot for the group or confirms its own, `oclaim.any` claims the lowest free
one, and both return its number, or all ones when refused; `orel` frees a slot, or marks it while operations read it; a
slot the group may not name traps with cause 0x06. -/
def Obligations.SlotsAreClaimedAndReleased : Prop :=
  ∀ (s : State) (i : Issue) (o : YF) (n : Nat), poised s i = true → n = o.code % 16 →
    let c := i.g.core
    let claims := fun (x : Instr) (k : Nat) => ∃ t : State,
      exec x s = .next (t.goOn i i.g (i.sp.put o.sd (BitVec.ofNat 64 k))) ∧ t.groups = s.groups ∧ t.main = s.main ∧
      (t.slotOf c k).st = .claimed ∧ (t.slotOf c k).owner = i.gid ∧ (t.slotOf c k).readers = 0 ∧
      (t.slotOf c k).rel = false ∧ (t.slotOf c k).mem.cells = [] ∧ (t.slotOf c k).mem.seed.isSome = true ∧
      ∀ m, m ≠ k → t.slotOf c m = s.slotOf c m
    ((s.slotOf c n).st = .free → claims (.oclaim o) n) ∧
    (s.mayName i.gid c n = true → exec (.oclaim o) s = .next (s.goOn i i.g (i.sp.put o.sd (BitVec.ofNat 64 n)))) ∧
    ((s.slotOf c n).st ≠ .free → s.mayName i.gid c n = false →
      exec (.oclaim o) s = .next (s.goOn i i.g (i.sp.put o.sd (BitVec.allOnes 64)))) ∧
    (∀ k < 16, (s.slotOf c k).st = .free → (∀ m < k, (s.slotOf c m).st ≠ .free) → claims (.oclaimAny o) k) ∧
    ((∀ m < 16, (s.slotOf c m).st ≠ .free) →
      exec (.oclaimAny o) s = .next (s.goOn i i.g (i.sp.put o.sd (BitVec.allOnes 64)))) ∧
    (s.mayName i.gid c n = true → exec (.orel o) s = .next (State.goOn (s.setSlot c n
      (if (s.slotOf c n).readers = 0 then ⟨.free, 0, 0, false, ⟨none, []⟩, []⟩ else { s.slotOf c n with rel := true }))
      i i.g i.sp)) ∧
    (s.mayName i.gid c n = false → steady s i = true → traps s i = true →
      exec (.orel o) s = .next (s.entered i 6 i.sp.mask (BitVec.ofNat 64 n)))

/-- The row and column of element `e` of lane `l` under a position word (R301): bit 32 chooses a column of rows. -/
def Sys2Proof.Machine.accPlace (v : Word) (l e : Nat) : Nat × Nat :=
  if v.getLsbD 32 then (v.toNat % 2 ^ 8 + l, v.toNat / 2 ^ 16 % 2 ^ 8 + e)
  else (v.toNat % 2 ^ 8, v.toNat / 2 ^ 16 % 2 ^ 8 + 2 * l + e)

/-- R54, R301, R302: `accrd` sends each guarded lane two FP32 elements of a tile that no unwaited operation uses, and
`accwr` writes two; every other element and tile keeps its value. A tile the block does not have traps with cause 0x02,
a position out of range with 0x04, for either instruction. -/
def Obligations.TilesAreReadAndWrittenByLane : Prop :=
  ∀ (s : State) (i : Issue) (o : XF) (k : Block) (p : Nat) (v : Word), steady s i = true →
    s.blocks.get? i.g.bid = some k → v = i.sp.get (o.f3 % 64) →
    let m := i.guard o.p o.pn
    let x := s.tileOf i.g.core p
    (k.tiles[o.f3 / 256]? = some p → accOk v = true → s.tileInUse i.g.core p = false →
      (i.g.names o.f1 = true → i.g.room o.sb → exec (.accrd o) s = .next (s.sendOn i o.f1 m (onLanes m (fun l =>
        BitVec.ofNat 64 (x.elem (192 * (accPlace v l 0).1 + (accPlace v l 0).2) +
          x.elem (192 * (accPlace v l 1).1 + (accPlace v l 1).2) * 2 ^ 32))) 0 o.sb)) ∧
      (i.g.names o.f2 = true → i.g.bd = [] → ∃ y : Tile,
        exec (.accwr o) s = .next (State.goOn (if m = 0 then s else s.setTile i.g.core p y) i i.g i.sp) ∧
        y.owner = x.owner ∧ y.rows = x.rows ∧
        (∀ l e, m.getLsbD l = true → e < 2 →
          y.elem (192 * (accPlace v l e).1 + (accPlace v l e).2) = getE 32 e (i.g.v? o.f2 l)) ∧
        ∀ c, (∀ l e, m.getLsbD l = true → e < 2 → c ≠ 192 * (accPlace v l e).1 + (accPlace v l e).2) →
          y.elem c = x.elem c)) ∧
    (i.g.names o.f1 = true → i.g.room o.sb → traps s i = true →
      (k.tiles[o.f3 / 256]? = none → exec (.accrd o) s =
        .next (s.entered i 2 i.sp.mask (BitVec.ofNat 64 (o.f3 / 256)))) ∧
      (k.tiles[o.f3 / 256]? = some p → accOk v = false → exec (.accrd o) s = .next (s.entered i 4 i.sp.mask v))) ∧
    (i.g.names o.f2 = true → traps s i = true →
      (k.tiles[o.f3 / 256]? = none → exec (.accwr o) s =
        .next (s.entered i 2 i.sp.mask (BitVec.ofNat 64 (o.f3 / 256)))) ∧
      (k.tiles[o.f3 / 256]? = some p → accOk v = false → exec (.accwr o) s = .next (s.entered i 4 i.sp.mask v)))

/-- A matrix operation is queued: it is the last of the core's queue, an operation of the open set of its class, its
slots are Engaged with one more reader, and the split has gone on without a register written. -/
def Sys2Proof.Machine.queued (s t : State) (i : Issue) (op : MatOp) (slots : List Nat) (regs : List Nat) : Prop :=
  (t.core i.g.core).matQ = (s.core i.g.core).matQ ++ [op] ∧ op.gid = i.gid ∧ op.core = i.g.core ∧ op.bid = i.g.bid ∧
  op.pri = i.g.pri ∧ op.id = s.nextId ∧ t.main = s.main ∧ t.blocks = s.blocks ∧
  (∀ k ∈ slots, (t.slotOf i.g.core k).st = .engaged ∧
    (t.slotOf i.g.core k).readers = (s.slotOf i.g.core k).readers + 1) ∧
  ∃ g sp p, t.groups.get? i.gid = some g ∧ g.ops = i.g.ops ++ [p] ∧ p.id = op.id ∧ p.cls = 1 ∧ p.batch = 0 ∧
    p.done = false ∧ p.regs = regs ∧ g.v = i.g.v ∧ g.p = i.g.p ∧ g.splits.get? i.sid = some sp ∧
    sp.pc = i.sp.pc + 8 ∧ sp.s = i.sp.s

/-- R127, R293, R296, R300, R303: `mma`, `mmas`, `mzero` and `smask` that meet their checks complete: each is queued with its
operands, and the split goes on; `mmas` takes the words of its run of metadata registers, in lane 0 for selector 1 and in all
lanes else, where the split has published them. That these are the words as they stand at issue is the model's choice (log 46). A
tile that the block does not have traps with cause 0x02. -/
def Obligations.MatrixOperationsAreQueued : Prop :=
  ∀ (s : State) (i : Issue) (k : Block), steady s i = true → s.blocks.get? i.g.bid = some k →
    s.matFull i.g.core = false →
    (∀ (x : Instr) (o : XF) (sparse : Bool) (shape lay : Word) (len : Nat),
      (x = .mma o ∧ sparse = false) ∨ (x = .mmas o ∧ sparse = true) → shape = i.sp.get (o.f3 % 64) →
      lay = i.sp.get (o.f3 % 64 + 1) → len = (if sparse then metaLen o.f4 shape else 0) →
      (len ≠ 0 → o.f2 + len ≤ i.g.nregs) →
      s.mayName i.gid i.g.core (o.f1 / 16 % 16) = true → s.mayName i.gid i.g.core (o.f1 % 16) = true →
      (o.f3 / 1024 = 1 → i.g.core % 2 = 0) → shapeOk shape (decide (o.f3 / 1024 = 1)) = true →
      (∀ r ∈ rangesA (o.f3 / 64 % 16) sparse (min 128 (shM shape)) (shK shape) lay ++
        rangesB (o.f3 / 64 % 16) (shN shape) (shK shape) lay, r.1 + r.2 ≤ 65536) →
      (o.f1 / 256 < k.tiles.length → ∃ t op, exec x s = .next t ∧
        queued s t i op (if o.f1 / 16 % 16 = o.f1 % 16 then [o.f1 % 16] else [o.f1 / 16 % 16, o.f1 % 16])
          ((List.range len).map (fun j => o.f2 + j)) ∧
        op.kind = (if sparse then .mmas else .mma) ∧ k.tiles[o.f1 / 256]? = some op.tile ∧
        op.slotA = o.f1 / 16 % 16 ∧ op.slotB = o.f1 % 16 ∧ op.pair = decide (o.f3 / 1024 = 1) ∧
        op.fmt = o.f3 / 64 % 16 ∧ op.shape = shape ∧ op.layout = lay ∧ op.sel = o.f4 ∧
        (i.g.opDirty = [] → op.mdata = (List.range len).map (fun j =>
          (List.range (if o.f4 = 1 then 1 else 32)).map (i.g.v? (o.f2 + j))))) ∧
      (k.tiles.length ≤ o.f1 / 256 → traps s i = true → exec x s =
        .next (s.entered i 2 i.sp.mask (BitVec.ofNat 64 (o.f1 / 256))))) ∧
    (∀ o : YF, (o.code % 8 < k.tiles.length → ∃ t op, exec (.mzero o) s = .next t ∧ queued s t i op [] [] ∧
        op.kind = .mzero ∧ k.tiles[o.code % 8]? = some op.tile) ∧
      (k.tiles.length ≤ o.code % 8 → traps s i = true →
        exec (.mzero o) s = .next (s.entered i 2 i.sp.mask (BitVec.ofNat 64 (o.code % 8))))) ∧
    (∀ (o : YF) (v : Word), v = i.sp.get o.sa → v.toNat / 2 ^ 56 = 0 → v.toNat / 2 ^ 52 % 16 ≤ 5 →
      s.mayName i.gid i.g.core (v.toNat / 2 ^ 48 % 16) = true → v.toNat / 2 ^ 32 % 2 ^ 16 % 8 = 0 →
      (∀ r ∈ smaskRanges v, r.1 + r.2 ≤ 65536) → v.toNat / 2 ^ 32 % 2 ^ 16 + 136 ≤ 65536 →
      ∃ t op, exec (.smask o) s = .next t ∧ queued s t i op [v.toNat / 2 ^ 48 % 16] [] ∧ op.kind = .smask ∧
        op.shape = v ∧ op.fmt = v.toNat / 2 ^ 52 % 16)

/-- R173, R297, R299: after `mlease n` the group's former lease and request are gone, and for n > 0 it holds a lease of n
operations or waits for one; `mlease.fol` does the same with the bond of an odd core, naming its tile and slot, and
traps with cause 0x06 on an even one. -/
def Obligations.LeasesAndBondsAreReplaced : Prop :=
  ∀ (s : State) (i : Issue) (o : YF) (n : Nat), poised s i = true → n = o.code % 128 →
    (∃ t : State, exec (.mlease o) s = .next (t.goOn i i.g i.sp) ∧ t.groups = s.groups ∧
      (∀ e ∈ (t.core i.g.core).leaseReqs, e.1 = i.gid → e.2 = n ∧ n ≠ 0) ∧
      (∀ l, (t.core i.g.core).lease = some l → l.gid = i.gid → l.count = n ∧ n ≠ 0) ∧
      (n ≠ 0 → (i.gid, n) ∈ (t.core i.g.core).leaseReqs ∨ ∃ l, (t.core i.g.core).lease = some l ∧ l.gid = i.gid)) ∧
    (i.g.core % 2 = 0 → steady s i = true → traps s i = true →
      exec (.mleaseFol o) s = .next (s.entered i 6 i.sp.mask 0)) ∧
    (∀ (k : Block) (p : Nat) (v : Word), i.g.core % 2 = 1 → v = i.sp.get o.sa → v.toNat / 8 % 2 = 0 → v.toNat < 2 ^ 8 →
      s.blocks.get? i.g.bid = some k → k.tiles[v.toNat % 8]? = some p → s.mayName i.gid i.g.core (v.toNat / 16) = true →
      ∃ t : State, exec (.mleaseFol o) s = .next (t.goOn i i.g i.sp) ∧ t.groups = s.groups ∧
        (∀ b ∈ (t.core i.g.core).bondReqs, b.gid = i.gid → b = ⟨i.gid, i.g.ctx, n, p, v.toNat / 16⟩ ∧ n ≠ 0) ∧
        (∀ b, (t.core i.g.core).bond = some b → b.gid = i.gid → b = ⟨i.gid, i.g.ctx, n, p, v.toNat / 16⟩ ∧ n ≠ 0) ∧
        (n ≠ 0 → (⟨i.gid, i.g.ctx, n, p, v.toNat / 16⟩ : Bond) ∈ (t.core i.g.core).bondReqs ∨
          ∃ b, (t.core i.g.core).bond = some b ∧ b.gid = i.gid))

/-! ### Attention and the key-value cache (R85 to R105, R305 to R325) -/

/-- R85, R306, R307: `attn.brim` and `attn.brim.res` whose tile, slot, descriptor and work area pass their checks complete: they
are queued for the core's engine with their operands, as an operation of the open set of their class; the query slot is Engaged
with one more reader, and the split goes on. The first check that fails traps, and nothing is queued. -/
def Obligations.AttentionOperationsAreQueued : Prop :=
  ∀ (s : State) (i : Issue) (x : Instr) (o : YF) (res : Bool) (k : Block) (q p : Nat) (work : Word), steady s i = true →
    (x = .attnBrim o ∧ res = false) ∨ (x = .attnBrimRes o ∧ res = true) →
    s.blocks.get? i.g.bid = some k → q = o.code / 16 % 16 → work = i.sp.get (o.code / 256 % 64) →
    let on := (s.ctxReg i.g.ctx 0x120).getLsbD 0 = true
    let has := k.tiles[o.code % 8]? = some p
    let slot := s.mayName i.gid i.g.core q = true
    let trap := fun (c : Nat) (v : Word) => traps s i = true → exec x s = .next (s.entered i c i.sp.mask v)
    (on → has → slot → s.descCheck i.g (i.sp.get o.sa) = none → work.toNat % 8 = 0 →
      s.attnFull i.g.core = false → s.unperformed i.gid = false →
      ∃ t op g sp r, exec x s = .next t ∧
        (t.core i.g.core).attnQ = (s.core i.g.core).attnQ ++ [op] ∧ op.id = s.nextId ∧ op.gid = i.gid ∧
        op.core = i.g.core ∧ op.bid = i.g.bid ∧ op.ctx = i.g.ctx ∧
        op.tile = p ∧ op.slotQ = q ∧ op.desc = (i.sp.get o.sa).toNat ∧ op.work = work ∧
        op.resume = res ∧ (t.slotOf i.g.core q).st = .engaged ∧
        (t.slotOf i.g.core q).readers = (s.slotOf i.g.core q).readers + 1 ∧ t.main = s.main ∧ t.blocks = s.blocks ∧
        t.groups.get? i.gid = some g ∧ g.ops = [r] ∧ r.id = op.id ∧ r.cls = 2 ∧ r.batch = 0 ∧ r.done = false ∧
        g.v = i.g.v ∧ g.splits.get? i.sid = some sp ∧ sp.pc = i.sp.pc + 8 ∧ sp.s = i.sp.s) ∧
    (¬ on → trap 6 0) ∧
    (on → k.tiles[o.code % 8]? = none → trap 2 (BitVec.ofNat 64 (o.code % 8))) ∧
    (on → has → ¬ slot → trap 6 (BitVec.ofNat 64 q)) ∧
    (on → has → slot → ∀ c, s.descCheck i.g (i.sp.get o.sa) = some c → trap c (i.sp.get o.sa)) ∧
    (on → has → slot → s.descCheck i.g (i.sp.get o.sa) = none → work.toNat % 8 ≠ 0 → trap 3 work)

/-- The descriptor of a cache instruction has passed its checks and is `d` (R305, R307, R319). -/
def Sys2Proof.Machine.kvReady (s : State) (i : Issue) (off : Word) (d : Desc) : Prop :=
  (s.ctxReg i.g.ctx 0x120).getLsbD 0 = true ∧ s.descCheck i.g off = none ∧ s.unperformed i.gid = false ∧
  d = descOf (s.windowRead i.g off 64)

/-- The accesses that a cache instruction makes can be served at once: they stay in HBM, whose channels accept commands, and no
armed migration slot keeps them waiting (R69, R77, R81). -/
def Sys2Proof.Machine.kvServed (s : State) (i : Issue) (reads writes : List (Nat × Nat)) : Bool :=
  let ok := fun (write : Bool) (r : Nat × Nat) => s.kvReady i.g.core i.g.ctx .copy write r.1 r.2 &&
    (s.kvTier i.g.core i.g.ctx .copy write r.1 r.2).isEmpty
  reads.all (ok false) && writes.all (ok true)

/-- A cache instruction that makes these reads completes with a code, and writes nothing (R319). -/
def Sys2Proof.Machine.kvCodes (s : State) (i : Issue) (x : Instr) (sd : Nat) (reads : List (Nat × Nat)) (n : Nat) : Prop :=
  kvServed s i reads [] = true → ∃ u : State, u = s.kvTouch i.g.core i.g.ctx .copy [] reads ∧
    exec x s = .next (u.goOn i i.g (i.sp.put sd (BitVec.ofNat 64 n))) ∧ u.groups = s.groups ∧
    ((∀ k < 64, s.migState k ≠ 2) → u.main = s.main)

/-- A cache instruction that makes these reads completes with its writes, in their order, and a code (R94, R319). -/
def Sys2Proof.Machine.kvDoes (s : State) (i : Issue) (x : Instr) (sd : Nat) (reads : List (Nat × Nat))
    (ws : List (Nat × List Byte)) (n : Nat) : Prop :=
  kvServed s i reads (ws.map (fun w => (w.1, w.2.length))) = true → ∀ t,
    (s.kvTouch i.g.core i.g.ctx .copy [] reads).kvWrites i.g.core i.g.ctx [] ws = .ok t →
    exec x s = .next (t.goOn i i.g (i.sp.put sd (BitVec.ofNat 64 n)))

/-- R86, R103, R104, R318, R319, R325: on a cache of its own context `pgget` takes the frame inserted last, or posts a refill and
returns all ones from an empty one, and `pgput` inserts a frame number where the cache has room; a number that names no frame
traps with cause 0x04. That `pgget` leaves the bytes of the frame and its header as they are, which R103 calls undefined, is the
model's choice (log 115), as is the pull that a read of a migrated line makes (log 12). `kvmap` returns status 7 for a position at or past LENGTH, status 3 for one before WSTART, else the
entry of the position's page, or bit 63 and the cause where it cannot be read. -/
def Obligations.FrameCachesAndMapLookups : Prop :=
  (∀ (s : State) (i : Issue) (o : YF), steady s i = true → (s.ctxReg i.g.ctx 0x120).getLsbD 0 = true →
     (s.core i.g.core).frames.ctx = some i.g.ctx →
     let c := s.core i.g.core
     (∀ fs f, c.frames.frames = fs ++ [f] → exec (.pgget o) s = .next (State.goOn
       (s.setCore i.g.core { c with frames := { c.frames with frames := fs } }) i i.g (i.sp.put o.sd (BitVec.ofNat 64 f)))) ∧
     (c.frames.frames = [] → ∃ t : State, exec (.pgget o) s = .next (t.goOn i i.g (i.sp.put o.sd (BitVec.allOnes 64))) ∧
       (t.core i.g.core).frames.refill.isSome = true ∧ (t.core i.g.core).frames.frames = [] ∧ t.groups = s.groups) ∧
     ((i.sp.get o.sa).toNat < 0x0FFFFFFF → c.frames.frames.length < 32 → exec (.pgput o) s = .next (State.goOn
       (s.setCore i.g.core { c with frames := { c.frames with frames := c.frames.frames ++ [(i.sp.get o.sa).toNat] } })
       i i.g i.sp)) ∧
     (0x0FFFFFFF ≤ (i.sp.get o.sa).toNat → traps s i = true →
       exec (.pgput o) s = .next (s.entered i 4 i.sp.mask (i.sp.get o.sa)))) ∧
  (∀ (s : State) (i : Issue) (o : XF) (d : Desc) (reads : List (Nat × Nat)), steady s i = true →
     kvReady s i (i.sp.get (o.f3 % 64)) d →
     i.g.names o.f1 = true → i.g.names o.f2 = true → i.g.room o.sb →
     reads = (((lanesOf (i.guard o.p o.pn)).filter (fun l => decide ((i.g.v? o.f2 l).toNat % 2 ^ 32 < d.len) &&
       decide (d.wstart ≤ (i.g.v? o.f2 l).toNat % 2 ^ 32))).map
         (fun l => (d.mapb + 4 * ((i.g.v? o.f2 l).toNat % 2 ^ 32 / 64), 4))).eraseDups →
     kvServed s i reads [] = true →
     ∃ (t : State) (res : Nat → Word), t = s.kvTouch i.g.core i.g.ctx .copy [] reads ∧ exec (.kvmap o) s =
         .next (t.sendOn i o.f1 (i.guard o.p o.pn) (onLanes (i.guard o.p o.pn) res) 0 o.sb) ∧
       t.groups = s.groups ∧ ((∀ k < 64, s.migState k ≠ 2) → t.main = s.main) ∧ ∀ l, (i.guard o.p o.pn).getLsbD l = true →
         let p := (i.g.v? o.f2 l).toNat % 2 ^ 32
         (d.len ≤ p → res l = 0x70000000) ∧ (p < d.len → p < d.wstart → res l = 0x30000000) ∧
         (p < d.len → d.wstart ≤ p → ∀ bs, s.kvRead i.g.core i.g.ctx .copy (d.mapb + 4 * (p / 64)) 4 = .ok bs →
           res l = BitVec.ofNat 64 (leNat bs)) ∧
         (p < d.len → d.wstart ≤ p → ∀ e, s.kvRead i.g.core i.g.ctx .copy (d.mapb + 4 * (p / 64)) 4 = .error e →
           res l = BitVec.ofNat 64 (2 ^ 63 + e.cause)))

/-- R85, R86, R93 to R102, R319 to R324: `kvapp`, `kvreq`, `kvsum`, `kvlink` and `kvtrim` complete: each reads the entry of its
page, the header and the frame bytes it must, and returns the code of the first condition it fails, writing nothing, or
performs its writes in order and returns 0 or 1: an append, a rewrite of masked slots, an exact summary, a listed change of
status, a trim, which with `.ret` gives the frame of an owned page to the frame cache. With KVPOOL.EN clear each traps with
cause 0x06. -/
def Obligations.CacheInstructionsWriteOrReturnACode : Prop :=
  (∀ (s : State) (i : Issue) (o : YF), steady s i = true → (s.ctxReg i.g.ctx 0x120).getLsbD 0 = false → traps s i = true →
    ∀ x ∈ [Instr.kvapp o, .kvreq o, .kvsum o, .kvlink o, .kvtrim o, .pgget o, .pgput o],
      exec x s = .next (s.entered i 6 i.sp.mask 0)) ∧
  (∀ (s : State) (i : Issue) (o : YF) (d : Desc) (a1 a2 a3 k e : Nat) (bs hb : List Byte) (h : PageHdr), steady s i = true →
    kvReady s i (i.sp.get o.sa) d → d.inRange = true → a1 = (i.sp.get (o.sa + 1)).toNat →
    a2 = (i.sp.get (o.sa + 2)).toNat → a3 = (i.sp.get (o.sa + 3)).toNat →
    s.kvRead i.g.core i.g.ctx .copy (d.mapb + 4 * k) 4 = .ok bs → e = leNat bs →
    let st := e / 2 ^ 28 % 16
    let f := e % 2 ^ 28
    let ctx := i.g.ctx
    let read := s.kvRead i.g.core i.g.ctx .copy
    let ent := (d.mapb + 4 * k, 4)
    let hdr := (s.headerVa ctx f, 1024)
    let keys := s.frameVa ctx f
    let headed := read hdr.1 1024 = .ok hb ∧ h = hdrOf hb
    -- append, of page k, slot j, record rec, spare a3
    (a1 < 2 ^ 24 → a3 < 2 ^ 28 → k = a1 / 64 → s.stagingCheck i.g (i.sp.get (o.sa + 2)) 264 = none →
      ∀ rec j v, rec = s.windowRead i.g (i.sp.get (o.sa + 2)) 264 → j = a1 % 64 → v = min h.valid (d.len - 64 * k) →
      let code := kvCodes s i (.kvapp o) o.sd
      let does := kvDoes s i (.kvapp o) o.sd
      (a1 < d.wstart → code [] 8) ∧
      (d.wstart ≤ a1 → badRecord rec = true → code [] 5) ∧
      (d.wstart ≤ a1 → badRecord rec = false →
        (st = 3 ∨ st = 4 ∨ st = 5 ∨ 8 ≤ st → code [ent] 3) ∧
        (st ≤ 1 ∨ st = 6 → headed → h.malformed k = true → code [ent, hdr] 9) ∧
        (st ≤ 1 → headed → h.malformed k = false →
          (h.valid < j → code [ent, hdr] 4) ∧
          (j < h.valid → ∀ key, read (keys + 128 * j) 128 = .ok key →
            (badKey key h.ks j = true → code [ent, hdr, (keys + 128 * j, 128)] 5) ∧
            (badKey key h.ks j = false →
              does [ent, hdr, (keys + 128 * j, 128)] (s.rewriteWrites ctx f h [(j, key, rec)]) 0)) ∧
          (h.valid = j → does [ent, hdr] (s.appendWrites ctx f k j h.pairs rec) (if f = a3 then 1 else 0))) ∧
        (st = 6 → headed → h.malformed k = false →
          (j ≠ v → code [ent, hdr] 4) ∧
          (j = v → ∀ ks vs, read keys (128 * v) = .ok ks → read (keys + 0x2000) (128 * v) = .ok vs →
            (badKeys ks h.ks v = true → code [ent, hdr, (keys, 128 * v)] 5) ∧
            (badKeys ks h.ks v = false → a3 = 0x0FFFFFFF → code [ent, hdr, (keys, 128 * v)] 2) ∧
            (badKeys ks h.ks v = false → a3 ≠ 0x0FFFFFFF →
              does [ent, hdr, (keys, 128 * v), (keys + 0x2000, 128 * v)]
                (s.shareWrites ctx a3 k v d h ks vs ++
                  s.appendWrites ctx a3 k v (shownPairs (exactBox ks h.ks v) (pageWord v k)) rec) 1))) ∧
        (st = 2 ∨ st = 7 →
          let add := fun (n : Nat) => s.freshWrites ctx n k d ++
            s.appendWrites ctx n k 0 (shownPairs (List.replicate 128 (0, 0)) (pageWord 0 k)) rec
          (j ≠ 0 → code [ent] 4) ∧
          (j = 0 → st = 7 → f ≠ 0x0FFFFFFF → does [ent] (add f) 0) ∧
          (j = 0 → ¬ (st = 7 ∧ f ≠ 0x0FFFFFFF) → (a3 = 0x0FFFFFFF → code [ent] 2) ∧
            (a3 ≠ 0x0FFFFFFF → does [ent] (add a3) 1))))) ∧
    -- rewrite of the masked slots of page k
    (a1 < 2 ^ 18 → k = a1 → ∀ slots recs, slots = maskSlots (i.sp.get (o.sa + 3)) →
      recs = (List.range slots.length).map (fun n => s.windowRead i.g (i.sp.get (o.sa + 2) + BitVec.ofNat 64 (264 * n)) 264) →
      s.stagingCheck i.g (i.sp.get (o.sa + 2)) (264 * slots.length) = none →
      let code := kvCodes s i (.kvreq o) o.sd
      (1 < st → code [ent] 3) ∧
      (st ≤ 1 → headed → (h.malformed k = true → code [ent, hdr] 9) ∧
        (h.malformed k = false → slots = [] → code [ent, hdr] 0) ∧
        (h.malformed k = false → (∃ j ∈ slots, h.valid ≤ j) → code [ent, hdr] 6) ∧
        (h.malformed k = false → slots ≠ [] → (∀ j ∈ slots, j < h.valid) →
          (recs.any badRecord = true → code [ent, hdr] 5) ∧
          (recs.any badRecord = false → ∀ key : Nat → List Byte,
            (∀ j ∈ slots, read (keys + 128 * j) 128 = .ok (key j)) →
            let reads := [ent, hdr] ++ slots.map (fun j => (keys + 128 * j, 128))
            ((∃ j ∈ slots, badKey (key j) h.ks j = true) → code reads 5) ∧
            ((∀ j ∈ slots, badKey (key j) h.ks j = false) → kvDoes s i (.kvreq o) o.sd reads
              (s.rewriteWrites ctx f h (slots.zip ((slots.map key).zip recs))) 0))))) ∧
    -- exact summary of page k
    (a1 < 2 ^ 18 → k = a1 →
      let code := kvCodes s i (.kvsum o) o.sd
      (1 < st → code [ent] 3) ∧
      (st ≤ 1 → headed → (h.malformed k = true → code [ent, hdr] 9) ∧
        (h.malformed k = false → ∀ ks, read keys (128 * h.valid) = .ok ks →
          (badKeys ks h.ks h.valid = true → code [ent, hdr, (keys, 128 * h.valid)] 5) ∧
          (badKeys ks h.ks h.valid = false → kvDoes s i (.kvsum o) o.sd [ent, hdr, (keys, 128 * h.valid)]
            [(s.headerVa ctx f, summaryBytes (exactBox ks h.ks h.valid) h.order)] 0)))) ∧
    -- change of the status of page k
    (a1 < 2 ^ 18 → k = a1 → a2 < 2 ^ 28 →
      let new := o.code % 8
      let given := st = 4 ∨ st = 5 ∨ new = 6
      let zero := new = 2 ∨ new = 3
      let code := kvCodes s i (.kvlink o) o.sd
      (linkListed st new = false → code [ent] 7) ∧
      (linkListed st new = true →
        (¬ zero → ¬ given → a2 ≠ f → code [ent] 7) ∧
        (zero ∨ given ∨ a2 = f → new = 7 → 64 * k < d.len → code [ent] 8) ∧
        (zero ∨ given ∨ a2 = f → ¬ (new = 7 ∧ 64 * k < d.len) → ∀ g, (zero → g = 0) → (¬ zero → given → g = a2) →
          (¬ zero → ¬ given → g = f) → kvDoes s i (.kvlink o) o.sd [ent] [(d.mapb + 4 * k, leBytes 4 (new * 2 ^ 28 + g))] 0))) ∧
    -- trim of page k
    (a1 < 2 ^ 18 → k = a1 →
      let code := kvCodes s i (.kvtrim o) o.sd
      let trimmed := [(d.mapb + 4 * k, leBytes 4 (3 * 2 ^ 28))]
      (d.wstart < 64 * k + 64 → code [ent] 8) ∧
      (64 * k + 64 ≤ d.wstart → (st = 3 → code [ent] 0) ∧
        (st = 2 ∨ st = 4 ∨ st = 5 ∨ 7 ≤ st → code [ent] 3) ∧
        (st = 6 ∨ (st ≤ 1 ∧ o.code % 2 = 0) → kvDoes s i (.kvtrim o) o.sd [ent] trimmed 0) ∧
        (st ≤ 1 → o.code % 2 = 1 → (s.core i.g.core).frames.ctx = some ctx → (s.core i.g.core).frames.frames.length < 32 →
          kvServed s i [ent] [ent] = true → ∀ t, (s.kvTouch i.g.core ctx .copy [] [ent]).kvWrites i.g.core ctx [] trimmed = .ok t →
          exec (.kvtrim o) s = .next (State.goOn (t.modCore i.g.core (fun c =>
            { c with frames := { c.frames with frames := c.frames.frames ++ [f] } })) i i.g
              (i.sp.put o.sd 1))))))

/-! ### Benches, the journal, and the generator (R327 to R340) -/

/-- The bench instructions, with their operation. -/
def Sys2Proof.Machine.benchRule (x : Instr) : Option (BenchOp × YF) :=
  match x with
  | .bdep o => some (.dep, o)
  | .bcpy o => some (.cpy, o)
  | .btak o => some (.tak, o)
  | _ => none

/-- R328: the die and the slice that home a tag under a region descriptor. -/
def Sys2Proof.Machine.homes (desc : Word) (tag die slice : Nat) : Prop :=
  let ks := (List.range 24).filter (fun k => desc.getLsbD (24 + k))
  die = desc.toNat / 2 ^ 56 % 4 ∧ ks[tag * 0x6F4B2D35 % 2 ^ 32 / 2 ^ 16 % ks.length]? = some slice

/-- R328 to R330, R332: a bench instruction whose region is usable and whose tag is not reserved sends its request to
the slice that homes the tag and waits; the reply reaches its scalars and it goes on. An unusable region traps with cause
0x04, a reserved tag with cause 0x06, a full table with cause 0x14, and nothing is sent. -/
def Obligations.BenchRequestsAreCheckedSentAndAnswered : Prop :=
  ∀ (s u : State) (i : Issue) (o : YF) (x : Instr) (op : BenchOp) (r tag die k : Nat), calm s i = true →
    benchRule x = some (op, o) → r = o.code % 16 → tag = (i.sp.get o.sa).toNat % 2 ^ 32 →
    u = (if op = .dep then s.wbDrainAll i.g.core else s) →
    let home := homes (s.ctxReg i.g.ctx (0x110 + r)) tag die k
    let gated := op = .dep ∧ o.code / 2 ^ 15 % 2 = 1
    (i.sp.wait = .none → s.retSlots i.g.core < 128 →
      (s.benchUsable i.g.ctx r = false → traps s i = true →
        exec x s = .next (s.entered i 4 i.sp.mask (BitVec.ofNat 64 r))) ∧
      (s.benchUsable i.g.ctx r = true → 0xFFFF0000 ≤ tag → traps s i = true →
        exec x s = .next (s.entered i 6 i.sp.mask (BitVec.ofNat 64 tag))) ∧
      (s.benchUsable i.g.ctx r = true → tag < 0xFFFF0000 → home → s.unperformed i.gid = false →
        (gated → i.g.armed = false ∧ s.journalOn i.g.ctx = true) →
        ∃ (t : State) (q : BenchReq), exec x s = .next t ∧
          t.groups = s.groups.set i.gid { i.g with splits := i.g.splits.set i.sid { i.sp with
            wait := .bench u.nextId (op != .dep) o.sd none, awake := false } } ∧
          (t.slice die k).all = (u.slice die k).all ++ [.bench q] ∧ t.main = s.main ∧
          q.id = u.nextId ∧ q.op = op ∧ q.ctx = i.g.ctx ∧ q.region = r ∧ q.tag = tag ∧ q.who = .split i.gid i.sid ∧
          q.poll = decide (o.code / 128 % 2 = 1) ∧ q.mask = (if op = .dep then 0 else o.code / 256 % 128) ∧
          (gated → q.gate = some (i.sp.get (o.code / 2 ^ 16 % 64)).toNat) ∧ (¬ gated → q.gate = none) ∧
          (op = .dep → q.fields.length = o.code / 16 % 8) ∧
          ∀ f, (op = .dep ∧ f < o.code / 16 % 8) ∨ (op ≠ .dep ∧ f < 7 ∧ (o.code / 256 % 128).testBit f = true) →
            q.fields[f]? = some (i.sp.get (o.sa + 1 + f)))) ∧
    (∀ (id sd : Nat) (got : Bool) (st : Word) (fs : List Word),
      i.sp.wait = .bench id got sd (some (some (st :: fs))) → fs.length = 7 →
      ∃ sp : Split, exec x s = .next (s.goOn i i.g sp) ∧ { sp with s := i.sp.s } = i.sp ∧ sp.get sd = st ∧
        (∀ f w, got = true → fs[f]? = some w → sp.get (sd + 1 + f) = w) ∧
        ∀ n, n ≠ sd → (got = true → n < sd ∨ sd + 7 < n) → sp.get n = i.sp.get n) ∧
    (∀ (id sd : Nat) (got : Bool), i.sp.wait = .bench id got sd (some none) → home → traps s i = true →
      exec x s = .next (s.entered i 0x14 i.sp.mask (BitVec.ofNat 64 (r + k * 256))))

/-- What `jrec` finds in order: a 64-byte header at an aligned window offset, a routing length of at most 1,024, zero
reserved bytes, and the whole record within bounds (R336). -/
def Sys2Proof.Machine.staged (s : State) (i : Issue) (off : Word) (n : Nat) : Prop :=
  let hdr := s.windowRead i.g off 64
  let field := fun (a k : Nat) => leNat ((hdr.drop a).take k)
  off.toNat % 64 = 0 ∧ 0 ≤ off.toInt ∧ off.toInt + 64 + n ≤ s.extent i.g .spd ∧
  s.inSpan i.g.ctx (dieOf i.g.core) (s.spBase i.g.ctx (dieOf i.g.core) + off.toNat) 64 = false ∧
  s.inSpan i.g.ctx (dieOf i.g.core) (s.spBase i.g.ctx (dieOf i.g.core) + off.toNat) (64 + n) = false ∧
  field 0xC 2 = n ∧ n ≤ 1024 ∧ field 0xE 2 = 0 ∧ field 0x30 16 = 0

/-- R333, R335 to R338: `jrec` numbers the staged record, keeps it in the local buffer, at the head of its ring, and sends it to a
bound partner; `jack` returns ACKED; `jtrunc` marks the acknowledged records of a sequence and returns how many it newly marked, and records are
reclaimed in number order. An armed partner loss, a journal that is not enabled, and a full buffer trap with cause 0x15. The place
of the record's bytes in the buffer is the model's choice (log 64), as is that `jtrunc` acts with the journal off (log 66). -/
def Obligations.JournalRecordsAreNumberedKeptAndTruncated : Prop :=
  ∀ (s : State) (i : Issue) (o : YF) (off : Word) (n sq upto acked : Nat) (jr : Journal), steady s i = true →
    off = i.sp.get o.sa → jr = (s.ctx i.g.ctx).journal → acked = (s.ctxReg i.g.ctx 0x168).toNat % 2 ^ 48 →
    sq = (i.sp.get o.sa).toNat % 2 ^ 32 → upto = (i.sp.get (o.sa + 1)).toNat →
    let sub := fun k => BitVec.ofNat 64 (k * 2 ^ 60 + acked)
    let room := s.jbufUsed i.g.ctx + (64 + n + 63) / 64 * 64 ≤ s.jbufBytes i.g.ctx
    let refused := fun x : Instr => (i.g.armed = true → traps s i = true →
        exec x s = .next (s.entered { i with g := { i.g with armed := false } } 0x15 i.sp.mask (sub 0))) ∧
      (i.g.armed = false → s.journalOn i.g.ctx = false → traps s i = true →
        exec x s = .next (s.entered i 0x15 i.sp.mask (sub 2)))
    (staged s i off n → s.unperformed i.gid = false → refused (.jrec o) ∧
      (i.g.armed = false → s.journalOn i.g.ctx = true → jr.made + 1 < 2 ^ 48 →
      (¬ room → traps s i = true → exec (.jrec o) s = .next (s.entered i 0x15 i.sp.mask (sub 1))) ∧
      (room → s.memOpen = true → let bs := s.windowRead i.g off (64 + n)
        exec (.jrec o) s = .next (State.goOn ((s.bufferPut i.g.ctx jr.head bs).setJournal i.g.ctx { jr with
          made := jr.made + 1, head := (jr.head + (64 + n + 63) / 64 * 64) % s.jbufBytes i.g.ctx
          recs := jr.recs ++ [⟨jr.made + 1, bs, false⟩]
          sent := if s.jstate i.g.ctx = 2 then jr.sent else jr.sent ++ [jr.made + 1] })
        i i.g (i.sp.put o.sd (BitVec.ofNat 64 (jr.made + 1))))))) ∧
    refused (.jack o) ∧ (i.g.armed = false → s.journalOn i.g.ctx = true →
      exec (.jack o) s = .next (s.goOn i i.g (i.sp.put o.sd (BitVec.ofNat 64 acked)))) ∧
    (let newly := fun r : JRec => r.truncated = false ∧ leNat (r.bytes.take 4) = sq ∧ r.num ≤ upto ∧ r.num ≤ acked
      ∃ gone recs : List JRec, exec (.jtrunc o) s = .next (State.goOn (s.setJournal i.g.ctx { jr with recs := recs })
          i i.g (i.sp.put o.sd (BitVec.ofNat 64 (jr.recs.filter (fun r => newly r)).length))) ∧
        jr.recs.map (fun r => if newly r then { r with truncated := true } else r) = gone ++ recs ∧
        (∀ r ∈ gone, r.truncated = true ∧ r.num ≤ acked) ∧
        ∀ r, recs.head? = some r → ¬ (r.truncated = true ∧ r.num ≤ acked))

/-- A round of Philox4x32 (R340). -/
def Sys2Proof.Machine.roundRule (c : Fin 4 → Nat) (k0 k1 : Nat) : Fin 4 → Nat
  | 0 => Nat.xor (Nat.xor (0xCD9E8D57 * c 2 / 2 ^ 32) (c 1)) k0
  | 1 => 0xCD9E8D57 * c 2 % 2 ^ 32
  | 2 => Nat.xor (Nat.xor (0xD2511F53 * c 0 / 2 ^ 32) (c 3)) k1
  | 3 => 0xD2511F53 * c 0 % 2 ^ 32

/-- Counter words after `n` rounds: before round `i` the key has risen `i` times (R340). -/
def Sys2Proof.Machine.philoxRule (c : Fin 4 → Nat) (k0 k1 : Nat) : Nat → Fin 4 → Nat
  | 0 => c
  | n + 1 => roundRule (philoxRule c k0 k1 n) ((k0 + n * 0x9E3779B9) % 2 ^ 32) ((k1 + n * 0xBB67AE85) % 2 ^ 32)

/-- R340: `rngc` sends to VD and VD + 1, in each guarded lane, the four words of ten rounds of Philox over the counter in
VA and VA + 1 under the key in SA; it sets no flag. Under one key, different counters give different words (derived). -/
def Obligations.CounterBasedRandomWords : Prop :=
  ∀ (s : State) (i : Issue) (o : XF) (key : Word), steady s i = true → key = i.sp.get o.sa → o.f1 + 1 < i.g.nregs →
    o.f2 + 1 < i.g.nregs → i.g.room o.sb → i.g.nregs ≤ 1536 →
    ∃ res res' : Nat → Word, exec (.rngc o) s = .next (s.sendRun i [o.f1, o.f1 + 1] (i.guard o.p o.pn)
        ((onLanes (i.guard o.p o.pn) res).map (fun e => (vkey o.f1 e.1, e.2)) ++
          (onLanes (i.guard o.p o.pn) res').map (fun e => (vkey (o.f1 + 1) e.1, e.2))) 0 o.sb) ∧
      (∀ l, (i.guard o.p o.pn).getLsbD l = true →
        let half := fun (w : Word) (h : Nat) => w.toNat / 2 ^ (32 * h) % 2 ^ 32
        let x := philoxRule (fun e => half (i.g.v? (if e < 2 then o.f2 else o.f2 + 1) l) (e % 2)) (half key 0) (half key 1) 10
        half (res l) 0 = x 0 ∧ half (res l) 1 = x 1 ∧ half (res' l) 0 = x 2 ∧ half (res' l) 1 = x 3) ∧
      ∀ l m, (i.guard o.p o.pn).getLsbD l = true → (i.guard o.p o.pn).getLsbD m = true →
        res l = res m → res' l = res' m → i.g.v? o.f2 l = i.g.v? o.f2 m ∧ i.g.v? (o.f2 + 1) l = i.g.v? (o.f2 + 1) m

/-! ### Spawns and child grids (R153, R230 to R233) -/

/-- R139, R153, R230 to R233: `spawn` enters an item for each guarded lane, in lane order, into the core's queue, which the packing
unit empties into its bins; `glaunch` from group slot 0 below depth 10 makes a Pending grid with the lowest free id, or
returns all ones where 4,096 are live; `gwait` waits while the child lives, and an id that names none goes on. -/
def Obligations.SpawnsAndChildGrids : Prop :=
  ∀ (s : State) (i : Issue), steady s i = true →
    (∀ (o : XF) (items : List SpawnItem), i.g.names o.f2 = true → i.g.names (o.f2 + 1) = true →
      items = ((List.range 32).filter (i.guard o.p o.pn).getLsbD).map (fun l =>
        ⟨i.sp.get o.sa, i.g.v? o.f2 l, i.g.v? (o.f2 + 1) l, i.g.bid, s.time⟩) →
      ((i.sp.get o.sa).toNat % 8 ≠ 0 → traps s i = true →
        exec (.spawn o) s = .next (s.entered i 3 i.sp.mask (i.sp.get o.sa))) ∧
      ((i.sp.get o.sa).toNat % 8 = 0 → ∀ b, s.blocks.get? i.g.bid = some b →
        (b.packedSlots = 0 → traps s i = true → exec (.spawn o) s = .next (s.entered i 6 i.sp.mask 0)) ∧
        (b.packedSlots ≠ 0 → (s.core i.g.core).spawned + items.length ≤ 2048 →
          exec (.spawn o) s = .next (State.goOn (s.setCore i.g.core
            { s.core i.g.core with spawnQ := (s.core i.g.core).spawnQ ++ items }.pack) i i.g i.sp)))) ∧
    (∀ (o : YF) (va : Word), va = i.sp.get o.sa →
      (i.g.slot ≠ 0 → traps s i = true → exec (.glaunch o) s = .next (s.entered i 6 i.sp.mask 0)) ∧
      (i.g.slot = 0 → 10 ≤ s.depthOf i.g → traps s i = true →
        exec (.glaunch o) s = .next (s.entered i 0x17 i.sp.mask 10)) ∧
      (i.g.slot = 0 → s.depthOf i.g < 10 → va.toNat < 2 ^ 52 → va.toNat % 8 = 0 → s.unperformed i.gid = false →
        ∀ (u : State) (r : List Byte) (ps : List Word) (reads : List (Nat × Nat)),
        s.kvRead i.g.core i.g.ctx .copy va.toNat 64 = .ok r → reads = [(va.toNat, 64), paramRange r] →
        kvServed s i reads [] = true → u = s.kvTouch i.g.core i.g.ctx .copy [] reads → u.launchParams i.g r = .ok ps →
        recordBad r = none →
        let mine := s.grids.filter (fun e => e.2.ctx == i.g.ctx)
        let field := fun (a k : Nat) => leNat ((r.drop a).take k)
        (4096 ≤ mine.length → exec (.glaunch o) s = .next (u.goOn i i.g (i.sp.put o.sd (BitVec.allOnes 64)))) ∧
        (∀ id, mine.length < 4096 → (∀ e ∈ mine, e.2.id ≠ id) → (∀ k < id, ∃ e ∈ mine, e.2.id = k) →
          ∃ (t : State) (c : Grid), exec (.glaunch o) s = .next (t.goOn i i.g (i.sp.put o.sd (BitVec.ofNat 64 id))) ∧
            t.groups = s.groups ∧ ((∀ k < 64, s.migState k ≠ 2) → t.main = s.main) ∧
            t.grids = s.grids.set s.nextId c ∧ c.ctx = i.g.ctx ∧ c.id = id ∧
            c.depth = s.depthOf i.g + 1 ∧ c.parent = some i.g.grid ∧ c.st = .pending ∧ c.params = ps ∧
            c.entry = BitVec.ofNat 64 (field 0 8) ∧ c.gx = field 0x10 4 ∧ c.gy = field 0x14 2 ∧ c.gz = field 0x16 2 ∧
            c.config = BitVec.ofNat 64 (field 0x18 8) ∧ c.next = 0 ∧ c.retired = 0))) ∧
    (∀ o : YF,
      let child := fun e : Nat × Grid => e.2.ctx = i.g.ctx ∧ e.2.id = (i.sp.get o.sa).toNat ∧ e.2.parent = some i.g.grid
      ((∀ e ∈ s.grids, ¬ child e) → exec (.gwait o) s = .next (s.goOn i i.g i.sp)) ∧
      ((∃ e ∈ s.grids, child e) → ∃ e ∈ s.grids, child e ∧ exec (.gwait o) s = .next (s.setGroup i.gid { i.g with
        splits := i.g.splits.set i.sid { i.sp with wait := .gwait e.1, awake := false } })))

/-! ### Traps (R234, R235, R343 to R346, R364) -/

/-- R234, R343 to R346, R364: `trap` enters the handler with cause 0x12 and its code, and `brk` with cause 0x11 or, under a debugger,
halts its split there; with TRAPVEC.EN clear, or in a handler, the trap ends the context and fills TERMREP. `eret` outside
a handler traps with cause 0x06; in one it restores lanes, FMT, condition codes and `s60` to `s63` from the shadow, clears
HND and resumes at TRAPE, TRAPI, or past TRAPI where that is no clause header. -/
def Obligations.TrapsEnterEndOrReturn : Prop :=
  ∀ (s : State) (i : Issue) (o : YF) (x : Word), steady s i = true → x = BitVec.ofNat 64 (o.code % 65536) →
    (traps s i = true → exec (.trap o) s = .next (s.entered i 0x12 i.sp.mask x) ∧
      ((s.ctx i.g.ctx).attached = false → exec (.brk o) s = .next (s.entered i 0x11 i.sp.mask x))) ∧
    ((s.ctx i.g.ctx).attached = true → ∃ sp : Split,
      exec (.brk o) s = .next (s.setGroup i.gid { i.g with splits := i.g.splits.set i.sid sp }) ∧
      sp.halted = true ∧ sp.pc = i.sp.pc ∧ sp.trap.cause = 0x11 ∧ sp.trap.pend = 0 ∧ sp.trap.trapi = i.sp.pc ∧
      sp.trap.trapx = x ∧ sp.trap.hnd = i.sp.trap.hnd ∧ sp.mask = i.sp.mask ∧ sp.s = i.sp.s) ∧
    (i.sp.trap.hnd = true ∨ (s.ctxReg i.g.ctx 0x161).getLsbD 63 = false → ∃ t : State,
      exec (.trap o) s = .next t ∧ t.groups.get? i.gid = none ∧ (t.ctxReg i.g.ctx 0x16C).getLsbD 63 = true ∧
      bits (t.ctxReg i.g.ctx 0x16C) 0 8 = 0x12 ∧
      bits (t.ctxReg i.g.ctx 0x16C) 8 4 = (if i.sp.trap.hnd then 1 else 0) ∧
      t.ctxReg i.g.ctx 0x16D = i.sp.pc ∧ t.ctxReg i.g.ctx 0x16E = x ∧ t.main = s.main) ∧
    (i.sp.trap.hnd = false → traps s i = true → exec (.eret o) s = .next (s.entered i 6 i.sp.mask 0)) ∧
    (∀ (h : Shadow) (a b c d : Word), i.sp.trap.hnd = true → i.sp.shadow = some h → h.scalars = [a, b, c, d] →
      h.barrier = none → (∀ e ∈ i.g.splits, e.1 ≠ i.sid → e.2.mask &&& h.mask = 0) →
      ∃ sp : Split, exec (.eret o) s = .next (s.setGroup i.gid { i.g with splits := i.g.splits.set i.sid sp }) ∧
        sp.mask = h.mask ||| i.sp.mask ∧ sp.fmt = h.fmt ∧ sp.cc = h.cc ∧ sp.shadow = none ∧ sp.wait = .none ∧
        sp.trap = { i.sp.trap with hnd := false } ∧ sp.code = [] ∧
        sp.get 60 = a ∧ sp.get 61 = b ∧ sp.get 62 = c ∧ sp.get 63 = d ∧ (∀ k < 60, sp.get k = i.sp.get k) ∧
        (o.code = 0 → sp.pc = i.sp.trap.trape) ∧ (o.code = 1 → sp.pc = i.sp.trap.trapi) ∧
        (∀ w, o.code = 2 → s.fetch i.g.core i.g.ctx i.sp.trap.trapi = .ok w →
          sp.pc = if (Decode.header w.toNat).isSome then i.sp.trap.trapi else i.sp.trap.trapi + 8))

/-! ### Encoding and decoding (R177 to R193) -/

/-- R177, R180, R192: encoding fills the fields that decoding reads: every well-formed instruction of a program has a
word, which decodes to it with its switch marker; and a word that decodes gives a well-formed instruction whose word it
is, so that no bit of it is ignored. -/
def Obligations.DecodeReadsWhatEncodeWrites : Prop :=
  (∀ (sw : Bool) (x : Instr), x.wf = true → (Decode.opcode x).isSome = true → ∃ w, Decode.encode sw x = some w ∧
    w < 2 ^ 64 ∧ Decode.decode w = .ok (sw, x)) ∧
  (∀ (sw : Bool) (x : Instr) (w : Nat), w < 2 ^ 64 → Decode.decode w = .ok (sw, x) →
    x.wf = true ∧ Decode.encode sw x = some w)

/-- Words of the spec's worked examples decode to the instructions they are given for (R180, R251, R267, R274, R300,
R306, R322, R329): the example of the encoding chapter, a branch with the switch marker, and one word of other
families; 0x209E000000000000 has an unassigned minor. -/
def Obligations.SpecWordsDecodeToTheirInstructions : Prop :=
  Decode.decode 0x4018140280100321 = .ok (false, .vfma .f32 ⟨5, 0, 10, 2, 3, 1, 1⟩) ∧
  Decode.decode 0x90005A000FFFFFFE = .ok (true, .br ⟨2, 3, 1, 0, 0, 0xFFFFFFE⟩) ∧
  Decode.decode 0x010020800000000A = .ok (false, .saddi ⟨4, 4, 10⟩) ∧
  Decode.decode 0x2404000080040000 = .ok (false, .vbcast ⟨0, 0, 2, 0, 32, 0⟩) ∧
  Decode.decode 0x5000000A00601E03 = .ok (false, .vcvt ⟨0, 0, 40, 12, 30, 0, 3⟩) ∧
  Decode.decode 0xE00E040280388008 = .ok (true, .vgth ⟨1, 0, 10, 7, 4, 0, 0, 0, 0, 2, 0⟩) ∧
  Decode.decode 0x6D00000000008000 = .ok (false, .bar ⟨0, 0, 0, 0, 4, 0, 0, 0, 0, 0, 0⟩) ∧
  Decode.decode 0x7800008000000521 = .ok (false, .attnBrim ⟨0, 4, 0x521⟩) ∧
  Decode.decode 0x7804398000000000 = .ok (false, .kvapp ⟨7, 12, 0⟩) ∧
  Decode.decode 0x7A00114000148020 = .ok (false, .bdep ⟨2, 10, 0x148020⟩) ∧
  Decode.decode 0x7D00000000000D0D = .ok (false, .trap ⟨0, 0, 0xD0D⟩) ∧
  Decode.decode 0x209E000000000000 = .error 2

/-! ### The machine (R164, R165, R193) -/

/-- R179, R193: with no event scheduled, the split whose turn it is issues the next word of its clause: the instruction that the
word decodes to at its place is executed, the split and its group get a new ready time where its clause ends (R164), the scheduler
lets go of a split that its instruction has suspended (R165), and an illegal word traps with cause 0x01 and its REASON. A scheduled
event is the step, and needs no split. What became ready in a step has the cycle as its ready time (`State.retime`). That a scheduled
event is a step is the model's choice (log 4), as are whose turn it is (log 5) and where `withFetchWord` places a word (log 10). -/
def Obligations.StepRunsTheDecodedInstruction : Prop :=
  (∀ (s : State) (i : Issue) (w : Word) (rest : List Word), s.agenda = [] → s.issuer = some i → i.sp.able = true →
    s.groupAble i.g = true → i.sp.code = w :: rest →
    (∀ (sw : Bool) (x : Instr), Decode.decodeAt i.sp.cls rest.isEmpty w.toNat = .ok (sw, x) →
      (∀ t, exec x (s.tick 0) = .next t → step s = .next (t.afterIssue i sw).retime ∧
        (sw = false → i.sp.stepping = false → t.afterIssue i sw = (t.modGroup i.gid (fun g =>
          match g.splits.get? i.sid with
          | some sp => if sp.code = [] then { g with
              readySince := t.time, splits := g.splits.set i.sid { sp with readyTime := max t.time sp.readyTime } } else g
          | none => { g with readySince := t.time })).letGo i)) ∧
      (∀ f, exec x (s.tick 0) = .fault f → step s = .fault f)) ∧
    (∀ r, Decode.decodeAt i.sp.cls rest.isEmpty w.toNat = .error r → steady (s.tick 0) i = true → traps s i = true →
      step s = .next ((s.tick 0).entered i 1 i.sp.mask (BitVec.ofNat 64 r)).retime)) ∧
  (∀ (s : State) (e : Scheduled) (rest : List Scheduled), s.agenda = e :: rest →
    step s = mapNext State.retime (exec e.event { s.tick e.delay with agenda := rest })) ∧
  (∀ (s : State) (w : Nat) (sw : Bool) (x : Instr), w < 2 ^ 64 → Decode.decode w = .ok (sw, x) →
    (s.withFetchWord 64 w).agenda = [] ∧ ∃ i, (s.withFetchWord 64 w).issuer = some i ∧ i.sp.code = [BitVec.ofNat 64 w] ∧
      i.sp.able = true ∧ (s.withFetchWord 64 w).groupAble i.g = true ∧
      Decode.decodeAt i.sp.cls true w = .ok (sw, x))

/-- Main memory keeps its canonical form in every step, so that memories that hold the same bytes are equal data (a
property of the model; R2 to R5 give the bytes). -/
def Obligations.StepKeepsMemoryCanonical : Prop :=
  ∀ s t : State, Inv s → step s = .next t → Inv t

/-- The registers whose reset value is not 0 (R62, R64, R66, R67, R78, R333, R378): context registers, then package
registers, by their numbers. -/
def Sys2Proof.Machine.resetTable (pkg : Bool) (n : Nat) : Word :=
  if pkg then
    if n = 0x000 then 0xFFF01020408
    else if n = 0x001 then 0x4645C55
    else if n = 0x006 then 0x30000000000
    else if 0x010 ≤ n ∧ n ≤ 0x01B then 0x101
    else if 0x030 ≤ n ∧ n ≤ 0x031 then 50000
    else 0
  else if n = 0x122 then 0xFFF400080010
  else if n = 0x167 then 100000
  else 0

/-- After reset every register of every context and of the package reads its reset value, every host bench port shows
DONE, no group, block, grid, copy or request exists, and the first step answers a next state. That memory which nothing has
written reads 0, and that registers without a stated reset value start at 0, is the model's choice (log 1, 2). -/
def Obligations.ResetLeavesTheStatedValues : Prop :=
  Inv State.reset ∧ (∀ c n, State.reset.ctxReg c n = resetTable false n) ∧
  (∀ n, State.reset.pkgReg n = resetTable true n) ∧ State.reset.groups = [] ∧ State.reset.blocks = [] ∧
  State.reset.grids = [] ∧ State.reset.copies = [] ∧ State.reset.requests = [] ∧
  (∀ c r, (((State.reset.ctx c).ports.getD r HostPort.init).reply).getLsbD 63 = true) ∧
  (∀ pa, State.reset.main.read pa = 0) ∧ step State.reset = .next { State.reset with time := 1, fresh := 1 }

/-! ### Events of schedulers, results and groups (R46, R51, R149, R153, R154, R164 to R168) -/

/-- Nothing is due at the boundaries of a group: as `poised`, for a group that need not be issuing. -/
def Sys2Proof.Machine.atRest (s : State) (g : Group) : Prop :=
  g.recs = [] ∧ g.deferred = [] ∧ g.status = .running ∧ s.parity = [] ∧
  (∀ e ∈ g.splits, e.2.haltReq = false ∧ e.2.watchdog = none ∧ e.2.pendTrap = none ∧ e.2.restartPend = false ∧
    e.2.parked = false ∧ e.2.stepping = false) ∧
  ∀ b, s.blocks.get? g.bid = some b → b.rolling = false ∧ b.checkpoint = none

/-- `s` with split `sid` of group `gid`, which is `g`, replaced. -/
def Sys2Proof.Machine.State.withSplit (s : State) (gid sid : Nat) (g : Group) (sp : Split) : State :=
  s.setGroup gid { g with splits := g.splits.set sid sp }

/-- R26, R46, R51, R56, R164, R165, R167, R168, R178: every one of these events completes. A scheduler whose turn it is picks a ready
split of its quadrant: of an aged group where there is one, else of a group of the highest priority, and of these of the group
that has been ready longest; the split enters its clause, or traps where its fetch faults or is no header. A hold that has
cleared makes its split ready; a result that no check holds back writes its registers, flags and slot count; a reply reaches the
split that waits for it; and a write-buffer entry drains to its home slice. -/
def Obligations.SchedulerAndResultEvents : Prop :=
  (∀ (s : State) (core q n gid sid : Nat) (g : Group) (sp : Split) (w : Word), n = core * 4 + q → s.sched.get? n = none →
    (s.pick n = none → exec (.groupPick core q) s = .next { s with turn := n, sched := s.sched.erase n }) ∧
    (s.pick n = some (gid, sid) → s.split? gid sid = some (g, sp) →
      let s' : State := { s with turn := n, sched := s.sched.set n (gid, sid) }
      let calmly := atRest s g ∧ g.outs = [] ∧ sp.wait = .none ∧ traps s ⟨gid, sid, g, sp⟩ = true
      (sp.code ≠ [] → exec (.groupPick core q) s = .next s') ∧
      (∀ e, sp.code = [] → calmly → s'.fetch g.core g.ctx sp.pc = .error e →
        exec (.groupPick core q) s = .next (State.entered (if isPoisonX e.cause e.x then s'.poisonLog g.core e.x else s')
          ⟨gid, sid, g, sp⟩ e.cause sp.mask e.x)) ∧
      (sp.code = [] → s'.fetch g.core g.ctx sp.pc = .ok w →
        (∀ count cls wait ws, Decode.header w.toNat = some (count, cls, wait) →
          let u := s'.fetchTouch g.core g.ctx sp.pc.toNat (8 * (count + 2))
          u.fetchWords g.core g.ctx (sp.pc + 8) (count + 1) = .ok ws → exec (.groupPick core q) s =
            .next (u.withSplit gid sid g { sp with hdr := sp.pc, pc := sp.pc + 8, code := ws, cls := cls, mid := false })) ∧
        (Decode.header w.toNat = none → sp.mid = false → calmly →
          exec (.groupPick core q) s = .next (s'.entered ⟨gid, sid, g, sp⟩ 1 sp.mask 6)))) ∧
    (s.pick n = some (gid, sid) → ∃ e ∈ s.groups, e.1 = gid ∧ e.2.schedNo = n ∧
      (∃ p, s.pickSplit e.2 = some p ∧ p.1 = sid ∧ s.ready e.2 p.2 = true) ∧
      let rival := fun f : Nat × Group => f ∈ s.groups ∧ f.2.schedNo = n ∧ (s.pickSplit f.2).isSome = true
      let aged := fun f : Nat × Group => 64 ≤ s.time - f.2.readySince
      let key := fun f : Nat × Group => f.2.readySince * 4096 + f.2.order
      ((∃ f, rival f ∧ aged f) → aged e ∧ ∀ f, rival f → aged f → key e ≤ key f) ∧
      ((∀ f, rival f → ¬ aged f) → ∀ f, rival f → f.2.pri ≤ e.2.pri ∧ (f.2.pri = e.2.pri → key e ≤ key f)))) ∧
  (∀ (s : State) (gid sid n : Nat) (g : Group) (sp : Split), s.split? gid sid = some (g, sp) → sp.wait = .hold n →
    exec (.holdClear gid sid) s = .next (s.withSplit gid sid g { sp with awake := true, readyTime := s.time })) ∧
  (∀ (s : State) (gid k : Nat) (g : Group) (p : Pend), s.groups.get? gid = some g → atRest s g → g.ops = [] →
    g.outs[k]? = some p → p.need = 0 → p.undef = 0 → p.checks = [] → (p.data.map (fun e => e.1)).Nodup →
    ∃ t h, exec (.resultWriteback gid k) s = .next t ∧ t.groups.get? gid = some h ∧ t.main = s.main ∧
      h.outs = g.outs.filter (fun r => r.id != p.id) ∧ h.gst = g.gst ||| p.flags ∧ h.p = g.p ∧
      (∀ e ∈ p.data, h.v.get? e.1 = some e.2) ∧
      (∀ key, (∀ e ∈ p.data, e.1 ≠ key) → h.v.get? key = g.v.get? key) ∧
      ∀ slot, h.sb.getD slot 0 = if p.sb = some slot then g.sb.getD slot 0 - 1 else g.sb.getD slot 0) ∧
  (∀ (s : State) (core k gid sid : Nat) (g : Group) (sp : Split), s.split? gid sid = some (g, sp) → atRest s g →
    let c := s.core core
    let u := s.setCore core { c with replies := c.replies.eraseIdx k }
    (∀ id n got sd ws, c.replies[k]? = some (.bench gid sid id ws n) → sp.wait = .bench id got sd none →
      exec (.returnSlotReply core k) s = .next (u.withSplit gid sid g
        { sp with wait := .bench id got sd (some ws), awake := true, readyTime := s.time })) ∧
    (∀ b sd ret, c.replies[k]? = some (.wmon gid sid ret) → sp.wait = .wmon b sd none →
      exec (.returnSlotReply core k) s = .next (u.withSplit gid sid g
        { sp with wait := .wmon b sd (some ret), awake := true, readyTime := s.time })) ∧
    (∀ p l w, c.replies[k]? = some (.atomic gid p.id [(l, w)]) → g.outs = [p] →
      exec (.returnSlotReply core k) s = .next (u.setGroup gid { g with outs := [{ p with
        data := p.regs.foldl (fun d r => Sparse.set d (vkey r l) w) p.data, need := p.need - 1 }] }))) ∧
  (∀ (s : State) (core k : Nat) (e : WbEntry), s.parity = [] → (s.core core).wbuf[k]? = some e →
    (e.bytes.map (fun b => b.1)).Nodup →
    ∃ t : State, exec (.wbDrainTimeout core k) s = .next t ∧ (t.core core).wbuf = (s.core core).wbuf.eraseIdx k ∧
      t.main = s.main ∧ (∀ b ∈ e.bytes, (t.die (dieOf core)).scratch.read (e.line + b.1) = b.2) ∧
      ∀ a, (∀ b ∈ e.bytes, a ≠ e.line + b.1) →
        (t.die (dieOf core)).scratch.read a = (s.die (dieOf core)).scratch.read a)

/-- R132, R149, R153 to R155, R275, R348: every one of these events completes. A group without lanes, results or operations ends, one
of a task-graph node once its atomics have been performed; a `spawn` that has held for room to its limit enters its items, or
traps with cause 0x16 where there is no room; a bin forms a packed group where its oldest item has waited or its block's groups
all wait, and a group of a block that is not evicted starts in the lowest free packed-group slot with its items' payloads in
`v0` and `v1`; and a watched barrier phase past its limit gives each split that waits on it cause 0x0D, those of a group that is
evicted or is being saved or restored when it is back. The model's choices here are what counts as held by the spawn queue (log 17),
that the limit of a held `spawn` counts from the first hold for room (log 82), and that of the free packed-group slots the lowest is
taken. -/
def Obligations.GroupAndSpawnEvents : Prop :=
  (∀ (s : State) (gid : Nat) (g : Group), s.groups.get? gid = some g → g.status ≠ .evicted → g.handler = none →
    (∀ b, s.blocks.get? g.bid = some b → b.evicting = false) →
    ((g.splits ≠ [] ∨ g.outs ≠ []) → exec (.groupEnd gid) s = .next s) ∧
    (g.splits = [] → g.outs = [] → g.ops = [] → s.nodeGroup g = false ∨ (s.unperformed gid = false ∧ s.memOpen = true) →
      ∃ t : State, exec (.groupEnd gid) s = .next t ∧ t.groups.get? gid = none ∧
      (s.nodeGroup g = false → (∃ e ∈ s.groups, e.1 ≠ gid ∧ e.2.bid = g.bid) → t.blocks = s.blocks ∧ t.main = s.main ∧
        ∀ k, k ≠ gid → t.groups.get? k = s.groups.get? k))) ∧
  (∀ (s : State) (gid sid since : Nat) (g : Group) (sp : Split) (o : XF) (i : Issue) (sw : Bool), s.split? gid sid = some (g, sp) →
    atRest s g → g.outs = [] → i = ⟨gid, sid, g, sp⟩ → (∃ n, sp.wait = .hold n) → sp.roomSince = some since →
    sp.awake = false → sp.halted = false → sp.heldWord = some (sw, .spawn o) → g.names o.f2 = true → g.names (o.f2 + 1) = true → (i.sp.get o.sa).toNat % 8 = 0 →
    (∃ b, s.blocks.get? g.bid = some b ∧ b.packedSlots ≠ 0) → traps s i = true →
    let items := ((List.range 32).filter (i.guard o.p o.pn).getLsbD).map (fun l =>
      (⟨i.sp.get o.sa, g.v? o.f2 l, g.v? (o.f2 + 1) l, g.bid, s.time⟩ : SpawnItem))
    (s.time - since < 4096 → exec (.spawnHoldTimeout gid sid) s = .next s) ∧
    (4096 ≤ s.time - since → (s.core g.core).spawned + items.length ≤ 2048 → ∃ t : State,
      exec (.spawnHoldTimeout gid sid) s = .next t ∧
      t.core g.core = { s.core g.core with spawnQ := (s.core g.core).spawnQ ++ items }.pack) ∧
    (4096 ≤ s.time - since → 2048 < (s.core g.core).spawned + items.length →
      exec (.spawnHoldTimeout gid sid) s =
        .next ((s.entered i 0x16 (i.guard o.p o.pn) (BitVec.ofNat 64 (2048 - (s.core g.core).spawned))).afterIssue i sw))) ∧
  (∀ (s : State) (core k : Nat) (b : Formed) (x : SpawnItem), (s.core core).bins[k]? = some b → b.items.head? = some x →
    let c := s.core core
    (1024 ≤ s.time - x.time ∨ (∀ e ∈ s.groups, e.2.bid = b.bid → e.2.splits ≠ [] ∧ ∀ f ∈ e.2.splits, f.2.awake = false ∧
        ((∃ n, f.2.wait = .gwait n) ∨ ∃ off ph on bar, f.2.wait = .barrier off ph on bar)) →
      exec (.spawnBinTimeout core k) s =
        .next (s.setCore core { c with bins := c.bins.eraseIdx k, formed := c.formed ++ [b] })) ∧
    (s.time - x.time < 1024 → (∃ e ∈ s.groups, e.2.bid = b.bid ∧ ∃ f ∈ e.2.splits, f.2.wait = .none) →
      exec (.spawnBinTimeout core k) s = .next s)) ∧
  (∀ (s : State) (core slot : Nat) (b : Formed) (rest : List Formed) (k : Block), (s.core core).formed = b :: rest →
    s.blocks.get? b.bid = some k → k.evicted = false → k.evicting = false → k.statics ≤ slot → slot < k.statics + k.packedSlots →
    (∀ e ∈ s.groups, e.2.bid = b.bid → e.2.slot ≠ slot) →
    (∀ n, k.statics ≤ n → n < slot → ∃ e ∈ s.groups, e.2.bid = b.bid ∧ e.2.slot = n) → b.items.length ≤ 32 →
    ∃ t g sp, exec (.packedGroupStart core) s = .next t ∧ t.groups.get? s.nextId = some g ∧ g.bid = b.bid ∧
      g.slot = slot ∧ g.core = k.core ∧ g.packed = true ∧ g.splits = [(0, sp)] ∧ sp.pc = b.pc ∧ sp.region = b.pc ∧
      (t.core core).formed = rest ∧
      ∀ l, sp.mask.getLsbD l = decide (l < b.items.length) ∧
        ∀ x, b.items[l]? = some x → g.v? 0 l = x.w0 ∧ g.v? 1 l = x.w1) ∧
  (∀ (s : State) (core k : Nat) (w : Watch), (s.core core).watch[k]? = some w →
    (s.time - w.start < w.limit → exec (.barrierWatchdogExpire core k) s = .next s) ∧
    (∀ gid g, w.limit ≤ s.time - w.start → s.groupsOf w.bid = [(gid, g)] → s.groups.get? gid = some g →
      g.status = .saving ∨ g.status = .evicted → ∃ t h x, exec (.barrierWatchdogExpire core k) s = .next t ∧
      t.groups.get? gid = some h ∧ h.splits = g.splits ∧
      h.lateDogs = g.lateDogs ++ [(w.off, barPhase (s.barWord w.bid w.off), x)]) ∧
    (∀ gid g sp ph bar b, w.limit ≤ s.time - w.start → s.groups.get? gid = some g → s.groupsOf w.bid = [(gid, g)] →
      s.blocks.get? w.bid = some b → ph = barPhase (s.barWord w.bid w.off) → atRest s g → g.outs = [] → g.splits = [(0, sp)] → sp.halted = false →
      sp.wait = .barrier w.off ph true bar → sp.awake = false → traps s ⟨gid, 0, g, sp⟩ = true →
      ∃ t h sp', exec (.barrierWatchdogExpire core k) s = .next t ∧ t.groups.get? gid = some h ∧
        h.splits = [(0, sp')] ∧ sp'.trap.cause = 0x0D ∧ sp'.trap.hnd = true ∧ sp'.trap.trapi = sp.pc ∧
        sp'.pc = BitVec.ofNat 64 (bits (s.ctxReg g.ctx 0x161) 3 49 * 8) ∧
        (∀ word, word = (s.barWord w.bid w.off).toNat → sp'.trap.trapx = BitVec.ofNat 64
          ((if (word / 2 ^ 32 % 2 ^ 16).testBit g.slot then 0 else 2 ^ g.slot) * 2 ^ 48 +
            word / 2 ^ 16 % 2 ^ 16 * 2 ^ 32 + w.off % 2 ^ 32)) ∧
        ∀ e ∈ (t.core b.core).watch, ¬ (e.bid = w.bid ∧ e.off = w.off)))

/-! ### Events of placement, eviction and task graphs (R156 to R162, R172, R174, R357, R380) -/

/-- R34, R141, R156 to R162, R172, R174, R357, R380, R384: every one of these events completes. The distributor places the next block of a
grid on the permitted core with the most free registers, each group slot in its run of a quadrant, and its static groups start
at the entry with the parameters from `s32` on; a starved grid has a core kept for it that is kept for no other; a waiting grid
evicts; a group that fits its core again is restored by its handler, a block evicted whole on the core chosen for it; a used-up
slice is noted; TGOBJ takes its writable bits while its slot holds no kick, TGKICK queues a kick or answers it with a CODE, the
oldest kick starts a replay or ends with the CODE and NODE of its first error, and a node whose completion word has reached PREDS
launches its grid; without a service image a kick starts nothing (R384). The model's choices here are which core is kept for a starved
block (log 95) and that the block may still take another (log 122), from when the next block of a grid waits (log 121), which of the
free runs of registers a group takes (log 129), that USED has risen to SLICE when a slice expires (log 24), and that a kick to a
terminated context is refused before the object register is looked at (log 71). -/
def Obligations.PlacementAndTaskGraphEvents : Prop :=
  (∀ (s : State) (die uid core : Nat) (g : Grid) (quads : List (Nat × Nat)),
    (s.placeNext die = none → exec (.blockPlace die) s = .next s) ∧
    (s.placeNext die = some (uid, g, core, quads) → s.grids.get? uid = some g → ∃ t b c,
      exec (.blockPlace die) s = .next t ∧ t.blocks.get? s.nextId = some b ∧ t.grids.get? uid = some c ∧
      b.grid = uid ∧ b.ctx = g.ctx ∧ b.core = core ∧ b.limit = 2 ^ 24 ∧
      b.quads = quads.map (fun q => q.1) ∧ b.bases = quads.map (fun q => q.2) ∧
      b.x = g.next % g.gx ∧ b.y = g.next / g.gx % g.gy ∧ b.z = g.next / (g.gx * g.gy) ∧
      c.next = g.next + 1 ∧ c.st = (if g.st = .pending then .running else g.st) ∧ c.reserved = none ∧
      dieOf core = die ∧ s.permitted g.ctx core = true ∧ s.fits core (shapeOf g.config) = some quads ∧
      (∀ k < 96, s.coreOpen uid g k = true → (s.fits k (shapeOf g.config)).isSome = true →
        s.freeRegs k ≤ s.freeRegs core) ∧
      ∀ k < (shapeOf g.config).statics, ∃ h sp, t.groups.get? (s.nextId + 1 + k) = some h ∧ h.bid = s.nextId ∧
        h.slot = k ∧ h.core = core ∧ h.ctx = g.ctx ∧ h.status = .running ∧ h.splits = [(0, sp)] ∧ sp.pc = g.entry ∧
        sp.region = g.entry ∧ sp.mask = allLanes ∧ sp.fmt = 0x38 ∧ ∀ n v, g.params[n]? = some v → sp.get (32 + n) = v)) ∧
  (∀ (s : State) (uid : Nat) (g : Grid), s.grids.get? uid = some g →
    let fit := fun k => if s.permitted g.ctx k ∧ (∀ e ∈ s.grids, e.1 ≠ uid → e.2.reserved ≠ some k) then s.releases k (shapeOf g.config) ((s.blocksOn k).map (fun e => e.1)) else none
    (s.time - g.waitSince < 2 ^ 20 → exec (.placementStarvation uid) s = .next s) ∧
    (∀ k n, g.next < g.total → 2 ^ 20 ≤ s.time - g.waitSince → s.coreFor uid g = none → g.reserved = none → k < 96 →
      fit k = some n → ∃ k' n', k' < 96 ∧ fit k' = some n' ∧ n' ≤ n ∧
        exec (.placementStarvation uid) s = .next { s with grids := s.grids.set uid { g with reserved := some k' } }) ∧
    (s.time - g.waitSince < 4096 → exec (.evictionSelect uid) s = .next s) ∧
    (s.evictPlan uid g = none → exec (.evictionSelect uid) s = .next s) ∧
    (∀ core vs t c, s.evictDue uid g = true → s.evictPlan uid g = some (core, vs, t) → t.grids.get? uid = some c →
      exec (.evictionSelect uid) s = .next ((vs.flatMap (fun v => v.gids)).foldl (fun u gid => State.settle u gid)
        { t with grids := t.grids.set uid { c with
          reserved := some core, evictedFor := c.evictedFor ++ vs.flatMap (fun v => v.gids) } }))) ∧
  (∀ (s : State) (core gid stage : Nat) (g : Group) (h : Handler) (bs : List Byte) (ks : List Nat),
    (s.restoreNext core = none → exec (.groupRestore core) s = .next s) ∧
    (s.restoreNext core = some (gid, none) → s.groups.get? gid = some g → g.saved = some h →
      s.readCtx g.ctx (h.recordVa + 0x30) 2 = .ok bs → s.recordSlots g.ctx h.recordVa = .ok ks →
      s.freeStage g.ctx (dieOf g.core) = some stage → (s.ctxReg g.ctx 0x161).getLsbD 63 = true →
      ∃ t k sp, exec (.groupRestore core) s = .next t ∧ t.groups.get? gid = some k ∧ k.status = .saving ∧
        k.splits = [(0, sp)] ∧ sp.mask = allLanes ∧ sp.fmt = 0x38 ∧ sp.trap.hnd = true ∧
        sp.trap.cause = BitVec.ofNat 8 h.cause ∧ sp.pc = BitVec.ofNat 64 (bits (s.ctxReg g.ctx 0x161) 3 49 * 8) ∧
        sp.get 59 = BitVec.ofNat 64 (leNat bs) ∧ sp.get 60 = BitVec.ofNat 64 (s.stageOffset g.ctx stage) ∧
        sp.get 61 = BitVec.ofNat 64 h.recordVa ∧ (∀ l < 32, k.v? 0 l = BitVec.ofNat 64 (8 * l)) ∧
        ∀ n ∈ ks, (t.slotOf g.core n).st = .claimed ∧ (t.slotOf g.core n).owner = gid) ∧
    (∀ quads b u, s.restoreNext core = some (gid, some quads) → s.groups.get? gid = some g → s.blocks.get? g.bid = some b →
      s.restoreBlock g.bid core b quads = .ok u → exec (.groupRestore core) s = .next (u.restoreGroup gid) ∧
        ∃ b', u.blocks.get? g.bid = some b' ∧ b'.core = core ∧ b'.evicted = false ∧ b'.quads = quads.map (fun q => q.1) ∧
        b'.bases = quads.map (fun q => q.2))) ∧
  (∀ (s : State) (ctx : Nat), let w := s.ctxReg ctx 0x16B
    (bits w 0 32 = 0 → exec (.timeSliceExpire ctx) s = .next s) ∧
    (bits w 0 32 ≠ 0 → s.resident ctx = true → (∃ e ∈ s.pendingGrids, e.2.ctx ≠ ctx) →
      (∀ e ∈ s.pendingGrids, s.time - e.2.waitSince < 4096) →
      exec (.timeSliceExpire ctx) s = .next (s.setCtxReg ctx 0x16B (setBits w 32 32 (max (bits w 0 32) (bits w 32 32)))))) ∧
  (∀ (s : State) (ctx slot : Nat) (v : Word), slot < 16 → s.responds ctx = true →
    ((s.tgSlot ctx slot).kicks = [] → exec (.tgobjWrite ctx slot v) s =
      .next (s.setCtxReg ctx (0x130 + slot) (v &&& 0x800FFFFFFFFFFFC0))) ∧
    ((s.tgSlot ctx slot).kicks ≠ [] → exec (.tgobjWrite ctx slot v) s = .next s) ∧
    (v.toNat / 2 ^ 60 = slot → ∃ t : State, exec (.kick ctx v) s = .next t ∧ t.main = s.main ∧ t.groups = s.groups ∧
      let x := s.tgSlot ctx slot
      let stat := t.ctxReg ctx (tgstat slot)
      let refused := fun code => (t.tgSlot ctx slot) = x ∧ stat.getLsbD 63 = true ∧ bits stat 58 4 = code
      let dead := (s.ctxReg ctx 0x16C).getLsbD 63
      let on := (s.ctxReg ctx (0x130 + slot)).getLsbD 63
      let image := (s.pkgReg 5).getLsbD 2 = false
      (¬ image → (t.tgSlot ctx slot) = x ∧ stat = s.ctxReg ctx (tgstat slot)) ∧
      (image → dead = true → refused 5) ∧ (image → dead = false → on = false → refused 1) ∧
      (image → dead = false → on = true → x.kicks.length < 4 → (t.tgSlot ctx slot).kicks = x.kicks ++ [v &&& 0x000FFFFFFFFFFFF0] ∧
        (t.tgSlot ctx slot).replay = x.replay ∧ bits stat 53 3 = x.kicks.length + 1) ∧
      (image → dead = false → on = true → 4 ≤ x.kicks.length → (t.tgSlot ctx slot) = x ∧ stat.getLsbD 62 = true))) ∧
  (∀ (s : State) (ctx slot obj : Nat) (k : Word) (ks : List Word), (s.tgSlot ctx slot) = ⟨k :: ks, none⟩ →
    s.memOpen = true → obj = bits (s.ctxReg ctx (0x130 + slot)) 6 46 * 64 → (s.ctxReg ctx 0x16C).getLsbD 63 = false →
    let ended := fun (e : ReplayBad) => ∃ t : State, exec (.replayStart ctx slot) s = .next t ∧
      (t.tgSlot ctx slot) = ⟨ks, none⟩ ∧ (t.ctxReg ctx (tgstat slot)).getLsbD 63 = true ∧
      bits (t.ctxReg ctx (tgstat slot)) 58 4 = e.code % 16 ∧ bits (t.ctxReg ctx (tgstat slot)) 42 11 = e.node % 2048
    (∀ t r, s.prepare ctx obj k.toNat = (t, .ok r) → exec (.replayStart ctx slot) s =
      .next (t.setTgSlot ctx slot ⟨k :: ks, some r⟩)) ∧
    (∀ t e, s.prepare ctx obj k.toNat = (t, .error e) → e.code ≠ 0 → ended e) ∧
    (∀ h, s.readCtx ctx obj 64 = .ok h → (fieldAt h 0 4 = 0 ∨ 1024 < fieldAt h 0 4) → ended ⟨2, 0x7FF⟩) ∧
    (∀ e, s.readCtx ctx obj 64 = .error e → ended ⟨4, 0x7FF⟩)) ∧
  (∀ (s : State) (ctx slot node id : Nat) (r : Replay) (n : Node) (bs : List Byte),
    (s.tgSlot ctx slot).replay = some r → r.nodes[node]? = some n → n.started = false →
    s.readCtx ctx (completionAt r.obj node) 8 = .ok bs → s.freeGridId ctx = some id → s.memOpen = true →
    (leNat bs ≠ fieldAt n.image 0x48 2 → exec (.nodeStart ctx slot node) s = .next s) ∧
    (leNat bs = fieldAt n.image 0x48 2 → ∃ (t : State) (g : Grid), exec (.nodeStart ctx slot node) s = .next t ∧
      t.grids = s.grids.set s.nextId g ∧ g.ctx = ctx ∧ g.id = id ∧ g.depth = 1 ∧ g.parent = none ∧
      g.node = some (slot, node) ∧ g.st = .pending ∧ g.params = n.params ∧
      g.entry = BitVec.ofNat 64 (fieldAt n.image 0 8) ∧ ((∀ k < 64, s.migState k ≠ 2) → t.main = s.main) ∧
      t.groups = s.groups ∧
      (t.tgSlot ctx slot).kicks = (s.tgSlot ctx slot).kicks ∧
      ∃ r', (t.tgSlot ctx slot).replay = some r' ∧ r'.obj = r.obj ∧ r'.nodes[node]? = some { n with started := true } ∧
        ∀ m, m ≠ node → r'.nodes[m]? = r.nodes[m]?))

/-! ### Events of service groups, benches, frame caches and journals (R49, R50, R103 to R105, R134, R331 to R337, R379) -/

/-- The reply to a bench request (R329): ST, NF and seven fields. -/
def Sys2Proof.Machine.answered (r : BenchReq) (gid sid st : Nat) (fields : List Word) : Reply :=
  .bench gid sid r.id (some (BitVec.ofNat 64 (st * 2 ^ 62 + fields.length) ::
    (List.range 7).map (fun k => fields.getD k 0))) 0

/-- R49, R50, R331, R332: every one of these events completes. A service group takes the head of its queue, into which the oldest
request that the die network held back then moves. A `wmon` check replies 0, arms, or replies 2; an atomic
changes its element and replies with the old value; a deposit is stored, taken by a parked take, refused or parked; a copy or
take finds the oldest match, or is refused or parked; a withdraw removes an unserved request. The model's choices here are that the
reply of a miss has zero fields (log 22) and that deposits park within the 256 entries of the table too (log 23). -/
def Obligations.ServiceGroupEvents : Prop :=
  (∀ (s : State) (die k gid sid : Nat) (g : Group) (rest : List SvcReq), s.groups.get? gid = some g → s.parity = [] →
    (∀ a n e, (s.slice die k).queue = .wmon gid sid a n e :: rest → ∃ t : State,
      exec (.serviceGroupExec die k) s = .next t ∧ (t.slice die k).all = rest ++ (s.slice die k).net ∧ t.groups = s.groups ∧
      (leNat (s.sliceRead die a n) ≠ e.toNat → (t.slice die k).monitors = (s.slice die k).monitors ∧
        (t.core g.core).replies = (s.core g.core).replies ++ [.wmon gid sid 0]) ∧
      (leNat (s.sliceRead die a n) = e.toNat → (s.slice die k).parked.length + (s.slice die k).monitors.length < 256 →
        (t.slice die k).monitors = (s.slice die k).monitors ++ [⟨a, n, 0, gid, sid⟩] ∧ t.cores = s.cores) ∧
      (leNat (s.sliceRead die a n) = e.toNat → 256 ≤ (s.slice die k).parked.length + (s.slice die k).monitors.length →
        (t.core g.core).replies = (s.core g.core).replies ++ [.wmon gid sid 2])) ∧
    (∀ core pc p op e old, (s.slice die k).queue = .atomic core gid sid pc (some p) op [e] :: rest → atRest s g →
      s.spdOpen die e.addr op.size = false → old = (s.die die).scratch.readN e.addr op.size → ∃ t : State,
      exec (.serviceGroupExec die k) s = .next t ∧ (t.slice die k).all = rest ++ (s.slice die k).net ∧ t.main = s.main ∧
      (t.die die).scratch.readN e.addr op.size =
        atomVal op old (e.b.toNat % 2 ^ (8 * op.size)) (e.cmp.toNat % 2 ^ (8 * op.size)) % 2 ^ (8 * op.size) ∧
      Reply.atomic gid p [(e.lane, BitVec.ofNat 64 old)] ∈ (t.core g.core).replies ∧
      ∀ a, a < e.addr ∨ e.addr + op.size ≤ a → (t.die die).scratch.read a = (s.die die).scratch.read a)) ∧
  (∀ (s : State) (die k gid sid : Nat) (g : Group) (r : BenchReq) (rest : List SvcReq) (z x : Slice),
    s.groups.get? gid = some g → z = s.slice die k → z.queue = .bench r :: rest →
    x = { z with queue := rest ++ z.net.take 1, net := z.net.drop 1 } → r.who = .split gid sid →
    ∃ t : State, exec (.benchServe die k) s = .next t ∧ t.groups = s.groups ∧ t.main = s.main ∧
      let y := t.slice die k
      let replied := fun q => (t.core g.core).replies = (s.core g.core).replies ++ [q]
      let meets := fun u : Tuple => u.ctx = r.ctx ∧ u.region = r.region ∧ r.matches u.tag u.fields = true
      let kept := y = x
      let parks := x.parked.length + x.monitors.length < 256 → y = { x with parked := x.parked ++ [r] }
      let full := 256 ≤ x.parked.length + x.monitors.length →
        kept ∧ replied (.bench gid sid r.id none (BitVec.ofNat 64 (r.region + k * 256)))
      (r.op = .dep → r.gate = none → x.parked = [] →
        (s.hasPlace die k r.ctx r.region = true →
          y = { x with tuples := x.tuples ++ [⟨r.ctx, r.region, r.tag, r.fields, x.counter⟩]
                       counter := x.counter + 1 } ∧ replied (answered r gid sid 0 [])) ∧
        (s.hasPlace die k r.ctx r.region = false → (r.poll = true → kept ∧ replied (answered r gid sid 2 [])) ∧
          (r.poll = false → parks ∧ full))) ∧
      (r.op = .dep → r.gate = none → ∀ p gid' sid' g', x.parked = [p] → p.ctx = r.ctx → p.region = r.region →
        p.op = .tak → p.matches r.tag r.fields = true → p.who = .split gid' sid' → s.groups.get? gid' = some g' →
        y = { x with parked := [] } ∧ answered p gid' sid' 0 r.fields ∈ (t.core g'.core).replies ∧
          answered r gid sid 0 [] ∈ (t.core g.core).replies) ∧
      (r.op ≠ .dep → x.parked = [] → ∀ u ∈ x.tuples, meets u → (∀ v ∈ x.tuples, meets v → v ≠ u → u.age < v.age) →
        replied (answered r gid sid 0 u.fields) ∧ (r.op = .cpy → kept) ∧
        (r.op = .tak → y = { x with tuples := x.tuples.filter (fun v => v ≠ u) })) ∧
      (r.op ≠ .dep → (∀ u ∈ x.tuples, ¬ meets u) → (r.poll = true → kept ∧ replied (answered r gid sid 1 [])) ∧
        (r.poll = false → parks ∧ full))) ∧
  (∀ (s : State) (d k gid sid : Nat) (g : Group) (sp : Split), s.split? gid sid = some (g, sp) →
    s.withdrawAt gid sid = some (d, k) → (∃ p ∈ (s.slice d k).parked, p.who = .split gid sid) →
    let u := (s.modSlice d k (fun x => { x with
        queue := x.queue.tail ++ x.net.take 1, net := x.net.drop 1 })).modSlice d k (fun x => { x with
      parked := x.parked.filter (fun p => p.who ≠ .split gid sid) })
    exec (.benchWithdraw gid sid) s =
      .next ((u.withSplit gid sid g { sp with wait := .none, awake := false, code := [], mid := true }).settle gid))

/-- R5, R103 to R105, R330, R379, R384: every one of these events completes. A write of request word 0 of a host bench port whose DONE is 1
clears DONE and sends a polling request to the slice that homes the tag, or is answered with ST 3; a foreman core sends one to a
usable region, and vector 0 tells of a deposit in the mailbox, where its firmware has not failed; a grant fills the frame cache of its
context; and a refused take for one is sent again. What a foreman core may send, fields of its own, polling, to any context, is the
model's reading (log 132). -/
def Obligations.HostBenchAndFrameEvents : Prop :=
  (∀ (s : State) (ctx r die k op : Nat) (w v : Word) (x : Instr) (p : HostPort), s.responds ctx = true → r < 16 →
    (op, x) ∈ [(0, Instr.hostBenchDeposit (.host ctx) r w), (1, .hostBenchCopy (.host ctx) r w), (2, .hostBenchTake (.host ctx) r w),
      (3, .hostBenchRefusedOp ctx r w)] → p = s.port ctx r → v = setBits w 0 2 op →
    (p.reply.getLsbD 63 = false → exec x s = .next s) ∧
    (p.reply.getLsbD 63 = true → s.hostRefuses ctx r v = true → exec x s =
      .next (s.setPort ctx r ⟨p.words.set 0 (v &&& 0xFFFFFFFF000077F3), BitVec.ofNat 64 (2 ^ 63 + 3 * 2 ^ 61), []⟩)) ∧
    (op = 3 → s.hostRefuses ctx r v = true) ∧
    (p.reply.getLsbD 63 = true → s.hostRefuses ctx r v = false → homes (s.ctxReg ctx (0x110 + r)) (bits w 32 32) die k →
      ∃ (t : State) (q : BenchReq), exec x s = .next t ∧ (t.port ctx r).reply = 0 ∧ t.groups = s.groups ∧
        (t.slice die k).all = (s.slice die k).all ++ [.bench q] ∧ q.who = .host ctx r ∧ q.poll = true ∧
        q.op = (if op = 0 then .dep else if op = 1 then .cpy else .tak) ∧ q.tag = bits w 32 32 ∧ q.ctx = ctx ∧
        q.region = r ∧ q.gate = none ∧ ∀ f, (op = 0 ∧ f < bits w 12 3) ∨ (op ≠ 0 ∧ f < 7 ∧ (bits w 4 7).testBit f = true) →
          q.fields[f]? = some (p.words.getD (f + 1) 0))) ∧
  (∀ (s : State) (ctx r die k : Nat) (w : Word) (fields : List Word) (op : BenchOp) (x : Instr),
    (op, x) ∈ [(.dep, Instr.hostBenchDeposit (.foreman ctx fields) r w), (.cpy, .hostBenchCopy (.foreman ctx fields) r w),
      (.tak, .hostBenchTake (.foreman ctx fields) r w)] →
    ((s.pkgReg 5).getLsbD 0 = true ∨ s.benchUsable ctx r = false → exec x s = .next s) ∧
    ((s.pkgReg 5).getLsbD 0 = false → s.benchUsable ctx r = true → homes (s.ctxReg ctx (0x110 + r)) (bits w 32 32) die k →
      ∃ (t : State) (q : BenchReq),
      exec x s = .next t ∧ t.groups = s.groups ∧ (t.slice die k).all = (s.slice die k).all ++ [.bench q] ∧
      t.msix = s.msix ++ (if op = .dep ∧ r = s.mailbox ctx then [⟨0, ctx⟩] else []) ∧ q.who = .foreman ∧ q.poll = true ∧
      q.op = op ∧ q.tag = bits w 32 32 ∧ q.ctx = ctx ∧ q.region = r ∧ q.gate = none ∧
      ∀ f, (op = .dep ∧ f < bits w 12 3) ∨ (op ≠ .dep ∧ f < 7 ∧ (bits w 4 7).testBit f = true) →
        q.fields[f]? = some (fields.getD f 0))) ∧
  (∀ (s : State) (core ctx : Nat) (fields : List Word) (rest : List (Nat × List Word)) (f : FrameCache) (fs : List Nat),
    f = (s.core core).frames → f.grants = (ctx, fields) :: rest → f.ctx = some ctx →
    fs = ((fields.take 7).filter (fun w => w.getLsbD 63)).map (fun w => w.toNat % 2 ^ 28) →
    f.frames.length + fs.length ≤ 32 → ∃ t : State, exec (.frameGrant core) s = .next t ∧
      (t.core core).frames = { f with frames := f.frames ++ fs, grants := rest, refill := none } ∧ t.groups = s.groups) ∧
  (∀ (s : State) (core ctx die k : Nat) (f : FrameCache), f = (s.core core).frames → f.refill = some ctx →
    ((f.taking = true ∨ f.grants ≠ []) → exec (.grantTakeRetry core) s = .next s) ∧
    (f.taking = false → f.grants = [] → s.benchUsable ctx (s.mailbox ctx) = true →
      homes (s.ctxReg ctx (0x110 + s.mailbox ctx)) (0xFFFF0100 + core) die k → ∃ (t : State) (q : BenchReq),
        exec (.grantTakeRetry core) s = .next t ∧ (t.core core).frames = { f with taking := true } ∧
        (t.slice die k).all = (s.slice die k).all ++ [.bench q] ∧ q.op = .tak ∧ q.tag = 0xFFFF0100 + core ∧
        q.poll = false ∧ q.who = .frameCache core))

/-- R134, R333 to R337, R383: every one of these events completes. JCFG binds a partner and resends, or unbinds; JBUF restarts
numbering while nothing is bound or held; an acknowledgement raises ACKED, ends a resend and releases the deposits it reaches; silence
past JTO loses the partner, and so does its link; and the records of a context of another device are stored in order while the journal
region has room, acknowledged once stored and again when they come again, marked and reclaimed. The model's choices here are the places
of 64 bytes that records take in the journal region (log 133), that a partner is lost in state bound alone (log 67), what a new partner
holds (log 65), that a number already passed with another record begins a new numbering (log 147), and that a held deposit does not wait
for the rest of the suffix that is sent again (log 149). -/
def Obligations.JournalAndPartnerEvents : Prop :=
  (∀ (s : State) (ctx : Nat) (v : Word), let jr := (s.ctx ctx).journal
    let who := (bits v 54 2, bits v 32 16)
    (v.getLsbD 63 = false → exec (.jcfgBind ctx v) s = .next s) ∧
    (v.getLsbD 63 = true → exec (.jcfgDisable ctx v) s = .next s) ∧
    (v.getLsbD 63 = true → ∃ t : State, exec (.jcfgBind ctx v) s = .next t ∧ t.dies = s.dies ∧ t.groups = s.groups ∧
      t.ctxReg ctx 0x167 = v &&& 0x80C0FFFFFFFFFFFF ∧ t.acked ctx = s.acked ctx ∧
      t.jstate ctx = (if s.jstate ctx = 0 then (if bits (s.ctxReg ctx 0x166) 52 12 = 0 then 0 else 1)
        else if s.jstate ctx ≠ 2 ∧ jr.partner = some who then s.jstate ctx else 3) ∧
      (∀ r ∈ jr.recs, s.acked ctx < r.num → r ∈ (t.ctx ctx).journal.recs) ∧ (t.ctx ctx).journal.made = jr.made ∧
      (s.jstate ctx = 2 → (t.ctx ctx).journal.partner = some who ∧ ∀ r ∈ jr.recs, s.acked ctx < r.num →
        r.num ∈ (t.ctx ctx).journal.sent)) ∧
    (v.getLsbD 63 = false → ∃ t : State, exec (.jcfgDisable ctx v) s = .next t ∧ t.jstate ctx = 0 ∧
      t.ctxReg ctx 0x167 = v &&& 0x80C0FFFFFFFFFFFF ∧ (t.ctx ctx).journal = jr ∧ t.dies = s.dies ∧
      t.acked ctx = s.acked ctx) ∧
    (∃ t : State, exec (.jbufWrite ctx v) s = .next t ∧ t.ctxReg ctx 0x166 = v &&& 0xFFFFFFFFFFFF0000 ∧
      t.jstate ctx = s.jstate ctx ∧
      (s.jstate ctx = 0 → s.holdsGated ctx = false → t.acked ctx = 0 ∧ (t.ctx ctx).journal.made = 0 ∧
        (t.ctx ctx).journal.recs = []) ∧
      (s.jstate ctx ≠ 0 ∨ s.holdsGated ctx = true → t.acked ctx = s.acked ctx ∧ (t.ctx ctx).journal = jr))) ∧
  (∀ (s : State) (ctx dev n : Nat), let jr := (s.ctx ctx).journal
    (s.fromPartner ctx dev = false → exec (.journalAck ctx dev n) s = .next s ∧
      exec (.partnerIdleMessage ctx dev) s = .next s) ∧
    (s.fromPartner ctx dev = true →
      exec (.partnerIdleMessage ctx dev) s = .next (s.setJournal ctx { jr with lastMsg := s.time }) ∧
      (s.jstate ctx = 1 ∨ s.jstate ctx = 3 → jr.made < n →
        exec (.journalAck ctx dev n) s = .next (s.setJournal ctx { jr with lastMsg := s.time })) ∧
      (s.jstate ctx = 1 ∨ s.jstate ctx = 3 → n ≤ jr.made → n < 2 ^ 48 → ∃ t : State,
        exec (.journalAck ctx dev n) s = .next t ∧ t.acked ctx = max (s.acked ctx) n ∧
        t.jstate ctx = (if jr.resendTo ≤ max (s.acked ctx) n then 1 else s.jstate ctx) ∧
        ∀ d k, ∀ h ∈ (t.slice d k).held, h.ctx = ctx → max (s.acked ctx) n < h.gate)) ∧
    (s.time - jr.lastMsg < s.silenceCycles ctx → exec (.partnerSilence ctx) s = .next s) ∧
    (s.silenceCycles ctx ≤ s.time - jr.lastMsg → s.jstate ctx ≠ 1 → exec (.partnerSilence ctx) s = .next s) ∧
    (s.silenceCycles ctx ≤ s.time - jr.lastMsg → s.jstate ctx = 1 → ∃ t : State,
      exec (.partnerSilence ctx) s = .next t ∧ t.jstate ctx = 2 ∧ t.acked ctx = s.acked ctx ∧
      t.msix = s.msix ++ [⟨2, ctx⟩] ∧ t.groups = s.groups.map (fun e =>
        (e.1, if e.2.ctx = ctx then { e.2 with armed := true } else e.2)))) ∧
  (∀ (s : State) (port peer : Nat), let w := s.pkgReg (0x034 + port)
    (w.getLsbD 63 = false → exec (.avashLinkDown port) s = .next s) ∧
    (w.getLsbD 63 = true → ∃ t : State, exec (.avashLinkDown port) s = .next t ∧
      (t.pkgReg (0x034 + port)).getLsbD 63 = false ∧
      bits (t.pkgReg (0x034 + port)) 0 16 = min 0xFFFF (bits w 0 16 + 1) ∧
      ∀ c dev, (s.ctx c).journal.partner = some (port, dev) → s.jstate c = 1 → t.jstate c = 2) ∧
    exec (.avashLinkTrained port peer) s =
      .next (s.setPkgReg (0x034 + port) (setBits (setBits w 63 1 1) 32 16 peer))) ∧
  (∀ (s : State) (src ctx num sq upto : Nat) (rec : List Byte),
    let mine := fun r : PartnerRec => r.src = src ∧ r.ctx = ctx
    let last := fun r : PartnerRec => mine r ∧ r.past = false
    let again := ∃ r ∈ s.partnerRecs, last r ∧ r.num = num ∧ r.bytes = rec
    let waits := ∃ r ∈ s.partnerRecs, last r ∧ r.stored = false ∧ r.num ≤ num
    let got : PartnerRec := { src := src, ctx := ctx, num := num, bytes := rec, truncated := false, stored := false, past := false }
    let place := fun bs : List Byte => (bs.length + 63) / 64 * 64
    let used := (s.partnerRecs.map (fun r => place r.bytes)).sum
    (again → waits → exec (.journalRecordReceive ⟨src, ctx⟩ num rec) s = .next s) ∧
    (again → ¬ waits → exec (.journalRecordReceive ⟨src, ctx⟩ num rec) s =
      .next { s with partnerAcks := s.partnerAcks ++ [(src, ctx, num)] }) ∧
    (¬ again → (∀ r ∈ s.partnerRecs, r.stored = true) → ∀ kept, ((∀ r ∈ s.partnerRecs, last r → r.num < num) → kept = s.partnerRecs) →
      ((∃ r ∈ s.partnerRecs, last r ∧ num ≤ r.num) → kept = s.partnerRecs.map (fun r =>
        if r.src = src ∧ r.ctx = ctx ∧ r.past = false then { r with past := true } else r)) →
      exec (.journalRecordReceive ⟨src, ctx⟩ num rec) s = .next (if used + place rec ≤ Config.journalRegion then
        { s with partnerRecs := kept ++ [{ got with stored := true }]
                 partnerAcks := s.partnerAcks ++ [(src, ctx, num)] }
        else { s with partnerRecs := kept ++ [got] })) ∧
    ((∀ r ∈ s.partnerRecs, r.stored = true) →
      let marks := fun r : PartnerRec => mine r ∧ leNat (r.bytes.take 4) = sq ∧ r.num ≤ upto
      ∃ rs, exec (.journalTruncateReceive ⟨src, ctx⟩ sq upto) s = .next { s with partnerRecs := rs } ∧
        (∀ r ∈ s.partnerRecs, ¬ mine r → r ∈ rs) ∧ (∀ r ∈ s.partnerRecs, mine r → ¬ marks r → r.truncated = false → r ∈ rs) ∧
        (∀ r ∈ rs, mine r → marks r → r.truncated = true) ∧
        ∀ r p, (rs.find? (fun q => q.src = src ∧ q.ctx = ctx ∧ q.past = p)) = some r → r.truncated = false))

/-! ### Events of main memory and its ports (R61, R64, R65, R72, R74, R75, R78, R79, R382) -/

/-- A completion with nothing to bring back, as `s` sends it for request `r` (R61, R63). -/
def Sys2Proof.Machine.bare (s : State) (r : MemReq) (st : MemStatus) : Completion :=
  ⟨r, st, [], [], [], [], 0, decide (s.slack r.stamp < 0)⟩

/-- The answers to the requests that a split has sent to the CXL tier, that of request `id` among them (R78). -/
def Sys2Proof.Machine.answersWith (id : Nat) (st : MemStatus) (l : List TierAsk) : List TierAsk :=
  l.map (fun a => if a.id = id then { a with status := some st } else a)

/-- R61, R64, R65, R72, R74, R75, R77 to R79, R382: every one of these events completes. A scheduler picks, of the class whose turn it
is, the eligible request of least slack, performs it and sends its completion; a completion returns to its requester, a missed
one counted; a flit that fails its CRC four times delivers its part of a read's data or of a write as poison, and an atomic
with it is not applied, and one that fails at the peer of an Avash Link port is counted in RETRY; units are corrupted, and a scrub
corrects one that can be, or waits at its channel; a CXL request fails at its timeout, and all of a port's fail with its link.
The model's own choices are what a flit carries (log 84) and what the flits of an Avash Link port do (log 148), that an even
number of on-die bit errors leaves the data as it was and that more symbols, or a second error, are always uncorrectable (log
85), and that a scrub's miss is counted for no context (log 141). -/
def Obligations.MainMemoryRequestEvents : Prop :=
  (∀ (s : State) (n : Nat) (ids : List Nat) (e : List MemReq),
    e = (s.waitingAt n).filter (fun r => ids.contains r.id) →
    ((s.channel n).switching = true ∨ e = [] → exec (.channelPick n ids) s = .next s) ∧
    ((s.channel n).switching = false → e ≠ [] → (∀ r ∈ e, r.cls < 4) → ∃ (t : State) (r : MemReq) (c : Completion),
      exec (.channelPick n ids) s = .next t ∧ r ∈ e ∧ t.requests = s.requests.filter (fun q => q.id ≠ r.id) ∧
      t.completions = s.completions ++ [c] ∧ c.req = r ∧ c.missed = decide (s.slack r.stamp < 0) ∧
      t.groups = s.groups ∧ (∀ q ∈ e, q.cls = r.cls → s.slack r.stamp ≤ s.slack q.stamp) ∧
      (∀ k, (s.channel n).quota = k + 1 → (∃ q ∈ e, q.cls = (s.channel n).cur) →
        r.cls = (s.channel n).cur ∧ (t.channel n).quota = k) ∧
      (∀ d, d = ((s.channel n).cur + 1) % 4 → (s.channel n).quota = 0 → 0 < bits (s.pkgReg 0) (8 * d) 8 →
        (∃ q ∈ e, q.cls = d) → r.cls = d ∧ (t.channel n).cur = d ∧
          (t.channel n).quota = bits (s.pkgReg 0) (8 * d) 8 - 1)) ∧
    (∀ r, (s.channel n).switching = false → e = [r] → r.cls < 4 → s.unitErrs = [] → (∀ x ∈ s.copies, r.copyId = some x.id) →
      n < 384 ∨ (s.pkgReg (0x032 + (n - 384))).getLsbD 62 = true → ∃ t : State,
      exec (.channelPick n ids) s = .next t ∧
      (∀ c off len, r.op = .read c off len → t.main = s.main ∧
        t.completions = s.completions ++ [{ bare s r .good with data := s.main.readBytes r.pa len }]) ∧
      (∀ c off bytes, r.op = .write c off bytes [] → t.main = s.main.writeBytes r.pa bytes ∧
        t.completions = s.completions ++ [bare s r .good]) ∧
      (∀ gid p sid op x old, r.op = .atomic gid p sid op [x] → r.spoilt = none → r.pa ≤ x.addr → old = s.main.readN x.addr op.size →
        t.main = s.main.writeN x.addr op.size
          (atomVal op old (x.b.toNat % 2 ^ (8 * op.size)) (x.cmp.toNat % 2 ^ (8 * op.size))) ∧
        t.completions = s.completions ++ [{ bare s r .good with old := [(x.lane, BitVec.ofNat 64 old)] }]) ∧
      (∀ bytes, r.op = .hostWrite bytes → t.main = s.main.writeBytes r.pa bytes ∧ t.completions = s.completions ++ [bare s r .good]) ∧
      (∀ acc off len, r.op = .hostRead acc off len → t.main = s.main ∧
        t.completions = s.completions ++ [{ bare s r .good with data := s.main.readBytes r.pa len }]) ∧
      (∀ c off op bytes k, r.op = .reduce c off op bytes [] [] → (∀ x ∈ s.copies, x.reduce = true) → op.size ≤ 8 → k < bytes.length / op.size →
        t.main.readN (r.pa + op.size * k) op.size = atomVal op (s.main.readN (r.pa + op.size * k) op.size)
          (leNat ((bytes.drop (op.size * k)).take op.size)) 0 % 2 ^ (8 * op.size)))) ∧
  (∀ (s : State) (c : Completion), s.completions = [c] → s.flits = [] →
    (∀ n, n ≠ c.req.id → exec (.memCompletion n) s = .next s) ∧
    (∀ off bs x, c.status = .good → c.req.op = .write x.id off bs [] → s.copies = [x] → x.begun = true →
      x.finished = false → 0 < x.waiting → c.req.cls < 4 → ∃ t : State,
      exec (.memCompletion c.req.id) s = .next t ∧ t.completions = [] ∧ t.main = s.main ∧
      t.copies = [{ x with waiting := x.waiting - 1, finished := decide (x.waiting = 1) }] ∧
      (c.missed = false → t.pkg = s.pkg) ∧
      (c.missed = true → c.req.core < 96 → bits (t.pkgReg (0x100 + c.req.core)) (16 * c.req.cls) 16 =
          min 0xFFFF (bits (s.pkgReg (0x100 + c.req.core)) (16 * c.req.cls) 16 + 1) ∧
        bits (t.ctxReg c.req.ctx 0x123) (16 * c.req.cls) 16 =
          min 0xFFFF (bits (s.ctxReg c.req.ctx 0x123) (16 * c.req.cls) 16 + 1))) ∧
    (∀ gid p sid op es l w g, c.status = .good → c.missed = false → c.req.op = .atomic gid (some p.id) sid op es →
      c.old = [(l, w)] → s.groups.get? gid = some g → atRest s g → g.outs = [p] → ∃ t h,
      exec (.memCompletion c.req.id) s = .next t ∧ t.completions = [] ∧ t.main = s.main ∧
      t.groups.get? gid = some h ∧ h.v = g.v ∧ h.outs = [{ p with
        data := p.regs.foldl (fun d r => Sparse.set d (vkey r l) w) p.data, need := p.need - 1 }]) ∧
    (∀ gid sid g sp l, c.missed = false → c.req.op = .probe (.split gid sid) → s.split? gid sid = some (g, sp) →
      sp.wait = .tier l → let l' := answersWith c.req.id c.status l
      exec (.memCompletion c.req.id) s = .next (State.withSplit { s with completions := [] } gid sid g
        (if ∃ a ∈ l', a.status = none then { sp with wait := .tier l' }
          else { sp with wait := .tier l', awake := true, readyTime := s.time }))) ∧
    (∀ off len w, c.missed = false → c.req.op = .hostRead w.id off len → s.hostWaits = [w] → w.left = 1 → w.got = [] →
      w.bad = false → (s.pkgReg 5).getLsbD 1 = false → ∃ t : State, exec (.memCompletion c.req.id) s = .next t ∧
      t.completions = [] ∧ t.main = s.main ∧ t.hostWaits = [] ∧
      t.hostRead = if c.status = .good then .data c.data else .poison)) ∧
  (∀ (s : State) (n : Nat) (ok : Bool), ((∀ r ∈ s.inFlight, r.id ≠ n / 4) → exec (.dieFlitReceive (.die n) ok) s = .next s) ∧
    ((∃ r ∈ s.inFlight, r.id = n / 4) →
      exec (.dieFlitReceive (.die n) true) s = .next { s with flits := s.flits.filter (fun f => f.id ≠ .die n) } ∧
      (∀ k, s.flits.find? (fun f => f.id = .die n) = (if k = 0 then none else some ⟨.die n, k⟩) → k < 3 →
        exec (.dieFlitReceive (.die n) false) s =
          .next { s with flits := s.flits.filter (fun f => f.id ≠ .die n) ++ [⟨.die n, k + 1⟩] }))) ∧
  (∀ (s : State) (port n : Nat) (w : Word), w = s.pkgReg (0x034 + port) →
    let rest := s.flits.filter (fun f => f.id ≠ .avash port n)
    (w.getLsbD 63 = false → ∀ ok, exec (.dieFlitReceive (.avash port n) ok) s = .next s) ∧
    (w.getLsbD 63 = true → exec (.dieFlitReceive (.avash port n) true) s = .next { s with flits := rest } ∧
      (∀ k, s.flits.find? (fun f => f.id = .avash port n) = (if k = 0 then none else some ⟨.avash port n, k⟩) →
        exec (.dieFlitReceive (.avash port n) false) s = .next (if k < 3 then
          { s.setPkgReg (0x034 + port) (setBits w 16 16 (min 0xFFFF (bits w 16 16 + 1))) with
            flits := rest ++ [⟨.avash port n, k + 1⟩] }
          else { s with flits := rest })))) ∧
  (∀ (s : State) (n : Nat) (part : MemReq → Nat → Prop), s.flits = [⟨.die n, 3⟩] →
    (∀ r j, part r j ↔ (r.pa + j) / 64 % 4 = n % 4) →
    (∀ c k off len, s.completions = [c] → s.requests = [] → c.req.id = n / 4 → c.req.op = .read k off len → ∃ t c',
      exec (.dieFlitReceive (.die n) false) s = .next t ∧ t.completions = [c'] ∧ t.flits = [] ∧ t.main = s.main ∧
      c'.data = c.data ∧ (∀ j < c.data.length, j ∈ c'.bad ↔ j ∈ c.bad ∨ part c.req j) ∧
      ((∃ j < c.data.length, part c.req j) → c'.status = .poison)) ∧
    (∀ r, s.completions = [] → s.requests = [r] → r.id = n / 4 → ∃ t r', exec (.dieFlitReceive (.die n) false) s = .next t ∧
      t.requests = [r'] ∧ t.flits = [] ∧ t.main = s.main ∧
      (∀ c off bytes bad, r.op = .write c off bytes bad → ∃ bad', r' = { r with op := .write c off bytes bad' } ∧
        ∀ j < bytes.length, j ∈ bad' ↔ j ∈ bad ∨ part r j) ∧
      (∀ gid p sid op es, r.op = .atomic gid p sid op es → (∃ e ∈ es, e.addr / 64 % 4 = n % 4) →
        ∃ u, r' = { r with spoilt := some u }))) ∧
  (∀ (s : State) (unit : Nat) (b : BaseDie), b = s.baseDie (unit / 8 % 12) →
    (∃ t : State, exec (.patrolScrub unit) s = .next t ∧ t.main = s.main ∧ (t.baseDie (unit / 8 % 12)).scrubbed =
      if (b.scrubbed % 2 ^ 31 / 8 * 12 + unit / 8 % 12) * 8 + b.scrubbed % 8 = unit then b.scrubbed + 1 else b.scrubbed) ∧
    (s.canServe (32 * unit) 32 = false → ∃ (t : State) (q : MemReq), exec (.patrolScrub unit) s = .next t ∧
      t.requests = s.requests ++ [q] ∧ q.route = .channel (schedOf (32 * unit)) ∧ q.op = .scrub ∧ q.pa = 32 * unit ∧
      q.cls = 3 ∧ q.stamp = (s.dlclk + bits (s.pkgReg 0) 32 12) % 65536 ∧ t.unitErrs = s.unitErrs) ∧
    (s.canServe (32 * unit) 32 = true → ∃ t : State, exec (.patrolScrub unit) s = .next t ∧ t.main = s.main ∧
      (∀ rest, s.unitErrs = (unit, .correctable) :: rest → (∀ e ∈ rest, e.1 ≠ unit) → t.unitErrs = rest ∧
        (t.baseDie (unit / 8 % 12)).corrected = (s.baseDie (unit / 8 % 12)).corrected + 1) ∧
      ((∀ e ∈ s.unitErrs, e.1 = unit → e.2 ≠ .correctable) → t.unitErrs = s.unitErrs ∧
        ∀ k, (t.baseDie k).corrected = (s.baseDie k).corrected))) ∧
  (∀ (s : State) (pa n kind core holder unit off : Nat),
    (n = 0 → exec (.storageError (.main pa) n) s = .next s) ∧
    (0 < n → 0xC000000000 ≤ pa → exec (.storageError (.main pa) n) s = .next (if s.populated (pa / 32 * 32) 32 then
      { s with unitErrs := s.unitErrs.set (pa / 32) (.poison 2) } else s)) ∧
    (0 < n → pa < 0xC000000000 → s.unitErrs.get? (pa / 32) = none → exec (.storageError (.main pa) n) s =
      .next { s with unitErrs := s.unitErrs.set (pa / 32) (if n = 1 then .correctable else .uncorrectable) }) ∧
    (0 < n → pa < 0xC000000000 → s.unitErrs.get? (pa / 32) = some .correctable →
      exec (.storageError (.main pa) n) s = .next { s with unitErrs := s.unitErrs.set (pa / 32) .uncorrectable }) ∧
    (let u := Unit_.onDie kind core holder unit (if kind = 8 then off / 4 * 4 else off);
      exec (.storageError (.onDie kind core holder unit off) n) s = .next (if n % 2 = 1 then
        { s with parity := u :: s.parity.filter (fun v => v ≠ u) } else s))) ∧
  (∀ (s : State) (port : Nat) (r : MemReq), s.requests = [r] → r.lost = false → r.route = .port port →
    let limit := (min (max (bits (s.pkgReg (0x030 + port)) 0 32) 1000) 1000000 * 9 + 3) / 4;
    (s.time - r.sent < limit → exec (.cxlTimeout r.id) s = .next s) ∧
    (limit ≤ s.time - r.sent → (∃ k off len, r.op = .read k off len) → exec (.cxlTimeout r.id) s =
      .next { s with requests := [{ r with lost := true }], completions := s.completions ++ [bare s r .timeout] }) ∧
    (limit ≤ s.time - r.sent → ∀ k off bs bad, r.op = .write k off bs bad → 0xC000000000 ≤ r.pa → ∃ t : State,
      exec (.cxlTimeout r.id) s = .next t ∧ t.completions = s.completions ++ [bare s r .timeout] ∧
      t.requests = [{ r with lost := true }] ∧
      ∀ a, a < r.pa / 64 * 64 ∨ (r.pa + bs.length + 63) / 64 * 64 ≤ a → t.main.read a = s.main.read a)) ∧
  (∀ (s : State) (n : Nat), exec (.cxlLateCompletion n) s =
    .next { s with requests := s.requests.filter (fun r => ¬ (r.id = n ∧ r.lost = true)) }) ∧
  (∀ (s : State) (port cap : Nat) (w : Word), w = s.pkgReg (0x032 + port) →
    (w.getLsbD 63 = false → exec (.cxlLinkDown port) s = .next s) ∧
    (w.getLsbD 63 = true → ∃ t : State, exec (.cxlLinkDown port) s = .next t ∧
      bits (t.pkgReg (0x032 + port)) 62 2 = 0 ∧
      bits (t.pkgReg (0x032 + port)) 0 32 = min 0xFFFFFFFF (bits w 0 32 + 1) ∧
      t.requests = s.requests.filter (fun r => r.route ≠ .port port) ∧ t.msix = s.msix ++ [⟨3, 0⟩] ∧
      t.completions = s.completions ++
        ((s.requests.filter (fun r => r.route = .port port ∧ r.lost = false)).map (fun r => bare s r .linkDown))) ∧
    exec (.cxlLinkTrained port cap) s =
      .next (s.setPkgReg (0x032 + port) (setBits (setBits w 63 1 1) 32 16 cap)) ∧
    exec (.cxpstatEnable port) s =
      .next (if w.getLsbD 63 then s.setPkgReg (0x032 + port) (setBits w 62 1 1) else s))

/-! ### Events of the channels of a stack (R66 to R71) -/

/-- The rate that a thermal state asks for under a cap (R68). -/
def Sys2Proof.Machine.rateFor (t cap : Nat) : Rate :=
  match max t cap with
  | 0 => .full
  | 1 => .mid
  | _ => .low

/-- A channel that starts a switch to a rate at time `now`, its coding window anew (R66, R69). -/
def Sys2Proof.Machine.Channel.switchTo (c : Channel) (rate : Rate) (now : Nat) : Channel :=
  { c with bursts := 0, ones := 0, trans := 0, rate := rate, switching := true, lastSwitch := now }

/-- A channel that acts on thermal state `th` after it has looked at its target at time `now`: a slower one starts a switch (R68). -/
def Sys2Proof.Machine.Channel.lookedAt (c : Channel) (th cap now : Nat) : Channel :=
  if c.switching then c
  else if c.rate.steps < (rateFor th cap).steps then Channel.switchTo { c with acted := th } (rateFor th cap) now
  else { c with acted := th }

/-- R66 to R71: every one of these events completes. The end of a coding window of 4,096 bursts reports its counts and chooses the
next mode; a temperature raises the thermal state at once, and 1 ms below a threshold lowers it, thresholds out of order acting as
state 3; the rate falls at once and rises one step 1 ms after the last switch, and what changes during a switch acts at its
end; a base die reset returns its channels to the full rate; refresh, at the doubled rate in thermal state 3, is issued at a
boundary by who owns it or postponed, and moves to the fallback sequencer after two silent intervals, and back at a boundary
after REL and a heartbeat. The model's own choices are that what is refreshed at a boundary is counted (log 9), that a controller
core that beats postpones nothing of its own (log 142), that the last switch of a channel is counted from its start (log 90), that
each thermal state has a fall timer of its own (log 89), and what else a base die reset clears and keeps (log 114). -/
def Obligations.ChannelAndRefreshEvents : Prop :=
  (∀ (s : State) (ch ones toggles : Nat) (c : Channel), c = s.channel ch →
    (c.bursts < 4096 ∨ ones ≠ c.ones ∨ toggles ≠ c.trans → exec (.dbiWindowEnd ch ones toggles) s = .next s) ∧
    (4096 ≤ c.bursts → ∃ w : Word, exec (.dbiWindowEnd ch c.ones c.trans) s =
        .next ((s.setPkgReg (0x400 + ch) w).setChannel ch { c with bursts := 0, ones := 0, trans := 0 }) ∧
      bits w 0 22 = c.ones % 2 ^ 22 ∧ bits w 32 22 = c.trans % 2 ^ 22 ∧
      (let cfg := s.pkgReg (0x010 + ch / 32)
       let ac := c.trans * bits cfg 8 8
       let dc := c.ones * bits cfg 0 8
       (dc < ac → w.getLsbD 63 = true) ∧ (ac < dc → w.getLsbD 63 = false) ∧
       (ac = dc → w.getLsbD 63 = (s.pkgReg (0x400 + ch)).getLsbD 63)))) ∧
  (∀ (s : State) (ch temp cap : Nat) (c : Channel), c = s.channel ch → cap = bits (s.pkgReg 1) 32 2 →
    let th := fun k => bits (s.pkgReg 1) (8 * (k - 1)) 8
    let hys := bits (s.pkgReg 1) 24 8
    let acts := fun n : Nat => if th 1 ≤ th 2 ∧ th 2 ≤ th 3 then n else 3
    let want := (rateFor (acts c.thermal) cap).steps
    let told := fun n : Nat => c.switching = false ∧ acts n = 3 ∧ c.acted ≠ 3
    (∃ (t : State) (n : Nat) (below : Sparse Nat), exec (.thermalSample ch temp) s = .next t ∧ t.groups = s.groups ∧
      t.main = s.main ∧ c.thermal ≤ n ∧ (∀ k, 1 ≤ k → k ≤ 3 → th k ≤ temp → k ≤ n) ∧
      (n = c.thermal ∨ (1 ≤ n ∧ n ≤ 3 ∧ th n ≤ temp)) ∧
      t.channel ch = Channel.lookedAt { c with temp := temp, thermal := n, below := below } (acts n) cap s.time ∧
      (∀ k, 1 ≤ k → k ≤ 3 → below.get? k = if temp + hys < th k then some ((c.below.get? k).getD s.time) else none) ∧
      t.msix = s.msix ++ (if told n then [⟨3, 0⟩] else []) ∧
      t.foreman = s.foreman ++ (if told n then [.thermal ch] else [])) ∧
    (∀ since, 0 < c.thermal → c.below.get? c.thermal = some since →
      (s.time - since < Config.msCycles → exec (.thermalStateFall ch) s = .next s) ∧
      (Config.msCycles ≤ s.time - since → ∃ t : State, exec (.thermalStateFall ch) s = .next t ∧ t.main = s.main ∧
        t.channel ch = Channel.lookedAt { c with thermal := c.thermal - 1 } (acts (c.thermal - 1)) cap s.time)) ∧
    (c.thermal = 0 ∨ c.below.get? c.thermal = none → exec (.thermalStateFall ch) s = .next s) ∧
    (c.switching = false → want < c.rate.steps → Config.msCycles ≤ s.time - c.lastSwitch →
      let risen := c.switchTo (if c.rate = .low then .mid else .full) s.time;
      (c.bursts < 4096 → exec (.rateRiseTimer ch) s = .next (s.setChannel ch risen)) ∧
      (4096 ≤ c.bursts → ∃ t : State, exec (.rateRiseTimer ch) s = .next t ∧ t.channel ch = risen ∧ t.main = s.main ∧
        bits (t.pkgReg (0x400 + ch)) 0 22 = c.ones % 2 ^ 22 ∧ bits (t.pkgReg (0x400 + ch)) 32 22 = c.trans % 2 ^ 22)) ∧
    (c.switching = true ∨ c.rate.steps ≤ want ∨ s.time - c.lastSwitch < Config.msCycles →
      exec (.rateRiseTimer ch) s = .next s) ∧
    (∃ t : State, exec (.rateSwitchEnd ch) s = .next t ∧ t.main = s.main ∧ t.groups = s.groups ∧ t.requests = s.requests ∧
      t.channel ch = Channel.lookedAt { c with switching := false } (acts c.thermal) cap s.time ∧
      t.msix = s.msix ++ (if acts c.thermal = 3 ∧ c.acted ≠ 3 then [⟨3, 0⟩] else []) ∧
      (let b := s.baseDie (ch / 32);
        ((s.pkgReg (0x020 + ch / 32)).getLsbD 63 = true → (∀ k < 32, ch / 32 * 32 + k ≠ ch →
          (s.channel (ch / 32 * 32 + k)).switching = false) →
          t.baseDie (ch / 32) = { b with issued := b.issued + b.postponed, postponed := 0 }) ∧
        ((s.pkgReg (0x020 + ch / 32)).getLsbD 63 = false → t.baseDie (ch / 32) = b)))) ∧
  (∀ (s : State) (stack : Nat), ∃ t : State, exec (.baseDieReset stack) s = .next t ∧
    t.main = s.main ∧ t.groups = s.groups ∧
    ((∀ k < 32, (s.channel (stack * 32 + k)).bursts < 4096) → t.pkg = s.pkg) ∧
    (∀ k < 32, (t.channel (stack * 32 + k)).rate = .full ∧ (t.channel (stack * 32 + k)).switching = false ∧
      ((s.channel (stack * 32 + k)).rate ≠ .full → (t.channel (stack * 32 + k)).bursts = 0)) ∧
    (∀ k, k < stack * 32 ∨ stack * 32 + 32 ≤ k → t.channel k = s.channel k) ∧
    ∀ k, k ≠ stack → t.baseDie k = s.baseDie k) ∧
  (∀ (s : State) (n : Nat) (w : Word) (b : BaseDie), w = s.pkgReg (0x020 + n) → b = s.baseDie n →
    let due := Config.trefiCycles ≤ s.time - b.lastBoundary
    let still := ∀ k < 32, (s.channel (n * 32 + k)).switching = false
    let count := if (List.range 32).any (fun k => s.thermalOf (n * 32 + k) = 3) then 2 else 1
    let handed := s.setPkgReg (0x020 + n) (setBits (setBits w 63 1 0) 61 1 0)
    let after := fun (issued postponed : Nat) =>
      (if w.getLsbD 63 ∧ w.getLsbD 61 ∧ b.beatSeen then handed else s).setBaseDie n { b with
        issued := issued, postponed := postponed, missed := if b.beatSeen then 0 else b.missed + 1
        beatSeen := false, lastBoundary := s.time }
    (due → w.getLsbD 63 = true → w.getLsbD 61 = true → b.beatSeen = true →
      exec (.refreshHandback n) s = .next handed) ∧
    (¬ due ∨ w.getLsbD 63 = false ∨ w.getLsbD 61 = false ∨ b.beatSeen = false →
      exec (.refreshHandback n) s = .next s) ∧
    (¬ due → exec (.refreshDue n) s = .next s) ∧
    (due → still → w.getLsbD 63 = true ∨ b.beatSeen = true →
      exec (.refreshDue n) s = .next (after (b.issued + b.postponed + count) 0)) ∧
    (due → ¬ still ∨ (w.getLsbD 63 = false ∧ b.beatSeen = false) →
      exec (.refreshDue n) s = .next (after b.issued (b.postponed + count))) ∧
    (w.getLsbD 63 = false → 2 ≤ b.missed → ∃ t : State, exec (.fallbackTakeover n) s = .next t ∧
      t.pkgReg (0x020 + n) = setBits w 62 2 3 ∧ t.foreman = s.foreman ++ [.takeover n] ∧
      t.msix = s.msix ++ [⟨3, 0⟩] ∧ t.main = s.main ∧ (∀ k, k ≠ n → t.baseDie k = s.baseDie k) ∧
      (still → t.baseDie n = { b with issued := b.issued + b.postponed, postponed := 0 }) ∧ (¬ still → t.baseDie n = b)) ∧
    (w.getLsbD 63 = true ∨ b.missed < 2 → exec (.fallbackTakeover n) s = .next s) ∧
    exec (.bdstatRel n) s = .next (if w.getLsbD 63 then s.setPkgReg (0x020 + n) (setBits w 61 1 1) else s))

/-! ### Migration and the invalidation of translations (R28, R80 to R84) -/

/-- Every channel and port accepts commands: none changes its rate (R69). -/
def Sys2Proof.Machine.accepting (s : State) : Prop := ∀ n, (s.channel n).switching = false

/-- No copy whose batch is still open writes main memory, so that all of it reads as it stands (R125). -/
def Sys2Proof.Machine.settledMem (s : State) : Prop := ∀ x ∈ s.copies, x.dsp = 4 → s.copyOpen x = false

/-- R28, R69, R80 to R84: every one of these events completes. A slot is armed when both frames are populated, and started, switched, finished, aborted and cleared in the
states that allow it. Where the channels accept commands, a routed request to a clear line in pull mode first pulls the line, or writes all of it; in dual-write mode
writes go to both frames and an atomic to OLD, its line then copied; after finish NEW alone serves. A background fill moves the
lowest clear line; a line that a CXL link fails is counted and stays clear. An invalidation removes the kept translations of its
range and ends when every request and copy through them has completed. The model's own choices are that arming clears the bitmap
and ERRS, with the states that allow clear and abort (log 86), what an invalidation awaits (log 88), a dual write one of whose
frames cannot be reached (log 143), and that a dual atomic has its answer from OLD whether or not its line could be copied (log
144). -/
def Obligations.MigrationAndInvalidationEvents : Prop :=
  (∀ (s : State) (k : Nat) (w : Word) (old new bytes st : Nat) (dual fin : Bool), w = s.pkgReg (0x080 + k) →
    old = bits (s.pkgReg (0x040 + k)) 0 28 * 2 ^ 16 → new = bits (s.pkgReg (0x040 + k)) 32 28 * 2 ^ 16 →
    bytes = (if w.getLsbD 60 then 2 ^ 21 else 2 ^ 16) → st = bits w 61 3 → dual = w.getLsbD 59 →
    fin = (s.mig k).finished →
    let into := fun (n : Nat) => s.setPkgReg (0x080 + k) (setBits w 61 3 n)
    (st ≠ 0 → exec (.migArm k) s = .next s) ∧
    (0xC000000000 < old + bytes → bits (s.pkgReg 0x032) 32 16 = 0 → bits (s.pkgReg 0x033) 32 16 = 0 →
      exec (.migArm k) s = .next s) ∧
    (st = 0 → old + bytes ≤ 0xC000000000 → new + bytes ≤ 0xC000000000 → ∃ t : State, exec (.migArm k) s = .next t ∧
      bits (t.pkgReg (0x080 + k)) 61 3 = 1 ∧ bits (t.pkgReg (0x080 + k)) 0 14 = 0 ∧
      bits (t.pkgReg (0x080 + k)) 32 16 = 0 ∧ (t.mig k).bits = [] ∧ (t.mig k).finished = false ∧
      (t.mig k).queue = (s.mig k).queue ∧ t.main = s.main) ∧
    exec (.migStart k) s = .next (if st = 1 then into 2 else s) ∧
    exec (.migSwitch k) s = .next (if st = 4 ∧ dual = true ∧ fin = false then into 3 else s) ∧
    exec (.migClear k) s = .next (if st = 4 ∧ (dual = false ∨ fin = true) then into 0 else s) ∧
    (st ≠ 3 → exec (.migFinish k) s = .next s) ∧
    (st = 3 → exec (.migFinish k) s = .next (State.setPkgReg (s.setMig k { s.mig k with finished := true }) (0x080 + k)
      (setBits (setBits w 61 3 4) 58 1 1))) ∧
    (dual = true → exec (.migAbort k) s =
      .next (if st = 1 ∨ st = 2 ∨ (st = 4 ∧ fin = false) then into 0 else s)) ∧
    (dual = false → st ≠ 1 → st ≠ 2 → exec (.migAbort k) s = .next s) ∧
    (dual = false → st = 1 ∨ st = 2 → ∃ t : State, exec (.migAbort k) s = .next t ∧ t.main = s.main ∧
      t.pkgReg (0x080 + k) = setBits (setBits w 61 3 4) 58 1 1 ∧ ∀ line j, line < bytes / 256 → j < 8 →
        t.unitErrs.get? (new / 32 + line * 8 + j) = if line ∈ (s.mig k).bits then
          s.unitErrs.get? (new / 32 + line * 8 + j) else some (.poison 2))) ∧
  (∀ (s : State) (k : Nat) (link : LineStatus) (r : MemReq) (rest : List MemReq) (w : Word) (old new bytes st off : Nat)
    (dual : Bool), w = s.pkgReg (0x080 + k) →
    old = bits (s.pkgReg (0x040 + k)) 0 28 * 2 ^ 16 → new = bits (s.pkgReg (0x040 + k)) 32 28 * 2 ^ 16 →
    bytes = (if w.getLsbD 60 then 2 ^ 21 else 2 ^ 16) → st = bits w 61 3 → dual = w.getLsbD 59 →
    old + bytes ≤ new ∨ new + bytes ≤ old → off < bytes →
    let line := off / 256
    let lineAt := fun (frame : Nat) => frame + line * 256
    let good := fun (t : State) (data : List Byte) => t.completions = s.completions ++ [{ bare s r .good with data := data }]
    let again := dual = true ∧ (s.mig k).finished = false ∧ (st = 3 ∨ st = 4)
    ((s.mig k).queue = [] ∨ st = 1 → exec (.migRoutedRequest k link) s = .next s) ∧
    (st ≠ 2 → ¬ again → exec (.migBackgroundFill k link) s = .next s) ∧
    (st = 2 ∨ again → (∀ l < bytes / 256, l ∈ (s.mig k).bits) → exec (.migBackgroundFill k link) s = .next s) ∧
    (st = 2 ∨ again → accepting s → settledMem s → old < 0xC000000000 → new < 0xC000000000 → s.unitErrs = [] → line ∉ (s.mig k).bits →
      (∀ l < line, l ∈ (s.mig k).bits) → (s.mig k).last = [] → ∃ t : State,
      exec (.migBackgroundFill k link) s = .next t ∧ (t.mig k).bits = line :: (s.mig k).bits ∧
      t.main = s.main.writeBytes (lineAt new) (s.main.readBytes (lineAt old) 256) ∧
      bits (t.pkgReg (0x080 + k)) 0 14 = ((s.mig k).bits.length + 1) % 2 ^ 14 ∧
      bits (t.pkgReg (0x080 + k)) 61 3 = if st = 2 ∧ (s.mig k).bits.length + 1 = bytes / 256 then 4 else st) ∧
    ((s.mig k).queue = r :: rest → accepting s → dual = true → (s.mig k).finished = false → st = 2 ∨ st = 3 ∨ st = 4 →
      r.pa = old + off → old + bytes ≤ 0xC000000000 → s.unitErrs = [] → r.spoilt = none →
      (∀ c o len, r.op = .read c o len → (∀ x ∈ s.copies, c = x.id) → ∃ t : State,
        exec (.migRoutedRequest k link) s = .next t ∧ t.main = s.main ∧ good t (s.main.readBytes r.pa len)) ∧
      (∀ c o bs, r.op = .write c o bs [] → off + bs.length ≤ bytes → 0x40000000000 ≤ new →
        new + bytes ≤ 0xC0000000000 → link = .linkDown → ∃ t : State,
        exec (.migRoutedRequest k link) s = .next t ∧ (t.mig k).bits = (s.mig k).bits ∧
        t.completions = s.completions ++ [bare s r .linkDown] ∧ ∀ j < bs.length, t.main.read (r.pa + j) = bs.getD j 0)) ∧
    ((s.mig k).queue = r :: rest → accepting s → old < 0xC000000000 → new < 0xC000000000 → s.unitErrs = [] →
      (∀ x ∈ s.copies, r.copyId = some x.id) → r.spoilt = none → ∃ t : State, exec (.migRoutedRequest k link) s = .next t ∧
      (st ≠ 1 → (t.mig k).queue = rest) ∧
      (dual = false → st = 2 → r.pa = new + off →
        (line ∈ (s.mig k).bits → ∀ c o len, r.op = .read c o len →
          t.main = s.main ∧ good t (s.main.readBytes (new + off) len)) ∧
        (line ∉ (s.mig k).bits →
          (∀ c o len, r.op = .read c o len → settledMem s → (t.mig k).bits = line :: (s.mig k).bits ∧
            t.main = s.main.writeBytes (lineAt new) (s.main.readBytes (lineAt old) 256) ∧
            good t (t.main.readBytes (new + off) len)) ∧
          (∀ c o bs, r.op = .write c o bs [] → off % 256 = 0 → bs.length = 256 →
            (t.mig k).bits = line :: (s.mig k).bits ∧ t.main = s.main.writeBytes (new + off) bs ∧ good t []))) ∧
      (dual = true → (s.mig k).finished = false → st = 2 ∨ st = 3 ∨ st = 4 → r.pa = old + off →
        (∀ c o len, r.op = .read c o len → t.main = s.main ∧ good t (s.main.readBytes r.pa len)) ∧
        (∀ c o bs, r.op = .write c o bs [] →
          t.main = (s.main.writeBytes r.pa bs).writeBytes (new + off) bs ∧ good t []) ∧
        (∀ g p i op x v, r.op = .atomic g p i op [x] → x.addr = r.pa → off % 256 + op.size ≤ 256 →
          v = s.main.readN r.pa op.size →
          t.main.readN r.pa op.size = atomVal op v (x.b.toNat % 2 ^ (8 * op.size)) (x.cmp.toNat % 2 ^ (8 * op.size)) %
            2 ^ (8 * op.size) ∧
          ∀ j < 256, t.main.read (lineAt new + j) = t.main.read (lineAt old + j))) ∧
      ((dual = true ∧ (s.mig k).finished = true) ∨ (dual = false ∧ st = 4) → st = 4 → r.pa = new + off →
        ∀ c o len, r.op = .read c o len → t.main = s.main ∧ good t (s.main.readBytes r.pa len))) ∧
    ((s.mig k).queue = r :: rest → accepting s → (∀ p < 2, s.portUp p = true) → dual = false → st = 2 → r.pa = new + off → line ∉ (s.mig k).bits →
      0x40000000000 ≤ old → old + bytes ≤ 0xC0000000000 → link = .timeout → (∃ c o len, r.op = .read c o len) → ∃ t : State,
      exec (.migRoutedRequest k link) s = .next t ∧ t.main = s.main ∧ (t.mig k).bits = (s.mig k).bits ∧
      t.completions = s.completions ++ [bare s r .timeout] ∧ (t.pkgReg (0x080 + k)).getLsbD 58 = true ∧
      bits (t.pkgReg (0x080 + k)) 32 16 = min 0xFFFF (bits w 32 16 + 1) ∧ line ∈ (t.mig k).last)) ∧
  (∀ (s : State) (v : Word), ((s.pkgReg 3).getLsbD 63 = true → exec (.xlinvcCommand v) s = .next s) ∧
    ((s.pkgReg 3).getLsbD 63 = false → ∃ (t : State) (ids : List Nat), exec (.xlinvcCommand v) s = .next t ∧
      (t.pkgReg 3).getLsbD 63 = true ∧ t.xlinv = some ids ∧ t.main = s.main ∧ t.groups = s.groups ∧
      (∀ c q, q ∈ (t.core c).tlb ↔ q ∈ (s.core c).tlb ∧ ¬ (q.ctx = bits v 48 8 ∧ (v.getLsbD 32 = true ∨
        ∃ p, bits (s.pkgReg 2) 16 36 ≤ p ∧ p < bits (s.pkgReg 2) 16 36 + bits v 0 32 ∧
          p / (pageBytes q.level / 65536) = q.vpn / (pageBytes q.level / 65536)))) ∧
      ∀ r ∈ s.requests, r.ctx = bits v 48 8 → v.getLsbD 32 = true → r.id ∈ ids)) ∧
  (∀ (s : State) (ids : List Nat), s.xlinv = some ids →
    ((∃ r ∈ s.inFlight, r.id ∈ ids) ∨ (∃ c ∈ s.copies, c.id ∈ ids ∧ c.finished = false) →
      exec .xlinvcComplete s = .next s) ∧
    ((∀ r ∈ s.inFlight, r.id ∉ ids) → (∀ c ∈ s.copies, c.id ∈ ids → c.finished = true) → exec .xlinvcComplete s =
      .next { s.setPkgReg 3 (setBits (s.pkgReg 3) 63 1 0) with xlinv := none }))

/-! ### Events of the copy and matrix engines (R126, R170, R171, R173, R280, R294, R299, R300) -/

/-- R126, R170, R171, R173, R280, R294, R299, R300: every one of these events completes. An engine takes its next copy and moves its
bytes, here from shared memory to shared memory; a closed copy batch completes when every copy of it has finished, its arrivals
made; a free array that its follower has chosen nothing for starts the queued operation of highest priority, the oldest
first, within the start limiter of its die; one that retires has written its tile, `mma` by sums of blocks and `mzero` with +0;
and a lease of a group that queues nothing for 64 cycles ends. That one transfer event moves all of a copy's bytes and finishes
it is the model's own choice (log 6). -/
def Obligations.CopyAndMatrixEngineEvents : Prop :=
  (∀ (s : State) (core : Nat), (∀ c ∈ s.copies, c.core = core → c.begun = true) →
    exec (.copyEngineTransfer core) s = .next s) ∧
  (∀ (s : State) (core : Nat) (c : CopyOp) (k : Block), s.copies = [c] → c.core = core → c.begun = false →
    c.finished = false → c.waiting = 0 → c.reduce = false → c.code % 64 = 0 → s.copyHeld c = false → s.parity = [] →
    (∀ e ∈ s.groups, ∀ p ∈ e.2.ops, p.uses = []) → s.blocks.get? c.bid = some k → 0 < c.len → c.len % 8 = 0 →
    c.dst.toNat % 8 = 0 → c.src.toNat % 8 = 0 →
    c.dst.toNat + c.len ≤ c.src.toNat ∨ c.src.toNat + c.len ≤ c.dst.toNat → ∃ t k',
    exec (.copyEngineTransfer core) s = .next t ∧ t.main = s.main ∧ t.dies = s.dies ∧ t.blocks.get? c.bid = some k' ∧
    k'.shm = k.shm.writeBytes c.dst.toNat (k.shm.readBytes c.src.toNat c.len) ∧
    t.copies = [{ c with begun := true, wrote := true, finished := true }]) ∧
  (∀ (s : State) (gid n : Nat) (g : Group) (p : OpRec) (c : CopyOp), s.groups.get? gid = some g → atRest s g →
    g.ops = [p] → p.cls = 0 → p.batch = n → n ≠ 0 → p.done = false → s.copies = [c] → c.id = p.id → c.gid = gid →
    (c.finished = false → exec (.copyBatchComplete gid n) s = .next s) ∧
    (c.finished = true → c.failedLines = [] → c.code / 4096 % 2 = 0 → ∃ t h, exec (.copyBatchComplete gid n) s = .next t ∧
      t.groups.get? gid = some h ∧ h.ops = [{ p with done := true }] ∧ h.errs = g.errs ∧ h.v = g.v ∧
      t.blocks = s.blocks ∧ t.main = s.main) ∧
    (c.finished = true → c.failedLines = [] → c.code / 4096 % 2 = 1 → c.code % 8 ≠ 0 → p.uses = [] →
      (∀ e ∈ s.groups, ∀ q ∈ e.2.ops, q.uses = []) → ∀ k w, s.blocks.get? c.bid = some k →
      w = k.shm.readN c.bar.toNat 8 → w / 2 ^ 16 % 2 ^ 16 + 1 < w % 2 ^ 16 → ∃ t h k',
      exec (.copyBatchComplete gid n) s = .next t ∧ t.groups.get? gid = some h ∧ (∀ q ∈ h.ops, q.done = true) ∧
      h.errs = g.errs ∧ t.blocks.get? c.bid = some k' ∧ k'.shm = k.shm.writeN c.bar.toNat 8 (w + 2 ^ 16))) ∧
  (∀ (s : State) (core : Nat) (l : Limiter), core % 2 = 0 → l = (s.die (dieOf core)).limiter → l.window = s.time / 64 →
    let c := s.core core
    let a := c.array
    c.lease = none → c.leaseReqs = [] → (s.core (core + 1)).bondReqs = [] → (s.core (core + 1)).array.chosen = none →
    (c.matQ = [] ∨ a.busy.isSome = true ∨ a.slaved = true → exec (.matrixOpStart core) s = .next s) ∧
    (a.busy = none → a.slaved = false → c.matQ ≠ [] → (c.matQ.map (fun o => o.gid)).Nodup →
      (∀ o ∈ c.matQ, o.core = core ∧ o.pair = false ∧ o.bond = none ∧ o.kind ≠ .smask ∧ o.pri < 4 ∧ o.arrival < 2 ^ 64 ∧ o.grpSlot < 16) →
      let idle := a.active = false ∨ 256 ≤ s.time - a.lastUse
      let starts := ∃ t o, exec (.matrixOpStart core) s = .next t ∧ o ∈ c.matQ ∧
        (∀ p ∈ c.matQ, p.pri ≤ o.pri ∧ (p.pri = o.pri → o.arrival ≤ p.arrival)) ∧
        (t.core core).array.busy = some o ∧ (t.core core).array.active = true ∧
        (t.core core).matQ = c.matQ.filter (fun p => p.id ≠ o.id) ∧ t.main = s.main ∧
        (t.die (dieOf core)).limiter.grants = l.grants + (if idle ∧ a.granted = false then 1 else 0)
      (¬ idle ∨ a.granted = true → starts) ∧
      (idle → a.granted = false → a.requested = false → l.waiting = [] → l.grants + 1 ≤ 8 → starts) ∧
      (idle → a.granted = false → a.requested = false → l.waiting ≠ [] ∨ 8 < l.grants + 1 → ∃ t : State,
        exec (.matrixOpStart core) s = .next t ∧ (t.core core).array = { a with requested := true } ∧
        (t.core core).matQ = c.matQ ∧ (t.die (dieOf core)).limiter.waiting = l.waiting ++ [[core]]))) ∧
  (∀ (s : State) (core gid : Nat) (o : MatOp) (g : Group) (p : OpRec) (tile : Tile), o.core = core → o.gid = gid →
    o.bond = none → s.groups.get? gid = some g → atRest s g → g.bd = [] → g.ops = [p] → p.id = o.id → p.spoilt = false →
    (∃ b, tile.owner = some b ∧ (s.blocks.get? b).isSome = true) → tile = s.tileOf core o.tile → tile.spoilt = false →
    ((s.core core).array.busy = none → exec (.matrixOpRetire core) s = .next s) ∧
    ((s.core core).array.busy = some o → ∃ t h, exec (.matrixOpRetire core) s = .next t ∧
      (t.core core).array.busy = none ∧ t.groups.get? gid = some h ∧ h.ops = [{ p with done := true }] ∧
      h.errs = g.errs ∧ t.main = s.main ∧
      (o.kind = .mzero → ∀ e < 24576, (t.tileOf core o.tile).elem e = 0) ∧
      (o.kind = .mma → o.fmt = 1 ∨ o.fmt = 2 → (s.slotOf core o.slotA).prev = [] → (s.slotOf core o.slotB).prev = [] →
        (∀ a n, s.flightSlot core o.slotA a n = false ∧ s.flightSlot core o.slotB a n = false) →
        let m := min 128 (bits o.shape 0 9)
        let n := bits o.shape 16 8
        let kk := bits o.shape 32 16
        let f := fmtOf o.fmt
        let a := fun r k => f.val ((s.slotOf core o.slotA).mem.readN (r * bits o.layout 0 16 + 2 * k) 2)
        let b := fun c k => f.val ((s.slotOf core o.slotB).mem.readN (c * bits o.layout 16 16 + 2 * k) 2)
        (n ≤ 192 → ∀ r c, r < m → c < n → (∀ k < kk, (a r k).finite = true ∧ (b c k).finite = true) → ∃ bs : Nat → Nat,
          (∀ j, let q := ((List.range (min (8 * (j + 1)) kk - 8 * j)).map (fun d =>
              (a r (8 * j + d)).exact * (b c (8 * j + d)).exact)).sum
            (q ≠ 0 → roundsTo fp32 false 0 q (bs j)) ∧ (q = 0 → bs j = 0)) ∧
          (t.tileOf core o.tile).elem (192 * r + c) = (List.range ((kk + 7) / 8)).foldl
            (fun v j => (faddBits fp32 0 v (bs j)).1 % 2 ^ 32) (tile.elem (192 * r + c))) ∧
        ∀ e, (n ≤ e % 192 ∨ m ≤ e / 192) → n ≤ 192 → (t.tileOf core o.tile).elem e = tile.elem e))) ∧
  (∀ (s : State) (die : Nat) (d : Die), d = s.die die →
    (s.time / 64 = d.limiter.window → exec (.startLimitWindow die) s = .next s) ∧
    (s.time / 64 ≠ d.limiter.window → d.limiter.waiting = [] → exec (.startLimitWindow die) s =
      .next (s.setDie die { d with limiter := ⟨s.time / 64, 0, []⟩ })) ∧
    (∀ c, s.time / 64 ≠ d.limiter.window → d.limiter.waiting = [[c]] → ∃ t : State,
      exec (.startLimitWindow die) s = .next t ∧ (t.die die).limiter = ⟨s.time / 64, 1, []⟩ ∧
      (t.core c).array = { (s.core c).array with granted := true, requested := false } ∧
      bits (t.pkgReg (8 + die)) 0 32 = min 0xFFFFFFFF (bits (s.pkgReg (8 + die)) 0 32 + 1))) ∧
  (∀ (s : State) (core : Nat) (c : Core), c = s.core core → exec (.arrayIdle core) s = .next (
    if c.array.active = false ∨ (c.array.busy = none ∧ c.array.slaved = false ∧ 256 ≤ s.time - c.array.lastUse) then
      s.setCore core { c with array := { c.array with active := false } } else s)) ∧
  (∀ (s : State) (core : Nat) (c : Core) (l : Lease), c = s.core core → c.lease = some l →
    let ends := c.array.busy = none ∧ c.array.slaved = false ∧ (∀ o ∈ c.matQ, o.gid ≠ l.gid) ∧ 64 ≤ s.time - l.idleSince
    (¬ ends → exec (.leaseIdleExpire core) s = .next s) ∧
    (ends → c.leaseReqs = [] → exec (.leaseIdleExpire core) s = .next (s.setCore core { c with lease := none })) ∧
    (∀ gid n rest, ends → c.leaseReqs = (gid, n) :: rest → exec (.leaseIdleExpire core) s =
      .next (s.setCore core { c with lease := some ⟨gid, n, s.time⟩, leaseReqs := rest })))

/-! ### Events of the attention engine (R308 to R317) -/

/-- The array of a core is free for its attention engine, and active (R170, R308). -/
def Sys2Proof.Machine.arrayReady (s : State) (core : Nat) : Prop :=
  let c := s.core core
  c.array.busy = none ∧ c.array.slaved = false ∧ c.array.active = true ∧ s.time - c.array.lastUse < 256 ∧ c.matQ = [] ∧
  (core % 2 = 1 → (s.core (core - 1)).matQ = []) ∧
  (s.die (dieOf core)).limiter.window = s.time / 64

/-- A descriptor is valid but for its cursor (R305, R315). -/
def Sys2Proof.Machine.Desc.legal (d : Desc) : Prop :=
  1 ≤ d.rows ∧ d.rows ≤ 128 ∧ d.len ≤ 2 ^ 24 ∧ d.wstart ≤ 2 ^ 24 ∧ d.mapb % 256 = 0 ∧ d.mapb < 2 ^ 52 ∧ d.zeros = true ∧
  (fp32.val d.scale).finite = true ∧ 0 < (fp32.val d.scale).exact ∧ (fp32.val d.tau).finite = true ∧
  0 ≤ (fp32.val d.tau).exact ∧ (fp32.val d.tau).exact < 1

/-- R308, R310 to R317: `ATTN_START` and `ATTN_VISIT` complete. The engine of a core begins its oldest operation when it runs none: an
illegal descriptor ends it with cause 0x13, SUB 10; a resumption of a query that stands as a stop left it keeps the tile and takes
VISITS from the cursor, and one of a query that no stop left ends at once, its outputs undefined, without a trap; a fresh start
of an empty window unsets its rows and clears columns 0 to 127. A page trimmed since is marked visited without its frame being
read; when no page is left the operation stops with STOP 2, its sums and references in columns 128 and 129, +0 in column 130,
BRIM and CURSOR written. -/
def Obligations.AttentionEngineEvents : Prop :=
  (∀ (s : State) (core : Nat), (s.core core).attnQ = [] ∨ (∃ r, (s.core core).attnRun = some r ∧
      ∀ o ∈ (s.core core).attnQ, s.blockLeaves o.bid = false) → exec (.attnStart core) s = .next s) ∧
  (∀ (s : State) (core : Nat), (s.core core).attnRun = none → exec (.attnVisit core) s = .next s) ∧
  (∀ (s : State) (core : Nat) (o : AttnOp) (rest : List AttnOp) (g : Group) (b : Block) (p : OpRec) (d : Desc) (lin : Nat),
    (s.core core).attnRun = none → (s.core core).attnQ = o :: rest → o.core = core → (∀ q ∈ rest, q.id ≠ o.id) →
    (∀ q ∈ o :: rest, s.blockLeaves q.bid = false) → o.tier = [] → arrayReady s core → s.groups.get? o.gid = some g → atRest s g →
    g.bd = [] → g.ops = [p] → p.id = o.id → p.spoilt = false → g.errs = [] → s.blocks.get? o.bid = some b →
    (s.tileOf core o.tile).spoilt = false → lin = s.spBase o.ctx (dieOf core) + o.desc → (s.core core).wbuf = [] →
    (∃ k, (s.tileOf core o.tile).owner = some k ∧ (s.blocks.get? k).isSome = true) →
    d = descOf ((s.ownView o.gid o.id).spdRead core lin 64) → ∃ t : State, exec (.attnStart core) s = .next t ∧
    t.main = s.main ∧ (t.core core).attnQ = rest ∧
    (d.rows = 0 ∨ 128 < d.rows ∨ 2 ^ 24 < d.len ∨ d.mapb % 256 ≠ 0 → o.resume = false →
      (t.core core).attnRun = none ∧ (t.die (dieOf core)).scratch.readN (lin + 0x28) 8 = 2 ^ 63 + 4 * 2 ^ 59 ∧
      (t.tileOf core o.tile).data = (s.tileOf core o.tile).data ∧ ∃ h, t.groups.get? o.gid = some h ∧
        h.ops = [{ p with done := true }] ∧
        h.errs = [⟨2, o.id, p.batch, 0x13, BitVec.ofNat 64 (10 * 2 ^ 60 + 3 * 2 ^ 58)⟩]) ∧
    (d.legal → o.work.toNat + 8 * pagesIn d.len d.wstart ≤ b.shmKiB * 1024 → (s.slotOf core o.slotQ).prev = [] →
      (∀ a n, s.flightSlot core o.slotQ a n = false) →
      (∀ i j, i < d.rows → j < 128 → (bf16.val ((s.slotOf core o.slotQ).mem.readN (256 * i + 2 * j) 2)).finite = true) →
      let run : Nat → AttnRun := fun visits =>
        { op := o, rows := d.rows, len := d.len, wstart := d.wstart, scale := BitVec.ofNat 32 d.scale,
          tau := BitVec.ofNat 32 d.tau, budget := d.budget, mapb := d.mapb, np := pagesIn d.len d.wstart, visits := visits,
          desc := (s.ownView o.gid o.id).spdRead core lin 64, query := (List.range d.rows).map (fun i => (List.range 128).map (fun j =>
            (s.slotOf core o.slotQ).mem.readN (256 * i + 2 * j) 2)), shm := none }
      let old := run (bits d.cursor 0 32)
      (o.resume = true → bits d.cursor 62 2 = 3 → bits d.cursor 32 17 = pagesIn d.len d.wstart →
        (s.queryKept old = true → (t.core core).attnRun = some old ∧ t.tileOf core o.tile = s.tileOf core o.tile) ∧
        (b.queries = [] → (t.core core).attnRun = none ∧ ∃ h q, t.groups.get? o.gid = some h ∧ h.ops = [q] ∧ q.id = o.id ∧
          q.done = true ∧ q.spoilt = true ∧ h.errs = [])) ∧
      (o.resume = false → d.len ≤ d.wstart → (t.core core).attnRun = some (run 0) ∧ ∀ i < d.rows,
        (t.tileOf core o.tile).rows.get? i = some ⟨none, 0⟩ ∧ ∀ c < 128, (t.tileOf core o.tile).elem (192 * i + c) = 0))) ∧
  (∀ (s : State) (core : Nat) (r : AttnRun) (o : AttnOp) (g : Group) (b : Block) (p : OpRec) (lin : Nat),
    (s.core core).attnRun = some r → o = r.op → o.core = core → r.shm = none → s.groups.get? o.gid = some g → atRest s g → g.bd = [] →
    g.ops = [p] → p.id = o.id → p.spoilt = false → g.errs = [] → s.blocks.get? o.bid = some b → b.evicting = false →
    (s.tileOf core o.tile).spoilt = false → lin = s.spBase o.ctx (dieOf core) + o.desc → r.rows ≤ 128 →
    (s.core core).wbuf = [] →
    (∃ k, (s.tileOf core o.tile).owner = some k ∧ (s.blocks.get? k).isSome = true) →
    let entry := fun (k : Nat) => leNat ((s.ownView o.gid o.id).shmRead o.bid (o.work.toNat + 8 * k) 8)
    let x := s.tileOf core o.tile
    ((∀ k < r.np, entry k / 2 ^ 45 % 4 ≠ 0) → ∃ t h, exec (.attnVisit core) s = .next t ∧ t.main = s.main ∧
      (t.core core).attnRun = none ∧ t.groups.get? o.gid = some h ∧ h.ops = [{ p with done := true }] ∧ h.errs = [] ∧
      (t.die (dieOf core)).scratch.readN (lin + 0x28) 8 =
        2 ^ 63 + 2 ^ 62 + 2 * 2 ^ 59 + r.np % 2 ^ 17 * 2 ^ 32 + r.visits % 2 ^ 32 ∧
      (t.die (dieOf core)).scratch.readN (lin + 0x30) 4 = 0 ∧
      ∀ i < r.rows, let row := x.rows.getD i ⟨none, 0⟩
        let y := t.tileOf core o.tile
        y.elem (192 * i + 128) = row.sum.toNat ∧ y.elem (192 * i + 130) = 0 ∧
        (row.eref = none → y.elem (192 * i + 129) = 0xFF800000) ∧
        (∀ e, row.eref = some e → e.natAbs < 2 ^ 24 → (fp32.val (y.elem (192 * i + 129))).finite = true ∧
          (fp32.val (y.elem (192 * i + 129))).exact = (e : Rat)) ∧
        ∀ c < 128, y.elem (192 * i + c) = x.elem (192 * i + c)) ∧
    (arrayReady s core → o.tier = [] → s.attnReady r (r.wstart / 64) (entry 0 / 2 ^ 32 % 64) (entry 0 / 2 ^ 38 % 128) = true →
      s.attnLines r (r.wstart / 64) (entry 0 / 2 ^ 32 % 64) (entry 0 / 2 ^ 38 % 128) = [] → r.np = 1 → entry 0 / 2 ^ 45 % 4 = 0 → r.budget = 0 ∨ r.visits < r.budget → 0 < r.rows →
      (x.rows.getD 0 ⟨none, 0⟩).eref = none → (fp32.val (x.rows.getD 0 ⟨none, 0⟩).sum.toNat).finite = true →
      (fp32.val r.tau.toNat).finite = true → (fp32.val r.tau.toNat).exact < 1 →
      (∃ bs, s.kvRead core o.ctx .attention (r.mapb + 4 * (r.wstart / 64)) 4 = .ok bs ∧
        (leNat bs / 2 ^ 28 % 16 = 3 ∨ leNat bs / 2 ^ 28 % 16 = 7)) → ∃ t b', exec (.attnVisit core) s = .next t ∧
      ((∀ k < 64, s.migState k ≠ 2) → t.main = s.main) ∧
      (t.core core).attnRun = some { r with visits := r.visits + 1 } ∧
      t.blocks.get? o.bid = some b' ∧ b'.shm = b.shm.writeN o.work.toNat 8 (entry 0 + 2 ^ 45) ∧
      t.tileOf core o.tile = x))

/-! ### Events of the host, of system software and of the debugger (R362, R363, R376 to R378, R381, R384, R385, R387) -/

/-- R5, R17, R61, R62, R69, R71, R276, R362, R363, R376 to R378, R381, R384, R385, R387: every one of these events completes. KILL ends a
context and reports it; host accesses stay inside HMLIM and HBM, a refused one counted, and wait for channels that change their
rate; boot reports the images that failed; a register write reaches the writable fields of its register and no other, and the
window of constants every core's store; a foreman core takes a request for a report from the mailbox, and answers it; and the
debugger halts, frees and steps splits, attaches, and writes its window while the selected group is halted. An access of another
size or out of line reads all ones, or is discarded (R377). The model's own choices are one boot and what then fails (log 100), what
responds (log 99), a misaligned address of a report (log 102), one count for a refused access (log 103), which writes go through
the window of constants (log 131), when a host access is served at once (log 111), and the debugger's order and waits (logs 73 to
80). -/
def Obligations.HostAndDebuggerEvents : Prop :=
  (∀ (s : State) (ctx : Nat) (v old : Word), old = s.ctxReg ctx 0x16C →
    (v.getLsbD 62 = false → exec (.termrepKill ctx v) s = .next s) ∧
    (v.getLsbD 62 = true → (∀ e ∈ (s.ctx ctx).tg, e.1 < 16) → ∃ t l, exec (.termrepKill ctx v) s = .next t ∧ t.msix = s.msix ++ ⟨1, ctx⟩ :: l ∧
      (∀ k g, t.groups.get? k = some g → g.ctx ≠ ctx) ∧ (t.ctxReg ctx 0x16C).getLsbD 63 = true ∧
      bits (t.ctxReg ctx 0x16C) 0 12 = 4 * 2 ^ 8 ∧ (∀ n ∈ [0x16D, 0x16E, 0x16F], t.ctxReg ctx n = 0) ∧
      (t.ctxReg ctx 0x16C).getLsbD 61 =
        ((old.getLsbD 63 && !v.getLsbD 63) || (old.getLsbD 61 && !v.getLsbD 61)))) ∧
  (∀ (s : State) (pa len lo hi : Nat) (bytes : List Byte), lo = bits (s.pkgReg 6) 0 10 * 2 ^ 30 →
    hi = min (lo + bits (s.pkgReg 6) 32 10 * 2 ^ 30) 0xC000000000 →
    let refused := s.setPkgReg 7 (BitVec.ofNat 64 (min (2 ^ 64 - 1) ((s.pkgReg 7).toNat + 1)))
    (pa < lo ∨ hi < pa + len → exec (.hostMemRead pa len) s = .next { refused with hostRead := .poison }) ∧
    (lo ≤ pa → pa + len ≤ hi → s.canServe pa len = true → ∃ t : State, exec (.hostMemRead pa len) s = .next t ∧
      t.main = s.main ∧ t.groups = s.groups ∧ t.requests = s.requests ∧ t.hostWaits = s.hostWaits ∧
      (s.unitErrs = [] → s.copies = [] →
        t.hostRead = if (s.pkgReg 5).getLsbD 1 then .poison else .data (s.main.readBytes pa len)) ∧
      ((∃ n, s.unitErrs = [(pa / 32, .poison n)]) → 0 < len → t.hostRead = .poison)) ∧
    (lo ≤ pa → pa + len ≤ hi → s.canServe pa len = false → ∃ (t : State) (id : Nat) (rs : List MemReq),
      exec (.hostMemRead pa len) s = .next t ∧ t.main = s.main ∧ t.requests = s.requests ++ rs ∧
      t.hostWaits = s.hostWaits ++ [⟨id, rs.length, [], false⟩] ∧
      (∀ q ∈ rs, q.cls = 2 ∧ q.ctx = 0 ∧ q.stamp = (s.dlclk + bits (s.ctxReg 0 0x122) 24 12) % 65536 ∧
        q.route = .channel (schedOf q.pa) ∧ ∃ n, q.op = .hostRead id (q.pa - pa) n ∧ pa ≤ q.pa ∧ q.pa + n ≤ pa + len) ∧
      ∀ a, pa ≤ a → a < pa + len → ∃ q ∈ rs, ∃ o n, q.op = .hostRead id o n ∧ q.pa ≤ a ∧ a < q.pa + n) ∧
    (pa < lo ∨ hi < pa + bytes.length → exec (.hostMemWrite pa bytes) s = .next refused) ∧
    (lo ≤ pa → pa + bytes.length ≤ hi → s.canServe pa bytes.length = true → s.unitErrs = [] → ∃ t : State,
      exec (.hostMemWrite pa bytes) s = .next t ∧ t.main = s.main.writeBytes pa bytes ∧ t.groups = s.groups ∧
      t.unitErrs = [] ∧ t.requests = s.requests) ∧
    (lo ≤ pa → pa + bytes.length ≤ hi → s.canServe pa bytes.length = false → ∃ (t : State) (rs : List MemReq),
      exec (.hostMemWrite pa bytes) s = .next t ∧ t.main = s.main ∧ t.requests = s.requests ++ rs ∧
      (∀ q ∈ rs, q.cls = 2 ∧ q.ctx = 0 ∧ q.stamp = (s.dlclk + bits (s.ctxReg 0 0x122) 24 12) % 65536 ∧
        q.route = .channel (schedOf q.pa) ∧ ∃ n, q.op = .hostWrite ((bytes.drop (q.pa - pa)).take n) ∧ pa ≤ q.pa ∧
          q.pa + n ≤ pa + bytes.length) ∧
      ∀ a, pa ≤ a → a < pa + bytes.length → ∃ q ∈ rs, ∃ part, q.op = .hostWrite part ∧ q.pa ≤ a ∧ a < q.pa + part.length)) ∧
  (∀ (s : State) (fm bd sv : Bool), (s.booted = true → exec (.boot fm bd sv) s = .next s) ∧
    (s.booted = false → ∃ t : State, exec (.boot fm bd sv) s = .next t ∧ t.booted = true ∧ t.groups = s.groups ∧
      t.pkgReg 5 = BitVec.ofNat 64 (2 ^ 63 + (if sv then 0 else 4) + (if bd then 0 else 2) + (if fm then 0 else 1)) ∧
      (∀ k < 12, (t.pkgReg (0x020 + k)).getLsbD 63 = (!bd || (s.pkgReg (0x020 + k)).getLsbD 63)) ∧ t.main = s.main)) ∧
  (∀ (s : State) (c n r : Nat) (v : Word),
    exec (.registerWrite .package 0 v) s = .next (s.setPkgReg 0 (v &&& 0x00000FFFFFFFFFFF)) ∧
    exec (.registerWrite .package 6 v) s = .next (s.setPkgReg 6 (v &&& 0x000003FF000003FF)) ∧
    (∀ k ∈ [4, 5, 0x34, 0x35, 0x36, 0x37, 0x400, 0x601], exec (.registerWrite .package k v) s = .next s) ∧
    (∀ k < 12, (s.pkgReg (0x020 + k)).getLsbD 63 = true → ∃ t : State, exec (.registerWrite .package (0x020 + k) v) s = .next t ∧
      (t.pkgReg (0x020 + k)).getLsbD 61 = v.getLsbD 61 ∧ bits (t.pkgReg (0x020 + k)) 0 16 = bits v 0 16 ∧
      (t.pkgReg (0x020 + k)).getLsbD 62 = ((s.pkgReg (0x020 + k)).getLsbD 62 && !v.getLsbD 62)) ∧
    (c ≤ 192 → n + r ≤ s.cnExtent c → ∃ t : State, exec (.registerWrite (.constants c r) n v) s = .next t ∧
      t.main = s.main ∧ ∀ k < 96, (t.core k).const = (s.core k).const.writeN (s.cnBase c + n) r v.toNat) ∧
    (∀ w size low, ¬ (size = 8 ∧ low = 0) → exec (.registerWrite (.access w false size low) n v) s = .next s ∧
      ((s.viewRead n w).isSome = true → exec (.registerWrite (.access w true size low) n v) s =
        .next { s with hostRead := .data (List.replicate size 0xFF) })) ∧
    (∀ w x low, s.viewRead n w = some x → low = 0 → exec (.registerWrite (.access w true 8 low) n v) s =
      .next { s with hostRead := .data (leBytes 8 x.toNat) }) ∧
    (∀ w, s.viewRead n w = none → exec (.registerWrite (.access w true 8 0) n v) s = .next { s with hostRead := .none }) ∧
    (∀ k, (k < 0x1000 ∧ k ≠ 4 ∧ k ≠ 0x601 → s.viewRead k .package = some (s.pkgReg k)) ∧
      (c ≤ 192 → k ≠ 0x150 → k ≠ 0x151 → s.viewRead k (.privileged c) = some (s.ctxReg c k)) ∧
      (c ≤ 192 → s.responds c = true → s.viewRead 0x200 (.context c) = some (s.ctxReg c 0x200)) ∧
      (c ≤ 192 → s.responds c = true → k < 0x100 ∨ (0x150 ≤ k ∧ k ≠ 0x200) → s.viewRead k (.context c) = some 0) ∧
      (s.responds c = false → s.viewRead k (.context c) = none ∧ s.viewRead k (.benchPort c r) = none)) ∧
    exec (.registerWrite (.access .package false 8 0) n v) s = exec (.registerWrite .package n v) s ∧
    exec (.registerWrite (.access (.privileged c) false 8 0) n v) s = exec (.registerWrite (.privileged c) n v) s ∧
    exec (.registerWrite (.access (.context c) false 8 0) n v) s = exec (.registerWrite (.context c) n v) s ∧
    exec (.registerWrite (.access (.benchPort c r) false 8 0) n v) s = exec (.registerWrite (.benchPort c r) n v) s ∧
    (c ≤ 192 → exec (.registerWrite (.privileged c) 0x160 v) s = .next (s.setCtxReg c 0x160 (v &&& 0x00000FFFFFFF0001)) ∧
      exec (.registerWrite (.privileged c) 0x161 v) s = .next (s.setCtxReg c 0x161 (v &&& 0x800FFFFFFFFFFFF8)) ∧
      exec (.registerWrite (.privileged c) 0x162 v) s = .next (s.setCtxReg c 0x162 v) ∧
      ∀ k ∈ [0x150, 0x151, 0x165], exec (.registerWrite (.privileged c) k v) s = .next s) ∧
    (192 < c → exec (.registerWrite (.privileged c) n v) s = .next s ∧
      exec (.registerWrite (.context c) n v) s = .next s) ∧
    (c ≤ 192 → n < 0x130 ∨ (0x150 ≤ n ∧ n ≠ 0x200) → exec (.registerWrite (.context c) n v) s = .next s) ∧
    (c ≤ 192 → exec (.registerWrite (.context c) 0x200 v) s = exec (.kick c v) s) ∧
    (c ≤ 192 → r < 16 → s.responds c = true → 1 ≤ n → n ≤ 7 → exec (.registerWrite (.benchPort c r) n v) s =
      .next (s.setPort c r { s.port c r with words := (s.port c r).words.set n v }))) ∧
  (∀ (s : State) (ctx d k : Nat), s.reportAsked ctx = none →
    (s.benchUsable ctx (s.mailbox ctx) = false ∨ (s.pkgReg 5).getLsbD 0 = true → exec (.attestationReport ctx) s = .next s) ∧
    (s.benchUsable ctx (s.mailbox ctx) = true → (s.pkgReg 5).getLsbD 0 = false → homes (s.ctxReg ctx (0x110 + s.mailbox ctx)) 0xFFFF0010 d k →
      ∃ (t : State) (q : BenchReq), exec (.attestationReport ctx) s = .next t ∧ t.main = s.main ∧ t.groups = s.groups ∧
        (t.slice d k).all = (s.slice d k).all ++ [.bench q] ∧ q.op = .tak ∧ q.poll = true ∧ q.tag = 0xFFFF0010 ∧
        q.ctx = ctx ∧ q.region = s.mailbox ctx ∧ q.who = .attest ctx)) ∧
  (∀ (s : State) (ctx d k : Nat) (fields : List Word) (va : Nat), s.reportAsked ctx = some fields → s.memOpen = true →
    s.benchUsable ctx (s.mailbox ctx) = true → (s.pkgReg 5).getLsbD 0 = false → homes (s.ctxReg ctx (0x110 + s.mailbox ctx)) 0xFFFF0011 d k →
    va = (fields.getD 6 0).toNat → ∃ (t : State) (q : BenchReq), exec (.attestationReport ctx) s = .next t ∧
      t.msix = s.msix ++ [⟨0, ctx⟩] ∧ t.foreman = s.foreman.erase (.asked ctx fields) ∧
      (t.slice d k).all = (s.slice d k).all ++ [.bench q] ∧ q.op = .dep ∧
      q.tag = 0xFFFF0011 ∧ q.ctx = ctx ∧ q.region = s.mailbox ctx ∧ q.who = .foreman ∧
      (va % 1024 ≠ 0 → q.fields = [1] ∧ t.main = s.main) ∧
      (va % 1024 = 0 → ∃ bytes : List Byte, bytes.length = 512 ∧ bytes.take 8 = leBytes 4 1 ++ leBytes 4 ctx ∧
        (bytes.drop 0x10).take 48 = (List.range 6).flatMap (fun i => leBytes 8 (fields.getD i 0).toNat) ∧
        (∀ b ∈ bytes.drop 0x1C4, b = 0) ∧
        (∀ w, State.writeCtx { s with foreman := s.foreman.erase (.asked ctx fields) } ctx va bytes = .ok w →
          q.fields = [0] ∧ t.main = w.main) ∧
        (∀ e, State.writeCtx { s with foreman := s.foreman.erase (.asked ctx fields) } ctx va bytes = .error e →
          q.fields = [1] ∧ t.main = s.main))) ∧
  (∀ (s : State) (v : Word), (∃ e ∈ s.groups, ∃ f ∈ e.2.splits, f.2.stepping = true) →
    ∀ x ∈ [Instr.dbgHalt v, .dbgResume v, .dbgStep v, .dbgStepAll v, .dbgAttach v, .dbgDetach v],
      exec x s = .next s) ∧
  (∀ (s : State) (v : Word) (gid sid : Nat) (g : Group) (sp : Split), s.groups = [(gid, g)] → g.ctx = bits v 38 8 →
    g.core = bits v 46 7 → g.slot = bits v 53 4 → atRest s g → g.splits = [(sid, sp)] → sid = bits v 57 2 →
    s.windowWrites = [] →
    let u := s.setPkgReg 0x600 (v &&& 0x1FFFFFC000000000)
    let now := fun (x : Instr) (P : Split → Prop) => ∃ t h q, exec x s = .next t ∧ t.groups = [(gid, h)] ∧
      h.splits = [(sid, q)] ∧ h.v = g.v ∧ h.p = g.p ∧ t.main = s.main ∧ t.pkg = u.pkg ∧ q.pc = sp.pc ∧ q.s = sp.s ∧
      q.mask = sp.mask ∧ P q
    (sp.halted = false → sp.wait = .none → now (.dbgHalt v) (fun q => q.halted = true ∧ q.trap.cause = 0x10 ∧
      q.trap.trapi = sp.pc ∧ q.trap.trape = sp.region ∧ q.trap.trapm = sp.mask.setWidth 64 ∧ q.trap.pend = 0 ∧
      q.trap.hnd = sp.trap.hnd)) ∧
    (sp.halted = true → sp.pendFault = none → (∀ b sd x, sp.wait ≠ .wmon b sd x) →
      now (.dbgResume v) (fun q => q.halted = false ∧ q.trap.pend = 0)) ∧
    (∀ b sd, sp.pendFault = none → sp.wait = .wmon b sd none → ∃ t h q, exec (.dbgResume v) s = .next t ∧
      t.groups = [(gid, h)] ∧ h.splits = [(sid, q)] ∧ q.halted = false ∧ q.get sd = 3 ∧ q.pc = sp.pc + 8 ∧ q.wait = .none) ∧
    (sp.halted = true → sp.wait = .none → sp.atRecord = false → ∀ x ∈ [Instr.dbgStep v, .dbgStepAll v],
      now x (fun q => q.halted = true ∧ q.stepping = true ∧ q.trap.pend = 0)) ∧
    (sp.halted = false ∨ sp.atRecord = true → ∀ x ∈ [Instr.dbgStep v, .dbgStepAll v], now x (fun q => q = sp))) ∧
  (∀ (s : State) (v : Word), (∀ e ∈ s.groups, ∀ f ∈ e.2.splits, f.2.stepping = false) →
    let u := s.setPkgReg 0x600 (v &&& 0x1FFFFFC000000000)
    exec (.dbgAttach v) s = .next (u.setCtx (bits v 38 8) { s.ctx (bits v 38 8) with attached := true }) ∧
    exec (.dbgDetach v) s = .next (u.setCtx (bits v 38 8) { s.ctx (bits v 38 8) with attached := false })) ∧
  (∀ (s : State) (off gid : Nat) (v c : Word) (g : Group), c = s.pkgReg 0x600 → s.groups = [(gid, g)] →
    g.ctx = bits c 38 8 → g.core = bits c 46 7 → g.slot = bits c 53 4 → g.status = .running →
    (off % 8 ≠ 0 ∨ 0x8000 ≤ off ∨ g.splits = [] ∨ (∃ e ∈ g.splits, e.2.halted = false) →
      exec (.debugWindowWrite off v) s = .next s) ∧
    (off % 8 = 0 → off < 0x7700 → g.splits ≠ [] → (∀ e ∈ g.splits, e.2.halted = true) → ∃ ww : Sparse Byte,
      exec (.debugWindowWrite off v) s = .next { s with windowWrites := ww } ∧
      ∀ i < 8, ww.get? (gid * 2 ^ 20 + off + i) = some (BitVec.ofNat 8 (bits v (8 * i) 8))))

end
end

