-- ==== Sys2Proof/Laws/Sparse.lean ====
section
/-!
SUPPORT. Sparse arrays: reading after writing, and the rising order of the keys.
-/
namespace Sys2Proof

variable {α : Type}

@[simp] theorem Sparse.get?_nil (k : Nat) : Sparse.get? ([] : Sparse α) k = none := rfl

@[simp] theorem Sparse.get?_set_same (m : Sparse α) (k : Nat) (v : α) : (m.set k v).get? k = some v := by
  induction m with
  | nil => simp [Sparse.set, Sparse.get?]
  | cons e t ih =>
    obtain ⟨j, w⟩ := e
    unfold Sparse.set
    split
    · simp [Sparse.get?]
    · split
      · simp [Sparse.get?]
      · next h => simp [Sparse.get?, h, ih]

theorem Sparse.get?_set_ne (m : Sparse α) {k j : Nat} (v : α) (h : j ≠ k) : (m.set k v).get? j = m.get? j := by
  induction m with
  | nil => simp [Sparse.set, Sparse.get?, h.symm]
  | cons e t ih =>
    obtain ⟨i, w⟩ := e
    unfold Sparse.set
    split
    · simp [Sparse.get?, h.symm]
    · split
      · next hi => subst hi; simp [Sparse.get?, h.symm]
      · simp [Sparse.get?, ih]

theorem Sparse.get?_set (m : Sparse α) (k j : Nat) (v : α) :
    (m.set k v).get? j = if j = k then some v else m.get? j := by
  by_cases h : j = k
  · subst h; simp
  · simp [h, Sparse.get?_set_ne m v h]

@[simp] theorem Sparse.set_set (m : Sparse α) (k : Nat) (v w : α) : (m.set k v).set k w = m.set k w := by
  induction m with
  | nil => simp [Sparse.set]
  | cons e t ih =>
    obtain ⟨j, x⟩ := e
    by_cases h1 : k < j
    · simp [Sparse.set, h1]
    · by_cases h2 : j = k
      · subst h2; simp [Sparse.set]
      · simp [Sparse.set, h1, h2, ih]

@[simp] theorem Sparse.getD_nil (k : Nat) (d : α) : Sparse.getD ([] : Sparse α) k d = d := rfl

@[simp] theorem Sparse.getD_set_same (m : Sparse α) (k : Nat) (v d : α) : (m.set k v).getD k d = v := by
  simp [Sparse.getD]

theorem Sparse.getD_set_ne (m : Sparse α) {k j : Nat} (v d : α) (h : j ≠ k) :
    (m.set k v).getD j d = m.getD j d := by
  simp [Sparse.getD, Sparse.get?_set_ne m v h]

theorem Sparse.get?_erase_ne (m : Sparse α) {k j : Nat} (h : j ≠ k) : (m.erase k).get? j = m.get? j := by
  induction m with
  | nil => rfl
  | cons e t ih =>
    obtain ⟨i, w⟩ := e
    simp only [Sparse.erase, ne_eq, decide_not] at ih ⊢
    by_cases hi : i = k
    · subst hi; simp [Sparse.get?, h.symm, ih]
    · simp [Sparse.get?, hi, ih]

@[simp] theorem Sparse.get?_erase_same (m : Sparse α) (k : Nat) : (m.erase k).get? k = none := by
  induction m with
  | nil => rfl
  | cons e t ih =>
    obtain ⟨i, w⟩ := e
    simp only [Sparse.erase, ne_eq, decide_not] at ih ⊢
    by_cases hi : i = k
    · simp [hi, ih]
    · simp [Sparse.get?, hi, ih]

/-! ### Rising keys -/

theorem Sparse.sorted_cons {j : Nat} {w : α} {t : Sparse α} :
    Sparse.sorted ((j, w) :: t) = true ↔ (∀ e ∈ t, j < e.1) ∧ Sparse.sorted t = true := by
  induction t generalizing j w with
  | nil => simp [Sparse.sorted]
  | cons e t ih =>
    obtain ⟨k, x⟩ := e
    simp only [Sparse.sorted, Bool.and_eq_true, decide_eq_true_eq, List.mem_cons, forall_eq_or_imp]
    constructor
    · rintro ⟨h, hs⟩
      exact ⟨⟨h, fun e he => lt_trans h ((ih.mp hs).1 e he)⟩, hs⟩
    · rintro ⟨⟨h, _⟩, hs⟩
      exact ⟨h, hs⟩

theorem Sparse.mem_set {m : Sparse α} {k : Nat} {v : α} {e : Nat × α} (h : e ∈ m.set k v) :
    e = (k, v) ∨ e ∈ m := by
  induction m with
  | nil => simpa [Sparse.set] using h
  | cons a t ih =>
    obtain ⟨j, w⟩ := a
    unfold Sparse.set at h
    split at h
    · simpa using h
    · split at h
      · rcases List.mem_cons.mp h with h | h
        · exact .inl h
        · exact .inr (List.mem_cons_of_mem _ h)
      · rcases List.mem_cons.mp h with h | h
        · exact .inr (by simp [h])
        · exact (ih h).imp_right (List.mem_cons_of_mem _)

theorem Sparse.sorted_set {m : Sparse α} (k : Nat) (v : α) (h : m.sorted = true) : (m.set k v).sorted = true := by
  induction m with
  | nil => rfl
  | cons a t ih =>
    obtain ⟨j, w⟩ := a
    obtain ⟨hj, ht⟩ := Sparse.sorted_cons.mp h
    unfold Sparse.set
    split
    · next hk =>
      refine Sparse.sorted_cons.mpr ⟨?_, h⟩
      rintro e he
      rcases List.mem_cons.mp he with he | he
      · simpa [he] using hk
      · exact lt_trans hk (hj e he)
    · split
      · next hk => subst hk; exact Sparse.sorted_cons.mpr ⟨hj, ht⟩
      · next h1 h2 =>
        refine Sparse.sorted_cons.mpr ⟨?_, ih ht⟩
        intro e he
        rcases Sparse.mem_set he with he | he
        · subst he; simp; omega
        · exact hj e he

theorem Sparse.sorted_erase {m : Sparse α} (k : Nat) (h : m.sorted = true) : (m.erase k).sorted = true := by
  induction m with
  | nil => rfl
  | cons a t ih =>
    obtain ⟨j, w⟩ := a
    obtain ⟨hj, ht⟩ := Sparse.sorted_cons.mp h
    have ih := ih ht
    unfold Sparse.erase at ih ⊢
    by_cases hk : j = k
    · simpa [hk] using ih
    · simp only [List.filter_cons, ne_eq, hk, not_false_eq_true, decide_true, if_true]
      exact Sparse.sorted_cons.mpr ⟨fun e he => hj e (List.mem_of_mem_filter he), ih⟩

end Sys2Proof
end

