-- ==== Sys2Proof/Laws/Memory.lean ====
section
/-!
SUPPORT. Byte memories: a read gives what was last written, a write leaves every other byte alone, and every
operation keeps the canonical form.
-/
namespace Sys2Proof.Machine

@[simp] theorem Memory.write_seed (m : Memory) (a : Nat) (b : Byte) : (m.write a b).seed = m.seed := by
  unfold Memory.write; split <;> rfl

@[simp] theorem Memory.read_write_same (m : Memory) (a : Nat) (b : Byte) : (m.write a b).read a = b := by
  unfold Memory.write
  split
  · next h => simp [Memory.read, h.1, h.2]
  · simp [Memory.read]

theorem Memory.read_write_ne (m : Memory) {a c : Nat} (b : Byte) (h : c ≠ a) : (m.write a b).read c = m.read c := by
  unfold Memory.write
  split
  · simp [Memory.read, Sparse.get?_erase_ne m.cells h]
  · simp [Memory.read, Sparse.get?_set_ne m.cells b h]

/-- Writing bytes leaves every address outside them alone. -/
theorem Memory.read_writeBytes_outside (m : Memory) (a : Nat) (bs : List Byte) {c : Nat}
    (h : c < a ∨ a + bs.length ≤ c) : (m.writeBytes a bs).read c = m.read c := by
  induction bs generalizing m a with
  | nil => rfl
  | cons b t ih =>
    simp only [List.length_cons] at h
    rw [Memory.writeBytes, ih _ _ (by omega), Memory.read_write_ne _ _ (by omega)]

/-- Byte `i` of what was written is read back. -/
theorem Memory.read_writeBytes (m : Memory) (a : Nat) (bs : List Byte) {i : Nat} (h : i < bs.length) :
    (m.writeBytes a bs).read (a + i) = bs[i] := by
  induction bs generalizing m a i with
  | nil => simp at h
  | cons b t ih =>
    cases i with
    | zero =>
      rw [Memory.writeBytes, Memory.read_writeBytes_outside _ _ _ (by omega)]
      simp
    | succ i =>
      have := ih (m.write a b) (a + 1) (i := i) (by simpa using h)
      rw [Memory.writeBytes, show a + (i + 1) = a + 1 + i by omega, this]
      simp

theorem Memory.readBytes_length (m : Memory) (a n : Nat) : (m.readBytes a n).length = n := by
  induction n generalizing a with
  | zero => rfl
  | succ n ih => simp [Memory.readBytes, ih]

/-- Reading back the bytes just written gives them. -/
theorem Memory.readBytes_writeBytes (m : Memory) (a : Nat) (bs : List Byte) :
    (m.writeBytes a bs).readBytes a bs.length = bs := by
  induction bs generalizing m a with
  | nil => rfl
  | cons b t ih =>
    simp only [List.length_cons, Memory.readBytes, Memory.writeBytes, ih]
    rw [Memory.read_writeBytes_outside _ _ _ (by omega), Memory.read_write_same]

/-! ### The canonical form -/

theorem Memory.wf_write {m : Memory} (a : Nat) (b : Byte) (h : m.wf = true) : (m.write a b).wf = true := by
  unfold Memory.wf at h ⊢
  obtain ⟨hs, hz⟩ := Bool.and_eq_true_iff.mp h
  unfold Memory.write
  split
  · next hc =>
    refine Bool.and_eq_true_iff.mpr ⟨Sparse.sorted_erase a hs, ?_⟩
    simp only [hc.1, Option.isSome_none, Bool.false_or, List.all_eq_true] at hz ⊢
    exact fun e he => hz e (List.mem_of_mem_filter he)
  · next hc =>
    refine Bool.and_eq_true_iff.mpr ⟨Sparse.sorted_set a b hs, ?_⟩
    cases hseed : m.seed with
    | some n => simp
    | none =>
      simp only [hseed, Option.isSome_none, Bool.false_or, List.all_eq_true, true_and] at hz hc ⊢
      intro e he
      rcases Sparse.mem_set he with he | he
      · subst he; simpa using hc
      · exact hz e he

theorem Memory.wf_writeBytes {m : Memory} (a : Nat) (bs : List Byte) (h : m.wf = true) :
    (m.writeBytes a bs).wf = true := by
  induction bs generalizing m a with
  | nil => exact h
  | cons b t ih => exact ih (a + 1) (Memory.wf_write a b h)

/-! ### Little-endian numbers (R4) -/

theorem leBytes_length (n v : Nat) : (leBytes n v).length = n := by
  induction n generalizing v with
  | zero => rfl
  | succ n ih => simp [leBytes, ih]

/-- The bytes of a number, read as a number, give it back modulo 2^(8n). -/
theorem leNat_leBytes (n v : Nat) : leNat (leBytes n v) = v % 256 ^ n := by
  induction n generalizing v with
  | zero => simp [leNat, leBytes, Nat.mod_one]
  | succ n ih =>
    have hb : (BitVec.ofNat 8 v).toNat = v % 256 := by simp
    rw [leBytes, leNat, ih, hb, pow_succ, mul_comm (256 ^ n) 256, Nat.mod_mul]

end Sys2Proof.Machine
end

