-- ==== Sys2Proof/Laws/State.lean ====
section
/-!
SUPPORT. What each basic update of the state does to each of its fields: one lemma per field and update.
-/
namespace Sys2Proof.Machine

variable (s : State)

/-! ### `setCtx` -/

@[simp] theorem State.setCtx_time (c : Nat) (x : Context) : (s.setCtx c x).time = s.time := rfl
@[simp] theorem State.setCtx_pkg (c : Nat) (x : Context) : (s.setCtx c x).pkg = s.pkg := rfl
@[simp] theorem State.setCtx_main (c : Nat) (x : Context) : (s.setCtx c x).main = s.main := rfl
@[simp] theorem State.setCtx_unitErrs (c : Nat) (x : Context) : (s.setCtx c x).unitErrs = s.unitErrs := rfl
@[simp] theorem State.setCtx_parity (c : Nat) (x : Context) : (s.setCtx c x).parity = s.parity := rfl
@[simp] theorem State.setCtx_ctxs (c : Nat) (x : Context) : (s.setCtx c x).ctxs = s.ctxs.set c x := rfl
@[simp] theorem State.setCtx_cores (c : Nat) (x : Context) : (s.setCtx c x).cores = s.cores := rfl
@[simp] theorem State.setCtx_dies (c : Nat) (x : Context) : (s.setCtx c x).dies = s.dies := rfl
@[simp] theorem State.setCtx_grids (c : Nat) (x : Context) : (s.setCtx c x).grids = s.grids := rfl
@[simp] theorem State.setCtx_blocks (c : Nat) (x : Context) : (s.setCtx c x).blocks = s.blocks := rfl
@[simp] theorem State.setCtx_groups (c : Nat) (x : Context) : (s.setCtx c x).groups = s.groups := rfl
@[simp] theorem State.setCtx_sched (c : Nat) (x : Context) : (s.setCtx c x).sched = s.sched := rfl
@[simp] theorem State.setCtx_copies (c : Nat) (x : Context) : (s.setCtx c x).copies = s.copies := rfl
@[simp] theorem State.setCtx_requests (c : Nat) (x : Context) : (s.setCtx c x).requests = s.requests := rfl
@[simp] theorem State.setCtx_completions (c : Nat) (x : Context) : (s.setCtx c x).completions = s.completions := rfl
@[simp] theorem State.setCtx_flits (c : Nat) (x : Context) : (s.setCtx c x).flits = s.flits := rfl
@[simp] theorem State.setCtx_channels (c : Nat) (x : Context) : (s.setCtx c x).channels = s.channels := rfl
@[simp] theorem State.setCtx_baseDies (c : Nat) (x : Context) : (s.setCtx c x).baseDies = s.baseDies := rfl
@[simp] theorem State.setCtx_migs (c : Nat) (x : Context) : (s.setCtx c x).migs = s.migs := rfl
@[simp] theorem State.setCtx_xlinv (c : Nat) (x : Context) : (s.setCtx c x).xlinv = s.xlinv := rfl
@[simp] theorem State.setCtx_partnerRecs (c : Nat) (x : Context) : (s.setCtx c x).partnerRecs = s.partnerRecs := rfl
@[simp] theorem State.setCtx_partnerAcks (c : Nat) (x : Context) : (s.setCtx c x).partnerAcks = s.partnerAcks := rfl
@[simp] theorem State.setCtx_hostRead (c : Nat) (x : Context) : (s.setCtx c x).hostRead = s.hostRead := rfl
@[simp] theorem State.setCtx_hostWaits (c : Nat) (x : Context) : (s.setCtx c x).hostWaits = s.hostWaits := rfl
@[simp] theorem State.setCtx_msix (c : Nat) (x : Context) : (s.setCtx c x).msix = s.msix := rfl
@[simp] theorem State.setCtx_foreman (c : Nat) (x : Context) : (s.setCtx c x).foreman = s.foreman := rfl
@[simp] theorem State.setCtx_windowWrites (c : Nat) (x : Context) : (s.setCtx c x).windowWrites = s.windowWrites := rfl
@[simp] theorem State.setCtx_booted (c : Nat) (x : Context) : (s.setCtx c x).booted = s.booted := rfl
@[simp] theorem State.setCtx_agenda (c : Nat) (x : Context) : (s.setCtx c x).agenda = s.agenda := rfl
@[simp] theorem State.setCtx_turn (c : Nat) (x : Context) : (s.setCtx c x).turn = s.turn := rfl
@[simp] theorem State.setCtx_fresh (c : Nat) (x : Context) : (s.setCtx c x).fresh = s.fresh := rfl
@[simp] theorem State.setCtx_nextId (c : Nat) (x : Context) : (s.setCtx c x).nextId = s.nextId := rfl

/-! ### `setCtxReg` -/

@[simp] theorem State.setCtxReg_time (c n : Nat) (v : Word) : (s.setCtxReg c n v).time = s.time := rfl
@[simp] theorem State.setCtxReg_pkg (c n : Nat) (v : Word) : (s.setCtxReg c n v).pkg = s.pkg := rfl
@[simp] theorem State.setCtxReg_main (c n : Nat) (v : Word) : (s.setCtxReg c n v).main = s.main := rfl
@[simp] theorem State.setCtxReg_unitErrs (c n : Nat) (v : Word) : (s.setCtxReg c n v).unitErrs = s.unitErrs := rfl
@[simp] theorem State.setCtxReg_parity (c n : Nat) (v : Word) : (s.setCtxReg c n v).parity = s.parity := rfl
@[simp] theorem State.setCtxReg_cores (c n : Nat) (v : Word) : (s.setCtxReg c n v).cores = s.cores := rfl
@[simp] theorem State.setCtxReg_dies (c n : Nat) (v : Word) : (s.setCtxReg c n v).dies = s.dies := rfl
@[simp] theorem State.setCtxReg_grids (c n : Nat) (v : Word) : (s.setCtxReg c n v).grids = s.grids := rfl
@[simp] theorem State.setCtxReg_blocks (c n : Nat) (v : Word) : (s.setCtxReg c n v).blocks = s.blocks := rfl
@[simp] theorem State.setCtxReg_groups (c n : Nat) (v : Word) : (s.setCtxReg c n v).groups = s.groups := rfl
@[simp] theorem State.setCtxReg_sched (c n : Nat) (v : Word) : (s.setCtxReg c n v).sched = s.sched := rfl
@[simp] theorem State.setCtxReg_copies (c n : Nat) (v : Word) : (s.setCtxReg c n v).copies = s.copies := rfl
@[simp] theorem State.setCtxReg_requests (c n : Nat) (v : Word) : (s.setCtxReg c n v).requests = s.requests := rfl
@[simp] theorem State.setCtxReg_completions (c n : Nat) (v : Word) : (s.setCtxReg c n v).completions = s.completions := rfl
@[simp] theorem State.setCtxReg_flits (c n : Nat) (v : Word) : (s.setCtxReg c n v).flits = s.flits := rfl
@[simp] theorem State.setCtxReg_channels (c n : Nat) (v : Word) : (s.setCtxReg c n v).channels = s.channels := rfl
@[simp] theorem State.setCtxReg_baseDies (c n : Nat) (v : Word) : (s.setCtxReg c n v).baseDies = s.baseDies := rfl
@[simp] theorem State.setCtxReg_migs (c n : Nat) (v : Word) : (s.setCtxReg c n v).migs = s.migs := rfl
@[simp] theorem State.setCtxReg_xlinv (c n : Nat) (v : Word) : (s.setCtxReg c n v).xlinv = s.xlinv := rfl
@[simp] theorem State.setCtxReg_partnerRecs (c n : Nat) (v : Word) : (s.setCtxReg c n v).partnerRecs = s.partnerRecs := rfl
@[simp] theorem State.setCtxReg_partnerAcks (c n : Nat) (v : Word) : (s.setCtxReg c n v).partnerAcks = s.partnerAcks := rfl
@[simp] theorem State.setCtxReg_hostRead (c n : Nat) (v : Word) : (s.setCtxReg c n v).hostRead = s.hostRead := rfl
@[simp] theorem State.setCtxReg_hostWaits (c n : Nat) (v : Word) : (s.setCtxReg c n v).hostWaits = s.hostWaits := rfl
@[simp] theorem State.setCtxReg_msix (c n : Nat) (v : Word) : (s.setCtxReg c n v).msix = s.msix := rfl
@[simp] theorem State.setCtxReg_foreman (c n : Nat) (v : Word) : (s.setCtxReg c n v).foreman = s.foreman := rfl
@[simp] theorem State.setCtxReg_windowWrites (c n : Nat) (v : Word) : (s.setCtxReg c n v).windowWrites = s.windowWrites := rfl
@[simp] theorem State.setCtxReg_booted (c n : Nat) (v : Word) : (s.setCtxReg c n v).booted = s.booted := rfl
@[simp] theorem State.setCtxReg_agenda (c n : Nat) (v : Word) : (s.setCtxReg c n v).agenda = s.agenda := rfl
@[simp] theorem State.setCtxReg_turn (c n : Nat) (v : Word) : (s.setCtxReg c n v).turn = s.turn := rfl
@[simp] theorem State.setCtxReg_fresh (c n : Nat) (v : Word) : (s.setCtxReg c n v).fresh = s.fresh := rfl
@[simp] theorem State.setCtxReg_nextId (c n : Nat) (v : Word) : (s.setCtxReg c n v).nextId = s.nextId := rfl

/-! ### `setPkgReg` -/

@[simp] theorem State.setPkgReg_time (n : Nat) (v : Word) : (s.setPkgReg n v).time = s.time := rfl
@[simp] theorem State.setPkgReg_pkg (n : Nat) (v : Word) : (s.setPkgReg n v).pkg = s.pkg.set n v := rfl
@[simp] theorem State.setPkgReg_main (n : Nat) (v : Word) : (s.setPkgReg n v).main = s.main := rfl
@[simp] theorem State.setPkgReg_unitErrs (n : Nat) (v : Word) : (s.setPkgReg n v).unitErrs = s.unitErrs := rfl
@[simp] theorem State.setPkgReg_parity (n : Nat) (v : Word) : (s.setPkgReg n v).parity = s.parity := rfl
@[simp] theorem State.setPkgReg_ctxs (n : Nat) (v : Word) : (s.setPkgReg n v).ctxs = s.ctxs := rfl
@[simp] theorem State.setPkgReg_cores (n : Nat) (v : Word) : (s.setPkgReg n v).cores = s.cores := rfl
@[simp] theorem State.setPkgReg_dies (n : Nat) (v : Word) : (s.setPkgReg n v).dies = s.dies := rfl
@[simp] theorem State.setPkgReg_grids (n : Nat) (v : Word) : (s.setPkgReg n v).grids = s.grids := rfl
@[simp] theorem State.setPkgReg_blocks (n : Nat) (v : Word) : (s.setPkgReg n v).blocks = s.blocks := rfl
@[simp] theorem State.setPkgReg_groups (n : Nat) (v : Word) : (s.setPkgReg n v).groups = s.groups := rfl
@[simp] theorem State.setPkgReg_sched (n : Nat) (v : Word) : (s.setPkgReg n v).sched = s.sched := rfl
@[simp] theorem State.setPkgReg_copies (n : Nat) (v : Word) : (s.setPkgReg n v).copies = s.copies := rfl
@[simp] theorem State.setPkgReg_requests (n : Nat) (v : Word) : (s.setPkgReg n v).requests = s.requests := rfl
@[simp] theorem State.setPkgReg_completions (n : Nat) (v : Word) : (s.setPkgReg n v).completions = s.completions := rfl
@[simp] theorem State.setPkgReg_flits (n : Nat) (v : Word) : (s.setPkgReg n v).flits = s.flits := rfl
@[simp] theorem State.setPkgReg_channels (n : Nat) (v : Word) : (s.setPkgReg n v).channels = s.channels := rfl
@[simp] theorem State.setPkgReg_baseDies (n : Nat) (v : Word) : (s.setPkgReg n v).baseDies = s.baseDies := rfl
@[simp] theorem State.setPkgReg_migs (n : Nat) (v : Word) : (s.setPkgReg n v).migs = s.migs := rfl
@[simp] theorem State.setPkgReg_xlinv (n : Nat) (v : Word) : (s.setPkgReg n v).xlinv = s.xlinv := rfl
@[simp] theorem State.setPkgReg_partnerRecs (n : Nat) (v : Word) : (s.setPkgReg n v).partnerRecs = s.partnerRecs := rfl
@[simp] theorem State.setPkgReg_partnerAcks (n : Nat) (v : Word) : (s.setPkgReg n v).partnerAcks = s.partnerAcks := rfl
@[simp] theorem State.setPkgReg_hostRead (n : Nat) (v : Word) : (s.setPkgReg n v).hostRead = s.hostRead := rfl
@[simp] theorem State.setPkgReg_hostWaits (n : Nat) (v : Word) : (s.setPkgReg n v).hostWaits = s.hostWaits := rfl
@[simp] theorem State.setPkgReg_msix (n : Nat) (v : Word) : (s.setPkgReg n v).msix = s.msix := rfl
@[simp] theorem State.setPkgReg_foreman (n : Nat) (v : Word) : (s.setPkgReg n v).foreman = s.foreman := rfl
@[simp] theorem State.setPkgReg_windowWrites (n : Nat) (v : Word) : (s.setPkgReg n v).windowWrites = s.windowWrites := rfl
@[simp] theorem State.setPkgReg_booted (n : Nat) (v : Word) : (s.setPkgReg n v).booted = s.booted := rfl
@[simp] theorem State.setPkgReg_agenda (n : Nat) (v : Word) : (s.setPkgReg n v).agenda = s.agenda := rfl
@[simp] theorem State.setPkgReg_turn (n : Nat) (v : Word) : (s.setPkgReg n v).turn = s.turn := rfl
@[simp] theorem State.setPkgReg_fresh (n : Nat) (v : Word) : (s.setPkgReg n v).fresh = s.fresh := rfl
@[simp] theorem State.setPkgReg_nextId (n : Nat) (v : Word) : (s.setPkgReg n v).nextId = s.nextId := rfl

/-! ### `setCore` -/

@[simp] theorem State.setCore_time (k : Nat) (x : Core) : (s.setCore k x).time = s.time := rfl
@[simp] theorem State.setCore_pkg (k : Nat) (x : Core) : (s.setCore k x).pkg = s.pkg := rfl
@[simp] theorem State.setCore_main (k : Nat) (x : Core) : (s.setCore k x).main = s.main := rfl
@[simp] theorem State.setCore_unitErrs (k : Nat) (x : Core) : (s.setCore k x).unitErrs = s.unitErrs := rfl
@[simp] theorem State.setCore_parity (k : Nat) (x : Core) : (s.setCore k x).parity = s.parity := rfl
@[simp] theorem State.setCore_ctxs (k : Nat) (x : Core) : (s.setCore k x).ctxs = s.ctxs := rfl
@[simp] theorem State.setCore_cores (k : Nat) (x : Core) : (s.setCore k x).cores = s.cores.set k x := rfl
@[simp] theorem State.setCore_dies (k : Nat) (x : Core) : (s.setCore k x).dies = s.dies := rfl
@[simp] theorem State.setCore_grids (k : Nat) (x : Core) : (s.setCore k x).grids = s.grids := rfl
@[simp] theorem State.setCore_blocks (k : Nat) (x : Core) : (s.setCore k x).blocks = s.blocks := rfl
@[simp] theorem State.setCore_groups (k : Nat) (x : Core) : (s.setCore k x).groups = s.groups := rfl
@[simp] theorem State.setCore_sched (k : Nat) (x : Core) : (s.setCore k x).sched = s.sched := rfl
@[simp] theorem State.setCore_copies (k : Nat) (x : Core) : (s.setCore k x).copies = s.copies := rfl
@[simp] theorem State.setCore_requests (k : Nat) (x : Core) : (s.setCore k x).requests = s.requests := rfl
@[simp] theorem State.setCore_completions (k : Nat) (x : Core) : (s.setCore k x).completions = s.completions := rfl
@[simp] theorem State.setCore_flits (k : Nat) (x : Core) : (s.setCore k x).flits = s.flits := rfl
@[simp] theorem State.setCore_channels (k : Nat) (x : Core) : (s.setCore k x).channels = s.channels := rfl
@[simp] theorem State.setCore_baseDies (k : Nat) (x : Core) : (s.setCore k x).baseDies = s.baseDies := rfl
@[simp] theorem State.setCore_migs (k : Nat) (x : Core) : (s.setCore k x).migs = s.migs := rfl
@[simp] theorem State.setCore_xlinv (k : Nat) (x : Core) : (s.setCore k x).xlinv = s.xlinv := rfl
@[simp] theorem State.setCore_partnerRecs (k : Nat) (x : Core) : (s.setCore k x).partnerRecs = s.partnerRecs := rfl
@[simp] theorem State.setCore_partnerAcks (k : Nat) (x : Core) : (s.setCore k x).partnerAcks = s.partnerAcks := rfl
@[simp] theorem State.setCore_hostRead (k : Nat) (x : Core) : (s.setCore k x).hostRead = s.hostRead := rfl
@[simp] theorem State.setCore_hostWaits (k : Nat) (x : Core) : (s.setCore k x).hostWaits = s.hostWaits := rfl
@[simp] theorem State.setCore_msix (k : Nat) (x : Core) : (s.setCore k x).msix = s.msix := rfl
@[simp] theorem State.setCore_foreman (k : Nat) (x : Core) : (s.setCore k x).foreman = s.foreman := rfl
@[simp] theorem State.setCore_windowWrites (k : Nat) (x : Core) : (s.setCore k x).windowWrites = s.windowWrites := rfl
@[simp] theorem State.setCore_booted (k : Nat) (x : Core) : (s.setCore k x).booted = s.booted := rfl
@[simp] theorem State.setCore_agenda (k : Nat) (x : Core) : (s.setCore k x).agenda = s.agenda := rfl
@[simp] theorem State.setCore_turn (k : Nat) (x : Core) : (s.setCore k x).turn = s.turn := rfl
@[simp] theorem State.setCore_fresh (k : Nat) (x : Core) : (s.setCore k x).fresh = s.fresh := rfl
@[simp] theorem State.setCore_nextId (k : Nat) (x : Core) : (s.setCore k x).nextId = s.nextId := rfl

/-! ### `modCore` -/

@[simp] theorem State.modCore_time (k : Nat) (f : Core → Core) : (s.modCore k f).time = s.time := rfl
@[simp] theorem State.modCore_pkg (k : Nat) (f : Core → Core) : (s.modCore k f).pkg = s.pkg := rfl
@[simp] theorem State.modCore_main (k : Nat) (f : Core → Core) : (s.modCore k f).main = s.main := rfl
@[simp] theorem State.modCore_unitErrs (k : Nat) (f : Core → Core) : (s.modCore k f).unitErrs = s.unitErrs := rfl
@[simp] theorem State.modCore_parity (k : Nat) (f : Core → Core) : (s.modCore k f).parity = s.parity := rfl
@[simp] theorem State.modCore_ctxs (k : Nat) (f : Core → Core) : (s.modCore k f).ctxs = s.ctxs := rfl
@[simp] theorem State.modCore_cores (k : Nat) (f : Core → Core) : (s.modCore k f).cores = s.cores.set k (f (s.core k)) := rfl
@[simp] theorem State.modCore_dies (k : Nat) (f : Core → Core) : (s.modCore k f).dies = s.dies := rfl
@[simp] theorem State.modCore_grids (k : Nat) (f : Core → Core) : (s.modCore k f).grids = s.grids := rfl
@[simp] theorem State.modCore_blocks (k : Nat) (f : Core → Core) : (s.modCore k f).blocks = s.blocks := rfl
@[simp] theorem State.modCore_groups (k : Nat) (f : Core → Core) : (s.modCore k f).groups = s.groups := rfl
@[simp] theorem State.modCore_sched (k : Nat) (f : Core → Core) : (s.modCore k f).sched = s.sched := rfl
@[simp] theorem State.modCore_copies (k : Nat) (f : Core → Core) : (s.modCore k f).copies = s.copies := rfl
@[simp] theorem State.modCore_requests (k : Nat) (f : Core → Core) : (s.modCore k f).requests = s.requests := rfl
@[simp] theorem State.modCore_completions (k : Nat) (f : Core → Core) : (s.modCore k f).completions = s.completions := rfl
@[simp] theorem State.modCore_flits (k : Nat) (f : Core → Core) : (s.modCore k f).flits = s.flits := rfl
@[simp] theorem State.modCore_channels (k : Nat) (f : Core → Core) : (s.modCore k f).channels = s.channels := rfl
@[simp] theorem State.modCore_baseDies (k : Nat) (f : Core → Core) : (s.modCore k f).baseDies = s.baseDies := rfl
@[simp] theorem State.modCore_migs (k : Nat) (f : Core → Core) : (s.modCore k f).migs = s.migs := rfl
@[simp] theorem State.modCore_xlinv (k : Nat) (f : Core → Core) : (s.modCore k f).xlinv = s.xlinv := rfl
@[simp] theorem State.modCore_partnerRecs (k : Nat) (f : Core → Core) : (s.modCore k f).partnerRecs = s.partnerRecs := rfl
@[simp] theorem State.modCore_partnerAcks (k : Nat) (f : Core → Core) : (s.modCore k f).partnerAcks = s.partnerAcks := rfl
@[simp] theorem State.modCore_hostRead (k : Nat) (f : Core → Core) : (s.modCore k f).hostRead = s.hostRead := rfl
@[simp] theorem State.modCore_hostWaits (k : Nat) (f : Core → Core) : (s.modCore k f).hostWaits = s.hostWaits := rfl
@[simp] theorem State.modCore_msix (k : Nat) (f : Core → Core) : (s.modCore k f).msix = s.msix := rfl
@[simp] theorem State.modCore_foreman (k : Nat) (f : Core → Core) : (s.modCore k f).foreman = s.foreman := rfl
@[simp] theorem State.modCore_windowWrites (k : Nat) (f : Core → Core) : (s.modCore k f).windowWrites = s.windowWrites := rfl
@[simp] theorem State.modCore_booted (k : Nat) (f : Core → Core) : (s.modCore k f).booted = s.booted := rfl
@[simp] theorem State.modCore_agenda (k : Nat) (f : Core → Core) : (s.modCore k f).agenda = s.agenda := rfl
@[simp] theorem State.modCore_turn (k : Nat) (f : Core → Core) : (s.modCore k f).turn = s.turn := rfl
@[simp] theorem State.modCore_fresh (k : Nat) (f : Core → Core) : (s.modCore k f).fresh = s.fresh := rfl
@[simp] theorem State.modCore_nextId (k : Nat) (f : Core → Core) : (s.modCore k f).nextId = s.nextId := rfl

/-! ### `setDie` -/

@[simp] theorem State.setDie_time (d : Nat) (x : Die) : (s.setDie d x).time = s.time := rfl
@[simp] theorem State.setDie_pkg (d : Nat) (x : Die) : (s.setDie d x).pkg = s.pkg := rfl
@[simp] theorem State.setDie_main (d : Nat) (x : Die) : (s.setDie d x).main = s.main := rfl
@[simp] theorem State.setDie_unitErrs (d : Nat) (x : Die) : (s.setDie d x).unitErrs = s.unitErrs := rfl
@[simp] theorem State.setDie_parity (d : Nat) (x : Die) : (s.setDie d x).parity = s.parity := rfl
@[simp] theorem State.setDie_ctxs (d : Nat) (x : Die) : (s.setDie d x).ctxs = s.ctxs := rfl
@[simp] theorem State.setDie_cores (d : Nat) (x : Die) : (s.setDie d x).cores = s.cores := rfl
@[simp] theorem State.setDie_dies (d : Nat) (x : Die) : (s.setDie d x).dies = s.dies.set d x := rfl
@[simp] theorem State.setDie_grids (d : Nat) (x : Die) : (s.setDie d x).grids = s.grids := rfl
@[simp] theorem State.setDie_blocks (d : Nat) (x : Die) : (s.setDie d x).blocks = s.blocks := rfl
@[simp] theorem State.setDie_groups (d : Nat) (x : Die) : (s.setDie d x).groups = s.groups := rfl
@[simp] theorem State.setDie_sched (d : Nat) (x : Die) : (s.setDie d x).sched = s.sched := rfl
@[simp] theorem State.setDie_copies (d : Nat) (x : Die) : (s.setDie d x).copies = s.copies := rfl
@[simp] theorem State.setDie_requests (d : Nat) (x : Die) : (s.setDie d x).requests = s.requests := rfl
@[simp] theorem State.setDie_completions (d : Nat) (x : Die) : (s.setDie d x).completions = s.completions := rfl
@[simp] theorem State.setDie_flits (d : Nat) (x : Die) : (s.setDie d x).flits = s.flits := rfl
@[simp] theorem State.setDie_channels (d : Nat) (x : Die) : (s.setDie d x).channels = s.channels := rfl
@[simp] theorem State.setDie_baseDies (d : Nat) (x : Die) : (s.setDie d x).baseDies = s.baseDies := rfl
@[simp] theorem State.setDie_migs (d : Nat) (x : Die) : (s.setDie d x).migs = s.migs := rfl
@[simp] theorem State.setDie_xlinv (d : Nat) (x : Die) : (s.setDie d x).xlinv = s.xlinv := rfl
@[simp] theorem State.setDie_partnerRecs (d : Nat) (x : Die) : (s.setDie d x).partnerRecs = s.partnerRecs := rfl
@[simp] theorem State.setDie_partnerAcks (d : Nat) (x : Die) : (s.setDie d x).partnerAcks = s.partnerAcks := rfl
@[simp] theorem State.setDie_hostRead (d : Nat) (x : Die) : (s.setDie d x).hostRead = s.hostRead := rfl
@[simp] theorem State.setDie_hostWaits (d : Nat) (x : Die) : (s.setDie d x).hostWaits = s.hostWaits := rfl
@[simp] theorem State.setDie_msix (d : Nat) (x : Die) : (s.setDie d x).msix = s.msix := rfl
@[simp] theorem State.setDie_foreman (d : Nat) (x : Die) : (s.setDie d x).foreman = s.foreman := rfl
@[simp] theorem State.setDie_windowWrites (d : Nat) (x : Die) : (s.setDie d x).windowWrites = s.windowWrites := rfl
@[simp] theorem State.setDie_booted (d : Nat) (x : Die) : (s.setDie d x).booted = s.booted := rfl
@[simp] theorem State.setDie_agenda (d : Nat) (x : Die) : (s.setDie d x).agenda = s.agenda := rfl
@[simp] theorem State.setDie_turn (d : Nat) (x : Die) : (s.setDie d x).turn = s.turn := rfl
@[simp] theorem State.setDie_fresh (d : Nat) (x : Die) : (s.setDie d x).fresh = s.fresh := rfl
@[simp] theorem State.setDie_nextId (d : Nat) (x : Die) : (s.setDie d x).nextId = s.nextId := rfl

/-! ### `modDie` -/

@[simp] theorem State.modDie_time (d : Nat) (f : Die → Die) : (s.modDie d f).time = s.time := rfl
@[simp] theorem State.modDie_pkg (d : Nat) (f : Die → Die) : (s.modDie d f).pkg = s.pkg := rfl
@[simp] theorem State.modDie_main (d : Nat) (f : Die → Die) : (s.modDie d f).main = s.main := rfl
@[simp] theorem State.modDie_unitErrs (d : Nat) (f : Die → Die) : (s.modDie d f).unitErrs = s.unitErrs := rfl
@[simp] theorem State.modDie_parity (d : Nat) (f : Die → Die) : (s.modDie d f).parity = s.parity := rfl
@[simp] theorem State.modDie_ctxs (d : Nat) (f : Die → Die) : (s.modDie d f).ctxs = s.ctxs := rfl
@[simp] theorem State.modDie_cores (d : Nat) (f : Die → Die) : (s.modDie d f).cores = s.cores := rfl
@[simp] theorem State.modDie_dies (d : Nat) (f : Die → Die) : (s.modDie d f).dies = s.dies.set d (f (s.die d)) := rfl
@[simp] theorem State.modDie_grids (d : Nat) (f : Die → Die) : (s.modDie d f).grids = s.grids := rfl
@[simp] theorem State.modDie_blocks (d : Nat) (f : Die → Die) : (s.modDie d f).blocks = s.blocks := rfl
@[simp] theorem State.modDie_groups (d : Nat) (f : Die → Die) : (s.modDie d f).groups = s.groups := rfl
@[simp] theorem State.modDie_sched (d : Nat) (f : Die → Die) : (s.modDie d f).sched = s.sched := rfl
@[simp] theorem State.modDie_copies (d : Nat) (f : Die → Die) : (s.modDie d f).copies = s.copies := rfl
@[simp] theorem State.modDie_requests (d : Nat) (f : Die → Die) : (s.modDie d f).requests = s.requests := rfl
@[simp] theorem State.modDie_completions (d : Nat) (f : Die → Die) : (s.modDie d f).completions = s.completions := rfl
@[simp] theorem State.modDie_flits (d : Nat) (f : Die → Die) : (s.modDie d f).flits = s.flits := rfl
@[simp] theorem State.modDie_channels (d : Nat) (f : Die → Die) : (s.modDie d f).channels = s.channels := rfl
@[simp] theorem State.modDie_baseDies (d : Nat) (f : Die → Die) : (s.modDie d f).baseDies = s.baseDies := rfl
@[simp] theorem State.modDie_migs (d : Nat) (f : Die → Die) : (s.modDie d f).migs = s.migs := rfl
@[simp] theorem State.modDie_xlinv (d : Nat) (f : Die → Die) : (s.modDie d f).xlinv = s.xlinv := rfl
@[simp] theorem State.modDie_partnerRecs (d : Nat) (f : Die → Die) : (s.modDie d f).partnerRecs = s.partnerRecs := rfl
@[simp] theorem State.modDie_partnerAcks (d : Nat) (f : Die → Die) : (s.modDie d f).partnerAcks = s.partnerAcks := rfl
@[simp] theorem State.modDie_hostRead (d : Nat) (f : Die → Die) : (s.modDie d f).hostRead = s.hostRead := rfl
@[simp] theorem State.modDie_hostWaits (d : Nat) (f : Die → Die) : (s.modDie d f).hostWaits = s.hostWaits := rfl
@[simp] theorem State.modDie_msix (d : Nat) (f : Die → Die) : (s.modDie d f).msix = s.msix := rfl
@[simp] theorem State.modDie_foreman (d : Nat) (f : Die → Die) : (s.modDie d f).foreman = s.foreman := rfl
@[simp] theorem State.modDie_windowWrites (d : Nat) (f : Die → Die) : (s.modDie d f).windowWrites = s.windowWrites := rfl
@[simp] theorem State.modDie_booted (d : Nat) (f : Die → Die) : (s.modDie d f).booted = s.booted := rfl
@[simp] theorem State.modDie_agenda (d : Nat) (f : Die → Die) : (s.modDie d f).agenda = s.agenda := rfl
@[simp] theorem State.modDie_turn (d : Nat) (f : Die → Die) : (s.modDie d f).turn = s.turn := rfl
@[simp] theorem State.modDie_fresh (d : Nat) (f : Die → Die) : (s.modDie d f).fresh = s.fresh := rfl
@[simp] theorem State.modDie_nextId (d : Nat) (f : Die → Die) : (s.modDie d f).nextId = s.nextId := rfl

/-! ### `setChannel` -/

@[simp] theorem State.setChannel_time (n : Nat) (x : Channel) : (s.setChannel n x).time = s.time := rfl
@[simp] theorem State.setChannel_pkg (n : Nat) (x : Channel) : (s.setChannel n x).pkg = s.pkg := rfl
@[simp] theorem State.setChannel_main (n : Nat) (x : Channel) : (s.setChannel n x).main = s.main := rfl
@[simp] theorem State.setChannel_unitErrs (n : Nat) (x : Channel) : (s.setChannel n x).unitErrs = s.unitErrs := rfl
@[simp] theorem State.setChannel_parity (n : Nat) (x : Channel) : (s.setChannel n x).parity = s.parity := rfl
@[simp] theorem State.setChannel_ctxs (n : Nat) (x : Channel) : (s.setChannel n x).ctxs = s.ctxs := rfl
@[simp] theorem State.setChannel_cores (n : Nat) (x : Channel) : (s.setChannel n x).cores = s.cores := rfl
@[simp] theorem State.setChannel_dies (n : Nat) (x : Channel) : (s.setChannel n x).dies = s.dies := rfl
@[simp] theorem State.setChannel_grids (n : Nat) (x : Channel) : (s.setChannel n x).grids = s.grids := rfl
@[simp] theorem State.setChannel_blocks (n : Nat) (x : Channel) : (s.setChannel n x).blocks = s.blocks := rfl
@[simp] theorem State.setChannel_groups (n : Nat) (x : Channel) : (s.setChannel n x).groups = s.groups := rfl
@[simp] theorem State.setChannel_sched (n : Nat) (x : Channel) : (s.setChannel n x).sched = s.sched := rfl
@[simp] theorem State.setChannel_copies (n : Nat) (x : Channel) : (s.setChannel n x).copies = s.copies := rfl
@[simp] theorem State.setChannel_requests (n : Nat) (x : Channel) : (s.setChannel n x).requests = s.requests := rfl
@[simp] theorem State.setChannel_completions (n : Nat) (x : Channel) : (s.setChannel n x).completions = s.completions := rfl
@[simp] theorem State.setChannel_flits (n : Nat) (x : Channel) : (s.setChannel n x).flits = s.flits := rfl
@[simp] theorem State.setChannel_channels (n : Nat) (x : Channel) : (s.setChannel n x).channels = s.channels.set n x := rfl
@[simp] theorem State.setChannel_baseDies (n : Nat) (x : Channel) : (s.setChannel n x).baseDies = s.baseDies := rfl
@[simp] theorem State.setChannel_migs (n : Nat) (x : Channel) : (s.setChannel n x).migs = s.migs := rfl
@[simp] theorem State.setChannel_xlinv (n : Nat) (x : Channel) : (s.setChannel n x).xlinv = s.xlinv := rfl
@[simp] theorem State.setChannel_partnerRecs (n : Nat) (x : Channel) : (s.setChannel n x).partnerRecs = s.partnerRecs := rfl
@[simp] theorem State.setChannel_partnerAcks (n : Nat) (x : Channel) : (s.setChannel n x).partnerAcks = s.partnerAcks := rfl
@[simp] theorem State.setChannel_hostRead (n : Nat) (x : Channel) : (s.setChannel n x).hostRead = s.hostRead := rfl
@[simp] theorem State.setChannel_hostWaits (n : Nat) (x : Channel) : (s.setChannel n x).hostWaits = s.hostWaits := rfl
@[simp] theorem State.setChannel_msix (n : Nat) (x : Channel) : (s.setChannel n x).msix = s.msix := rfl
@[simp] theorem State.setChannel_foreman (n : Nat) (x : Channel) : (s.setChannel n x).foreman = s.foreman := rfl
@[simp] theorem State.setChannel_windowWrites (n : Nat) (x : Channel) : (s.setChannel n x).windowWrites = s.windowWrites := rfl
@[simp] theorem State.setChannel_booted (n : Nat) (x : Channel) : (s.setChannel n x).booted = s.booted := rfl
@[simp] theorem State.setChannel_agenda (n : Nat) (x : Channel) : (s.setChannel n x).agenda = s.agenda := rfl
@[simp] theorem State.setChannel_turn (n : Nat) (x : Channel) : (s.setChannel n x).turn = s.turn := rfl
@[simp] theorem State.setChannel_fresh (n : Nat) (x : Channel) : (s.setChannel n x).fresh = s.fresh := rfl
@[simp] theorem State.setChannel_nextId (n : Nat) (x : Channel) : (s.setChannel n x).nextId = s.nextId := rfl

/-! ### `setBaseDie` -/

@[simp] theorem State.setBaseDie_time (n : Nat) (x : BaseDie) : (s.setBaseDie n x).time = s.time := rfl
@[simp] theorem State.setBaseDie_pkg (n : Nat) (x : BaseDie) : (s.setBaseDie n x).pkg = s.pkg := rfl
@[simp] theorem State.setBaseDie_main (n : Nat) (x : BaseDie) : (s.setBaseDie n x).main = s.main := rfl
@[simp] theorem State.setBaseDie_unitErrs (n : Nat) (x : BaseDie) : (s.setBaseDie n x).unitErrs = s.unitErrs := rfl
@[simp] theorem State.setBaseDie_parity (n : Nat) (x : BaseDie) : (s.setBaseDie n x).parity = s.parity := rfl
@[simp] theorem State.setBaseDie_ctxs (n : Nat) (x : BaseDie) : (s.setBaseDie n x).ctxs = s.ctxs := rfl
@[simp] theorem State.setBaseDie_cores (n : Nat) (x : BaseDie) : (s.setBaseDie n x).cores = s.cores := rfl
@[simp] theorem State.setBaseDie_dies (n : Nat) (x : BaseDie) : (s.setBaseDie n x).dies = s.dies := rfl
@[simp] theorem State.setBaseDie_grids (n : Nat) (x : BaseDie) : (s.setBaseDie n x).grids = s.grids := rfl
@[simp] theorem State.setBaseDie_blocks (n : Nat) (x : BaseDie) : (s.setBaseDie n x).blocks = s.blocks := rfl
@[simp] theorem State.setBaseDie_groups (n : Nat) (x : BaseDie) : (s.setBaseDie n x).groups = s.groups := rfl
@[simp] theorem State.setBaseDie_sched (n : Nat) (x : BaseDie) : (s.setBaseDie n x).sched = s.sched := rfl
@[simp] theorem State.setBaseDie_copies (n : Nat) (x : BaseDie) : (s.setBaseDie n x).copies = s.copies := rfl
@[simp] theorem State.setBaseDie_requests (n : Nat) (x : BaseDie) : (s.setBaseDie n x).requests = s.requests := rfl
@[simp] theorem State.setBaseDie_completions (n : Nat) (x : BaseDie) : (s.setBaseDie n x).completions = s.completions := rfl
@[simp] theorem State.setBaseDie_flits (n : Nat) (x : BaseDie) : (s.setBaseDie n x).flits = s.flits := rfl
@[simp] theorem State.setBaseDie_channels (n : Nat) (x : BaseDie) : (s.setBaseDie n x).channels = s.channels := rfl
@[simp] theorem State.setBaseDie_baseDies (n : Nat) (x : BaseDie) : (s.setBaseDie n x).baseDies = s.baseDies.set n x := rfl
@[simp] theorem State.setBaseDie_migs (n : Nat) (x : BaseDie) : (s.setBaseDie n x).migs = s.migs := rfl
@[simp] theorem State.setBaseDie_xlinv (n : Nat) (x : BaseDie) : (s.setBaseDie n x).xlinv = s.xlinv := rfl
@[simp] theorem State.setBaseDie_partnerRecs (n : Nat) (x : BaseDie) : (s.setBaseDie n x).partnerRecs = s.partnerRecs := rfl
@[simp] theorem State.setBaseDie_partnerAcks (n : Nat) (x : BaseDie) : (s.setBaseDie n x).partnerAcks = s.partnerAcks := rfl
@[simp] theorem State.setBaseDie_hostRead (n : Nat) (x : BaseDie) : (s.setBaseDie n x).hostRead = s.hostRead := rfl
@[simp] theorem State.setBaseDie_hostWaits (n : Nat) (x : BaseDie) : (s.setBaseDie n x).hostWaits = s.hostWaits := rfl
@[simp] theorem State.setBaseDie_msix (n : Nat) (x : BaseDie) : (s.setBaseDie n x).msix = s.msix := rfl
@[simp] theorem State.setBaseDie_foreman (n : Nat) (x : BaseDie) : (s.setBaseDie n x).foreman = s.foreman := rfl
@[simp] theorem State.setBaseDie_windowWrites (n : Nat) (x : BaseDie) : (s.setBaseDie n x).windowWrites = s.windowWrites := rfl
@[simp] theorem State.setBaseDie_booted (n : Nat) (x : BaseDie) : (s.setBaseDie n x).booted = s.booted := rfl
@[simp] theorem State.setBaseDie_agenda (n : Nat) (x : BaseDie) : (s.setBaseDie n x).agenda = s.agenda := rfl
@[simp] theorem State.setBaseDie_turn (n : Nat) (x : BaseDie) : (s.setBaseDie n x).turn = s.turn := rfl
@[simp] theorem State.setBaseDie_fresh (n : Nat) (x : BaseDie) : (s.setBaseDie n x).fresh = s.fresh := rfl
@[simp] theorem State.setBaseDie_nextId (n : Nat) (x : BaseDie) : (s.setBaseDie n x).nextId = s.nextId := rfl

/-! ### `setMig` -/

@[simp] theorem State.setMig_time (n : Nat) (x : Mig) : (s.setMig n x).time = s.time := rfl
@[simp] theorem State.setMig_pkg (n : Nat) (x : Mig) : (s.setMig n x).pkg = s.pkg := rfl
@[simp] theorem State.setMig_main (n : Nat) (x : Mig) : (s.setMig n x).main = s.main := rfl
@[simp] theorem State.setMig_unitErrs (n : Nat) (x : Mig) : (s.setMig n x).unitErrs = s.unitErrs := rfl
@[simp] theorem State.setMig_parity (n : Nat) (x : Mig) : (s.setMig n x).parity = s.parity := rfl
@[simp] theorem State.setMig_ctxs (n : Nat) (x : Mig) : (s.setMig n x).ctxs = s.ctxs := rfl
@[simp] theorem State.setMig_cores (n : Nat) (x : Mig) : (s.setMig n x).cores = s.cores := rfl
@[simp] theorem State.setMig_dies (n : Nat) (x : Mig) : (s.setMig n x).dies = s.dies := rfl
@[simp] theorem State.setMig_grids (n : Nat) (x : Mig) : (s.setMig n x).grids = s.grids := rfl
@[simp] theorem State.setMig_blocks (n : Nat) (x : Mig) : (s.setMig n x).blocks = s.blocks := rfl
@[simp] theorem State.setMig_groups (n : Nat) (x : Mig) : (s.setMig n x).groups = s.groups := rfl
@[simp] theorem State.setMig_sched (n : Nat) (x : Mig) : (s.setMig n x).sched = s.sched := rfl
@[simp] theorem State.setMig_copies (n : Nat) (x : Mig) : (s.setMig n x).copies = s.copies := rfl
@[simp] theorem State.setMig_requests (n : Nat) (x : Mig) : (s.setMig n x).requests = s.requests := rfl
@[simp] theorem State.setMig_completions (n : Nat) (x : Mig) : (s.setMig n x).completions = s.completions := rfl
@[simp] theorem State.setMig_flits (n : Nat) (x : Mig) : (s.setMig n x).flits = s.flits := rfl
@[simp] theorem State.setMig_channels (n : Nat) (x : Mig) : (s.setMig n x).channels = s.channels := rfl
@[simp] theorem State.setMig_baseDies (n : Nat) (x : Mig) : (s.setMig n x).baseDies = s.baseDies := rfl
@[simp] theorem State.setMig_migs (n : Nat) (x : Mig) : (s.setMig n x).migs = s.migs.set n x := rfl
@[simp] theorem State.setMig_xlinv (n : Nat) (x : Mig) : (s.setMig n x).xlinv = s.xlinv := rfl
@[simp] theorem State.setMig_partnerRecs (n : Nat) (x : Mig) : (s.setMig n x).partnerRecs = s.partnerRecs := rfl
@[simp] theorem State.setMig_partnerAcks (n : Nat) (x : Mig) : (s.setMig n x).partnerAcks = s.partnerAcks := rfl
@[simp] theorem State.setMig_hostRead (n : Nat) (x : Mig) : (s.setMig n x).hostRead = s.hostRead := rfl
@[simp] theorem State.setMig_hostWaits (n : Nat) (x : Mig) : (s.setMig n x).hostWaits = s.hostWaits := rfl
@[simp] theorem State.setMig_msix (n : Nat) (x : Mig) : (s.setMig n x).msix = s.msix := rfl
@[simp] theorem State.setMig_foreman (n : Nat) (x : Mig) : (s.setMig n x).foreman = s.foreman := rfl
@[simp] theorem State.setMig_windowWrites (n : Nat) (x : Mig) : (s.setMig n x).windowWrites = s.windowWrites := rfl
@[simp] theorem State.setMig_booted (n : Nat) (x : Mig) : (s.setMig n x).booted = s.booted := rfl
@[simp] theorem State.setMig_agenda (n : Nat) (x : Mig) : (s.setMig n x).agenda = s.agenda := rfl
@[simp] theorem State.setMig_turn (n : Nat) (x : Mig) : (s.setMig n x).turn = s.turn := rfl
@[simp] theorem State.setMig_fresh (n : Nat) (x : Mig) : (s.setMig n x).fresh = s.fresh := rfl
@[simp] theorem State.setMig_nextId (n : Nat) (x : Mig) : (s.setMig n x).nextId = s.nextId := rfl

/-! ### `setGroup` -/

@[simp] theorem State.setGroup_time (g : Nat) (x : Group) : (s.setGroup g x).time = s.time := rfl
@[simp] theorem State.setGroup_pkg (g : Nat) (x : Group) : (s.setGroup g x).pkg = s.pkg := rfl
@[simp] theorem State.setGroup_main (g : Nat) (x : Group) : (s.setGroup g x).main = s.main := rfl
@[simp] theorem State.setGroup_unitErrs (g : Nat) (x : Group) : (s.setGroup g x).unitErrs = s.unitErrs := rfl
@[simp] theorem State.setGroup_parity (g : Nat) (x : Group) : (s.setGroup g x).parity = s.parity := rfl
@[simp] theorem State.setGroup_ctxs (g : Nat) (x : Group) : (s.setGroup g x).ctxs = s.ctxs := rfl
@[simp] theorem State.setGroup_cores (g : Nat) (x : Group) : (s.setGroup g x).cores = s.cores := rfl
@[simp] theorem State.setGroup_dies (g : Nat) (x : Group) : (s.setGroup g x).dies = s.dies := rfl
@[simp] theorem State.setGroup_grids (g : Nat) (x : Group) : (s.setGroup g x).grids = s.grids := rfl
@[simp] theorem State.setGroup_blocks (g : Nat) (x : Group) : (s.setGroup g x).blocks = s.blocks := rfl
@[simp] theorem State.setGroup_groups (g : Nat) (x : Group) : (s.setGroup g x).groups = s.groups.set g x := rfl
@[simp] theorem State.setGroup_sched (g : Nat) (x : Group) : (s.setGroup g x).sched = s.sched := rfl
@[simp] theorem State.setGroup_copies (g : Nat) (x : Group) : (s.setGroup g x).copies = s.copies := rfl
@[simp] theorem State.setGroup_requests (g : Nat) (x : Group) : (s.setGroup g x).requests = s.requests := rfl
@[simp] theorem State.setGroup_completions (g : Nat) (x : Group) : (s.setGroup g x).completions = s.completions := rfl
@[simp] theorem State.setGroup_flits (g : Nat) (x : Group) : (s.setGroup g x).flits = s.flits := rfl
@[simp] theorem State.setGroup_channels (g : Nat) (x : Group) : (s.setGroup g x).channels = s.channels := rfl
@[simp] theorem State.setGroup_baseDies (g : Nat) (x : Group) : (s.setGroup g x).baseDies = s.baseDies := rfl
@[simp] theorem State.setGroup_migs (g : Nat) (x : Group) : (s.setGroup g x).migs = s.migs := rfl
@[simp] theorem State.setGroup_xlinv (g : Nat) (x : Group) : (s.setGroup g x).xlinv = s.xlinv := rfl
@[simp] theorem State.setGroup_partnerRecs (g : Nat) (x : Group) : (s.setGroup g x).partnerRecs = s.partnerRecs := rfl
@[simp] theorem State.setGroup_partnerAcks (g : Nat) (x : Group) : (s.setGroup g x).partnerAcks = s.partnerAcks := rfl
@[simp] theorem State.setGroup_hostRead (g : Nat) (x : Group) : (s.setGroup g x).hostRead = s.hostRead := rfl
@[simp] theorem State.setGroup_hostWaits (g : Nat) (x : Group) : (s.setGroup g x).hostWaits = s.hostWaits := rfl
@[simp] theorem State.setGroup_msix (g : Nat) (x : Group) : (s.setGroup g x).msix = s.msix := rfl
@[simp] theorem State.setGroup_foreman (g : Nat) (x : Group) : (s.setGroup g x).foreman = s.foreman := rfl
@[simp] theorem State.setGroup_windowWrites (g : Nat) (x : Group) : (s.setGroup g x).windowWrites = s.windowWrites := rfl
@[simp] theorem State.setGroup_booted (g : Nat) (x : Group) : (s.setGroup g x).booted = s.booted := rfl
@[simp] theorem State.setGroup_agenda (g : Nat) (x : Group) : (s.setGroup g x).agenda = s.agenda := rfl
@[simp] theorem State.setGroup_turn (g : Nat) (x : Group) : (s.setGroup g x).turn = s.turn := rfl
@[simp] theorem State.setGroup_fresh (g : Nat) (x : Group) : (s.setGroup g x).fresh = s.fresh := rfl
@[simp] theorem State.setGroup_nextId (g : Nat) (x : Group) : (s.setGroup g x).nextId = s.nextId := rfl

/-! ### `setBlock` -/

@[simp] theorem State.setBlock_time (b : Nat) (x : Block) : (s.setBlock b x).time = s.time := rfl
@[simp] theorem State.setBlock_pkg (b : Nat) (x : Block) : (s.setBlock b x).pkg = s.pkg := rfl
@[simp] theorem State.setBlock_main (b : Nat) (x : Block) : (s.setBlock b x).main = s.main := rfl
@[simp] theorem State.setBlock_unitErrs (b : Nat) (x : Block) : (s.setBlock b x).unitErrs = s.unitErrs := rfl
@[simp] theorem State.setBlock_parity (b : Nat) (x : Block) : (s.setBlock b x).parity = s.parity := rfl
@[simp] theorem State.setBlock_ctxs (b : Nat) (x : Block) : (s.setBlock b x).ctxs = s.ctxs := rfl
@[simp] theorem State.setBlock_cores (b : Nat) (x : Block) : (s.setBlock b x).cores = s.cores := rfl
@[simp] theorem State.setBlock_dies (b : Nat) (x : Block) : (s.setBlock b x).dies = s.dies := rfl
@[simp] theorem State.setBlock_grids (b : Nat) (x : Block) : (s.setBlock b x).grids = s.grids := rfl
@[simp] theorem State.setBlock_blocks (b : Nat) (x : Block) : (s.setBlock b x).blocks = s.blocks.set b x := rfl
@[simp] theorem State.setBlock_groups (b : Nat) (x : Block) : (s.setBlock b x).groups = s.groups := rfl
@[simp] theorem State.setBlock_sched (b : Nat) (x : Block) : (s.setBlock b x).sched = s.sched := rfl
@[simp] theorem State.setBlock_copies (b : Nat) (x : Block) : (s.setBlock b x).copies = s.copies := rfl
@[simp] theorem State.setBlock_requests (b : Nat) (x : Block) : (s.setBlock b x).requests = s.requests := rfl
@[simp] theorem State.setBlock_completions (b : Nat) (x : Block) : (s.setBlock b x).completions = s.completions := rfl
@[simp] theorem State.setBlock_flits (b : Nat) (x : Block) : (s.setBlock b x).flits = s.flits := rfl
@[simp] theorem State.setBlock_channels (b : Nat) (x : Block) : (s.setBlock b x).channels = s.channels := rfl
@[simp] theorem State.setBlock_baseDies (b : Nat) (x : Block) : (s.setBlock b x).baseDies = s.baseDies := rfl
@[simp] theorem State.setBlock_migs (b : Nat) (x : Block) : (s.setBlock b x).migs = s.migs := rfl
@[simp] theorem State.setBlock_xlinv (b : Nat) (x : Block) : (s.setBlock b x).xlinv = s.xlinv := rfl
@[simp] theorem State.setBlock_partnerRecs (b : Nat) (x : Block) : (s.setBlock b x).partnerRecs = s.partnerRecs := rfl
@[simp] theorem State.setBlock_partnerAcks (b : Nat) (x : Block) : (s.setBlock b x).partnerAcks = s.partnerAcks := rfl
@[simp] theorem State.setBlock_hostRead (b : Nat) (x : Block) : (s.setBlock b x).hostRead = s.hostRead := rfl
@[simp] theorem State.setBlock_hostWaits (b : Nat) (x : Block) : (s.setBlock b x).hostWaits = s.hostWaits := rfl
@[simp] theorem State.setBlock_msix (b : Nat) (x : Block) : (s.setBlock b x).msix = s.msix := rfl
@[simp] theorem State.setBlock_foreman (b : Nat) (x : Block) : (s.setBlock b x).foreman = s.foreman := rfl
@[simp] theorem State.setBlock_windowWrites (b : Nat) (x : Block) : (s.setBlock b x).windowWrites = s.windowWrites := rfl
@[simp] theorem State.setBlock_booted (b : Nat) (x : Block) : (s.setBlock b x).booted = s.booted := rfl
@[simp] theorem State.setBlock_agenda (b : Nat) (x : Block) : (s.setBlock b x).agenda = s.agenda := rfl
@[simp] theorem State.setBlock_turn (b : Nat) (x : Block) : (s.setBlock b x).turn = s.turn := rfl
@[simp] theorem State.setBlock_fresh (b : Nat) (x : Block) : (s.setBlock b x).fresh = s.fresh := rfl
@[simp] theorem State.setBlock_nextId (b : Nat) (x : Block) : (s.setBlock b x).nextId = s.nextId := rfl

/-! ### `modGroup` -/

@[simp] theorem State.modGroup_time (g : Nat) (f : Group → Group) : (s.modGroup g f).time = s.time := by
  unfold State.modGroup; split <;> rfl
@[simp] theorem State.modGroup_pkg (g : Nat) (f : Group → Group) : (s.modGroup g f).pkg = s.pkg := by
  unfold State.modGroup; split <;> rfl
@[simp] theorem State.modGroup_main (g : Nat) (f : Group → Group) : (s.modGroup g f).main = s.main := by
  unfold State.modGroup; split <;> rfl
@[simp] theorem State.modGroup_unitErrs (g : Nat) (f : Group → Group) : (s.modGroup g f).unitErrs = s.unitErrs := by
  unfold State.modGroup; split <;> rfl
@[simp] theorem State.modGroup_parity (g : Nat) (f : Group → Group) : (s.modGroup g f).parity = s.parity := by
  unfold State.modGroup; split <;> rfl
@[simp] theorem State.modGroup_ctxs (g : Nat) (f : Group → Group) : (s.modGroup g f).ctxs = s.ctxs := by
  unfold State.modGroup; split <;> rfl
@[simp] theorem State.modGroup_cores (g : Nat) (f : Group → Group) : (s.modGroup g f).cores = s.cores := by
  unfold State.modGroup; split <;> rfl
@[simp] theorem State.modGroup_dies (g : Nat) (f : Group → Group) : (s.modGroup g f).dies = s.dies := by
  unfold State.modGroup; split <;> rfl
@[simp] theorem State.modGroup_grids (g : Nat) (f : Group → Group) : (s.modGroup g f).grids = s.grids := by
  unfold State.modGroup; split <;> rfl
@[simp] theorem State.modGroup_blocks (g : Nat) (f : Group → Group) : (s.modGroup g f).blocks = s.blocks := by
  unfold State.modGroup; split <;> rfl
@[simp] theorem State.modGroup_sched (g : Nat) (f : Group → Group) : (s.modGroup g f).sched = s.sched := by
  unfold State.modGroup; split <;> rfl
@[simp] theorem State.modGroup_copies (g : Nat) (f : Group → Group) : (s.modGroup g f).copies = s.copies := by
  unfold State.modGroup; split <;> rfl
@[simp] theorem State.modGroup_requests (g : Nat) (f : Group → Group) : (s.modGroup g f).requests = s.requests := by
  unfold State.modGroup; split <;> rfl
@[simp] theorem State.modGroup_completions (g : Nat) (f : Group → Group) : (s.modGroup g f).completions = s.completions := by
  unfold State.modGroup; split <;> rfl
@[simp] theorem State.modGroup_flits (g : Nat) (f : Group → Group) : (s.modGroup g f).flits = s.flits := by
  unfold State.modGroup; split <;> rfl
@[simp] theorem State.modGroup_channels (g : Nat) (f : Group → Group) : (s.modGroup g f).channels = s.channels := by
  unfold State.modGroup; split <;> rfl
@[simp] theorem State.modGroup_baseDies (g : Nat) (f : Group → Group) : (s.modGroup g f).baseDies = s.baseDies := by
  unfold State.modGroup; split <;> rfl
@[simp] theorem State.modGroup_migs (g : Nat) (f : Group → Group) : (s.modGroup g f).migs = s.migs := by
  unfold State.modGroup; split <;> rfl
@[simp] theorem State.modGroup_xlinv (g : Nat) (f : Group → Group) : (s.modGroup g f).xlinv = s.xlinv := by
  unfold State.modGroup; split <;> rfl
@[simp] theorem State.modGroup_partnerRecs (g : Nat) (f : Group → Group) : (s.modGroup g f).partnerRecs = s.partnerRecs := by
  unfold State.modGroup; split <;> rfl
@[simp] theorem State.modGroup_partnerAcks (g : Nat) (f : Group → Group) : (s.modGroup g f).partnerAcks = s.partnerAcks := by
  unfold State.modGroup; split <;> rfl
@[simp] theorem State.modGroup_hostRead (g : Nat) (f : Group → Group) : (s.modGroup g f).hostRead = s.hostRead := by
  unfold State.modGroup; split <;> rfl
@[simp] theorem State.modGroup_hostWaits (g : Nat) (f : Group → Group) : (s.modGroup g f).hostWaits = s.hostWaits := by
  unfold State.modGroup; split <;> rfl
@[simp] theorem State.modGroup_msix (g : Nat) (f : Group → Group) : (s.modGroup g f).msix = s.msix := by
  unfold State.modGroup; split <;> rfl
@[simp] theorem State.modGroup_foreman (g : Nat) (f : Group → Group) : (s.modGroup g f).foreman = s.foreman := by
  unfold State.modGroup; split <;> rfl
@[simp] theorem State.modGroup_windowWrites (g : Nat) (f : Group → Group) : (s.modGroup g f).windowWrites = s.windowWrites := by
  unfold State.modGroup; split <;> rfl
@[simp] theorem State.modGroup_booted (g : Nat) (f : Group → Group) : (s.modGroup g f).booted = s.booted := by
  unfold State.modGroup; split <;> rfl
@[simp] theorem State.modGroup_agenda (g : Nat) (f : Group → Group) : (s.modGroup g f).agenda = s.agenda := by
  unfold State.modGroup; split <;> rfl
@[simp] theorem State.modGroup_turn (g : Nat) (f : Group → Group) : (s.modGroup g f).turn = s.turn := by
  unfold State.modGroup; split <;> rfl
@[simp] theorem State.modGroup_fresh (g : Nat) (f : Group → Group) : (s.modGroup g f).fresh = s.fresh := by
  unfold State.modGroup; split <;> rfl
@[simp] theorem State.modGroup_nextId (g : Nat) (f : Group → Group) : (s.modGroup g f).nextId = s.nextId := by
  unfold State.modGroup; split <;> rfl

/-! ### `modBlock` -/

@[simp] theorem State.modBlock_time (b : Nat) (f : Block → Block) : (s.modBlock b f).time = s.time := by
  unfold State.modBlock; split <;> rfl
@[simp] theorem State.modBlock_pkg (b : Nat) (f : Block → Block) : (s.modBlock b f).pkg = s.pkg := by
  unfold State.modBlock; split <;> rfl
@[simp] theorem State.modBlock_main (b : Nat) (f : Block → Block) : (s.modBlock b f).main = s.main := by
  unfold State.modBlock; split <;> rfl
@[simp] theorem State.modBlock_unitErrs (b : Nat) (f : Block → Block) : (s.modBlock b f).unitErrs = s.unitErrs := by
  unfold State.modBlock; split <;> rfl
@[simp] theorem State.modBlock_parity (b : Nat) (f : Block → Block) : (s.modBlock b f).parity = s.parity := by
  unfold State.modBlock; split <;> rfl
@[simp] theorem State.modBlock_ctxs (b : Nat) (f : Block → Block) : (s.modBlock b f).ctxs = s.ctxs := by
  unfold State.modBlock; split <;> rfl
@[simp] theorem State.modBlock_cores (b : Nat) (f : Block → Block) : (s.modBlock b f).cores = s.cores := by
  unfold State.modBlock; split <;> rfl
@[simp] theorem State.modBlock_dies (b : Nat) (f : Block → Block) : (s.modBlock b f).dies = s.dies := by
  unfold State.modBlock; split <;> rfl
@[simp] theorem State.modBlock_grids (b : Nat) (f : Block → Block) : (s.modBlock b f).grids = s.grids := by
  unfold State.modBlock; split <;> rfl
@[simp] theorem State.modBlock_groups (b : Nat) (f : Block → Block) : (s.modBlock b f).groups = s.groups := by
  unfold State.modBlock; split <;> rfl
@[simp] theorem State.modBlock_sched (b : Nat) (f : Block → Block) : (s.modBlock b f).sched = s.sched := by
  unfold State.modBlock; split <;> rfl
@[simp] theorem State.modBlock_copies (b : Nat) (f : Block → Block) : (s.modBlock b f).copies = s.copies := by
  unfold State.modBlock; split <;> rfl
@[simp] theorem State.modBlock_requests (b : Nat) (f : Block → Block) : (s.modBlock b f).requests = s.requests := by
  unfold State.modBlock; split <;> rfl
@[simp] theorem State.modBlock_completions (b : Nat) (f : Block → Block) : (s.modBlock b f).completions = s.completions := by
  unfold State.modBlock; split <;> rfl
@[simp] theorem State.modBlock_flits (b : Nat) (f : Block → Block) : (s.modBlock b f).flits = s.flits := by
  unfold State.modBlock; split <;> rfl
@[simp] theorem State.modBlock_channels (b : Nat) (f : Block → Block) : (s.modBlock b f).channels = s.channels := by
  unfold State.modBlock; split <;> rfl
@[simp] theorem State.modBlock_baseDies (b : Nat) (f : Block → Block) : (s.modBlock b f).baseDies = s.baseDies := by
  unfold State.modBlock; split <;> rfl
@[simp] theorem State.modBlock_migs (b : Nat) (f : Block → Block) : (s.modBlock b f).migs = s.migs := by
  unfold State.modBlock; split <;> rfl
@[simp] theorem State.modBlock_xlinv (b : Nat) (f : Block → Block) : (s.modBlock b f).xlinv = s.xlinv := by
  unfold State.modBlock; split <;> rfl
@[simp] theorem State.modBlock_partnerRecs (b : Nat) (f : Block → Block) : (s.modBlock b f).partnerRecs = s.partnerRecs := by
  unfold State.modBlock; split <;> rfl
@[simp] theorem State.modBlock_partnerAcks (b : Nat) (f : Block → Block) : (s.modBlock b f).partnerAcks = s.partnerAcks := by
  unfold State.modBlock; split <;> rfl
@[simp] theorem State.modBlock_hostRead (b : Nat) (f : Block → Block) : (s.modBlock b f).hostRead = s.hostRead := by
  unfold State.modBlock; split <;> rfl
@[simp] theorem State.modBlock_hostWaits (b : Nat) (f : Block → Block) : (s.modBlock b f).hostWaits = s.hostWaits := by
  unfold State.modBlock; split <;> rfl
@[simp] theorem State.modBlock_msix (b : Nat) (f : Block → Block) : (s.modBlock b f).msix = s.msix := by
  unfold State.modBlock; split <;> rfl
@[simp] theorem State.modBlock_foreman (b : Nat) (f : Block → Block) : (s.modBlock b f).foreman = s.foreman := by
  unfold State.modBlock; split <;> rfl
@[simp] theorem State.modBlock_windowWrites (b : Nat) (f : Block → Block) : (s.modBlock b f).windowWrites = s.windowWrites := by
  unfold State.modBlock; split <;> rfl
@[simp] theorem State.modBlock_booted (b : Nat) (f : Block → Block) : (s.modBlock b f).booted = s.booted := by
  unfold State.modBlock; split <;> rfl
@[simp] theorem State.modBlock_agenda (b : Nat) (f : Block → Block) : (s.modBlock b f).agenda = s.agenda := by
  unfold State.modBlock; split <;> rfl
@[simp] theorem State.modBlock_turn (b : Nat) (f : Block → Block) : (s.modBlock b f).turn = s.turn := by
  unfold State.modBlock; split <;> rfl
@[simp] theorem State.modBlock_fresh (b : Nat) (f : Block → Block) : (s.modBlock b f).fresh = s.fresh := by
  unfold State.modBlock; split <;> rfl
@[simp] theorem State.modBlock_nextId (b : Nat) (f : Block → Block) : (s.modBlock b f).nextId = s.nextId := by
  unfold State.modBlock; split <;> rfl

/-! ### `modSplit` -/

@[simp] theorem State.modSplit_time (g i : Nat) (f : Split → Split) : (s.modSplit g i f).time = s.time :=
  State.modGroup_time s g _
@[simp] theorem State.modSplit_pkg (g i : Nat) (f : Split → Split) : (s.modSplit g i f).pkg = s.pkg :=
  State.modGroup_pkg s g _
@[simp] theorem State.modSplit_main (g i : Nat) (f : Split → Split) : (s.modSplit g i f).main = s.main :=
  State.modGroup_main s g _
@[simp] theorem State.modSplit_unitErrs (g i : Nat) (f : Split → Split) : (s.modSplit g i f).unitErrs = s.unitErrs :=
  State.modGroup_unitErrs s g _
@[simp] theorem State.modSplit_parity (g i : Nat) (f : Split → Split) : (s.modSplit g i f).parity = s.parity :=
  State.modGroup_parity s g _
@[simp] theorem State.modSplit_ctxs (g i : Nat) (f : Split → Split) : (s.modSplit g i f).ctxs = s.ctxs :=
  State.modGroup_ctxs s g _
@[simp] theorem State.modSplit_cores (g i : Nat) (f : Split → Split) : (s.modSplit g i f).cores = s.cores :=
  State.modGroup_cores s g _
@[simp] theorem State.modSplit_dies (g i : Nat) (f : Split → Split) : (s.modSplit g i f).dies = s.dies :=
  State.modGroup_dies s g _
@[simp] theorem State.modSplit_grids (g i : Nat) (f : Split → Split) : (s.modSplit g i f).grids = s.grids :=
  State.modGroup_grids s g _
@[simp] theorem State.modSplit_blocks (g i : Nat) (f : Split → Split) : (s.modSplit g i f).blocks = s.blocks :=
  State.modGroup_blocks s g _
@[simp] theorem State.modSplit_sched (g i : Nat) (f : Split → Split) : (s.modSplit g i f).sched = s.sched :=
  State.modGroup_sched s g _
@[simp] theorem State.modSplit_copies (g i : Nat) (f : Split → Split) : (s.modSplit g i f).copies = s.copies :=
  State.modGroup_copies s g _
@[simp] theorem State.modSplit_requests (g i : Nat) (f : Split → Split) : (s.modSplit g i f).requests = s.requests :=
  State.modGroup_requests s g _
@[simp] theorem State.modSplit_completions (g i : Nat) (f : Split → Split) : (s.modSplit g i f).completions = s.completions :=
  State.modGroup_completions s g _
@[simp] theorem State.modSplit_flits (g i : Nat) (f : Split → Split) : (s.modSplit g i f).flits = s.flits :=
  State.modGroup_flits s g _
@[simp] theorem State.modSplit_channels (g i : Nat) (f : Split → Split) : (s.modSplit g i f).channels = s.channels :=
  State.modGroup_channels s g _
@[simp] theorem State.modSplit_baseDies (g i : Nat) (f : Split → Split) : (s.modSplit g i f).baseDies = s.baseDies :=
  State.modGroup_baseDies s g _
@[simp] theorem State.modSplit_migs (g i : Nat) (f : Split → Split) : (s.modSplit g i f).migs = s.migs :=
  State.modGroup_migs s g _
@[simp] theorem State.modSplit_xlinv (g i : Nat) (f : Split → Split) : (s.modSplit g i f).xlinv = s.xlinv :=
  State.modGroup_xlinv s g _
@[simp] theorem State.modSplit_partnerRecs (g i : Nat) (f : Split → Split) : (s.modSplit g i f).partnerRecs = s.partnerRecs :=
  State.modGroup_partnerRecs s g _
@[simp] theorem State.modSplit_partnerAcks (g i : Nat) (f : Split → Split) : (s.modSplit g i f).partnerAcks = s.partnerAcks :=
  State.modGroup_partnerAcks s g _
@[simp] theorem State.modSplit_hostRead (g i : Nat) (f : Split → Split) : (s.modSplit g i f).hostRead = s.hostRead :=
  State.modGroup_hostRead s g _
@[simp] theorem State.modSplit_hostWaits (g i : Nat) (f : Split → Split) : (s.modSplit g i f).hostWaits = s.hostWaits :=
  State.modGroup_hostWaits s g _
@[simp] theorem State.modSplit_msix (g i : Nat) (f : Split → Split) : (s.modSplit g i f).msix = s.msix :=
  State.modGroup_msix s g _
@[simp] theorem State.modSplit_foreman (g i : Nat) (f : Split → Split) : (s.modSplit g i f).foreman = s.foreman :=
  State.modGroup_foreman s g _
@[simp] theorem State.modSplit_windowWrites (g i : Nat) (f : Split → Split) : (s.modSplit g i f).windowWrites = s.windowWrites :=
  State.modGroup_windowWrites s g _
@[simp] theorem State.modSplit_booted (g i : Nat) (f : Split → Split) : (s.modSplit g i f).booted = s.booted :=
  State.modGroup_booted s g _
@[simp] theorem State.modSplit_agenda (g i : Nat) (f : Split → Split) : (s.modSplit g i f).agenda = s.agenda :=
  State.modGroup_agenda s g _
@[simp] theorem State.modSplit_turn (g i : Nat) (f : Split → Split) : (s.modSplit g i f).turn = s.turn :=
  State.modGroup_turn s g _
@[simp] theorem State.modSplit_fresh (g i : Nat) (f : Split → Split) : (s.modSplit g i f).fresh = s.fresh :=
  State.modGroup_fresh s g _
@[simp] theorem State.modSplit_nextId (g i : Nat) (f : Split → Split) : (s.modSplit g i f).nextId = s.nextId :=
  State.modGroup_nextId s g _

/-! ### Reading back -/

@[simp] theorem State.setGroup_setGroup (g : Nat) (x y : Group) : (s.setGroup g x).setGroup g y = s.setGroup g y := by
  simp [State.setGroup]
@[simp] theorem State.setBlock_setBlock (b : Nat) (x y : Block) : (s.setBlock b x).setBlock b y = s.setBlock b y := by
  simp [State.setBlock]
@[simp] theorem State.core_setCore_same (k : Nat) (x : Core) : (s.setCore k x).core k = x := by simp [State.core]
theorem State.core_setCore_ne {k j : Nat} (x : Core) (h : j ≠ k) : (s.setCore k x).core j = s.core j := by
  simp [State.core, Sparse.getD_set_ne _ _ _ h]
@[simp] theorem State.die_setDie_same (d : Nat) (x : Die) : (s.setDie d x).die d = x := by simp [State.die]
theorem State.die_setDie_ne {d e : Nat} (x : Die) (h : e ≠ d) : (s.setDie d x).die e = s.die e := by
  simp [State.die, Sparse.getD_set_ne _ _ _ h]
@[simp] theorem State.ctx_setCtx_same (c : Nat) (x : Context) : (s.setCtx c x).ctx c = x := by simp [State.ctx]
theorem State.ctx_setCtx_ne {c d : Nat} (x : Context) (h : d ≠ c) : (s.setCtx c x).ctx d = s.ctx d := by
  simp [State.ctx, Sparse.getD_set_ne _ _ _ h]
@[simp] theorem State.ctxReg_setCtxReg_same (c n : Nat) (v : Word) : (s.setCtxReg c n v).ctxReg c n = v := by
  simp [State.ctxReg, State.setCtxReg]
theorem State.ctxReg_setCtxReg_ne {c n d m : Nat} (v : Word) (h : d ≠ c ∨ m ≠ n) :
    (s.setCtxReg c n v).ctxReg d m = s.ctxReg d m := by
  by_cases hc : d = c
  · subst hc
    have hm : m ≠ n := by tauto
    simp [State.ctxReg, State.setCtxReg, Sparse.getD_set_ne _ _ _ hm]
  · simp [State.ctxReg, State.setCtxReg, State.ctx_setCtx_ne _ _ hc]
@[simp] theorem State.pkgReg_setPkgReg_same (n : Nat) (v : Word) : (s.setPkgReg n v).pkgReg n = v := by
  simp [State.pkgReg]
theorem State.pkgReg_setPkgReg_ne {n m : Nat} (v : Word) (h : m ≠ n) : (s.setPkgReg n v).pkgReg m = s.pkgReg m := by
  simp [State.pkgReg, Sparse.getD_set_ne _ _ _ h]

/-- `modGroup` on a group that lives. -/
theorem State.modGroup_of_get? {s : State} {g : Nat} {x : Group} (f : Group → Group) (h : s.groups.get? g = some x) :
    s.modGroup g f = s.setGroup g (f x) := by simp [State.modGroup, h]
@[simp] theorem State.modGroup_setGroup (g : Nat) (x : Group) (f : Group → Group) :
    (s.setGroup g x).modGroup g f = s.setGroup g (f x) := by simp [State.modGroup]

end Sys2Proof.Machine
end

