-- ==== Sys2Proof/Laws/Dispatch.lean ====
section
/-!
SUPPORT. The meaning that `exec` calls for each constructor.
-/
namespace Sys2Proof.Machine

variable (s : State)

@[simp] theorem exec_sadd (o : SR) : exec (.sadd o) s = execSadd o s := rfl
@[simp] theorem exec_ssub (o : SR) : exec (.ssub o) s = execSsub o s := rfl
@[simp] theorem exec_smul (o : SR) : exec (.smul o) s = execSmul o s := rfl
@[simp] theorem exec_smulh (o : SR) : exec (.smulh o) s = execSmulh o s := rfl
@[simp] theorem exec_smulhn (o : SR) : exec (.smulhn o) s = execSmulhn o s := rfl
@[simp] theorem exec_sand (o : SR) : exec (.sand o) s = execSand o s := rfl
@[simp] theorem exec_sor (o : SR) : exec (.sor o) s = execSor o s := rfl
@[simp] theorem exec_sxor (o : SR) : exec (.sxor o) s = execSxor o s := rfl
@[simp] theorem exec_sshl (o : SR) : exec (.sshl o) s = execSshl o s := rfl
@[simp] theorem exec_sshr (o : SR) : exec (.sshr o) s = execSshr o s := rfl
@[simp] theorem exec_ssra (o : SR) : exec (.ssra o) s = execSsra o s := rfl
@[simp] theorem exec_smin (o : SR) : exec (.smin o) s = execSmin o s := rfl
@[simp] theorem exec_smax (o : SR) : exec (.smax o) s = execSmax o s := rfl
@[simp] theorem exec_sminn (o : SR) : exec (.sminn o) s = execSminn o s := rfl
@[simp] theorem exec_smaxn (o : SR) : exec (.smaxn o) s = execSmaxn o s := rfl
@[simp] theorem exec_scmp (o : SR) : exec (.scmp o) s = execScmp o s := rfl
@[simp] theorem exec_saddi (o : SI) : exec (.saddi o) s = execSaddi o s := rfl
@[simp] theorem exec_sandi (o : SI) : exec (.sandi o) s = execSandi o s := rfl
@[simp] theorem exec_sori (o : SI) : exec (.sori o) s = execSori o s := rfl
@[simp] theorem exec_sxori (o : SI) : exec (.sxori o) s = execSxori o s := rfl
@[simp] theorem exec_sshli (o : SI) : exec (.sshli o) s = execSshli o s := rfl
@[simp] theorem exec_sshri (o : SI) : exec (.sshri o) s = execSshri o s := rfl
@[simp] theorem exec_ssrai (o : SI) : exec (.ssrai o) s = execSsrai o s := rfl
@[simp] theorem exec_sli (o : SI) : exec (.sli o) s = execSli o s := rfl
@[simp] theorem exec_slih (o : SI) : exec (.slih o) s = execSlih o s := rfl
@[simp] theorem exec_scmpi (o : SI) : exec (.scmpi o) s = execScmpi o s := rfl
@[simp] theorem exec_sgetv (o : XF) : exec (.sgetv o) s = execSgetv o s := rfl
@[simp] theorem exec_sballot (o : XF) : exec (.sballot o) s = execSballot o s := rfl
@[simp] theorem exec_spopc (o : SR) : exec (.spopc o) s = execSpopc o s := rfl
@[simp] theorem exec_sclz (o : SR) : exec (.sclz o) s = execSclz o s := rfl
@[simp] theorem exec_sffs (o : SR) : exec (.sffs o) s = execSffs o s := rfl
@[simp] theorem exec_srd (o : YF) : exec (.srd o) s = execSrd o s := rfl
@[simp] theorem exec_swr (o : YF) : exec (.swr o) s = execSwr o s := rfl
@[simp] theorem exec_br (o : BR) : exec (.br o) s = execBr o s := rfl
@[simp] theorem exec_brx (o : BR) : exec (.brx o) s = execBrx o s := rfl
@[simp] theorem exec_call (o : BR) : exec (.call o) s = execCall o s := rfl
@[simp] theorem exec_ret (o : BR) : exec (.ret o) s = execRet o s := rfl
@[simp] theorem exec_split (o : SP) : exec (.split o) s = execSplit o s := rfl
@[simp] theorem exec_join : exec (.join) s = execJoin s := rfl
@[simp] theorem exec_exit (o : EX) : exec (.exit o) s = execExit o s := rfl
@[simp] theorem exec_ient : exec (.ient) s = execIent s := rfl
@[simp] theorem exec_fmt (o : YF) : exec (.fmt o) s = execFmt o s := rfl
@[simp] theorem exec_nop : exec (.nop) s = execNop s := rfl
@[simp] theorem exec_vadd (ty : IntTy) (o : V3) : exec (.vadd ty o) s = execVadd ty o s := rfl
@[simp] theorem exec_vsub (ty : IntTy) (o : V3) : exec (.vsub ty o) s = execVsub ty o s := rfl
@[simp] theorem exec_vmul (ty : IntTy) (o : V3) : exec (.vmul ty o) s = execVmul ty o s := rfl
@[simp] theorem exec_vmulh (ty : IntTy) (o : V3) : exec (.vmulh ty o) s = execVmulh ty o s := rfl
@[simp] theorem exec_vmulhn (ty : IntTy) (o : V3) : exec (.vmulhn ty o) s = execVmulhn ty o s := rfl
@[simp] theorem exec_vand (ty : IntTy) (o : V3) : exec (.vand ty o) s = execVand ty o s := rfl
@[simp] theorem exec_vor (ty : IntTy) (o : V3) : exec (.vor ty o) s = execVor ty o s := rfl
@[simp] theorem exec_vxor (ty : IntTy) (o : V3) : exec (.vxor ty o) s = execVxor ty o s := rfl
@[simp] theorem exec_vshl (ty : IntTy) (o : V3) : exec (.vshl ty o) s = execVshl ty o s := rfl
@[simp] theorem exec_vshr (ty : IntTy) (o : V3) : exec (.vshr ty o) s = execVshr ty o s := rfl
@[simp] theorem exec_vsra (ty : IntTy) (o : V3) : exec (.vsra ty o) s = execVsra ty o s := rfl
@[simp] theorem exec_vmin (ty : IntTy) (o : V3) : exec (.vmin ty o) s = execVmin ty o s := rfl
@[simp] theorem exec_vmax (ty : IntTy) (o : V3) : exec (.vmax ty o) s = execVmax ty o s := rfl
@[simp] theorem exec_vminn (ty : IntTy) (o : V3) : exec (.vminn ty o) s = execVminn ty o s := rfl
@[simp] theorem exec_vmaxn (ty : IntTy) (o : V3) : exec (.vmaxn ty o) s = execVmaxn ty o s := rfl
@[simp] theorem exec_vabs (ty : IntTy) (o : V3) : exec (.vabs ty o) s = execVabs ty o s := rfl
@[simp] theorem exec_vneg (ty : IntTy) (o : V3) : exec (.vneg ty o) s = execVneg ty o s := rfl
@[simp] theorem exec_vclz (ty : IntTy) (o : V3) : exec (.vclz ty o) s = execVclz ty o s := rfl
@[simp] theorem exec_vpopc (ty : IntTy) (o : V3) : exec (.vpopc ty o) s = execVpopc ty o s := rfl
@[simp] theorem exec_vaddi (ty : IntTy) (o : VI) : exec (.vaddi ty o) s = execVaddi ty o s := rfl
@[simp] theorem exec_vandi (ty : IntTy) (o : VI) : exec (.vandi ty o) s = execVandi ty o s := rfl
@[simp] theorem exec_vori (ty : IntTy) (o : VI) : exec (.vori ty o) s = execVori ty o s := rfl
@[simp] theorem exec_vxori (ty : IntTy) (o : VI) : exec (.vxori ty o) s = execVxori ty o s := rfl
@[simp] theorem exec_vshli (ty : IntTy) (o : VI) : exec (.vshli ty o) s = execVshli ty o s := rfl
@[simp] theorem exec_vshri (ty : IntTy) (o : VI) : exec (.vshri ty o) s = execVshri ty o s := rfl
@[simp] theorem exec_vsrai (ty : IntTy) (o : VI) : exec (.vsrai ty o) s = execVsrai ty o s := rfl
@[simp] theorem exec_vli (o : VL) : exec (.vli o) s = execVli o s := rfl
@[simp] theorem exec_vcmp (c : IntCmp) (ty : IntTy) (o : V3) : exec (.vcmp c ty o) s = execVcmp c ty o s := rfl
@[simp] theorem exec_vfcmp (c : FloatCmp) (ty : FloatTy) (o : V3) : exec (.vfcmp c ty o) s = execVfcmp c ty o s := rfl
@[simp] theorem exec_pand (o : V3) : exec (.pand o) s = execPand o s := rfl
@[simp] theorem exec_por (o : V3) : exec (.por o) s = execPor o s := rfl
@[simp] theorem exec_pxor (o : V3) : exec (.pxor o) s = execPxor o s := rfl
@[simp] theorem exec_pandn (o : V3) : exec (.pandn o) s = execPandn o s := rfl
@[simp] theorem exec_pnot (o : V3) : exec (.pnot o) s = execPnot o s := rfl
@[simp] theorem exec_pmov (o : V3) : exec (.pmov o) s = execPmov o s := rfl
@[simp] theorem exec_pset (o : V3) : exec (.pset o) s = execPset o s := rfl
@[simp] theorem exec_pclr (o : V3) : exec (.pclr o) s = execPclr o s := rfl
@[simp] theorem exec_ptest (o : V3) : exec (.ptest o) s = execPtest o s := rfl
@[simp] theorem exec_vsel (o : V3) : exec (.vsel o) s = execVsel o s := rfl
@[simp] theorem exec_vmov (o : V3) : exec (.vmov o) s = execVmov o s := rfl
@[simp] theorem exec_vbcast (o : VS) : exec (.vbcast o) s = execVbcast o s := rfl
@[simp] theorem exec_vlane (o : VS) : exec (.vlane o) s = execVlane o s := rfl
@[simp] theorem exec_vfadd (ty : FloatTy) (o : V3) : exec (.vfadd ty o) s = execVfadd ty o s := rfl
@[simp] theorem exec_vfsub (ty : FloatTy) (o : V3) : exec (.vfsub ty o) s = execVfsub ty o s := rfl
@[simp] theorem exec_vfmul (ty : FloatTy) (o : V3) : exec (.vfmul ty o) s = execVfmul ty o s := rfl
@[simp] theorem exec_vfma (ty : FloatTy) (o : V3) : exec (.vfma ty o) s = execVfma ty o s := rfl
@[simp] theorem exec_vfms (ty : FloatTy) (o : V3) : exec (.vfms ty o) s = execVfms ty o s := rfl
@[simp] theorem exec_vfnma (ty : FloatTy) (o : V3) : exec (.vfnma ty o) s = execVfnma ty o s := rfl
@[simp] theorem exec_vfmin (ty : FloatTy) (o : V3) : exec (.vfmin ty o) s = execVfmin ty o s := rfl
@[simp] theorem exec_vfmax (ty : FloatTy) (o : V3) : exec (.vfmax ty o) s = execVfmax ty o s := rfl
@[simp] theorem exec_vfabs (ty : FloatTy) (o : V3) : exec (.vfabs ty o) s = execVfabs ty o s := rfl
@[simp] theorem exec_vfneg (ty : FloatTy) (o : V3) : exec (.vfneg ty o) s = execVfneg ty o s := rfl
@[simp] theorem exec_vfclass (ty : FloatTy) (o : V3) : exec (.vfclass ty o) s = execVfclass ty o s := rfl
@[simp] theorem exec_vrcp (o : XF) : exec (.vrcp o) s = execVrcp o s := rfl
@[simp] theorem exec_vrsq (o : XF) : exec (.vrsq o) s = execVrsq o s := rfl
@[simp] theorem exec_vsqrt (o : XF) : exec (.vsqrt o) s = execVsqrt o s := rfl
@[simp] theorem exec_vexp2 (o : XF) : exec (.vexp2 o) s = execVexp2 o s := rfl
@[simp] theorem exec_vlog2 (o : XF) : exec (.vlog2 o) s = execVlog2 o s := rfl
@[simp] theorem exec_vcvt (o : XF) : exec (.vcvt o) s = execVcvt o s := rfl
@[simp] theorem exec_vpack (o : XF) : exec (.vpack o) s = execVpack o s := rfl
@[simp] theorem exec_vunpack (o : XF) : exec (.vunpack o) s = execVunpack o s := rfl
@[simp] theorem exec_vscl (o : XF) : exec (.vscl o) s = execVscl o s := rfl
@[simp] theorem exec_vdot8 (o : XF) : exec (.vdot8 o) s = execVdot8 o s := rfl
@[simp] theorem exec_vdot4 (o : XF) : exec (.vdot4 o) s = execVdot4 o s := rfl
@[simp] theorem exec_vdoti8 (o : XF) : exec (.vdoti8 o) s = execVdoti8 o s := rfl
@[simp] theorem exec_tmv (o : XF) : exec (.tmv o) s = execTmv o s := rfl
@[simp] theorem exec_vperm (o : V3) : exec (.vperm o) s = execVperm o s := rfl
@[simp] theorem exec_vred (o : XF) : exec (.vred o) s = execVred o s := rfl
@[simp] theorem exec_vscan (o : XF) : exec (.vscan o) s = execVscan o s := rfl
@[simp] theorem exec_vconf (o : V3) : exec (.vconf o) s = execVconf o s := rfl
@[simp] theorem exec_vcomp (o : V3) : exec (.vcomp o) s = execVcomp o s := rfl
@[simp] theorem exec_lds (o : MF) : exec (.lds o) s = execLds o s := rfl
@[simp] theorem exec_sts (o : MF) : exec (.sts o) s = execSts o s := rfl
@[simp] theorem exec_ldx (o : MF) : exec (.ldx o) s = execLdx o s := rfl
@[simp] theorem exec_stx (o : MF) : exec (.stx o) s = execStx o s := rfl
@[simp] theorem exec_ldc (o : MF) : exec (.ldc o) s = execLdc o s := rfl
@[simp] theorem exec_vspill (o : MF) : exec (.vspill o) s = execVspill o s := rfl
@[simp] theorem exec_vfill (o : MF) : exec (.vfill o) s = execVfill o s := rfl
@[simp] theorem exec_vgth (o : MF) : exec (.vgth o) s = execVgth o s := rfl
@[simp] theorem exec_vsct (o : MF) : exec (.vsct o) s = execVsct o s := rfl
@[simp] theorem exec_aadd (o : MF) : exec (.aadd o) s = execAadd o s := rfl
@[simp] theorem exec_afadd (o : MF) : exec (.afadd o) s = execAfadd o s := rfl
@[simp] theorem exec_amin (o : MF) : exec (.amin o) s = execAmin o s := rfl
@[simp] theorem exec_amax (o : MF) : exec (.amax o) s = execAmax o s := rfl
@[simp] theorem exec_aand (o : MF) : exec (.aand o) s = execAand o s := rfl
@[simp] theorem exec_aor (o : MF) : exec (.aor o) s = execAor o s := rfl
@[simp] theorem exec_axchg (o : MF) : exec (.axchg o) s = execAxchg o s := rfl
@[simp] theorem exec_acas (o : MF) : exec (.acas o) s = execAcas o s := rfl
@[simp] theorem exec_bar (o : MF) : exec (.bar o) s = execBar o s := rfl
@[simp] theorem exec_barr (o : MF) : exec (.barr o) s = execBarr o s := rfl
@[simp] theorem exec_barw (o : MF) : exec (.barw o) s = execBarw o s := rfl
@[simp] theorem exec_wmon (o : YF) : exec (.wmon o) s = execWmon o s := rfl
@[simp] theorem exec_fence (o : MF) : exec (.fence o) s = execFence o s := rfl
@[simp] theorem exec_fenceOp (o : MF) : exec (.fenceOp o) s = execFenceOp o s := rfl
@[simp] theorem exec_cpy (o : YF) : exec (.cpy o) s = execCpy o s := rfl
@[simp] theorem exec_cpyr (o : YF) : exec (.cpyr o) s = execCpyr o s := rfl
@[simp] theorem exec_bclose (o : YF) : exec (.bclose o) s = execBclose o s := rfl
@[simp] theorem exec_bwait (o : YF) : exec (.bwait o) s = execBwait o s := rfl
@[simp] theorem exec_cquiesce (o : YF) : exec (.cquiesce o) s = execCquiesce o s := rfl
@[simp] theorem exec_cquiesceRst (o : YF) : exec (.cquiesceRst o) s = execCquiesceRst o s := rfl
@[simp] theorem exec_cstat (o : YF) : exec (.cstat o) s = execCstat o s := rfl
@[simp] theorem exec_oclaim (o : YF) : exec (.oclaim o) s = execOclaim o s := rfl
@[simp] theorem exec_oclaimAny (o : YF) : exec (.oclaimAny o) s = execOclaimAny o s := rfl
@[simp] theorem exec_orel (o : YF) : exec (.orel o) s = execOrel o s := rfl
@[simp] theorem exec_mma (o : XF) : exec (.mma o) s = execMma o s := rfl
@[simp] theorem exec_mmas (o : XF) : exec (.mmas o) s = execMmas o s := rfl
@[simp] theorem exec_mzero (o : YF) : exec (.mzero o) s = execMzero o s := rfl
@[simp] theorem exec_accrd (o : XF) : exec (.accrd o) s = execAccrd o s := rfl
@[simp] theorem exec_accwr (o : XF) : exec (.accwr o) s = execAccwr o s := rfl
@[simp] theorem exec_mlease (o : YF) : exec (.mlease o) s = execMlease o s := rfl
@[simp] theorem exec_mleaseFol (o : YF) : exec (.mleaseFol o) s = execMleaseFol o s := rfl
@[simp] theorem exec_smask (o : YF) : exec (.smask o) s = execSmask o s := rfl
@[simp] theorem exec_attnBrim (o : YF) : exec (.attnBrim o) s = execAttnBrim o s := rfl
@[simp] theorem exec_attnBrimRes (o : YF) : exec (.attnBrimRes o) s = execAttnBrimRes o s := rfl
@[simp] theorem exec_kvmap (o : XF) : exec (.kvmap o) s = execKvmap o s := rfl
@[simp] theorem exec_kvapp (o : YF) : exec (.kvapp o) s = execKvapp o s := rfl
@[simp] theorem exec_kvreq (o : YF) : exec (.kvreq o) s = execKvreq o s := rfl
@[simp] theorem exec_kvsum (o : YF) : exec (.kvsum o) s = execKvsum o s := rfl
@[simp] theorem exec_kvlink (o : YF) : exec (.kvlink o) s = execKvlink o s := rfl
@[simp] theorem exec_kvtrim (o : YF) : exec (.kvtrim o) s = execKvtrim o s := rfl
@[simp] theorem exec_pgget (o : YF) : exec (.pgget o) s = execPgget o s := rfl
@[simp] theorem exec_pgput (o : YF) : exec (.pgput o) s = execPgput o s := rfl
@[simp] theorem exec_bdep (o : YF) : exec (.bdep o) s = execBdep o s := rfl
@[simp] theorem exec_bcpy (o : YF) : exec (.bcpy o) s = execBcpy o s := rfl
@[simp] theorem exec_btak (o : YF) : exec (.btak o) s = execBtak o s := rfl
@[simp] theorem exec_jrec (o : YF) : exec (.jrec o) s = execJrec o s := rfl
@[simp] theorem exec_jack (o : YF) : exec (.jack o) s = execJack o s := rfl
@[simp] theorem exec_jtrunc (o : YF) : exec (.jtrunc o) s = execJtrunc o s := rfl
@[simp] theorem exec_rngc (o : XF) : exec (.rngc o) s = execRngc o s := rfl
@[simp] theorem exec_bdset (o : YF) : exec (.bdset o) s = execBdset o s := rfl
@[simp] theorem exec_bdget (o : YF) : exec (.bdget o) s = execBdget o s := rfl
@[simp] theorem exec_bdclr (o : YF) : exec (.bdclr o) s = execBdclr o s := rfl
@[simp] theorem exec_spawn (o : XF) : exec (.spawn o) s = execSpawn o s := rfl
@[simp] theorem exec_glaunch (o : YF) : exec (.glaunch o) s = execGlaunch o s := rfl
@[simp] theorem exec_gwait (o : YF) : exec (.gwait o) s = execGwait o s := rfl
@[simp] theorem exec_trap (o : YF) : exec (.trap o) s = execTrap o s := rfl
@[simp] theorem exec_eret (o : YF) : exec (.eret o) s = execEret o s := rfl
@[simp] theorem exec_csrr (o : YF) : exec (.csrr o) s = execCsrr o s := rfl
@[simp] theorem exec_csrw (o : YF) : exec (.csrw o) s = execCsrw o s := rfl
@[simp] theorem exec_brk (o : YF) : exec (.brk o) s = execBrk o s := rfl
@[simp] theorem exec_wdog (o : YF) : exec (.wdog o) s = execWdog o s := rfl
@[simp] theorem exec_wdogQ (o : YF) : exec (.wdogQ o) s = execWdogQ o s := rfl
@[simp] theorem exec_groupPick (core q : Nat) : exec (.groupPick core q) s = execGroupPick core q s := rfl
@[simp] theorem exec_holdClear (gid sid : Nat) : exec (.holdClear gid sid) s = execHoldClear gid sid s := rfl
@[simp] theorem exec_resultWriteback (gid idx : Nat) : exec (.resultWriteback gid idx) s = execResultWriteback gid idx s := rfl
@[simp] theorem exec_returnSlotReply (core idx : Nat) : exec (.returnSlotReply core idx) s = execReturnSlotReply core idx s := rfl
@[simp] theorem exec_wbDrainTimeout (core idx : Nat) : exec (.wbDrainTimeout core idx) s = execWbDrainTimeout core idx s := rfl
@[simp] theorem exec_serviceGroupExec (die slice : Nat) : exec (.serviceGroupExec die slice) s = execServiceGroupExec die slice s := rfl
@[simp] theorem exec_benchServe (die slice : Nat) : exec (.benchServe die slice) s = execBenchServe die slice s := rfl
@[simp] theorem exec_benchWithdraw (gid sid : Nat) : exec (.benchWithdraw gid sid) s = execBenchWithdraw gid sid s := rfl
@[simp] theorem exec_channelPick (sched : Nat) (eligible : List Nat) : exec (.channelPick sched eligible) s = execChannelPick sched eligible s := rfl
@[simp] theorem exec_memCompletion (id : Nat) : exec (.memCompletion id) s = execMemCompletion id s := rfl
@[simp] theorem exec_dieFlitReceive (id : FlitId) (crcOk : Bool) : exec (.dieFlitReceive id crcOk) s = execDieFlitReceive id crcOk s := rfl
@[simp] theorem exec_patrolScrub (unit : Nat) : exec (.patrolScrub unit) s = execPatrolScrub unit s := rfl
@[simp] theorem exec_dbiWindowEnd (ch ones toggles : Nat) : exec (.dbiWindowEnd ch ones toggles) s = execDbiWindowEnd ch ones toggles s := rfl
@[simp] theorem exec_thermalSample (ch temp : Nat) : exec (.thermalSample ch temp) s = execThermalSample ch temp s := rfl
@[simp] theorem exec_thermalStateFall (ch : Nat) : exec (.thermalStateFall ch) s = execThermalStateFall ch s := rfl
@[simp] theorem exec_rateRiseTimer (ch : Nat) : exec (.rateRiseTimer ch) s = execRateRiseTimer ch s := rfl
@[simp] theorem exec_rateSwitchEnd (ch : Nat) : exec (.rateSwitchEnd ch) s = execRateSwitchEnd ch s := rfl
@[simp] theorem exec_baseDieReset (stack : Nat) : exec (.baseDieReset stack) s = execBaseDieReset stack s := rfl
@[simp] theorem exec_fallbackTakeover (stack : Nat) : exec (.fallbackTakeover stack) s = execFallbackTakeover stack s := rfl
@[simp] theorem exec_refreshHandback (stack : Nat) : exec (.refreshHandback stack) s = execRefreshHandback stack s := rfl
@[simp] theorem exec_bdstatRel (stack : Nat) : exec (.bdstatRel stack) s = execBdstatRel stack s := rfl
@[simp] theorem exec_cxlTimeout (id : Nat) : exec (.cxlTimeout id) s = execCxlTimeout id s := rfl
@[simp] theorem exec_cxlLateCompletion (id : Nat) : exec (.cxlLateCompletion id) s = execCxlLateCompletion id s := rfl
@[simp] theorem exec_cxlLinkDown (port : Nat) : exec (.cxlLinkDown port) s = execCxlLinkDown port s := rfl
@[simp] theorem exec_cxlLinkTrained (port cap : Nat) : exec (.cxlLinkTrained port cap) s = execCxlLinkTrained port cap s := rfl
@[simp] theorem exec_cxpstatEnable (port : Nat) : exec (.cxpstatEnable port) s = execCxpstatEnable port s := rfl
@[simp] theorem exec_xlinvcCommand (v : Word) : exec (.xlinvcCommand v) s = execXlinvcCommand v s := rfl
@[simp] theorem exec_xlinvcComplete : exec (.xlinvcComplete) s = execXlinvcComplete s := rfl
@[simp] theorem exec_migArm (slot : Nat) : exec (.migArm slot) s = execMigArm slot s := rfl
@[simp] theorem exec_migStart (slot : Nat) : exec (.migStart slot) s = execMigStart slot s := rfl
@[simp] theorem exec_migSwitch (slot : Nat) : exec (.migSwitch slot) s = execMigSwitch slot s := rfl
@[simp] theorem exec_migFinish (slot : Nat) : exec (.migFinish slot) s = execMigFinish slot s := rfl
@[simp] theorem exec_migAbort (slot : Nat) : exec (.migAbort slot) s = execMigAbort slot s := rfl
@[simp] theorem exec_migClear (slot : Nat) : exec (.migClear slot) s = execMigClear slot s := rfl
@[simp] theorem exec_migRoutedRequest (slot : Nat) (link : LineStatus) : exec (.migRoutedRequest slot link) s = execMigRoutedRequest slot link s := rfl
@[simp] theorem exec_migBackgroundFill (slot : Nat) (link : LineStatus) : exec (.migBackgroundFill slot link) s = execMigBackgroundFill slot link s := rfl
@[simp] theorem exec_copyBatchComplete (gid batch : Nat) : exec (.copyBatchComplete gid batch) s = execCopyBatchComplete gid batch s := rfl
@[simp] theorem exec_matrixOpStart (core : Nat) : exec (.matrixOpStart core) s = execMatrixOpStart core s := rfl
@[simp] theorem exec_matrixOpRetire (core : Nat) : exec (.matrixOpRetire core) s = execMatrixOpRetire core s := rfl
@[simp] theorem exec_startLimitWindow (die : Nat) : exec (.startLimitWindow die) s = execStartLimitWindow die s := rfl
@[simp] theorem exec_arrayIdle (core : Nat) : exec (.arrayIdle core) s = execArrayIdle core s := rfl
@[simp] theorem exec_leaseIdleExpire (core : Nat) : exec (.leaseIdleExpire core) s = execLeaseIdleExpire core s := rfl
@[simp] theorem exec_attnStart (core : Nat) : exec (.attnStart core) s = execAttnStart core s := rfl
@[simp] theorem exec_attnVisit (core : Nat) : exec (.attnVisit core) s = execAttnVisit core s := rfl
@[simp] theorem exec_blockPlace (die : Nat) : exec (.blockPlace die) s = execBlockPlace die s := rfl
@[simp] theorem exec_placementStarvation (bid : Nat) : exec (.placementStarvation bid) s = execPlacementStarvation bid s := rfl
@[simp] theorem exec_evictionSelect (bid : Nat) : exec (.evictionSelect bid) s = execEvictionSelect bid s := rfl
@[simp] theorem exec_groupRestore (core : Nat) : exec (.groupRestore core) s = execGroupRestore core s := rfl
@[simp] theorem exec_timeSliceExpire (ctx : Nat) : exec (.timeSliceExpire ctx) s = execTimeSliceExpire ctx s := rfl
@[simp] theorem exec_groupEnd (gid : Nat) : exec (.groupEnd gid) s = execGroupEnd gid s := rfl
@[simp] theorem exec_spawnHoldTimeout (gid sid : Nat) : exec (.spawnHoldTimeout gid sid) s = execSpawnHoldTimeout gid sid s := rfl
@[simp] theorem exec_spawnBinTimeout (core idx : Nat) : exec (.spawnBinTimeout core idx) s = execSpawnBinTimeout core idx s := rfl
@[simp] theorem exec_packedGroupStart (core : Nat) : exec (.packedGroupStart core) s = execPackedGroupStart core s := rfl
@[simp] theorem exec_barrierWatchdogExpire (core idx : Nat) : exec (.barrierWatchdogExpire core idx) s = execBarrierWatchdogExpire core idx s := rfl
@[simp] theorem exec_tgobjWrite (ctx slot : Nat) (v : Word) : exec (.tgobjWrite ctx slot v) s = execTgobjWrite ctx slot v s := rfl
@[simp] theorem exec_kick (ctx : Nat) (v : Word) : exec (.kick ctx v) s = execKick ctx v s := rfl
@[simp] theorem exec_replayStart (ctx slot : Nat) : exec (.replayStart ctx slot) s = execReplayStart ctx slot s := rfl
@[simp] theorem exec_nodeStart (ctx slot node : Nat) : exec (.nodeStart ctx slot node) s = execNodeStart ctx slot node s := rfl
@[simp] theorem exec_frameGrant (core : Nat) : exec (.frameGrant core) s = execFrameGrant core s := rfl
@[simp] theorem exec_grantTakeRetry (core : Nat) : exec (.grantTakeRetry core) s = execGrantTakeRetry core s := rfl
@[simp] theorem exec_jcfgBind (ctx : Nat) (v : Word) : exec (.jcfgBind ctx v) s = execJcfgBind ctx v s := rfl
@[simp] theorem exec_jcfgDisable (ctx : Nat) (v : Word) : exec (.jcfgDisable ctx v) s = execJcfgDisable ctx v s := rfl
@[simp] theorem exec_jbufWrite (ctx : Nat) (v : Word) : exec (.jbufWrite ctx v) s = execJbufWrite ctx v s := rfl
@[simp] theorem exec_journalAck (ctx : Nat) (dev n : Nat) : exec (.journalAck ctx dev n) s = execJournalAck ctx dev n s := rfl
@[simp] theorem exec_partnerIdleMessage (ctx : Nat) (dev : Nat) : exec (.partnerIdleMessage ctx dev) s = execPartnerIdleMessage ctx dev s := rfl
@[simp] theorem exec_partnerSilence (ctx : Nat) : exec (.partnerSilence ctx) s = execPartnerSilence ctx s := rfl
@[simp] theorem exec_avashLinkDown (port : Nat) : exec (.avashLinkDown port) s = execAvashLinkDown port s := rfl
@[simp] theorem exec_hostBenchDeposit (src : BenchSource) (region : Nat) (w : Word) : exec (.hostBenchDeposit src region w) s = execHostBenchDeposit src region w s := rfl
@[simp] theorem exec_hostBenchCopy (src : BenchSource) (region : Nat) (w : Word) : exec (.hostBenchCopy src region w) s = execHostBenchCopy src region w s := rfl
@[simp] theorem exec_hostBenchTake (src : BenchSource) (region : Nat) (w : Word) : exec (.hostBenchTake src region w) s = execHostBenchTake src region w s := rfl
@[simp] theorem exec_hostBenchRefusedOp (ctx region : Nat) (w : Word) : exec (.hostBenchRefusedOp ctx region w) s = execHostBenchRefusedOp ctx region w s := rfl
@[simp] theorem exec_hostMemRead (pa len : Nat) : exec (.hostMemRead pa len) s = execHostMemRead pa len s := rfl
@[simp] theorem exec_hostMemWrite (pa : Nat) (bytes : List Byte) : exec (.hostMemWrite pa bytes) s = execHostMemWrite pa bytes s := rfl
@[simp] theorem exec_attestationReport (ctx : Nat) : exec (.attestationReport ctx) s = execAttestationReport ctx s := rfl
@[simp] theorem exec_termrepKill (ctx : Nat) (v : Word) : exec (.termrepKill ctx v) s = execTermrepKill ctx v s := rfl
@[simp] theorem exec_dbgHalt (v : Word) : exec (.dbgHalt v) s = execDbgHalt v s := rfl
@[simp] theorem exec_dbgResume (v : Word) : exec (.dbgResume v) s = execDbgResume v s := rfl
@[simp] theorem exec_dbgStep (v : Word) : exec (.dbgStep v) s = execDbgStep v s := rfl
@[simp] theorem exec_dbgStepAll (v : Word) : exec (.dbgStepAll v) s = execDbgStepAll v s := rfl
@[simp] theorem exec_dbgAttach (v : Word) : exec (.dbgAttach v) s = execDbgAttach v s := rfl
@[simp] theorem exec_dbgDetach (v : Word) : exec (.dbgDetach v) s = execDbgDetach v s := rfl
@[simp] theorem exec_debugWindowWrite (off : Nat) (v : Word) : exec (.debugWindowWrite off v) s = execDebugWindowWrite off v s := rfl
@[simp] theorem exec_boot (foreman baseDie service : Bool) : exec (.boot foreman baseDie service) s = execBoot foreman baseDie service s := rfl
@[simp] theorem exec_registerWrite (win : Window) (num : Nat) (v : Word) : exec (.registerWrite win num v) s = execRegisterWrite win num v s := rfl
@[simp] theorem exec_copyEngineTransfer (core : Nat) : exec (.copyEngineTransfer core) s = execCopyEngineTransfer core s := rfl
@[simp] theorem exec_avashLinkTrained (port peer : Nat) : exec (.avashLinkTrained port peer) s = execAvashLinkTrained port peer s := rfl
@[simp] theorem exec_journalRecordReceive (src : JournalSource) (num : Nat) (rec : List Byte) : exec (.journalRecordReceive src num rec) s = execJournalRecordReceive src num rec s := rfl
@[simp] theorem exec_journalTruncateReceive (src : JournalSource) (seq upto : Nat) : exec (.journalTruncateReceive src seq upto) s = execJournalTruncateReceive src seq upto s := rfl
@[simp] theorem exec_refreshDue (stack : Nat) : exec (.refreshDue stack) s = execRefreshDue stack s := rfl
@[simp] theorem exec_storageError (u : Unit_) (bits : Nat) : exec (.storageError u bits) s = execStorageError u bits s := rfl

end Sys2Proof.Machine
end

