-- ==== Sys2Proof/Laws/Issue.lean ====
section
/-!
SUPPORT. What the shared operations of issue do where the group is steady: the needs of an instruction, its end,
writes of scalars and registers, boundaries, holds and traps.
-/
namespace Sys2Proof.Machine

theorem onIssue_of {s : State} {i : Issue} (f : State → Issue → State) (h : s.issuer = some i) :
    onIssue s f = .next (f s i) := by simp [onIssue, h]

/-- What `poised` says, as facts. -/
structure Poised (s : State) (i : Issue) : Prop where
  issuer : s.issuer = some i
  recs : i.g.recs = []
  deferred : i.g.deferred = []
  status : i.g.status = .running
  splits : ∀ e ∈ i.g.splits, e.2.haltReq = false ∧ e.2.watchdog = none
  haltReq : i.sp.haltReq = false
  watchdog : i.sp.watchdog = none
  stepping : i.sp.stepping = false
  pendTrap : i.sp.pendTrap = none
  restartPend : i.sp.restartPend = false
  parity : s.parity = []
  block : ∀ b, s.blocks.get? i.g.bid = some b → b.rolling = false ∧ b.checkpoint = none

/-- What `calm` says, as facts. -/
structure Calm (s : State) (i : Issue) : Prop extends Poised s i where
  outs : i.g.outs = []
  ops : i.g.ops = []

/-- What `steady` says, as facts. -/
structure Steady (s : State) (i : Issue) : Prop extends Calm s i where
  wait : i.sp.wait = .none

theorem poised_iff {s : State} {i : Issue} : poised s i = true ↔ Poised s i := by
  constructor
  · intro h
    simp only [poised, Bool.and_eq_true, beq_iff_eq, List.isEmpty_iff, List.all_eq_true, Bool.not_eq_true',
      Option.isNone_iff_eq_none, and_assoc] at h
    obtain ⟨h1, h4, h5, h6, h7, h9, h10, h11, h14, h15, h12, h13⟩ := h
    refine ⟨h1, h4, h5, h6, h7, h9, h10, h11, h14, h15, h12, ?_⟩
    intro b hb
    simpa [hb] using h13
  · intro h
    simp only [poised, Bool.and_eq_true, beq_iff_eq, List.isEmpty_iff, List.all_eq_true, Bool.not_eq_true',
      Option.isNone_iff_eq_none, and_assoc]
    refine ⟨h.issuer, h.recs, h.deferred, h.status, h.splits, h.haltReq, h.watchdog, h.stepping, h.pendTrap, h.restartPend, h.parity, ?_⟩
    split
    · next b hb => simp [h.block b hb]
    · rfl

theorem calm_iff {s : State} {i : Issue} : calm s i = true ↔ Calm s i := by
  simp only [calm, Bool.and_eq_true, List.isEmpty_iff, poised_iff]
  exact ⟨fun h => ⟨h.1.1, h.1.2, h.2⟩, fun h => ⟨⟨h.toPoised, h.outs⟩, h.ops⟩⟩

theorem steady_iff {s : State} {i : Issue} : steady s i = true ↔ Steady s i := by
  simp only [steady, Bool.and_eq_true, beq_iff_eq, calm_iff]
  exact ⟨fun h => ⟨h.1, h.2⟩, fun h => ⟨h.toCalm, h.wait⟩⟩

/-- An issuing split is a split of a live group. -/
theorem issuer_split {s : State} {i : Issue} (h : s.issuer = some i) :
    s.groups.get? i.gid = some i.g ∧ i.g.splits.get? i.sid = some i.sp := by
  unfold State.issuer at h
  split at h
  · cases h
  · next gid sid _ =>
    unfold State.split? at h
    split at h
    · simp at h
    · next g hg =>
      simp only [Option.map_map, Option.map_eq_some_iff] at h
      obtain ⟨sp, hsp, rfl⟩ := h
      exact ⟨hg, hsp⟩

/-- Nothing is due at the boundary of a group without records, halts, watchdogs, evictions or rollback (R351). -/
theorem settle_setGroup (u : State) (gid : Nat) (g : Group) (hr : g.recs = []) (hd : g.deferred = [])
    (hs : g.status ≠ .evicting) (hsp : ∀ e ∈ g.splits, e.2.haltReq = false ∧ e.2.watchdog = none)
    (hb : ∀ b, u.blocks.get? g.bid = some b → b.rolling = false ∧ b.checkpoint = none) (hp : u.parity = []) :
    (u.setGroup gid g).settle gid = u.setGroup gid g := by
  have h1 : g.splits.any (fun e => e.2.haltReq) = false := by
    simp only [List.any_eq_false]; intro e he; simp [(hsp e he).1]
  have h2 : g.splits.any (fun e => e.2.watchdog.isSome) = false := by
    simp only [List.any_eq_false]; intro e he; simp [(hsp e he).2]
  unfold State.settle
  simp only [State.modGroup_setGroup, hr, List.isEmpty_nil, if_true, Group.haltAll, h1, Bool.false_eq_true, if_false,
    State.setGroup_groups, Sparse.get?_set_same, State.setGroup_parity, hp, h2, hd]
  have h3 : (g.status == GroupStatus.evicting || !true) = false := by simp [hs]
  simp only [h3, Bool.false_eq_true, if_false, State.setGroup_groups, Sparse.get?_set_same, State.setGroup_blocks]
  split
  · next b hb' => simp [(hb b hb').1, (hb b hb').2]
  · rfl

section
variable {s : State} {i : Issue}

/-- The splits of the group after the issuing one is replaced. -/
theorem Poised.splits_set (h : Poised s i) {sp : Split} (h1 : sp.haltReq = false) (h2 : sp.watchdog = none) :
    ∀ e ∈ i.g.splits.set i.sid sp, e.2.haltReq = false ∧ e.2.watchdog = none := by
  intro e he
  rcases Sparse.mem_set he with he | he
  · subst he; exact ⟨h1, h2⟩
  · exact h.splits e he

/-- A group that is as the issuing one in all that a boundary looks at. -/
structure Alike (i : Issue) (g : Group) : Prop where
  recs : g.recs = i.g.recs
  deferred : g.deferred = i.g.deferred
  status : g.status = i.g.status
  splits : g.splits = i.g.splits
  bid : g.bid = i.g.bid

theorem Alike.refl (i : Issue) : Alike i i.g := ⟨rfl, rfl, rfl, rfl, rfl⟩

/-- The boundary after the issuing split is replaced: nothing is due. -/
theorem Poised.settle (h : Poised s i) {g : Group} (ha : Alike i g) {sp : Split} (h1 : sp.haltReq = false)
    (h2 : sp.watchdog = none) {u : State} (hu : u.blocks = s.blocks) (hp : u.parity = s.parity) :
    (u.setGroup i.gid { g with splits := g.splits.set i.sid sp }).settle i.gid =
      u.setGroup i.gid { g with splits := g.splits.set i.sid sp } := by
  apply settle_setGroup
  · exact ha.recs.trans h.recs
  · exact ha.deferred.trans h.deferred
  · change g.status ≠ _; rw [ha.status, h.status]; decide
  · change ∀ e ∈ g.splits.set i.sid sp, _; rw [ha.splits]; exact h.splits_set h1 h2
  · intro b hb; rw [hu] at hb; exact (h.block b (by rw [← ha.bid]; exact hb))
  · exact hp.trans h.parity

/-- The split goes on after its instruction. -/
theorem Poised.done (h : Poised s i) {g : Group} (ha : Alike i g) {u : State} (hu : u.blocks = s.blocks)
    (hp : u.parity = s.parity) (hg : u.groups.get? i.gid = some g) : u.done i = u.goOn i g i.sp := by
  have hs := (issuer_split h.issuer).2
  have hm : u.modSplit i.gid i.sid Split.advance = u.goOn i g i.sp := by
    simp only [State.modSplit, State.modGroup, hg, ha.splits, hs, State.goOn, Split.advance]
  unfold State.done
  rw [hm]
  exact h.settle ha (sp := i.sp.advance) h.haltReq h.watchdog hu hp

theorem Poised.done_self (h : Poised s i) : s.done i = s.goOn i i.g i.sp :=
  h.done (Alike.refl i) rfl rfl (issuer_split h.issuer).1

theorem Poised.putScalar (h : Poised s i) (k : Nat) (v : Word) : s.putScalar i k v = s.goOn i i.g (i.sp.put k v) := by
  unfold State.putScalar
  simp only [State.scalClear, State.setGroup_parity, h.parity, List.isEmpty_nil, if_true]
  exact h.settle (Alike.refl i) (sp := (i.sp.put k v).advance) h.haltReq h.watchdog rfl rfl

theorem Poised.putSplit (h : Poised s i) (f : Split → Split) (h1 : (f i.sp).haltReq = false)
    (h2 : (f i.sp).watchdog = none) : s.putSplit i f = s.goOn i i.g (f i.sp) := by
  unfold State.putSplit
  exact h.settle (Alike.refl i) (sp := (f i.sp).advance) h1 h2 rfl rfl

/-- Nothing an instruction needs is missing: its registers are allocated, its scoreboard slot has room, and a return
slot is free (R51, R167, R168, R181). -/
theorem Calm.issue (h : Calm s i) (n : Issue → Needs) (eff : State → Issue → State) (hb : (n i).beyond i.g = none)
    (hs : ∀ k, (n i).sb = some k → i.g.sb.getD k 0 < 63) (hr : (n i).ret = true → s.retSlots i.g.core < 128) :
    issue n eff s i = eff s i := by
  have hh : (n i).holds s i.g = false := by
    simp only [Needs.holds, Needs.locked, h.outs, List.isEmpty_nil, Bool.not_true, Bool.false_and, Bool.false_or,
      Bool.or_eq_false_iff, Bool.and_eq_false_imp, decide_eq_false_iff_not, not_le]
    refine ⟨?_, hr⟩
    split
    · next k hk => simpa using hs k hk
    · rfl
  have hp : (n i).parity s i = none := by simp [Needs.parity, h.parity]
  simp [Machine.issue, hb, hh, hp]

/-- An instruction without vector registers always has what it needs. -/
theorem Calm.issue_scalar (h : Calm s i) (n : Issue → Needs) (eff : State → Issue → State) (hw : (n i).wr = [])
    (hd : (n i).rd = []) (hs : (n i).sb = none) (hr : (n i).ret = false) : Machine.issue n eff s i = eff s i :=
  h.issue n eff (by simp [Needs.beyond, Needs.regs, hw, hd]) (by simp [hs]) (by simp [hr])

/-- No register of a steady group is awaited or used by an engine. -/
theorem Calm.vread (h : Calm s i) (r l : Nat) : s.vread i.g r l = i.g.v? r l := by
  simp [State.vread, h.outs, h.ops]
theorem Calm.vcross (h : Calm s i) (r l : Nat) : s.vcross i.g r l = i.g.v? r l := by
  simp [State.vcross, h.outs, h.ops]
theorem Calm.vpat (h : Calm s i) (r kind amt l : Nat) :
    s.vpat i.g r kind amt l = i.g.v? r (if kind = 0 then l else patLane kind amt l) := by
  unfold State.vpat; split <;> simp_all [h.vread, h.vcross]

/-- A steady split has no result outstanding. -/
theorem Calm.flush (h : Calm s i) : s.flush i.gid i.sid = s := by
  simp [State.flush, (issuer_split h.issuer).1, (issuer_split h.issuer).2, h.outs]

/-- A trap of a steady split, other than one of cause 0x07, enters the handler at once (R343). -/
theorem Steady.trapLanes (h : Steady s i) (cause : Nat) (m : Mask) (x : Word) (hc : cause ≠ 7)
    (hv : (s.ctxReg i.g.ctx 0x161).getLsbD 63 = true) (hh : i.sp.trap.hnd = false) :
    s.trapLanes i cause m x = s.entered i cause m x := by
  have hg := issuer_split h.issuer
  have hsp : s.split? i.gid i.sid = some (i.g, i.sp) := by simp [State.split?, hg.1, hg.2]
  have hx : isPoisonX cause x = false := by simp [isPoisonX, hc]
  have hw : i.sp.wait = .none := h.wait
  have ht : s.takeTrap i.gid i.sid ⟨cause, i.sp.pc, m, x⟩ = s.entered i cause m x := by
    unfold State.takeTrap
    simp only [h.toCalm.flush, hsp, h.pendTrap, h.restartPend, State.trapNow, h.haltReq, h.stepping, Bool.or_self, hg.2,
      Bool.false_eq_true, if_false, Group.outstanding, h.outs, List.any_nil, Option.getD_none]
    unfold State.enterTrap
    simp only [hsp, Split.record, hh, hv, if_true, Bool.false_eq_true, if_false, hc, false_and]
    have : (match s.blocks.get? i.g.bid with
        | some _ => s.setGroup i.gid { i.g with splits := i.g.splits.set i.sid (Split.enter
            { i.sp with trap := { i.sp.trap with
                cause := BitVec.ofNat 8 cause, trape := i.sp.region, trapi := i.sp.pc, trapm := m.setWidth 64
                trapx := x, traps := i.g.identity i.sid }, pendTrap := none } (s.ctxReg i.g.ctx 0x161)) }
        | none => s.setGroup i.gid { i.g with splits := i.g.splits.set i.sid (Split.enter
            { i.sp with trap := { i.sp.trap with
                cause := BitVec.ofNat 8 cause, trape := i.sp.region, trapi := i.sp.pc, trapm := m.setWidth 64
                trapx := x, traps := i.g.identity i.sid }, pendTrap := none } (s.ctxReg i.g.ctx 0x161)) }) =
        s.entered i cause m x := by
      split <;> simp only [Split.enter, Split.jump, State.entered, Split.save, Split.get, hw]
    exact this
  unfold State.trapLanes
  simp only [hx, Bool.false_eq_true, if_false, ht]
  unfold State.entered
  refine h.toPoised.settle (Alike.refl i) (u := s) ?_ ?_ rfl rfl
  · exact h.haltReq
  · exact h.watchdog

/-- A trap of a steady split with all its lanes. -/
theorem Steady.trapAt (h : Steady s i) (cause : Nat) (x : Word) (hc : cause ≠ 7)
    (hv : (s.ctxReg i.g.ctx 0x161).getLsbD 63 = true) (hh : i.sp.trap.hnd = false) :
    s.trapAt i cause x = s.entered i cause i.sp.mask x :=
  h.trapLanes cause i.sp.mask x hc hv hh

end

end Sys2Proof.Machine
end

