-- ==== Sys2Proof/Laws/Step.lean ====
section
/-!
SUPPORT. What the passing of time changes in a step: the time, the occasion of undefined values, and `VFSLICE.USED` of contexts.
-/
namespace Sys2Proof.Machine

/-- Counting time slices changes registers of contexts alone (R380). -/
theorem State.countSlices_eq (s : State) (k : Nat) : s.countSlices k = { s with ctxs := (s.countSlices k).ctxs } := by
  unfold State.countSlices
  suffices h : ∀ (l : List (Nat × Context)) (t : State), t = { s with ctxs := t.ctxs } →
      l.foldl (fun t e => if s.resident e.1 && !(s.othersWait e.1).isEmpty then
        let w := s.ctxReg e.1 0x16B
        State.setCtxReg t e.1 0x16B (setBits w 32 32 (satAt 0xFFFFFFFF (bits w 32 32 + k))) else t) t =
      { s with ctxs := (l.foldl (fun t e => if s.resident e.1 && !(s.othersWait e.1).isEmpty then
        let w := s.ctxReg e.1 0x16B
        State.setCtxReg t e.1 0x16B (setBits w 32 32 (satAt 0xFFFFFFFF (bits w 32 32 + k))) else t) t).ctxs } by
    exact h s.ctxs s rfl
  intro l
  induction l with
  | nil => exact fun t h => h
  | cons e l ih =>
    intro t h
    refine ih _ ?_
    dsimp only
    split
    · rw [h]; rfl
    · exact h

/-- A step begins one cycle later or more, in a state that differs in its time, its occasion and registers of contexts. -/
theorem State.tick_eq (s : State) (n : Nat) : s.tick n =
    { s with time := s.time + 1 + n, fresh := s.fresh + 1, ctxs := (s.tick n).ctxs } := by
  unfold State.tick
  dsimp only
  split
  · rfl
  · exact State.countSlices_eq _ _

@[simp] theorem State.tick_main (s : State) (n : Nat) : (s.tick n).main = s.main := by rw [State.tick_eq]
@[simp] theorem State.tick_groups (s : State) (n : Nat) : (s.tick n).groups = s.groups := by rw [State.tick_eq]
@[simp] theorem State.tick_blocks (s : State) (n : Nat) : (s.tick n).blocks = s.blocks := by rw [State.tick_eq]
@[simp] theorem State.tick_sched (s : State) (n : Nat) : (s.tick n).sched = s.sched := by rw [State.tick_eq]
@[simp] theorem State.tick_turn (s : State) (n : Nat) : (s.tick n).turn = s.turn := by rw [State.tick_eq]
@[simp] theorem State.tick_time (s : State) (n : Nat) : (s.tick n).time = s.time + 1 + n := by rw [State.tick_eq]
@[simp] theorem State.tick_agenda (s : State) (n : Nat) : (s.tick n).agenda = s.agenda := by rw [State.tick_eq]
@[simp] theorem State.tick_cores (s : State) (n : Nat) : (s.tick n).cores = s.cores := by rw [State.tick_eq]

/-- Who issues does not depend on the time. -/
@[simp] theorem State.tick_issuer (s : State) (n : Nat) : (s.tick n).issuer = s.issuer := by
  rw [State.tick_eq]; rfl

end Sys2Proof.Machine
end

