-- ==== Sys2Proof/Laws/Main.lean ====
section
/-!
SUPPORT. Main memory through every operation that answers a state: `<operation>_main` where it leaves main memory
alone, `<operation>_wf` where it may write it and keeps the canonical form. What each meaning does is left to its own proof.
-/
namespace Sys2Proof.Machine

set_option maxRecDepth 4000
set_option Elab.async false
set_option linter.unusedTactic false
set_option linter.unreachableTactic false
set_option linter.unusedVariables false

/-! ### Shared -/

theorem foldl_wf {α : Type} {f : State → α → State} {l : List α} {s : State}
    (hf : ∀ s a, s.main.wf = true → (f s a).main.wf = true) (h : s.main.wf = true) : (l.foldl f s).main.wf = true := by
  induction l generalizing s with
  | nil => exact h
  | cons a t ih => exact ih (hf s a h)

theorem foldl_main {α : Type} {f : State → α → State} {l : List α} {s : State}
    (hf : ∀ s a, (f s a).main = s.main) : (l.foldl f s).main = s.main := by
  induction l generalizing s with
  | nil => rfl
  | cons a t ih => exact (ih (s := f s a)).trans (hf s a)

theorem foldl_fst_main {α β : Type} {f : State × β → α → State × β} {l : List α} {p : State × β}
    (hf : ∀ p a, (f p a).1.main = p.1.main) : (l.foldl f p).1.main = p.1.main := by
  induction l generalizing p with
  | nil => rfl
  | cons a t ih => exact (ih (p := f p a)).trans (hf p a)

theorem main_wf {s t : State} (e : t.main = s.main) (h : s.main.wf = true) : t.main.wf = true := by rw [e]; exact h

theorem fst_wf {α : Type} {p : State × α} {t : State} {b : α} (e : p = (t, b)) (h : p.1.main.wf = true) :
    t.main.wf = true := by rw [e] at h; exact h

theorem snd_wf {α : Type} {p : α × State} {t : State} {b : α} (e : p = (b, t)) (h : p.2.main.wf = true) :
    t.main.wf = true := by rw [e] at h; exact h

theorem fst_main {α : Type} {p : State × α} {t : State} {b : α} {m : Memory} (e : p = (t, b)) (h : p.1.main = m) :
    t.main = m := by rw [e] at h; exact h

theorem snd_main {α : Type} {p : α × State} {t : State} {b : α} {m : Memory} (e : p = (b, t)) (h : p.2.main = m) :
    t.main = m := by rw [e] at h; exact h

theorem foldl_ok {α ε : Type} {P : State → Prop} {f : Except ε State → α → Except ε State}
    (hf : ∀ acc a t, f acc a = .ok t → ∃ u, acc = .ok u ∧ (P u → P t)) {l : List α} {x : Except ε State} {t : State}
    (e : l.foldl f x = .ok t) (h : ∀ u, x = .ok u → P u) : P t := by
  induction l generalizing x with
  | nil => exact h t e
  | cons a l ih =>
    refine ih e fun v hv => ?_
    obtain ⟨u, hu, k⟩ := hf x a v hv
    exact k (h u hu)

theorem minBy_mem {α : Type} {key : α → Nat} {l : List α} {a : α} (e : minBy key l = some a) : a ∈ l := by
  induction l generalizing a with
  | nil => cases e
  | cons b t ih =>
    unfold minBy at e
    split at e
    · cases e; exact List.mem_cons_self
    · split at e
      · cases e; exact List.mem_cons_of_mem _ (ih (by assumption))
      · cases e; exact List.mem_cons_self

theorem ite_main {c : Prop} [Decidable c] {a b : State} {m : Memory} (ha : a.main = m) (hb : b.main = m) :
    (if c then a else b).main = m := by
  split
  · exact ha
  · exact hb

/-! ### Of Machine/Base.lean -/

@[simp] theorem State.newSeed_main {s : State} :
    (State.newSeed s).2.main = s.main := by
  unfold State.newSeed; (try dsimp only)
  repeat' first | with_reducible rfl | intro _ | split | (with_reducible refine Eq.trans (foldl_main ?_) ?_) | dsimp only | dsimp +zetaDelta only

@[simp] theorem State.newId_main {s : State} :
    (State.newId s).2.main = s.main := by
  unfold State.newId; (try dsimp only)
  repeat' first | with_reducible rfl | intro _ | split | (with_reducible refine Eq.trans (foldl_main ?_) ?_) | dsimp only | dsimp +zetaDelta only

@[simp] theorem State.setSlice_main {s : State} {d : Nat} {k : Nat} {x : Slice} :
    (State.setSlice s d k x).main = s.main := by
  unfold State.setSlice; (try dsimp only)
  repeat' first
    | with_reducible rfl | intro _ | split | (with_reducible refine Eq.trans (foldl_main ?_) ?_)
    | with_reducible refine Eq.trans (State.modDie_main ..) ?_ | dsimp only | dsimp +zetaDelta only

@[simp] theorem State.modSlice_main {s : State} {d : Nat} {k : Nat} {f : Slice → Slice} :
    (State.modSlice s d k f).main = s.main := by
  unfold State.modSlice; (try dsimp only)
  repeat' first
    | with_reducible rfl | intro _ | split | (with_reducible refine Eq.trans (foldl_main ?_) ?_)
    | with_reducible refine Eq.trans State.setSlice_main ?_ | dsimp only | dsimp +zetaDelta only

@[simp] theorem State.setSlot_main {s : State} {c : Nat} {k : Nat} {x : Slot} :
    (State.setSlot s c k x).main = s.main := by
  unfold State.setSlot; (try dsimp only)
  repeat' first
    | with_reducible rfl | intro _ | split | (with_reducible refine Eq.trans (foldl_main ?_) ?_)
    | with_reducible refine Eq.trans (State.modCore_main ..) ?_ | dsimp only | dsimp +zetaDelta only

@[simp] theorem State.setTile_main {s : State} {c : Nat} {k : Nat} {x : Tile} :
    (State.setTile s c k x).main = s.main := by
  unfold State.setTile; (try dsimp only)
  repeat' first
    | with_reducible rfl | intro _ | split | (with_reducible refine Eq.trans (foldl_main ?_) ?_)
    | with_reducible refine Eq.trans (State.modCore_main ..) ?_ | dsimp only | dsimp +zetaDelta only

@[simp] theorem State.setTgSlot_main {s : State} {c : Nat} {k : Nat} {x : TgSlot} :
    (State.setTgSlot s c k x).main = s.main := by
  unfold State.setTgSlot; (try dsimp only)
  repeat' first
    | with_reducible rfl | intro _ | split | (with_reducible refine Eq.trans (foldl_main ?_) ?_)
    | with_reducible refine Eq.trans (State.setCtx_main ..) ?_ | dsimp only | dsimp +zetaDelta only

@[simp] theorem State.setJournal_main {s : State} {c : Nat} {j : Journal} :
    (State.setJournal s c j).main = s.main := by
  unfold State.setJournal; (try dsimp only)
  repeat' first
    | with_reducible rfl | intro _ | split | (with_reducible refine Eq.trans (foldl_main ?_) ?_)
    | with_reducible refine Eq.trans (State.setCtx_main ..) ?_ | dsimp only | dsimp +zetaDelta only

@[simp] theorem State.modGrid_main {s : State} {uid : Nat} {f : Grid → Grid} :
    (State.modGrid s uid f).main = s.main := by
  unfold State.modGrid; (try dsimp only)
  repeat' first | with_reducible rfl | intro _ | split | (with_reducible refine Eq.trans (foldl_main ?_) ?_) | dsimp only | dsimp +zetaDelta only

@[simp] theorem Issue.put_main {i : Issue} {s : State} {g : Group} {sp : Split} :
    (Issue.put i s g sp).main = s.main := by
  unfold Issue.put; (try dsimp only)
  repeat' first
    | with_reducible rfl | intro _ | split | (with_reducible refine Eq.trans (foldl_main ?_) ?_)
    | with_reducible refine Eq.trans (State.setGroup_main ..) ?_ | dsimp only | dsimp +zetaDelta only

@[simp] theorem State.wake_main {s : State} {p : Nat → Group → Nat → Split → Bool} :
    (State.wake s p).main = s.main := by
  unfold State.wake; (try dsimp only)
  repeat' first | with_reducible rfl | intro _ | split | (with_reducible refine Eq.trans (foldl_main ?_) ?_) | dsimp only | dsimp +zetaDelta only

/-! ### Of Machine/Flags.lean -/

@[simp] theorem State.orGst_main {s : State} {gid : Nat} {f : BitVec 6} :
    (State.orGst s gid f).main = s.main := by
  unfold State.orGst; (try dsimp only)
  repeat' first
    | with_reducible rfl | intro _ | split | (with_reducible refine Eq.trans (foldl_main ?_) ?_)
    | with_reducible refine Eq.trans (State.modGroup_main ..) ?_ | dsimp only | dsimp +zetaDelta only

/-! ### Of Machine/Translate.lean -/

@[simp] theorem State.refreshFirst_main {s : State} {stack : Nat} :
    (State.refreshFirst s stack).main = s.main := by
  unfold State.refreshFirst; (try dsimp only)
  repeat' first
    | with_reducible rfl | intro _ | split | (with_reducible refine Eq.trans (foldl_main ?_) ?_)
    | with_reducible refine Eq.trans (State.setBaseDie_main ..) ?_ | dsimp only | dsimp +zetaDelta only

@[simp] theorem State.windowEnd_main {s : State} {ch : Nat} :
    (State.windowEnd s ch).main = s.main := by
  unfold State.windowEnd; (try dsimp only)
  repeat' first
    | with_reducible rfl | intro _ | split | (with_reducible refine Eq.trans (foldl_main ?_) ?_)
    | with_reducible refine Eq.trans (State.setChannel_main ..) ?_ | with_reducible refine Eq.trans (State.setPkgReg_main ..) ?_
    | dsimp only | dsimp +zetaDelta only

@[simp] theorem State.closeWindow_main {s : State} {ch : Nat} :
    (State.closeWindow s ch).main = s.main := by
  unfold State.closeWindow; (try dsimp only)
  repeat' first
    | with_reducible rfl | intro _ | split | (with_reducible refine Eq.trans (foldl_main ?_) ?_)
    | with_reducible refine Eq.trans State.windowEnd_main ?_ | dsimp only | dsimp +zetaDelta only

@[simp] theorem State.bursts_main {s : State} {pa : Nat} {n : Nat} :
    (State.bursts s pa n).main = s.main := by
  unfold State.bursts; (try dsimp only)
  repeat' first
    | with_reducible rfl | intro _ | split | (with_reducible refine Eq.trans (foldl_main ?_) ?_)
    | with_reducible refine Eq.trans State.closeWindow_main ?_ | with_reducible refine Eq.trans (State.setChannel_main ..) ?_ | dsimp only
    | dsimp +zetaDelta only

@[simp] theorem State.pickOne_main {s : State} {cls : Nat} {pa : Nat} :
    (State.pickOne s cls pa).main = s.main := by
  unfold State.pickOne; (try dsimp only)
  repeat' first
    | with_reducible rfl | intro _ | split | (with_reducible refine Eq.trans (foldl_main ?_) ?_)
    | with_reducible refine Eq.trans State.refreshFirst_main ?_ | with_reducible refine Eq.trans (State.setChannel_main ..) ?_ | dsimp only
    | dsimp +zetaDelta only

@[simp] theorem State.serve_main {s : State} {cls : Nat} {pa : Nat} {n : Nat} :
    (State.serve s cls pa n).main = s.main := by
  unfold State.serve; (try dsimp only)
  repeat' first
    | with_reducible rfl | intro _ | split | (with_reducible refine Eq.trans (foldl_main ?_) ?_)
    | with_reducible refine Eq.trans State.bursts_main ?_ | with_reducible refine Eq.trans State.pickOne_main ?_ | dsimp only
    | dsimp +zetaDelta only

@[simp] theorem State.correct_main {s : State} {pa : Nat} {n : Nat} :
    (State.correct s pa n).main = s.main := by
  unfold State.correct; (try dsimp only)
  repeat' first
    | with_reducible rfl | intro _ | split | (with_reducible refine Eq.trans (foldl_main ?_) ?_)
    | with_reducible refine Eq.trans (State.setBaseDie_main ..) ?_ | dsimp only | dsimp +zetaDelta only

@[simp] theorem State.serveRead_main {s : State} {cls : Nat} {pa : Nat} {n : Nat} :
    (State.serveRead s cls pa n).main = s.main := by
  unfold State.serveRead; (try dsimp only)
  repeat' first
    | with_reducible rfl | intro _ | split | (with_reducible refine Eq.trans (foldl_main ?_) ?_)
    | with_reducible refine Eq.trans State.serve_main ?_ | with_reducible refine Eq.trans State.correct_main ?_ | dsimp only
    | dsimp +zetaDelta only

@[simp] theorem State.keep_main {s : State} {c : Nat} {ctx : Nat} {cls : Nat} {va : Nat} {r : Except XErr Xl} :
    (State.keep s c ctx cls va r).main = s.main := by
  unfold State.keep; (try dsimp only)
  repeat' first
    | with_reducible rfl | intro _ | split | (with_reducible refine Eq.trans (foldl_main ?_) ?_)
    | with_reducible refine Eq.trans State.serveRead_main ?_ | with_reducible refine Eq.trans (State.modCore_main ..) ?_ | dsimp only
    | dsimp +zetaDelta only

@[simp] theorem State.setMigState_main {s : State} {k : Nat} {v : Nat} :
    (State.setMigState s k v).main = s.main := by
  unfold State.setMigState; (try dsimp only)
  repeat' first
    | with_reducible rfl | intro _ | split | (with_reducible refine Eq.trans (foldl_main ?_) ?_)
    | with_reducible refine Eq.trans (State.setPkgReg_main ..) ?_ | dsimp only | dsimp +zetaDelta only

theorem State.writeUnit_wf {s : State} {pa : Nat} {bs : List Byte} (h : s.main.wf = true) :
    (State.writeUnit s pa bs).main.wf = true := by
  unfold State.writeUnit
  split
  · exact Memory.wf_writeBytes _ _ h
  · split
    · exact h
    · exact Memory.wf_writeBytes _ _ (main_wf State.correct_main h)

theorem State.writePa_wf {s : State} {pa : Nat} {bs : List Byte} (h : s.main.wf = true) :
    (State.writePa s pa bs).main.wf = true := by
  unfold State.writePa
  split
  · exact Memory.wf_writeBytes _ _ h
  · exact foldl_wf (fun _ _ hu => State.writeUnit_wf hu) h

@[simp] theorem State.poisonPa_main {s : State} {pa : Nat} {n : Nat} {origin : Nat} :
    (State.poisonPa s pa n origin).main = s.main := by
  unfold State.poisonPa; (try dsimp only)
  repeat' first | with_reducible rfl | intro _ | split | (with_reducible refine Eq.trans (foldl_main ?_) ?_) | dsimp only | dsimp +zetaDelta only

theorem State.copyLine_wf {s : State} {src : Nat} {dst : Nat} {bs : List Byte} (hw : s.main.wf = true) :
    (State.copyLine s src dst bs).main.wf = true := by
  unfold State.copyLine; (try dsimp only)
  repeat' first
    | with_reducible exact hw | with_reducible assumption | intro _ | split | with_reducible apply foldl_wf
    | with_reducible apply State.writePa_wf | dsimp only | dsimp +zetaDelta only

@[simp] theorem State.migMark_main {s : State} {k : Nat} {line : Nat} :
    (State.migMark s k line).main = s.main := by
  unfold State.migMark; (try dsimp only)
  repeat' first
    | with_reducible rfl | intro _ | split | (with_reducible refine Eq.trans (foldl_main ?_) ?_)
    | with_reducible refine Eq.trans (State.setMig_main ..) ?_ | with_reducible refine Eq.trans (State.setPkgReg_main ..) ?_
    | with_reducible refine Eq.trans State.setMigState_main ?_ | dsimp only | dsimp +zetaDelta only

@[simp] theorem State.countMiss_main {s : State} {r : MemReq} :
    (State.countMiss s r).main = s.main := by
  unfold State.countMiss; (try dsimp only)
  repeat' first
    | with_reducible rfl | intro _ | split | (with_reducible refine Eq.trans (foldl_main ?_) ?_)
    | with_reducible refine Eq.trans (State.setPkgReg_main ..) ?_ | with_reducible refine Eq.trans (State.setCtxReg_main ..) ?_ | dsimp only
    | dsimp +zetaDelta only

@[simp] theorem State.dropCopies_main {s : State} {ids : List Nat} :
    (State.dropCopies s ids).main = s.main := by
  unfold State.dropCopies; (try dsimp only)
  repeat' first
    | with_reducible rfl | intro _ | split | (with_reducible refine Eq.trans (foldl_main ?_) ?_)
    | with_reducible refine Eq.trans State.countMiss_main ?_ | dsimp only | dsimp +zetaDelta only

@[simp] theorem State.withoutReductions_main {s : State} :
    (State.withoutReductions s).main = s.main := by
  unfold State.withoutReductions; (try dsimp only)
  repeat' first | with_reducible rfl | intro _ | split | (with_reducible refine Eq.trans (foldl_main ?_) ?_) | dsimp only | dsimp +zetaDelta only

@[simp] theorem State.migFail_main {s : State} {k : Nat} {line : Nat} :
    (State.migFail s k line).main = s.main := by
  unfold State.migFail; (try dsimp only)
  repeat' first
    | with_reducible rfl | intro _ | split | (with_reducible refine Eq.trans (foldl_main ?_) ?_)
    | with_reducible refine Eq.trans (State.setMig_main ..) ?_ | with_reducible refine Eq.trans (State.setPkgReg_main ..) ?_ | dsimp only
    | dsimp +zetaDelta only

theorem State.migCopy_wf {s : State} {k : Nat} {line : Nat} {cls : Nat} (hw : s.main.wf = true) :
    (State.migCopy s k line cls).main.wf = true := by
  unfold State.migCopy; (try dsimp only)
  repeat' first
    | with_reducible exact hw | with_reducible assumption | intro _ | split | with_reducible apply foldl_wf
    | with_reducible refine main_wf State.migFail_main ?_ | with_reducible refine main_wf State.serveRead_main ?_
    | with_reducible refine main_wf State.migMark_main ?_ | with_reducible refine main_wf State.serve_main ?_
    | with_reducible apply State.copyLine_wf | dsimp only | dsimp +zetaDelta only

theorem State.migPull_wf {s : State} {k : Nat} {line : Nat} {cls : Nat} (hw : s.main.wf = true) :
    (State.migPull s k line cls).main.wf = true := by
  unfold State.migPull; (try dsimp only)
  repeat' first
    | with_reducible exact hw | with_reducible assumption | intro _ | split | with_reducible apply foldl_wf
    | with_reducible apply State.migCopy_wf | dsimp only | dsimp +zetaDelta only

theorem State.lostWrite_wf {s : State} {pa : Nat} {n : Nat} (hw : s.main.wf = true) :
    (State.lostWrite s pa n).main.wf = true := by
  unfold State.lostWrite; (try dsimp only)
  repeat' first
    | with_reducible exact hw | with_reducible assumption | intro _ | split | with_reducible apply foldl_wf
    | with_reducible apply State.writePa_wf | dsimp only | dsimp +zetaDelta only

theorem State.putPa_wf {s : State} {cls : Nat} {pa : Nat} {bs : List Byte} (hw : s.main.wf = true) :
    (State.putPa s cls pa bs).main.wf = true := by
  unfold State.putPa; (try dsimp only)
  repeat' first
    | with_reducible exact hw | with_reducible assumption | intro _ | split | with_reducible apply foldl_wf
    | with_reducible apply State.lostWrite_wf | with_reducible refine main_wf State.serve_main ?_ | with_reducible apply State.writePa_wf
    | dsimp only | dsimp +zetaDelta only

theorem State.migWrite_wf {s : State} {k : Nat} {off : Nat} {cls : Nat} {bs : List Byte} (hw : s.main.wf = true) :
    (State.migWrite s k off cls bs).main.wf = true := by
  unfold State.migWrite; (try dsimp only)
  repeat' first
    | with_reducible exact hw | with_reducible assumption | intro _ | split | with_reducible apply foldl_wf
    | with_reducible apply State.migPull_wf | with_reducible apply State.lostWrite_wf | with_reducible apply State.putPa_wf
    | with_reducible refine main_wf State.migMark_main ?_ | dsimp only | dsimp +zetaDelta only

theorem State.readTouch_wf {s : State} {cls : Nat} {x : Xl} {n : Nat} {lost : List Nat} (hw : s.main.wf = true) :
    (State.readTouch s cls x n lost).main.wf = true := by
  unfold State.readTouch; (try dsimp only)
  repeat' first
    | with_reducible exact hw | with_reducible assumption | intro _ | split | with_reducible apply foldl_wf
    | with_reducible refine main_wf State.migFail_main ?_ | with_reducible apply State.migPull_wf
    | with_reducible refine main_wf State.serveRead_main ?_ | dsimp only | dsimp +zetaDelta only

theorem State.pullFor_wf {s : State} {cls : Nat} {x : Xl} {n : Nat} (hw : s.main.wf = true) :
    (State.pullFor s cls x n).main.wf = true := by
  unfold State.pullFor; (try dsimp only)
  repeat' first
    | with_reducible exact hw | with_reducible assumption | intro _ | split | with_reducible apply foldl_wf
    | with_reducible apply State.migPull_wf | dsimp only | dsimp +zetaDelta only

theorem State.writeXl_wf {s : State} {a : Agent} {cls : Nat} {va : Nat} {x : Xl} {bs : List Byte} {out : State} (e : State.writeXl s a cls va x bs = .ok out) (hw : s.main.wf = true) :
    out.main.wf = true := by
  unfold State.writeXl at e; (try dsimp only at e)
  repeat' split at e
  all_goals first | (cases e; done) | (cases e; repeat' first | with_reducible exact hw | with_reducible assumption | intro _ | split | with_reducible apply foldl_wf | with_reducible apply State.migWrite_wf | with_reducible apply State.putPa_wf | dsimp only | dsimp +zetaDelta only; done) | (repeat' first | with_reducible exact hw | with_reducible assumption | intro _ | split | with_reducible apply foldl_wf | with_reducible apply State.migWrite_wf | with_reducible apply State.putPa_wf | dsimp only | dsimp +zetaDelta only)

theorem State.fetchTouch_wf {s : State} {c : Nat} {ctx : Nat} {va : Nat} {n : Nat} (hw : s.main.wf = true) :
    (State.fetchTouch s c ctx va n).main.wf = true := by
  unfold State.fetchTouch; (try dsimp only)
  repeat' first
    | with_reducible exact hw | with_reducible assumption | intro _ | split | with_reducible apply foldl_wf
    | with_reducible refine main_wf State.keep_main ?_ | with_reducible apply State.readTouch_wf | dsimp only | dsimp +zetaDelta only

/-! ### Of Machine/Store.lean -/

@[simp] theorem State.parityClear_main {s : State} {kind : Nat} {core : Nat} {holder : Nat} {unit : Nat} {lo : Nat} {n : Nat} :
    (State.parityClear s kind core holder unit lo n).main = s.main := by
  unfold State.parityClear; (try dsimp only)
  repeat' first | with_reducible rfl | intro _ | split | (with_reducible refine Eq.trans (foldl_main ?_) ?_) | dsimp only | dsimp +zetaDelta only

@[simp] theorem State.parityMark_main {s : State} {kind : Nat} {core : Nat} {holder : Nat} {unit : Nat} {lo : Nat} {n : Nat} :
    (State.parityMark s kind core holder unit lo n).main = s.main := by
  unfold State.parityMark; (try dsimp only)
  repeat' first
    | with_reducible rfl | intro _ | split | (with_reducible refine Eq.trans (foldl_main ?_) ?_)
    | with_reducible refine Eq.trans State.parityClear_main ?_ | dsimp only | dsimp +zetaDelta only

@[simp] theorem State.regClear_main {s : State} {g : Group} {r : Nat} {l : Nat} :
    (State.regClear s g r l).main = s.main := by
  unfold State.regClear; (try dsimp only)
  repeat' first
    | with_reducible rfl | intro _ | split | (with_reducible refine Eq.trans (foldl_main ?_) ?_)
    | with_reducible refine Eq.trans State.parityClear_main ?_ | dsimp only | dsimp +zetaDelta only

@[simp] theorem State.predClear_main {s : State} {g : Group} {p : Nat} :
    (State.predClear s g p).main = s.main := by
  unfold State.predClear; (try dsimp only)
  repeat' first
    | with_reducible rfl | intro _ | split | (with_reducible refine Eq.trans (foldl_main ?_) ?_)
    | with_reducible refine Eq.trans State.parityClear_main ?_ | dsimp only | dsimp +zetaDelta only

@[simp] theorem State.scalClear_main {s : State} {g : Group} {sid : Nat} {k : Nat} {n : Nat} :
    (State.scalClear s g sid k n).main = s.main := by
  unfold State.scalClear; (try dsimp only)
  repeat' first
    | with_reducible rfl | intro _ | split | (with_reducible refine Eq.trans (foldl_main ?_) ?_)
    | with_reducible refine Eq.trans State.parityClear_main ?_ | dsimp only | dsimp +zetaDelta only

@[simp] theorem State.splitClear_main {s : State} {g : Group} {sids : List Nat} :
    (State.splitClear s g sids).main = s.main := by
  unfold State.splitClear; (try dsimp only)
  repeat' first | with_reducible rfl | intro _ | split | (with_reducible refine Eq.trans (foldl_main ?_) ?_) | dsimp only | dsimp +zetaDelta only

@[simp] theorem State.groupClear_main {s : State} {g : Group} {rs : List Nat} {sids : List Nat} :
    (State.groupClear s g rs sids).main = s.main := by
  unfold State.groupClear; (try dsimp only)
  repeat' first
    | with_reducible rfl | intro _ | split | (with_reducible refine Eq.trans (foldl_main ?_) ?_)
    | with_reducible refine Eq.trans State.splitClear_main ?_ | dsimp only | dsimp +zetaDelta only

@[simp] theorem State.copiedClear_main {s : State} {old : Group} {new : Group} :
    (State.copiedClear s old new).main = s.main := by
  unfold State.copiedClear; (try dsimp only)
  repeat' first
    | with_reducible rfl | intro _ | split | (with_reducible refine Eq.trans (foldl_main ?_) ?_)
    | with_reducible refine Eq.trans State.splitClear_main ?_ | dsimp only | dsimp +zetaDelta only

@[simp] theorem State.shmClear_main {s : State} {b : Block} {o : Nat} {n : Nat} :
    (State.shmClear s b o n).main = s.main := by
  unfold State.shmClear; (try dsimp only)
  repeat' first | with_reducible rfl | intro _ | split | (with_reducible refine Eq.trans (foldl_main ?_) ?_) | dsimp only | dsimp +zetaDelta only

@[simp] theorem State.shmMark_main {s : State} {bid : Nat} {o : Nat} {bad : List Nat} :
    (State.shmMark s bid o bad).main = s.main := by
  unfold State.shmMark; (try dsimp only)
  repeat' first
    | with_reducible rfl | intro _ | split | (with_reducible refine Eq.trans (foldl_main ?_) ?_)
    | with_reducible refine Eq.trans State.parityMark_main ?_ | dsimp only | dsimp +zetaDelta only

@[simp] theorem State.spillClear_main {s : State} {g : Group} {k : Nat} :
    (State.spillClear s g k).main = s.main := by
  unfold State.spillClear; (try dsimp only)
  repeat' first
    | with_reducible rfl | intro _ | split | (with_reducible refine Eq.trans (foldl_main ?_) ?_)
    | with_reducible refine Eq.trans State.parityClear_main ?_ | dsimp only | dsimp +zetaDelta only

@[simp] theorem State.parityLog_main {s : State} {x1 : Unit_} :
    (State.parityLog s x1).main = s.main := by
  unfold State.parityLog; (try dsimp only)
  repeat' first
    | with_reducible rfl | intro _ | split | (with_reducible refine Eq.trans (foldl_main ?_) ?_)
    | with_reducible refine Eq.trans (State.setPkgReg_main ..) ?_ | dsimp only | dsimp +zetaDelta only

@[simp] theorem State.poisonLog_main {s : State} {core : Nat} {x : Word} :
    (State.poisonLog s core x).main = s.main := by
  unfold State.poisonLog; (try dsimp only)
  repeat' first
    | with_reducible rfl | intro _ | split | (with_reducible refine Eq.trans (foldl_main ?_) ?_)
    | with_reducible refine Eq.trans State.parityLog_main ?_ | dsimp only | dsimp +zetaDelta only

@[simp] theorem State.spoilUses_main {s : State} {space : Nat} {key : Nat} {lo : Nat} {n : Nat} :
    (State.spoilUses s space key lo n).main = s.main := by
  unfold State.spoilUses; (try dsimp only)
  repeat' first | with_reducible rfl | intro _ | split | (with_reducible refine Eq.trans (foldl_main ?_) ?_) | dsimp only | dsimp +zetaDelta only

@[simp] theorem State.spoilTile_main {s : State} {core : Nat} {k : Nat} :
    (State.spoilTile s core k).main = s.main := by
  unfold State.spoilTile; (try dsimp only)
  repeat' first | with_reducible rfl | intro _ | split | (with_reducible refine Eq.trans (foldl_main ?_) ?_) | dsimp only | dsimp +zetaDelta only

@[simp] theorem State.ownView_main {s : State} {gid : Nat} {id : Nat} :
    (State.ownView s gid id).main = s.main := by
  unfold State.ownView; (try dsimp only)
  repeat' first
    | with_reducible rfl | intro _ | split | (with_reducible refine Eq.trans (foldl_main ?_) ?_)
    | with_reducible refine Eq.trans (State.setGroup_main ..) ?_ | dsimp only | dsimp +zetaDelta only

@[simp] theorem State.wmonReturn_main {s : State} {gid : Nat} {sid : Nat} {ret : Nat} :
    (State.wmonReturn s gid sid ret).main = s.main := by
  unfold State.wmonReturn; (try dsimp only)
  repeat' first
    | with_reducible rfl | intro _ | split | (with_reducible refine Eq.trans (foldl_main ?_) ?_)
    | with_reducible refine Eq.trans (State.modSplit_main ..) ?_ | dsimp only | dsimp +zetaDelta only

@[simp] theorem State.shmPut_main {s : State} {bid : Nat} {o : Nat} {bs : List Byte} :
    (State.shmPut s bid o bs).main = s.main := by
  unfold State.shmPut; (try dsimp only)
  repeat' first
    | with_reducible rfl | intro _ | split | (with_reducible refine Eq.trans (foldl_main ?_) ?_)
    | with_reducible refine Eq.trans State.shmClear_main ?_ | with_reducible refine Eq.trans (State.setBlock_main ..) ?_
    | with_reducible refine Eq.trans State.wmonReturn_main ?_ | with_reducible refine Eq.trans (State.modCore_main ..) ?_ | dsimp only
    | dsimp +zetaDelta only

@[simp] theorem State.shmWrite_main {s : State} {bid : Nat} {o : Nat} {bs : List Byte} :
    (State.shmWrite s bid o bs).main = s.main := by
  unfold State.shmWrite; (try dsimp only)
  repeat' first
    | with_reducible rfl | intro _ | split | (with_reducible refine Eq.trans (foldl_main ?_) ?_)
    | with_reducible refine Eq.trans State.shmPut_main ?_ | with_reducible refine Eq.trans State.spoilUses_main ?_ | dsimp only
    | dsimp +zetaDelta only

@[simp] theorem State.replyTo_main {s : State} {gid : Nat} {r : Reply} :
    (State.replyTo s gid r).main = s.main := by
  unfold State.replyTo; (try dsimp only)
  repeat' first
    | with_reducible rfl | intro _ | split | (with_reducible refine Eq.trans (foldl_main ?_) ?_)
    | with_reducible refine Eq.trans (State.modCore_main ..) ?_ | dsimp only | dsimp +zetaDelta only

@[simp] theorem State.slicePut_main {s : State} {d : Nat} {lin : Nat} {bs : List Byte} :
    (State.slicePut s d lin bs).main = s.main := by
  unfold State.slicePut; (try dsimp only)
  repeat' first
    | with_reducible rfl | intro _ | split | (with_reducible refine Eq.trans (foldl_main ?_) ?_)
    | with_reducible refine Eq.trans (State.modDie_main ..) ?_ | with_reducible refine Eq.trans State.parityClear_main ?_
    | with_reducible refine Eq.trans State.replyTo_main ?_ | with_reducible refine Eq.trans State.modSlice_main ?_ | dsimp only
    | dsimp +zetaDelta only

@[simp] theorem State.sliceWrite_main {s : State} {d : Nat} {lin : Nat} {bs : List Byte} :
    (State.sliceWrite s d lin bs).main = s.main := by
  unfold State.sliceWrite; (try dsimp only)
  repeat' first
    | with_reducible rfl | intro _ | split | (with_reducible refine Eq.trans (foldl_main ?_) ?_)
    | with_reducible refine Eq.trans State.slicePut_main ?_ | with_reducible refine Eq.trans State.spoilUses_main ?_ | dsimp only
    | dsimp +zetaDelta only

@[simp] theorem State.wbDrain_main {s : State} {c : Nat} {k : Nat} :
    (State.wbDrain s c k).main = s.main := by
  unfold State.wbDrain; (try dsimp only)
  repeat' first
    | with_reducible rfl | intro _ | split | (with_reducible refine Eq.trans (foldl_main ?_) ?_)
    | with_reducible refine Eq.trans (State.modCore_main ..) ?_ | with_reducible refine Eq.trans State.slicePut_main ?_
    | with_reducible refine Eq.trans State.parityMark_main ?_ | with_reducible refine Eq.trans State.parityLog_main ?_
    | with_reducible refine Eq.trans State.parityClear_main ?_ | dsimp only | dsimp +zetaDelta only

@[simp] theorem State.wbDrainLine_main {s : State} {c : Nat} {l : Nat} :
    (State.wbDrainLine s c l).main = s.main := by
  unfold State.wbDrainLine; (try dsimp only)
  repeat' first
    | with_reducible rfl | intro _ | split | (with_reducible refine Eq.trans (foldl_main ?_) ?_)
    | with_reducible refine Eq.trans State.wbDrain_main ?_ | dsimp only | dsimp +zetaDelta only

@[simp] theorem State.wbDrainAll_main {s : State} {c : Nat} :
    (State.wbDrainAll s c).main = s.main := by
  unfold State.wbDrainAll; (try dsimp only)
  repeat' first
    | with_reducible rfl | intro _ | split | (with_reducible refine Eq.trans (foldl_main ?_) ?_)
    | with_reducible refine Eq.trans State.wbDrain_main ?_ | dsimp only | dsimp +zetaDelta only

@[simp] theorem State.wbDrainRange_main {s : State} {c : Nat} {lin : Nat} {n : Nat} :
    (State.wbDrainRange s c lin n).main = s.main := by
  unfold State.wbDrainRange; (try dsimp only)
  repeat' first
    | with_reducible rfl | intro _ | split | (with_reducible refine Eq.trans (foldl_main ?_) ?_)
    | with_reducible refine Eq.trans State.wbDrainLine_main ?_ | dsimp only | dsimp +zetaDelta only

@[simp] theorem State.wbPut_main {s : State} {c : Nat} {lin : Nat} {bs : List Byte} :
    (State.wbPut s c lin bs).main = s.main := by
  unfold State.wbPut; (try dsimp only)
  repeat' first
    | with_reducible rfl | intro _ | split | (with_reducible refine Eq.trans (foldl_main ?_) ?_)
    | with_reducible refine Eq.trans State.parityClear_main ?_ | with_reducible refine Eq.trans State.spoilUses_main ?_
    | with_reducible refine Eq.trans (State.modCore_main ..) ?_ | dsimp only | dsimp +zetaDelta only

@[simp] theorem State.tileUndef_main {s : State} {core : Nat} {k : Nat} :
    (State.tileUndef s core k).main = s.main := by
  unfold State.tileUndef; (try dsimp only)
  repeat' first
    | with_reducible rfl | intro _ | split | (with_reducible refine Eq.trans (foldl_main ?_) ?_)
    | with_reducible refine Eq.trans State.newSeed_main ?_ | with_reducible refine Eq.trans State.setTile_main ?_
    | with_reducible refine snd_main (by assumption) ?_ | dsimp only | dsimp +zetaDelta only

@[simp] theorem State.rowsUndef_main {s : State} {c : Nat} {k : Nat} :
    (State.rowsUndef s c k).main = s.main := by
  unfold State.rowsUndef; (try dsimp only)
  repeat' first
    | with_reducible rfl | intro _ | split | (with_reducible refine Eq.trans (foldl_main ?_) ?_)
    | with_reducible refine Eq.trans State.newSeed_main ?_ | with_reducible refine Eq.trans State.setTile_main ?_
    | with_reducible refine snd_main (by assumption) ?_ | dsimp only | dsimp +zetaDelta only

@[simp] theorem State.usesUndef_main {s : State} {g : Group} {o : OpRec} :
    (State.usesUndef s g o).main = s.main := by
  unfold State.usesUndef; (try dsimp only)
  repeat' first
    | with_reducible rfl | intro _ | split | (with_reducible refine Eq.trans (foldl_main ?_) ?_)
    | with_reducible refine Eq.trans State.shmPut_main ?_ | with_reducible refine Eq.trans State.slicePut_main ?_
    | with_reducible refine Eq.trans State.rowsUndef_main ?_ | with_reducible refine Eq.trans State.tileUndef_main ?_ | dsimp only
    | dsimp +zetaDelta only

@[simp] theorem State.cnsWrite_main {s : State} {k : Nat} {a : Nat} {bs : List Byte} :
    (State.cnsWrite s k a bs).main = s.main := by
  unfold State.cnsWrite; (try dsimp only)
  repeat' first
    | with_reducible rfl | intro _ | split | (with_reducible refine Eq.trans (foldl_main ?_) ?_)
    | with_reducible refine Eq.trans State.parityClear_main ?_ | with_reducible refine Eq.trans (State.modCore_main ..) ?_ | dsimp only
    | dsimp +zetaDelta only

@[simp] theorem State.slotWrite_main {s : State} {k : Nat} {j : Nat} {a : Nat} {bs : List Byte} :
    (State.slotWrite s k j a bs).main = s.main := by
  unfold State.slotWrite; (try dsimp only)
  repeat' first
    | with_reducible rfl | intro _ | split | (with_reducible refine Eq.trans (foldl_main ?_) ?_)
    | with_reducible refine Eq.trans State.parityClear_main ?_ | with_reducible refine Eq.trans State.setSlot_main ?_ | dsimp only
    | dsimp +zetaDelta only

@[simp] theorem State.slotKeep_main {s : State} {k : Nat} {j : Nat} {a : Nat} {n : Nat} :
    (State.slotKeep s k j a n).main = s.main := by
  unfold State.slotKeep; (try dsimp only)
  repeat' first
    | with_reducible rfl | intro _ | split | (with_reducible refine Eq.trans (foldl_main ?_) ?_)
    | with_reducible refine Eq.trans State.setSlot_main ?_ | dsimp only | dsimp +zetaDelta only

/-! ### Of Machine/BenchOps.lean -/

@[simp] theorem State.sendDone_main {s : State} {core : Nat} :
    (State.sendDone s core).main = s.main := by
  unfold State.sendDone; (try dsimp only)
  repeat' first
    | with_reducible rfl | intro _ | split | (with_reducible refine Eq.trans (foldl_main ?_) ?_)
    | with_reducible refine Eq.trans (State.modCore_main ..) ?_ | with_reducible refine Eq.trans State.wake_main ?_ | dsimp only
    | dsimp +zetaDelta only

@[simp] theorem State.benchReply_main {s : State} {r : BenchReq} {st : Nat} {got : Option (List Word)} :
    (State.benchReply s r st got).main = s.main := by
  unfold State.benchReply; (try dsimp only)
  repeat' first
    | with_reducible rfl | intro _ | split | (with_reducible refine Eq.trans (foldl_main ?_) ?_)
    | with_reducible refine Eq.trans State.replyTo_main ?_ | with_reducible refine Eq.trans (State.setCtx_main ..) ?_
    | with_reducible refine Eq.trans State.sendDone_main ?_ | with_reducible refine Eq.trans (State.modCore_main ..) ?_ | dsimp only
    | dsimp +zetaDelta only

@[simp] theorem State.benchFull_main {s : State} {r : BenchReq} {k : Nat} :
    (State.benchFull s r k).main = s.main := by
  unfold State.benchFull; (try dsimp only)
  repeat' first
    | with_reducible rfl | intro _ | split | (with_reducible refine Eq.trans (foldl_main ?_) ?_)
    | with_reducible refine Eq.trans State.replyTo_main ?_ | with_reducible refine Eq.trans State.sendDone_main ?_
    | with_reducible refine Eq.trans (State.modCore_main ..) ?_ | dsimp only | dsimp +zetaDelta only

@[simp] theorem State.benchPark_main {s : State} {d : Nat} {k : Nat} {r : BenchReq} :
    (State.benchPark s d k r).main = s.main := by
  unfold State.benchPark; (try dsimp only)
  repeat' first
    | with_reducible rfl | intro _ | split | (with_reducible refine Eq.trans (foldl_main ?_) ?_)
    | with_reducible refine Eq.trans State.benchFull_main ?_ | with_reducible refine Eq.trans State.setSlice_main ?_ | dsimp only
    | dsimp +zetaDelta only

@[simp] theorem State.benchStore_main {s : State} {d : Nat} {k : Nat} {ctx : Nat} {r : Nat} {tag : Nat} {fields : List Word} :
    (State.benchStore s d k ctx r tag fields).main = s.main := by
  unfold State.benchStore; (try dsimp only)
  repeat' first
    | with_reducible rfl | intro _ | split | (with_reducible refine Eq.trans (foldl_main ?_) ?_)
    | with_reducible refine Eq.trans State.modSlice_main ?_ | dsimp only | dsimp +zetaDelta only

@[simp] theorem State.benchGive_main {s : State} {d : Nat} {k : Nat} {ctx : Nat} {r : Nat} {tag : Nat} {fields : List Word} {x7 : List BenchReq} :
    (State.benchGive s d k ctx r tag fields x7).1.main = s.main := by
  fun_induction State.benchGive s d k ctx r tag fields x7 <;> (try dsimp only) <;>
  (repeat' first | with_reducible rfl | intro _ | split | (with_reducible refine Eq.trans (foldl_main ?_) ?_) | with_reducible refine Eq.trans State.benchReply_main ?_ | with_reducible refine Eq.trans State.modSlice_main ?_ | with_reducible refine Eq.trans (by assumption) ?_ | dsimp only | dsimp +zetaDelta only)

@[simp] theorem State.benchOffer_main {s : State} {d : Nat} {k : Nat} {ctx : Nat} {r : Nat} {tag : Nat} {fields : List Word} :
    (State.benchOffer s d k ctx r tag fields).main = s.main := by
  unfold State.benchOffer; (try dsimp only)
  repeat' first
    | with_reducible rfl | intro _ | split | (with_reducible refine Eq.trans (foldl_main ?_) ?_)
    | with_reducible refine Eq.trans State.benchGive_main ?_ | with_reducible refine Eq.trans State.benchStore_main ?_
    | with_reducible refine fst_main (by assumption) ?_ | dsimp only | dsimp +zetaDelta only

theorem State.benchAccept_main {s : State} {d : Nat} {k : Nat} {r : BenchReq} {out : State} (e : State.benchAccept s d k r = some out) :
    out.main = s.main := by
  unfold State.benchAccept at e; (try dsimp only at e)
  repeat' split at e
  all_goals first | (cases e; done) | (cases e; repeat' first | with_reducible rfl | intro _ | split | (with_reducible refine Eq.trans (foldl_main ?_) ?_) | with_reducible refine Eq.trans State.modSlice_main ?_ | with_reducible refine Eq.trans State.benchOffer_main ?_ | dsimp only | dsimp +zetaDelta only; done) | (repeat' first | with_reducible rfl | intro _ | split | (with_reducible refine Eq.trans (foldl_main ?_) ?_) | with_reducible refine Eq.trans State.modSlice_main ?_ | with_reducible refine Eq.trans State.benchOffer_main ?_ | dsimp only | dsimp +zetaDelta only)

@[simp] theorem State.benchWake_main {s : State} {d : Nat} {k : Nat} {x3 : Nat} :
    (State.benchWake s d k x3).main = s.main := by
  fun_induction State.benchWake s d k x3 <;> (try dsimp only) <;>
  (repeat' first | with_reducible rfl | intro _ | split | (with_reducible refine Eq.trans (foldl_main ?_) ?_) | with_reducible refine Eq.trans State.benchReply_main ?_ | with_reducible refine Eq.trans (State.benchAccept_main (by assumption)) ?_ | with_reducible refine Eq.trans State.modSlice_main ?_ | with_reducible refine Eq.trans (by assumption) ?_ | dsimp only | dsimp +zetaDelta only)

@[simp] theorem State.benchExec_main {s : State} {d : Nat} {k : Nat} {r : BenchReq} :
    (State.benchExec s d k r).main = s.main := by
  unfold State.benchExec; (try dsimp only)
  repeat' first
    | with_reducible rfl | intro _ | split | (with_reducible refine Eq.trans (foldl_main ?_) ?_)
    | with_reducible refine Eq.trans (State.benchAccept_main (by assumption)) ?_ | with_reducible refine Eq.trans State.benchWake_main ?_
    | with_reducible refine Eq.trans State.benchReply_main ?_ | with_reducible refine Eq.trans State.benchPark_main ?_
    | with_reducible refine Eq.trans State.modSlice_main ?_ | dsimp only | dsimp +zetaDelta only

@[simp] theorem State.benchSend_main {s : State} {r : BenchReq} :
    (State.benchSend s r).main = s.main := by
  unfold State.benchSend; (try dsimp only)
  repeat' first
    | with_reducible rfl | intro _ | split | (with_reducible refine Eq.trans (foldl_main ?_) ?_)
    | with_reducible refine Eq.trans State.modSlice_main ?_ | dsimp only | dsimp +zetaDelta only

@[simp] theorem State.releaseHeld_main {s : State} {ctx : Nat} :
    (State.releaseHeld s ctx).main = s.main := by
  unfold State.releaseHeld; (try dsimp only)
  repeat' first
    | with_reducible rfl | intro _ | split | (with_reducible refine Eq.trans (foldl_main ?_) ?_)
    | with_reducible refine Eq.trans State.benchWake_main ?_ | with_reducible refine Eq.trans State.benchOffer_main ?_
    | with_reducible refine Eq.trans State.modSlice_main ?_ | dsimp only | dsimp +zetaDelta only

@[simp] theorem State.benchRemove_main {s : State} {d : Nat} {k : Nat} {gid : Nat} {sid : Nat} :
    (State.benchRemove s d k gid sid).main = s.main := by
  unfold State.benchRemove; (try dsimp only)
  repeat' first
    | with_reducible rfl | intro _ | split | (with_reducible refine Eq.trans (foldl_main ?_) ?_)
    | with_reducible refine Eq.trans State.modSlice_main ?_ | dsimp only | dsimp +zetaDelta only

@[simp] theorem State.mailSend_main {s : State} {core : Nat} {ctx : Nat} {tag : Nat} {fields : List Word} :
    (State.mailSend s core ctx tag fields).main = s.main := by
  unfold State.mailSend; (try dsimp only)
  repeat' first
    | with_reducible rfl | intro _ | split | (with_reducible refine Eq.trans (foldl_main ?_) ?_)
    | with_reducible refine Eq.trans State.newId_main ?_ | with_reducible refine Eq.trans State.benchSend_main ?_
    | with_reducible refine Eq.trans (State.modCore_main ..) ?_ | with_reducible refine snd_main (by assumption) ?_ | dsimp only
    | dsimp +zetaDelta only

@[simp] theorem State.returnFrames_main {s : State} {core : Nat} {ctx : Nat} {frames : List Nat} {x4 : Nat} :
    (State.returnFrames s core ctx frames x4).main = s.main := by
  fun_induction State.returnFrames s core ctx frames x4 <;> (try dsimp only) <;>
  (repeat' first | with_reducible rfl | intro _ | split | (with_reducible refine Eq.trans (foldl_main ?_) ?_) | with_reducible refine Eq.trans State.mailSend_main ?_ | with_reducible refine Eq.trans (by assumption) ?_ | dsimp only | dsimp +zetaDelta only)

@[simp] theorem State.emptyCache_main {s : State} {core : Nat} :
    (State.emptyCache s core).main = s.main := by
  unfold State.emptyCache; (try dsimp only)
  repeat' first
    | with_reducible rfl | intro _ | split | (with_reducible refine Eq.trans (foldl_main ?_) ?_)
    | with_reducible refine Eq.trans State.returnFrames_main ?_ | with_reducible refine Eq.trans (State.modCore_main ..) ?_ | dsimp only
    | dsimp +zetaDelta only

@[simp] theorem State.grantTake_main {s : State} {core : Nat} {ctx : Nat} :
    (State.grantTake s core ctx).main = s.main := by
  unfold State.grantTake; (try dsimp only)
  repeat' first
    | with_reducible rfl | intro _ | split | (with_reducible refine Eq.trans (foldl_main ?_) ?_)
    | with_reducible refine Eq.trans State.newId_main ?_ | with_reducible refine Eq.trans State.benchSend_main ?_
    | with_reducible refine Eq.trans (State.modCore_main ..) ?_ | with_reducible refine snd_main (by assumption) ?_ | dsimp only
    | dsimp +zetaDelta only

@[simp] theorem State.postRefill_main {s : State} {core : Nat} {ctx : Nat} :
    (State.postRefill s core ctx).main = s.main := by
  unfold State.postRefill; (try dsimp only)
  repeat' first
    | with_reducible rfl | intro _ | split | (with_reducible refine Eq.trans (foldl_main ?_) ?_)
    | with_reducible refine Eq.trans State.grantTake_main ?_ | with_reducible refine Eq.trans State.mailSend_main ?_
    | with_reducible refine Eq.trans (State.modCore_main ..) ?_ | dsimp only | dsimp +zetaDelta only

@[simp] theorem State.insertFrames_main {s : State} {core : Nat} {ctx : Nat} {fs : List Nat} :
    (State.insertFrames s core ctx fs).main = s.main := by
  unfold State.insertFrames; (try dsimp only)
  repeat' first
    | with_reducible rfl | intro _ | split | (with_reducible refine Eq.trans (foldl_main ?_) ?_)
    | with_reducible refine Eq.trans State.returnFrames_main ?_ | with_reducible refine Eq.trans (State.modCore_main ..) ?_ | dsimp only
    | dsimp +zetaDelta only

/-! ### Of Machine/Ops.lean -/

@[simp] theorem State.walkTouch_main {s : State} {ctx : Nat} {va : Nat} :
    (State.walkTouch s ctx va).main = s.main := by
  unfold State.walkTouch; (try dsimp only)
  repeat' first
    | with_reducible rfl | intro _ | split | (with_reducible refine Eq.trans (foldl_main ?_) ?_)
    | with_reducible refine Eq.trans State.serveRead_main ?_ | dsimp only | dsimp +zetaDelta only

theorem State.touchCtx_wf {s : State} {ctx : Nat} {va : Nat} {n : Nat} (hw : s.main.wf = true) :
    (State.touchCtx s ctx va n).main.wf = true := by
  unfold State.touchCtx; (try dsimp only)
  repeat' first
    | with_reducible exact hw | with_reducible assumption | intro _ | split | with_reducible apply foldl_wf
    | with_reducible refine main_wf State.walkTouch_main ?_ | with_reducible apply State.readTouch_wf | dsimp only | dsimp +zetaDelta only

theorem State.writeCtx_wf {s : State} {ctx va : Nat} {bs : List Byte} {t : State}
    (e : State.writeCtx s ctx va bs = .ok t) (h : s.main.wf = true) : t.main.wf = true := by
  refine foldl_ok (P := fun u => u.main.wf = true) (fun acc pg v hv => ?_) e (fun u hu => by cases hu; exact h)
  split at hv
  · cases hv
  · split at hv
    · cases hv
    · exact ⟨_, rfl, fun hw => State.writeXl_wf hv (main_wf State.walkTouch_main hw)⟩

@[simp] theorem State.keepReg_main {s : State} {gid : Nat} {r : Nat} :
    (State.keepReg s gid r).main = s.main := by
  unfold State.keepReg; (try dsimp only)
  repeat' first
    | with_reducible rfl | intro _ | split | (with_reducible refine Eq.trans (foldl_main ?_) ?_)
    | with_reducible refine Eq.trans (State.setBlock_main ..) ?_ | dsimp only | dsimp +zetaDelta only

@[simp] theorem State.keepLines_main {s : State} {bid : Nat} {o : Nat} {n : Nat} :
    (State.keepLines s bid o n).main = s.main := by
  unfold State.keepLines; (try dsimp only)
  repeat' first
    | with_reducible rfl | intro _ | split | (with_reducible refine Eq.trans (foldl_main ?_) ?_)
    | with_reducible refine Eq.trans (State.setBlock_main ..) ?_ | dsimp only | dsimp +zetaDelta only

@[simp] theorem State.shmStore_main {s : State} {bid : Nat} {o : Nat} {bs : List Byte} :
    (State.shmStore s bid o bs).main = s.main := by
  unfold State.shmStore; (try dsimp only)
  repeat' first
    | with_reducible rfl | intro _ | split | (with_reducible refine Eq.trans (foldl_main ?_) ?_)
    | with_reducible refine Eq.trans State.shmWrite_main ?_ | with_reducible refine Eq.trans State.keepLines_main ?_ | dsimp only
    | dsimp +zetaDelta only

@[simp] theorem State.releaseSlots_main {s : State} {core : Nat} {gid : Nat} :
    (State.releaseSlots s core gid).main = s.main := by
  unfold State.releaseSlots; (try dsimp only)
  repeat' first
    | with_reducible rfl | intro _ | split | (with_reducible refine Eq.trans (foldl_main ?_) ?_)
    | with_reducible refine Eq.trans (State.modCore_main ..) ?_ | dsimp only | dsimp +zetaDelta only

@[simp] theorem State.leaseNext_main {s : State} {core : Nat} :
    (State.leaseNext s core).main = s.main := by
  unfold State.leaseNext; (try dsimp only)
  repeat' first
    | with_reducible rfl | intro _ | split | (with_reducible refine Eq.trans (foldl_main ?_) ?_)
    | with_reducible refine Eq.trans (State.setCore_main ..) ?_ | dsimp only | dsimp +zetaDelta only

@[simp] theorem State.bondNext_main {s : State} {core : Nat} :
    (State.bondNext s core).main = s.main := by
  unfold State.bondNext; (try dsimp only)
  repeat' first
    | with_reducible rfl | intro _ | split | (with_reducible refine Eq.trans (foldl_main ?_) ?_)
    | with_reducible refine Eq.trans (State.setCore_main ..) ?_ | dsimp only | dsimp +zetaDelta only

@[simp] theorem State.forgetGroup_main {s : State} {core : Nat} {gid : Nat} :
    (State.forgetGroup s core gid).main = s.main := by
  unfold State.forgetGroup; (try dsimp only)
  repeat' first
    | with_reducible rfl | intro _ | split | (with_reducible refine Eq.trans (foldl_main ?_) ?_)
    | with_reducible refine Eq.trans (State.modCore_main ..) ?_ | with_reducible refine Eq.trans State.bondNext_main ?_
    | with_reducible refine Eq.trans State.leaseNext_main ?_ | with_reducible refine Eq.trans (State.modDie_main ..) ?_ | dsimp only
    | dsimp +zetaDelta only

@[simp] theorem State.sliceUnused_main {s : State} {ctx : Nat} :
    (State.sliceUnused s ctx).main = s.main := by
  unfold State.sliceUnused; (try dsimp only)
  repeat' first
    | with_reducible rfl | intro _ | split | (with_reducible refine Eq.trans (foldl_main ?_) ?_)
    | with_reducible refine Eq.trans (State.setCtxReg_main ..) ?_ | dsimp only | dsimp +zetaDelta only

@[simp] theorem State.freePlaces_main {s : State} {g : Group} :
    (State.freePlaces s g).main = s.main := by
  unfold State.freePlaces; (try dsimp only)
  repeat' first
    | with_reducible rfl | intro _ | split | (with_reducible refine Eq.trans (foldl_main ?_) ?_)
    | with_reducible refine Eq.trans (State.setCtx_main ..) ?_ | dsimp only | dsimp +zetaDelta only

@[simp] theorem State.removeGroup_main {s : State} {gid : Nat} :
    (State.removeGroup s gid).main = s.main := by
  unfold State.removeGroup; (try dsimp only)
  repeat' first
    | with_reducible rfl | intro _ | split | (with_reducible refine Eq.trans (foldl_main ?_) ?_)
    | with_reducible refine Eq.trans State.freePlaces_main ?_ | with_reducible refine Eq.trans State.forgetGroup_main ?_
    | with_reducible refine Eq.trans State.releaseSlots_main ?_ | with_reducible refine Eq.trans State.sliceUnused_main ?_ | dsimp only
    | dsimp +zetaDelta only

@[simp] theorem State.removeBlock_main {s : State} {bid : Nat} :
    (State.removeBlock s bid).main = s.main := by
  unfold State.removeBlock; (try dsimp only)
  repeat' first
    | with_reducible rfl | intro _ | split | (with_reducible refine Eq.trans (foldl_main ?_) ?_)
    | with_reducible refine Eq.trans (State.modCore_main ..) ?_ | dsimp only | dsimp +zetaDelta only

theorem State.nodeRetired_wf {s : State} {ctx : Nat} {slot : Nat} {node : Nat} (hw : s.main.wf = true) :
    (State.nodeRetired s ctx slot node).main.wf = true := by
  unfold State.nodeRetired; (try dsimp only)
  repeat' first
    | with_reducible exact hw | with_reducible assumption | intro _ | split | with_reducible apply foldl_wf
    | with_reducible refine main_wf State.setTgSlot_main ?_ | with_reducible apply State.touchCtx_wf
    | with_reducible refine State.writeCtx_wf (by assumption) ?_ | dsimp only | dsimp +zetaDelta only

@[simp] theorem State.replayEnd_main {s : State} {ctx : Nat} {slot : Nat} {code : Nat} {node : Nat} :
    (State.replayEnd s ctx slot code node).main = s.main := by
  unfold State.replayEnd; (try dsimp only)
  repeat' first
    | with_reducible rfl | intro _ | split | (with_reducible refine Eq.trans (foldl_main ?_) ?_)
    | with_reducible refine Eq.trans State.setTgSlot_main ?_ | with_reducible refine Eq.trans (State.setCtxReg_main ..) ?_ | dsimp only
    | dsimp +zetaDelta only

@[simp] theorem State.replayCheck_main {s : State} {ctx : Nat} {slot : Nat} :
    (State.replayCheck s ctx slot).main = s.main := by
  unfold State.replayCheck; (try dsimp only)
  repeat' first
    | with_reducible rfl | intro _ | split | (with_reducible refine Eq.trans (foldl_main ?_) ?_)
    | with_reducible refine Eq.trans State.replayEnd_main ?_ | dsimp only | dsimp +zetaDelta only

@[simp] theorem State.wakeGwait_main {s : State} {uid : Nat} :
    (State.wakeGwait s uid).main = s.main := by
  unfold State.wakeGwait; (try dsimp only)
  repeat' first
    | with_reducible rfl | intro _ | split | (with_reducible refine Eq.trans (foldl_main ?_) ?_)
    | with_reducible refine Eq.trans State.wake_main ?_ | dsimp only | dsimp +zetaDelta only

theorem State.gridDone_wf {s : State} {uid n : Nat} (h : s.main.wf = true) :
    (State.gridDone s uid n).main.wf = true := by
  have go : ∀ (u : State) (g : Grid) (n : Nat), (∀ (s : State) (k : Nat), s.main.wf = true → (s.gridDone k n).main.wf = true) →
      u.main.wf = true → Memory.wf (State.main (match g.parent with
        | none => u
        | some p =>
          match u.grids.get? p with
          | some pg => if pg.st = .draining then u.gridDone p n else u
          | none => u)) = true := by
    intro u g n ih hu
    repeat' first | with_reducible exact hu | exact ih _ _ hu | split
  induction n generalizing s uid with
  | zero => exact h
  | succ n ih =>
    unfold State.gridDone
    split
    · exact h
    · split
      · exact main_wf State.modGrid_main h
      · refine go _ _ _ (fun _ _ => ih) ?_
        split
        · exact main_wf State.replayCheck_main (State.nodeRetired_wf (main_wf State.wakeGwait_main h))
        · exact main_wf State.wakeGwait_main h

theorem State.blockRetire_wf {s : State} {bid : Nat} (hw : s.main.wf = true) :
    (State.blockRetire s bid).main.wf = true := by
  unfold State.blockRetire; (try dsimp only)
  repeat' first
    | with_reducible exact hw | with_reducible assumption | intro _ | split | with_reducible apply foldl_wf
    | with_reducible refine main_wf State.modGrid_main ?_ | with_reducible refine main_wf State.removeBlock_main ?_
    | with_reducible apply State.gridDone_wf | dsimp only | dsimp +zetaDelta only

theorem State.blockCheck_wf {s : State} {bid : Nat} (hw : s.main.wf = true) :
    (State.blockCheck s bid).main.wf = true := by
  unfold State.blockCheck; (try dsimp only)
  repeat' first
    | with_reducible exact hw | with_reducible assumption | intro _ | split | with_reducible apply foldl_wf
    | with_reducible apply State.blockRetire_wf | dsimp only | dsimp +zetaDelta only

@[simp] theorem State.opDone_main {s : State} {gid : Nat} {id : Nat} :
    (State.opDone s gid id).main = s.main := by
  unfold State.opDone; (try dsimp only)
  repeat' first
    | with_reducible rfl | intro _ | split | (with_reducible refine Eq.trans (foldl_main ?_) ?_)
    | with_reducible refine Eq.trans (State.modGroup_main ..) ?_ | dsimp only | dsimp +zetaDelta only

@[simp] theorem State.tileDone_main {s : State} {c : Nat} {k : Nat} :
    (State.tileDone s c k).main = s.main := by
  unfold State.tileDone; (try dsimp only)
  repeat' first
    | with_reducible rfl | intro _ | split | (with_reducible refine Eq.trans (foldl_main ?_) ?_)
    | with_reducible refine Eq.trans State.setTile_main ?_ | dsimp only | dsimp +zetaDelta only

@[simp] theorem State.matRelease_main {s : State} {o : MatOp} :
    (State.matRelease s o).main = s.main := by
  unfold State.matRelease; (try dsimp only)
  repeat' first
    | with_reducible rfl | intro _ | split | (with_reducible refine Eq.trans (foldl_main ?_) ?_)
    | with_reducible refine Eq.trans State.setSlot_main ?_ | with_reducible refine Eq.trans State.tileDone_main ?_ | dsimp only
    | dsimp +zetaDelta only

@[simp] theorem State.attnRelease_main {s : State} {o : AttnOp} :
    (State.attnRelease s o).main = s.main := by
  unfold State.attnRelease; (try dsimp only)
  repeat' first
    | with_reducible rfl | intro _ | split | (with_reducible refine Eq.trans (foldl_main ?_) ?_)
    | with_reducible refine Eq.trans State.tileDone_main ?_ | with_reducible refine Eq.trans State.setSlot_main ?_ | dsimp only
    | dsimp +zetaDelta only

@[simp] theorem State.cancelEngines_main {s : State} {ctx : Nat} {gids : List Nat} {k : Nat} :
    (State.cancelEngines s ctx gids k).main = s.main := by
  unfold State.cancelEngines; (try dsimp only)
  repeat' first
    | with_reducible rfl | intro _ | split | (with_reducible refine Eq.trans (foldl_main ?_) ?_)
    | with_reducible refine Eq.trans (State.modCore_main ..) ?_ | with_reducible refine Eq.trans State.attnRelease_main ?_
    | with_reducible refine Eq.trans State.matRelease_main ?_ | dsimp only | dsimp +zetaDelta only

@[simp] theorem State.stopContext_main {s : State} {ctx : Nat} :
    (State.stopContext s ctx).main = s.main := by
  unfold State.stopContext; (try dsimp only)
  repeat' first
    | with_reducible rfl | intro _ | split | (with_reducible refine Eq.trans (foldl_main ?_) ?_)
    | with_reducible refine Eq.trans State.dropCopies_main ?_ | with_reducible refine Eq.trans State.cancelEngines_main ?_
    | with_reducible refine Eq.trans State.removeGroup_main ?_ | with_reducible refine Eq.trans State.removeBlock_main ?_
    | with_reducible refine Eq.trans State.emptyCache_main ?_ | with_reducible refine Eq.trans State.replayEnd_main ?_
    | with_reducible refine Eq.trans (State.setCtx_main ..) ?_ | dsimp only | dsimp +zetaDelta only

@[simp] theorem State.terminate_main {s : State} {ctx : Nat} {why : Nat} {cause : Nat} {pc : Word} {x : Word} {ts : Word} :
    (State.terminate s ctx why cause pc x ts).main = s.main := by
  unfold State.terminate; (try dsimp only)
  repeat' first
    | with_reducible rfl | intro _ | split | (with_reducible refine Eq.trans (foldl_main ?_) ?_)
    | with_reducible refine Eq.trans (State.setCtxReg_main ..) ?_ | with_reducible refine Eq.trans State.stopContext_main ?_ | dsimp only
    | dsimp +zetaDelta only

@[simp] theorem State.rollCheck_main {s : State} {bid : Nat} :
    (State.rollCheck s bid).main = s.main := by
  unfold State.rollCheck; (try dsimp only)
  repeat' first
    | with_reducible rfl | intro _ | split | (with_reducible refine Eq.trans (foldl_main ?_) ?_)
    | with_reducible refine Eq.trans (State.setGroup_main ..) ?_ | with_reducible refine Eq.trans State.groupClear_main ?_
    | with_reducible refine Eq.trans State.shmClear_main ?_ | with_reducible refine Eq.trans (State.setBlock_main ..) ?_ | dsimp only
    | dsimp +zetaDelta only

@[simp] theorem State.enterTrap_main {s : State} {gid : Nat} {sid : Nat} {r : TrapReq} :
    (State.enterTrap s gid sid r).main = s.main := by
  unfold State.enterTrap; (try dsimp only)
  repeat' first
    | with_reducible rfl | intro _ | split | (with_reducible refine Eq.trans (foldl_main ?_) ?_)
    | with_reducible refine Eq.trans State.terminate_main ?_ | with_reducible refine Eq.trans (State.setGroup_main ..) ?_
    | with_reducible refine Eq.trans State.rollCheck_main ?_ | with_reducible refine Eq.trans (State.setBlock_main ..) ?_ | dsimp only
    | dsimp +zetaDelta only

@[simp] theorem State.putResult_main {s : State} {gid : Nat} {p : Pend} :
    (State.putResult s gid p).main = s.main := by
  unfold State.putResult; (try dsimp only)
  repeat' first
    | with_reducible rfl | intro _ | split | (with_reducible refine Eq.trans (foldl_main ?_) ?_)
    | with_reducible refine Eq.trans State.keepReg_main ?_ | with_reducible refine Eq.trans State.regClear_main ?_
    | with_reducible refine Eq.trans (State.modGroup_main ..) ?_ | dsimp only | dsimp +zetaDelta only

@[simp] theorem State.writeResult_main {s : State} {gid : Nat} {p : Pend} :
    (State.writeResult s gid p).main = s.main := by
  unfold State.writeResult; (try dsimp only)
  repeat' first
    | with_reducible rfl | intro _ | split | (with_reducible refine Eq.trans (foldl_main ?_) ?_)
    | with_reducible refine Eq.trans (State.setGroup_main ..) ?_ | with_reducible refine Eq.trans State.putResult_main ?_
    | with_reducible refine Eq.trans (State.modGroup_main ..) ?_ | dsimp only | dsimp +zetaDelta only

@[simp] theorem State.flush_main {s : State} {gid : Nat} {sid : Nat} :
    (State.flush s gid sid).main = s.main := by
  unfold State.flush; (try dsimp only)
  repeat' first
    | with_reducible rfl | intro _ | split | (with_reducible refine Eq.trans (foldl_main ?_) ?_)
    | with_reducible refine Eq.trans State.writeResult_main ?_ | dsimp only | dsimp +zetaDelta only

@[simp] theorem State.trapNow_main {s : State} {gid : Nat} {sid : Nat} {g : Group} {sp : Split} {r : TrapReq} :
    (State.trapNow s gid sid g sp r).main = s.main := by
  unfold State.trapNow; (try dsimp only)
  repeat' first
    | with_reducible rfl | intro _ | split | (with_reducible refine Eq.trans (foldl_main ?_) ?_)
    | with_reducible refine Eq.trans (State.setGroup_main ..) ?_ | with_reducible refine Eq.trans State.enterTrap_main ?_ | dsimp only
    | dsimp +zetaDelta only

@[simp] theorem State.restartNow_main {s : State} {gid : Nat} {sid : Nat} {g : Group} {sp : Split} :
    (State.restartNow s gid sid g sp).main = s.main := by
  unfold State.restartNow; (try dsimp only)
  repeat' first
    | with_reducible rfl | intro _ | split | (with_reducible refine Eq.trans (foldl_main ?_) ?_)
    | with_reducible refine Eq.trans (State.setGroup_main ..) ?_ | dsimp only | dsimp +zetaDelta only

@[simp] theorem State.takeTrap_main {s : State} {gid : Nat} {sid : Nat} {r : TrapReq} :
    (State.takeTrap s gid sid r).main = s.main := by
  unfold State.takeTrap; (try dsimp only)
  repeat' first
    | with_reducible rfl | intro _ | split | (with_reducible refine Eq.trans (foldl_main ?_) ?_)
    | with_reducible refine Eq.trans State.flush_main ?_ | with_reducible refine Eq.trans State.restartNow_main ?_
    | with_reducible refine Eq.trans State.trapNow_main ?_ | dsimp only | dsimp +zetaDelta only

@[simp] theorem State.restart_main {s : State} {gid : Nat} {sid : Nat} :
    (State.restart s gid sid).main = s.main := by
  unfold State.restart; (try dsimp only)
  repeat' first
    | with_reducible rfl | intro _ | split | (with_reducible refine Eq.trans (foldl_main ?_) ?_)
    | with_reducible refine Eq.trans State.flush_main ?_ | with_reducible refine Eq.trans State.trapNow_main ?_
    | with_reducible refine Eq.trans State.restartNow_main ?_ | dsimp only | dsimp +zetaDelta only

@[simp] theorem State.quiet_main {s : State} {gid : Nat} {sid : Nat} :
    (State.quiet s gid sid).main = s.main := by
  unfold State.quiet; (try dsimp only)
  repeat' first
    | with_reducible rfl | intro _ | split | (with_reducible refine Eq.trans (foldl_main ?_) ?_)
    | with_reducible refine Eq.trans State.trapNow_main ?_ | with_reducible refine Eq.trans (State.setGroup_main ..) ?_ | dsimp only
    | dsimp +zetaDelta only

@[simp] theorem State.writeback_main {s : State} {gid : Nat} {k : Nat} :
    (State.writeback s gid k).main = s.main := by
  unfold State.writeback; (try dsimp only)
  repeat' first
    | with_reducible rfl | intro _ | split | (with_reducible refine Eq.trans (foldl_main ?_) ?_)
    | with_reducible refine Eq.trans State.quiet_main ?_ | with_reducible refine Eq.trans State.writeResult_main ?_ | dsimp only
    | dsimp +zetaDelta only

/-! ### Of Machine/Diverge.lean -/

@[simp] theorem State.takeReply_main {s : State} {x1 : Reply} :
    (State.takeReply s x1).main = s.main := by
  unfold State.takeReply; (try dsimp only)
  repeat' first
    | with_reducible rfl | intro _ | split | (with_reducible refine Eq.trans (foldl_main ?_) ?_)
    | with_reducible refine Eq.trans (State.modGroup_main ..) ?_ | with_reducible refine Eq.trans State.wmonReturn_main ?_
    | with_reducible refine Eq.trans (State.modSplit_main ..) ?_ | dsimp only | dsimp +zetaDelta only

/-! ### Of Machine/Evict.lean -/

@[simp] theorem State.stageWrite_main {s : State} {c : Nat} {lin : Nat} {bs : List Byte} :
    (State.stageWrite s c lin bs).main = s.main := by
  unfold State.stageWrite; (try dsimp only)
  repeat' first
    | with_reducible rfl | intro _ | split | (with_reducible refine Eq.trans (foldl_main ?_) ?_)
    | with_reducible refine Eq.trans State.sliceWrite_main ?_ | with_reducible refine Eq.trans State.wbDrainRange_main ?_ | dsimp only
    | dsimp +zetaDelta only

@[simp] theorem State.handlerClear_main {s : State} {g : Group} :
    (State.handlerClear s g).main = s.main := by
  unfold State.handlerClear; (try dsimp only)
  repeat' first
    | with_reducible rfl | intro _ | split | (with_reducible refine Eq.trans (foldl_main ?_) ?_)
    | with_reducible refine Eq.trans State.scalClear_main ?_ | with_reducible refine Eq.trans State.regClear_main ?_ | dsimp only
    | dsimp +zetaDelta only

@[simp] theorem State.startSave_main {s : State} {gid : Nat} :
    (State.startSave s gid).main = s.main := by
  unfold State.startSave; (try dsimp only)
  repeat' first
    | with_reducible rfl | intro _ | split | (with_reducible refine Eq.trans (foldl_main ?_) ?_)
    | with_reducible refine Eq.trans State.stageWrite_main ?_ | with_reducible refine Eq.trans (State.modBlock_main ..) ?_
    | with_reducible refine Eq.trans (State.setGroup_main ..) ?_ | with_reducible refine Eq.trans State.handlerClear_main ?_
    | with_reducible refine Eq.trans State.forgetGroup_main ?_ | with_reducible refine Eq.trans State.terminate_main ?_ | dsimp only
    | dsimp +zetaDelta only

@[simp] theorem State.sendWithdraw_main {s : State} {gid : Nat} {sid : Nat} :
    (State.sendWithdraw s gid sid).main = s.main := by
  unfold State.sendWithdraw; (try dsimp only)
  repeat' first
    | with_reducible rfl | intro _ | split | (with_reducible refine Eq.trans (foldl_main ?_) ?_)
    | with_reducible refine Eq.trans State.modSlice_main ?_ | dsimp only | dsimp +zetaDelta only

@[simp] theorem State.withdrawServe_main {s : State} {d : Nat} {k : Nat} {gid : Nat} {sid : Nat} :
    (State.withdrawServe s d k gid sid).main = s.main := by
  unfold State.withdrawServe; (try dsimp only)
  repeat' first
    | with_reducible rfl | intro _ | split | (with_reducible refine Eq.trans (foldl_main ?_) ?_)
    | with_reducible refine Eq.trans State.benchRemove_main ?_ | with_reducible refine Eq.trans (State.modSplit_main ..) ?_ | dsimp only
    | dsimp +zetaDelta only

@[simp] theorem State.returnHeld_main {s : State} {g : Group} :
    (State.returnHeld s g).main = s.main := by
  unfold State.returnHeld; (try dsimp only)
  repeat' first
    | with_reducible rfl | intro _ | split | (with_reducible refine Eq.trans (foldl_main ?_) ?_)
    | with_reducible refine Eq.trans State.returnFrames_main ?_ | dsimp only | dsimp +zetaDelta only

@[simp] theorem State.evictCheck_main {s : State} {gid : Nat} :
    (State.evictCheck s gid).main = s.main := by
  unfold State.evictCheck; (try dsimp only)
  repeat' first
    | with_reducible rfl | intro _ | split | (with_reducible refine Eq.trans (foldl_main ?_) ?_)
    | with_reducible refine Eq.trans State.quiet_main ?_ | with_reducible refine Eq.trans State.flush_main ?_
    | with_reducible refine Eq.trans (State.setGroup_main ..) ?_ | with_reducible refine Eq.trans State.sendWithdraw_main ?_
    | with_reducible refine Eq.trans State.returnHeld_main ?_ | with_reducible refine Eq.trans (State.modGroup_main ..) ?_
    | with_reducible refine Eq.trans State.startSave_main ?_ | dsimp only | dsimp +zetaDelta only

@[simp] theorem State.watchdogTraps_main {s : State} {gid : Nat} :
    (State.watchdogTraps s gid).main = s.main := by
  unfold State.watchdogTraps; (try dsimp only)
  repeat' first
    | with_reducible rfl | intro _ | split | (with_reducible refine Eq.trans (foldl_main ?_) ?_)
    | with_reducible refine Eq.trans State.takeTrap_main ?_ | with_reducible refine Eq.trans (State.modSplit_main ..) ?_ | dsimp only
    | dsimp +zetaDelta only

@[simp] theorem State.settle_main {s : State} {gid : Nat} : (State.settle s gid).main = s.main := by
  unfold State.settle
  extract_lets a b c
  have ha : a.main = s.main := State.modGroup_main ..
  have hb : b.main = s.main := by
    unfold b
    clear_value a
    repeat' first | with_reducible exact ha | split | with_reducible exact State.copiedClear_main.trans ha
  have hc : c.main = s.main := by
    unfold c
    clear_value b
    repeat' first | with_reducible exact hb | split | with_reducible refine State.evictCheck_main.trans ?_ | with_reducible refine State.watchdogTraps_main.trans ?_ | dsimp only
  clear_value c
  repeat' first
    | with_reducible exact hc | intro _ | split | with_reducible refine State.rollCheck_main.trans ?_
    | with_reducible refine (foldl_main ?_).trans ?_ | with_reducible rfl | with_reducible refine State.evictCheck_main.trans ?_
    | dsimp only

@[simp] theorem State.endRestore_main {s : State} {gid : Nat} {g : Group} {h : Handler} :
    (State.endRestore s gid g h).main = s.main := by
  unfold State.endRestore; (try dsimp only)
  repeat' first
    | with_reducible rfl | intro _ | split | (with_reducible refine Eq.trans (foldl_main ?_) ?_)
    | with_reducible refine Eq.trans (State.setCtx_main ..) ?_ | with_reducible refine Eq.trans (State.setGroup_main ..) ?_
    | with_reducible refine Eq.trans State.groupClear_main ?_ | with_reducible refine Eq.trans State.terminate_main ?_ | dsimp only
    | dsimp +zetaDelta only

/-! ### Of Machine/Operands.lean -/

@[simp] theorem State.vwrite_main {s : State} {i : Issue} {r : Nat} {vals : List (Nat × Word)} :
    (State.vwrite s i r vals).main = s.main := by
  unfold State.vwrite; (try dsimp only)
  repeat' first
    | with_reducible rfl | intro _ | split | (with_reducible refine Eq.trans (foldl_main ?_) ?_)
    | with_reducible refine Eq.trans State.keepReg_main ?_ | with_reducible refine Eq.trans (State.setGroup_main ..) ?_
    | with_reducible refine Eq.trans State.regClear_main ?_ | dsimp only | dsimp +zetaDelta only

@[simp] theorem State.vsendWith_main {s : State} {gid : Nat} {sid : Nat} {regs : List Nat} {m : Mask} {data : Sparse Word} {flags : BitVec 6} {sb : Option Nat} {checks : List Part} {pc : Word} :
    (State.vsendWith s gid sid regs m data flags sb checks pc).main = s.main := by
  unfold State.vsendWith; (try dsimp only)
  repeat' first
    | with_reducible rfl | intro _ | split | (with_reducible refine Eq.trans (foldl_main ?_) ?_)
    | with_reducible refine Eq.trans (State.modGroup_main ..) ?_ | with_reducible refine Eq.trans State.newId_main ?_
    | with_reducible refine snd_main (by assumption) ?_ | dsimp only | dsimp +zetaDelta only

@[simp] theorem State.vsend_main {s : State} {gid : Nat} {sid : Nat} {regs : List Nat} {m : Mask} {data : Sparse Word} {flags : BitVec 6} {sb : Option Nat} :
    (State.vsend s gid sid regs m data flags sb).main = s.main := by
  unfold State.vsend; (try dsimp only)
  repeat' first
    | with_reducible rfl | intro _ | split | (with_reducible refine Eq.trans (foldl_main ?_) ?_)
    | with_reducible refine Eq.trans State.vsendWith_main ?_ | dsimp only | dsimp +zetaDelta only

@[simp] theorem State.hold_main {s : State} {i : Issue} :
    (State.hold s i).main = s.main := by
  unfold State.hold; (try dsimp only)
  repeat' first
    | with_reducible rfl | intro _ | split | (with_reducible refine Eq.trans (foldl_main ?_) ?_)
    | with_reducible refine Eq.trans (State.modSplit_main ..) ?_ | dsimp only | dsimp +zetaDelta only

@[simp] theorem State.holdRoom_main {s : State} {i : Issue} :
    (State.holdRoom s i).main = s.main := by
  unfold State.holdRoom; (try dsimp only)
  repeat' first
    | with_reducible rfl | intro _ | split | (with_reducible refine Eq.trans (foldl_main ?_) ?_)
    | with_reducible refine Eq.trans (State.modSplit_main ..) ?_ | dsimp only | dsimp +zetaDelta only

@[simp] theorem State.trapAt_main {s : State} {i : Issue} {cause : Nat} {x : Word} :
    (State.trapAt s i cause x).main = s.main := by
  unfold State.trapAt; (try dsimp only)
  repeat' first
    | with_reducible rfl | intro _ | split | (with_reducible refine Eq.trans (foldl_main ?_) ?_)
    | with_reducible refine Eq.trans State.poisonLog_main ?_ | with_reducible refine Eq.trans State.settle_main ?_
    | with_reducible refine Eq.trans State.takeTrap_main ?_ | dsimp only | dsimp +zetaDelta only

@[simp] theorem State.trapLanes_main {s : State} {i : Issue} {cause : Nat} {m : Mask} {x : Word} :
    (State.trapLanes s i cause m x).main = s.main := by
  unfold State.trapLanes; (try dsimp only)
  repeat' first
    | with_reducible rfl | intro _ | split | (with_reducible refine Eq.trans (foldl_main ?_) ?_)
    | with_reducible refine Eq.trans State.poisonLog_main ?_ | with_reducible refine Eq.trans State.settle_main ?_
    | with_reducible refine Eq.trans State.takeTrap_main ?_ | dsimp only | dsimp +zetaDelta only

@[simp] theorem State.consumeMem_main {s : State} {i : Issue} {m : Mask} {u : Unit_} :
    (State.consumeMem s i m u).main = s.main := by
  unfold State.consumeMem; (try dsimp only)
  repeat' first
    | with_reducible rfl | intro _ | split | (with_reducible refine Eq.trans (foldl_main ?_) ?_)
    | with_reducible refine Eq.trans State.trapLanes_main ?_ | with_reducible refine Eq.trans State.parityLog_main ?_ | dsimp only
    | dsimp +zetaDelta only

@[simp] theorem State.consume_main {s : State} {i : Issue} {u : Unit_} :
    (State.consume s i u).main = s.main := by
  unfold State.consume; (try dsimp only)
  repeat' first
    | with_reducible rfl | intro _ | split | (with_reducible refine Eq.trans (foldl_main ?_) ?_)
    | with_reducible refine Eq.trans State.parityLog_main ?_ | with_reducible refine Eq.trans State.trapAt_main ?_
    | with_reducible refine Eq.trans State.settle_main ?_ | with_reducible refine Eq.trans State.restart_main ?_
    | with_reducible refine Eq.trans (State.modSplit_main ..) ?_ | dsimp only | dsimp +zetaDelta only

@[simp] theorem State.done_main {s : State} {i : Issue} :
    (State.done s i).main = s.main := by
  unfold State.done; (try dsimp only)
  repeat' first
    | with_reducible rfl | intro _ | split | (with_reducible refine Eq.trans (foldl_main ?_) ?_)
    | with_reducible refine Eq.trans State.settle_main ?_ | with_reducible refine Eq.trans (State.modSplit_main ..) ?_ | dsimp only
    | dsimp +zetaDelta only

theorem issue_main {n : Issue → Needs} {eff : State → Issue → State} {s : State} {i : Issue}
    (he : ∀ s i, (eff s i).main = s.main) : (issue n eff s i).main = s.main := by
  unfold issue; (try dsimp only)
  repeat' first
    | with_reducible rfl | with_reducible exact he _ _ | intro _ | split | with_reducible refine Eq.trans State.trapAt_main ?_
    | with_reducible refine Eq.trans State.hold_main ?_ | with_reducible refine Eq.trans State.consume_main ?_

@[simp] theorem State.putSplit_main {s : State} {i : Issue} {f : Split → Split} :
    (State.putSplit s i f).main = s.main := by
  unfold State.putSplit; (try dsimp only)
  repeat' first
    | with_reducible rfl | intro _ | split | (with_reducible refine Eq.trans (foldl_main ?_) ?_)
    | with_reducible refine Eq.trans State.settle_main ?_ | with_reducible refine Eq.trans (State.setGroup_main ..) ?_ | dsimp only
    | dsimp +zetaDelta only

@[simp] theorem State.putScalar_main {s : State} {i : Issue} {k : Nat} {v : Word} :
    (State.putScalar s i k v).main = s.main := by
  unfold State.putScalar; (try dsimp only)
  repeat' first
    | with_reducible rfl | intro _ | split | (with_reducible refine Eq.trans (foldl_main ?_) ?_)
    | with_reducible refine Eq.trans (State.setGroup_main ..) ?_ | with_reducible refine Eq.trans State.settle_main ?_
    | with_reducible refine Eq.trans State.scalClear_main ?_ | dsimp only | dsimp +zetaDelta only

@[simp] theorem scalarOp_main {ks : List Nat} {sd : Nat} {f : State → Issue → Word} {s : State} {i : Issue} :
    (scalarOp ks sd f s i).main = s.main := by
  unfold scalarOp; (try dsimp only)
  repeat' first
    | with_reducible rfl | intro _ | split | (with_reducible refine Eq.trans (foldl_main ?_) ?_)
    | with_reducible refine Eq.trans (issue_main ?_) ?_ | with_reducible refine Eq.trans State.putScalar_main ?_ | dsimp only
    | dsimp +zetaDelta only

@[simp] theorem vectorOp_main {n : Issue → Needs} {m : Issue → Mask} {vd : Nat} {f : State → Issue → Nat → Word} {s : State} {i : Issue} :
    (vectorOp n m vd f s i).main = s.main := by
  unfold vectorOp; (try dsimp only)
  repeat' first
    | with_reducible rfl | intro _ | split | (with_reducible refine Eq.trans (foldl_main ?_) ?_)
    | with_reducible refine Eq.trans (issue_main ?_) ?_ | with_reducible refine Eq.trans State.done_main ?_
    | with_reducible refine Eq.trans State.vwrite_main ?_ | dsimp only | dsimp +zetaDelta only

@[simp] theorem v3Op_main {o : V3} {f : Word → Word → Word} {s : State} {i : Issue} :
    (v3Op o f s i).main = s.main := by
  unfold v3Op; (try dsimp only)
  repeat' first
    | with_reducible rfl | intro _ | split | (with_reducible refine Eq.trans (foldl_main ?_) ?_)
    | with_reducible refine Eq.trans vectorOp_main ?_ | dsimp only | dsimp +zetaDelta only

@[simp] theorem v3UnaryOp_main {o : V3} {f : Word → Word} {s : State} {i : Issue} :
    (v3UnaryOp o f s i).main = s.main := by
  unfold v3UnaryOp; (try dsimp only)
  repeat' first
    | with_reducible rfl | intro _ | split | (with_reducible refine Eq.trans (foldl_main ?_) ?_)
    | with_reducible refine Eq.trans vectorOp_main ?_ | dsimp only | dsimp +zetaDelta only

@[simp] theorem State.pwrite_main {s : State} {gid : Nat} {p : Nat} {m : Mask} {f : Nat → Bool} :
    (State.pwrite s gid p m f).main = s.main := by
  unfold State.pwrite; (try dsimp only)
  repeat' first
    | with_reducible rfl | intro _ | split | (with_reducible refine Eq.trans (foldl_main ?_) ?_)
    | with_reducible refine Eq.trans (State.setGroup_main ..) ?_ | with_reducible refine Eq.trans State.predClear_main ?_ | dsimp only
    | dsimp +zetaDelta only

/-! ### Of Machine/Scalar.lean -/

@[simp] theorem srOp_main {o : SR} {f : Word → Word → Word} {s : State} {i : Issue} :
    (srOp o f s i).main = s.main := by
  unfold srOp; (try dsimp only)
  repeat' first
    | with_reducible rfl | intro _ | split | (with_reducible refine Eq.trans (foldl_main ?_) ?_)
    | with_reducible refine Eq.trans scalarOp_main ?_ | dsimp only | dsimp +zetaDelta only

@[simp] theorem srUnary_main {o : SR} {f : Word → Word} {s : State} {i : Issue} :
    (srUnary o f s i).main = s.main := by
  unfold srUnary; (try dsimp only)
  repeat' first
    | with_reducible rfl | intro _ | split | (with_reducible refine Eq.trans (foldl_main ?_) ?_)
    | with_reducible refine Eq.trans scalarOp_main ?_ | dsimp only | dsimp +zetaDelta only

@[simp] theorem siOp_main {o : SI} {f : Word → Word → Word} {s : State} {i : Issue} :
    (siOp o f s i).main = s.main := by
  unfold siOp; (try dsimp only)
  repeat' first
    | with_reducible rfl | intro _ | split | (with_reducible refine Eq.trans (foldl_main ?_) ?_)
    | with_reducible refine Eq.trans scalarOp_main ?_ | dsimp only | dsimp +zetaDelta only

@[simp] theorem siShift_main {o : SI} {f : Word → Word → Word} {s : State} {i : Issue} :
    (siShift o f s i).main = s.main := by
  unfold siShift; (try dsimp only)
  repeat' first
    | with_reducible rfl | intro _ | split | (with_reducible refine Eq.trans (foldl_main ?_) ?_)
    | with_reducible refine Eq.trans scalarOp_main ?_ | dsimp only | dsimp +zetaDelta only

@[simp] theorem cmpOp_main {k : Nat} {ks : List Nat} {f : Issue → CC} {s : State} {i : Issue} :
    (cmpOp k ks f s i).main = s.main := by
  unfold cmpOp; (try dsimp only)
  repeat' first
    | with_reducible rfl | intro _ | split | (with_reducible refine Eq.trans (foldl_main ?_) ?_)
    | with_reducible refine Eq.trans (issue_main ?_) ?_ | with_reducible refine Eq.trans State.putSplit_main ?_ | dsimp only
    | dsimp +zetaDelta only

@[simp] theorem swrEffect_main {o : YF} {t : State} {j : Issue} :
    (swrEffect o t j).main = t.main := by
  unfold swrEffect; (try dsimp only)
  repeat' first
    | with_reducible rfl | intro _ | split | (with_reducible refine Eq.trans (foldl_main ?_) ?_)
    | with_reducible refine Eq.trans State.putSplit_main ?_ | with_reducible refine Eq.trans State.trapAt_main ?_
    | with_reducible refine Eq.trans State.settle_main ?_ | with_reducible refine Eq.trans (State.setGroup_main ..) ?_ | dsimp only
    | dsimp +zetaDelta only

/-! ### Of Machine/VectorInt.lean -/

@[simp] theorem vint_main {t : IntTy} {o : V3} {f : Nat → Nat → Nat → Nat} {s : State} {i : Issue} :
    (vint t o f s i).main = s.main := by
  unfold vint; (try dsimp only)
  repeat' first
    | with_reducible rfl | intro _ | split | (with_reducible refine Eq.trans (foldl_main ?_) ?_)
    | with_reducible refine Eq.trans v3Op_main ?_ | dsimp only | dsimp +zetaDelta only

@[simp] theorem vint1_main {t : IntTy} {o : V3} {f : Nat → Nat → Nat → Nat} {s : State} {i : Issue} :
    (vint1 t o f s i).main = s.main := by
  unfold vint1; (try dsimp only)
  repeat' first
    | with_reducible rfl | intro _ | split | (with_reducible refine Eq.trans (foldl_main ?_) ?_)
    | with_reducible refine Eq.trans v3UnaryOp_main ?_ | dsimp only | dsimp +zetaDelta only

@[simp] theorem vimm_main {t : IntTy} {o : VI} {b : Nat} {f : Nat → Nat → Nat → Nat} {s : State} {i : Issue} :
    (vimm t o b f s i).main = s.main := by
  unfold vimm; (try dsimp only)
  repeat' first
    | with_reducible rfl | intro _ | split | (with_reducible refine Eq.trans (foldl_main ?_) ?_)
    | with_reducible refine Eq.trans vectorOp_main ?_ | dsimp only | dsimp +zetaDelta only

@[simp] theorem cmpPred_main {o : V3} {f : Word → Word → Bool} {s : State} {i : Issue} :
    (cmpPred o f s i).main = s.main := by
  unfold cmpPred; (try dsimp only)
  repeat' first
    | with_reducible rfl | intro _ | split | (with_reducible refine Eq.trans (foldl_main ?_) ?_)
    | with_reducible refine Eq.trans (issue_main ?_) ?_ | with_reducible refine Eq.trans State.done_main ?_
    | with_reducible refine Eq.trans State.pwrite_main ?_ | dsimp only | dsimp +zetaDelta only

@[simp] theorem predOp_main {o : V3} {ps : List Nat} {f : Bool → Bool → Bool} {s : State} {i : Issue} :
    (predOp o ps f s i).main = s.main := by
  unfold predOp; (try dsimp only)
  repeat' first
    | with_reducible rfl | intro _ | split | (with_reducible refine Eq.trans (foldl_main ?_) ?_)
    | with_reducible refine Eq.trans (issue_main ?_) ?_ | with_reducible refine Eq.trans State.done_main ?_
    | with_reducible refine Eq.trans State.pwrite_main ?_ | dsimp only | dsimp +zetaDelta only

/-! ### Of Machine/Range.lean -/

@[simp] theorem State.retryAt_main {s : State} {i : Issue} :
    (State.retryAt s i).main = s.main := by
  unfold State.retryAt; (try dsimp only)
  repeat' first
    | with_reducible rfl | intro _ | split | (with_reducible refine Eq.trans (foldl_main ?_) ?_)
    | with_reducible refine Eq.trans State.settle_main ?_ | with_reducible refine Eq.trans State.restart_main ?_
    | with_reducible refine Eq.trans (State.modSplit_main ..) ?_ | dsimp only | dsimp +zetaDelta only

@[simp] theorem State.deliverNow_main {s : State} {i : Issue} {ps : List Part} {f : Flags} :
    (State.deliverNow s i ps f).main = s.main := by
  unfold State.deliverNow; (try dsimp only)
  repeat' first
    | with_reducible rfl | intro _ | split | (with_reducible refine Eq.trans (foldl_main ?_) ?_)
    | with_reducible refine Eq.trans State.trapLanes_main ?_ | with_reducible refine Eq.trans State.retryAt_main ?_
    | with_reducible refine Eq.trans (State.modGroup_main ..) ?_ | with_reducible refine Eq.trans State.vwrite_main ?_
    | with_reducible refine Eq.trans State.done_main ?_ | with_reducible refine Eq.trans State.orGst_main ?_ | dsimp only
    | dsimp +zetaDelta only

@[simp] theorem State.deliverLate_main {s : State} {i : Issue} {m : Mask} {ps : List Part} {f : Flags} {sb : Option Nat} :
    (State.deliverLate s i m ps f sb).main = s.main := by
  unfold State.deliverLate; (try dsimp only)
  repeat' first
    | with_reducible rfl | intro _ | split | (with_reducible refine Eq.trans (foldl_main ?_) ?_)
    | with_reducible refine Eq.trans State.vsendWith_main ?_ | with_reducible refine Eq.trans (State.modSplit_main ..) ?_
    | with_reducible refine Eq.trans State.done_main ?_ | dsimp only | dsimp +zetaDelta only

@[simp] theorem State.deliver_main {s : State} {i : Issue} {m : Mask} {ps : List Part} {f : Flags} {late : Option (Option Nat)} :
    (State.deliver s i m ps f late).main = s.main := by
  unfold State.deliver; (try dsimp only)
  repeat' first
    | with_reducible rfl | intro _ | split | (with_reducible refine Eq.trans (foldl_main ?_) ?_)
    | with_reducible refine Eq.trans State.deliverNow_main ?_ | with_reducible refine Eq.trans State.deliverLate_main ?_ | dsimp only
    | dsimp +zetaDelta only

@[simp] theorem bdsetEffect_main {o : YF} {t : State} {j : Issue} :
    (bdsetEffect o t j).main = t.main := by
  unfold bdsetEffect; (try dsimp only)
  repeat' first
    | with_reducible rfl | intro _ | split | (with_reducible refine Eq.trans (foldl_main ?_) ?_)
    | with_reducible refine Eq.trans State.trapAt_main ?_ | with_reducible refine Eq.trans State.settle_main ?_
    | with_reducible refine Eq.trans (State.setGroup_main ..) ?_ | dsimp only | dsimp +zetaDelta only

/-! ### Of Machine/VectorFloat.lean -/

@[simp] theorem vfloat_main {ty : FloatTy} {o : V3} {n : Issue → Needs} {f : Fmt → Nat → Nat → Nat → Nat → Nat × Flags} {s : State} {i : Issue} :
    (vfloat ty o n f s i).main = s.main := by
  unfold vfloat; (try dsimp only)
  repeat' first
    | with_reducible rfl | intro _ | split | (with_reducible refine Eq.trans (foldl_main ?_) ?_)
    | with_reducible refine Eq.trans (issue_main ?_) ?_ | with_reducible refine Eq.trans State.deliver_main ?_ | dsimp only
    | dsimp +zetaDelta only

@[simp] theorem vsfu_main {k : Sfu} {o : XF} {s : State} {i : Issue} :
    (vsfu k o s i).main = s.main := by
  unfold vsfu; (try dsimp only)
  repeat' first
    | with_reducible rfl | intro _ | split | (with_reducible refine Eq.trans (foldl_main ?_) ?_)
    | with_reducible refine Eq.trans (issue_main ?_) ?_ | with_reducible refine Eq.trans State.deliver_main ?_ | dsimp only
    | dsimp +zetaDelta only

@[simp] theorem convertRun_main {o : XF} {srcs : List Nat} {dsts : List Nat} {n : Nat} {s : State} {i : Issue} :
    (convertRun o srcs dsts n s i).main = s.main := by
  unfold convertRun; (try dsimp only)
  repeat' first
    | with_reducible rfl | intro _ | split | (with_reducible refine Eq.trans (foldl_main ?_) ?_)
    | with_reducible refine Eq.trans (issue_main ?_) ?_ | with_reducible refine Eq.trans State.deliver_main ?_ | dsimp only
    | dsimp +zetaDelta only

@[simp] theorem dotOp_main {o : XF} {f : Issue → Nat → List (Nat × Nat) → Nat × Flags} {w : Nat} {checked : Bool} {s : State} {i : Issue} :
    (dotOp o f w checked s i).main = s.main := by
  unfold dotOp; (try dsimp only)
  repeat' first
    | with_reducible rfl | intro _ | split | (with_reducible refine Eq.trans (foldl_main ?_) ?_)
    | with_reducible refine Eq.trans (issue_main ?_) ?_ | with_reducible refine Eq.trans State.deliver_main ?_ | dsimp only
    | dsimp +zetaDelta only

@[simp] theorem tmvEffect_main {o : XF} {t : State} {j : Issue} :
    (tmvEffect o t j).main = t.main := by
  unfold tmvEffect; (try dsimp only)
  repeat' first
    | with_reducible rfl | intro _ | split | (with_reducible refine Eq.trans (foldl_main ?_) ?_)
    | with_reducible refine Eq.trans State.trapAt_main ?_ | with_reducible refine Eq.trans State.trapLanes_main ?_
    | with_reducible refine Eq.trans State.parityLog_main ?_ | with_reducible refine Eq.trans State.deliver_main ?_ | dsimp only
    | dsimp +zetaDelta only

@[simp] theorem redOp_main {o : XF} {pick : (Nat → Nat → Nat × Flags) → (Nat → Node_) → Nat → Node_} {s : State} {i : Issue} :
    (redOp o pick s i).main = s.main := by
  unfold redOp; (try dsimp only)
  repeat' first
    | with_reducible rfl | intro _ | split | (with_reducible refine Eq.trans (foldl_main ?_) ?_)
    | with_reducible refine Eq.trans (issue_main ?_) ?_ | with_reducible refine Eq.trans State.deliver_main ?_ | dsimp only
    | dsimp +zetaDelta only

/-! ### Of Machine/Memory.lean -/

@[simp] theorem State.promote_main {s : State} {die : Nat} {scope : Nat} :
    (State.promote s die scope).main = s.main := by
  unfold State.promote; (try dsimp only)
  repeat' first
    | with_reducible rfl | intro _ | split | (with_reducible refine Eq.trans (foldl_main ?_) ?_)
    | with_reducible refine Eq.trans State.wbDrainAll_main ?_ | dsimp only | dsimp +zetaDelta only

@[simp] theorem State.ordered_main {s : State} {i : Issue} {order : Nat} {scope : Nat} {rmt : Bool} :
    (State.ordered s i order scope rmt).main = s.main := by
  unfold State.ordered; (try dsimp only)
  repeat' first
    | with_reducible rfl | intro _ | split | (with_reducible refine Eq.trans (foldl_main ?_) ?_)
    | with_reducible refine Eq.trans State.wbDrainAll_main ?_ | with_reducible refine Eq.trans State.promote_main ?_ | dsimp only
    | dsimp +zetaDelta only

@[simp] theorem loadEffect_main {sp : Space} {o : MF} {t : State} {j : Issue} :
    (loadEffect sp o t j).main = t.main := by
  unfold loadEffect; (try dsimp only)
  repeat' first
    | with_reducible rfl | intro _ | split | (with_reducible refine Eq.trans (foldl_main ?_) ?_)
    | with_reducible refine Eq.trans State.trapLanes_main ?_ | with_reducible refine Eq.trans State.consumeMem_main ?_
    | with_reducible refine Eq.trans State.hold_main ?_ | with_reducible refine Eq.trans State.ordered_main ?_
    | with_reducible refine Eq.trans State.done_main ?_ | with_reducible refine Eq.trans State.vsend_main ?_ | dsimp only
    | dsimp +zetaDelta only

@[simp] theorem State.storeLanes_main {s : State} {j : Issue} {sp : Space} {ws : List (Nat × List Byte)} :
    (State.storeLanes s j sp ws).main = s.main := by
  unfold State.storeLanes; (try dsimp only)
  repeat' first
    | with_reducible rfl | intro _ | split | (with_reducible refine Eq.trans (foldl_main ?_) ?_)
    | with_reducible refine Eq.trans State.wbPut_main ?_ | with_reducible refine Eq.trans State.shmStore_main ?_ | dsimp only
    | dsimp +zetaDelta only

@[simp] theorem storeEffect_main {sp : Space} {o : MF} {t : State} {j : Issue} :
    (storeEffect sp o t j).main = t.main := by
  unfold storeEffect; (try dsimp only)
  repeat' first
    | with_reducible rfl | intro _ | split | (with_reducible refine Eq.trans (foldl_main ?_) ?_)
    | with_reducible refine Eq.trans State.trapLanes_main ?_ | with_reducible refine Eq.trans State.hold_main ?_
    | with_reducible refine Eq.trans State.ordered_main ?_ | with_reducible refine Eq.trans State.done_main ?_
    | with_reducible refine Eq.trans State.storeLanes_main ?_ | dsimp only | dsimp +zetaDelta only

@[simp] theorem vspillEffect_main {o : MF} {t : State} {j : Issue} :
    (vspillEffect o t j).main = t.main := by
  unfold vspillEffect; (try dsimp only)
  repeat' first
    | with_reducible rfl | intro _ | split | (with_reducible refine Eq.trans (foldl_main ?_) ?_)
    | with_reducible refine Eq.trans State.trapAt_main ?_ | with_reducible refine Eq.trans State.done_main ?_
    | with_reducible refine Eq.trans State.spillClear_main ?_ | with_reducible refine Eq.trans (State.setGroup_main ..) ?_ | dsimp only
    | dsimp +zetaDelta only

@[simp] theorem vfillEffect_main {o : MF} {t : State} {j : Issue} :
    (vfillEffect o t j).main = t.main := by
  unfold vfillEffect; (try dsimp only)
  repeat' first
    | with_reducible rfl | intro _ | split | (with_reducible refine Eq.trans (foldl_main ?_) ?_)
    | with_reducible refine Eq.trans State.trapAt_main ?_ | with_reducible refine Eq.trans State.consumeMem_main ?_
    | with_reducible refine Eq.trans State.done_main ?_ | with_reducible refine Eq.trans State.vsend_main ?_ | dsimp only
    | dsimp +zetaDelta only

@[simp] theorem State.elementEnd_main {s : State} {j : Issue} {sp : Space} {bad : List (Nat × Int × Fail)} :
    (State.elementEnd s j sp bad).main = s.main := by
  unfold State.elementEnd; (try dsimp only)
  repeat' first
    | with_reducible rfl | intro _ | split | (with_reducible refine Eq.trans (foldl_main ?_) ?_)
    | with_reducible refine Eq.trans State.done_main ?_ | with_reducible refine Eq.trans State.trapLanes_main ?_ | dsimp only
    | dsimp +zetaDelta only

@[simp] theorem vgthEffect_main {o : MF} {t : State} {j : Issue} :
    (vgthEffect o t j).main = t.main := by
  unfold vgthEffect; (try dsimp only)
  repeat' first
    | with_reducible rfl | intro _ | split | (with_reducible refine Eq.trans (foldl_main ?_) ?_)
    | with_reducible refine Eq.trans State.consumeMem_main ?_ | with_reducible refine Eq.trans State.hold_main ?_
    | with_reducible refine Eq.trans State.elementEnd_main ?_ | with_reducible refine Eq.trans State.vsend_main ?_ | dsimp only
    | dsimp +zetaDelta only

@[simp] theorem vsctEffect_main {o : MF} {t : State} {j : Issue} :
    (vsctEffect o t j).main = t.main := by
  unfold vsctEffect; (try dsimp only)
  repeat' first
    | with_reducible rfl | intro _ | split | (with_reducible refine Eq.trans (foldl_main ?_) ?_)
    | with_reducible refine Eq.trans State.hold_main ?_ | with_reducible refine Eq.trans State.elementEnd_main ?_
    | with_reducible refine Eq.trans State.storeLanes_main ?_ | dsimp only | dsimp +zetaDelta only

/-! ### Of Machine/Atomic.lean -/

@[simp] theorem State.shmAtomic_main {s : State} {bid : Nat} {op : AtomOp} {es : List Elem} :
    (State.shmAtomic s bid op es).1.main = s.main := by
  unfold State.shmAtomic; (try dsimp only)
  repeat' first
    | with_reducible rfl | intro _ | split | (with_reducible refine Eq.trans (foldl_main ?_) ?_)
    | with_reducible refine Eq.trans State.shmStore_main ?_ | dsimp only | dsimp +zetaDelta only

@[simp] theorem State.spdAtomic_main {s : State} {d : Nat} {op : AtomOp} {es : List Elem} :
    (State.spdAtomic s d op es).1.main = s.main := by
  unfold State.spdAtomic; (try dsimp only)
  repeat' first
    | with_reducible rfl | intro _ | split | (with_reducible refine Eq.trans (foldl_main ?_) ?_)
    | with_reducible refine Eq.trans State.sliceWrite_main ?_ | dsimp only | dsimp +zetaDelta only

theorem State.memAtomic_wf {s : State} {op : AtomOp} {es : List Elem} (hw : s.main.wf = true) :
    (State.memAtomic s op es).1.main.wf = true := by
  unfold State.memAtomic; (try dsimp only)
  repeat' first
    | with_reducible exact hw | with_reducible assumption | intro _ | split | with_reducible apply foldl_wf
    | with_reducible apply State.writePa_wf | dsimp only | dsimp +zetaDelta only

@[simp] theorem State.awaitReply_main {s : State} {j : Issue} {o : MF} {m : Mask} {need : Nat} :
    (State.awaitReply s j o m need).1.main = s.main := by
  unfold State.awaitReply; (try dsimp only)
  repeat' first
    | with_reducible rfl | intro _ | split | (with_reducible refine Eq.trans (foldl_main ?_) ?_)
    | with_reducible refine Eq.trans State.newId_main ?_ | with_reducible refine Eq.trans (State.modGroup_main ..) ?_
    | with_reducible refine snd_main (by assumption) ?_ | dsimp only | dsimp +zetaDelta only

@[simp] theorem State.acquireWait_main {s : State} {j : Issue} {o : MF} {m : Mask} :
    (State.acquireWait s j o m).main = s.main := by
  unfold State.acquireWait; (try dsimp only)
  repeat' first
    | with_reducible rfl | intro _ | split | (with_reducible refine Eq.trans (foldl_main ?_) ?_)
    | with_reducible refine Eq.trans (State.modSplit_main ..) ?_ | dsimp only | dsimp +zetaDelta only

@[simp] theorem atomShm_main {o : MF} {op : AtomOp} {ls : List (Nat × Word × Word × Word)} {t : State} {j : Issue} :
    (atomShm o op ls t j).main = t.main := by
  unfold atomShm; (try dsimp only)
  repeat' first
    | with_reducible rfl | intro _ | split | (with_reducible refine Eq.trans (foldl_main ?_) ?_)
    | with_reducible refine Eq.trans State.trapLanes_main ?_ | with_reducible refine Eq.trans State.consumeMem_main ?_
    | with_reducible refine Eq.trans State.ordered_main ?_ | with_reducible refine Eq.trans State.shmAtomic_main ?_
    | with_reducible refine Eq.trans State.done_main ?_ | with_reducible refine Eq.trans State.awaitReply_main ?_
    | with_reducible refine Eq.trans (State.modGroup_main ..) ?_ | with_reducible refine fst_main (by assumption) ?_ | dsimp only
    | dsimp +zetaDelta only

@[simp] theorem atomSpd_main {o : MF} {op : AtomOp} {ls : List (Nat × Word × Word × Word)} {t : State} {j : Issue} :
    (atomSpd o op ls t j).main = t.main := by
  unfold atomSpd; (try dsimp only)
  repeat' first
    | with_reducible rfl | intro _ | split | (with_reducible refine Eq.trans (foldl_main ?_) ?_)
    | with_reducible refine Eq.trans State.trapLanes_main ?_ | with_reducible refine Eq.trans State.consumeMem_main ?_
    | with_reducible refine Eq.trans State.ordered_main ?_ | with_reducible refine Eq.trans State.wbDrainLine_main ?_
    | with_reducible refine Eq.trans State.awaitReply_main ?_ | with_reducible refine Eq.trans State.acquireWait_main ?_
    | with_reducible refine Eq.trans State.done_main ?_ | with_reducible refine Eq.trans State.modSlice_main ?_
    | with_reducible refine fst_main (by assumption) ?_ | dsimp only | dsimp +zetaDelta only

@[simp] theorem State.memSendAt_main {s : State} {stamp : Nat} {route : Route} {pa : Nat} {va : Nat} {op : MemOp} {core : Nat} {ctx : Nat} {cls : Nat} {leaves : List (Nat × Nat)} :
    (State.memSendAt s stamp route pa va op core ctx cls leaves).main = s.main := by
  unfold State.memSendAt; (try dsimp only)
  repeat' first
    | with_reducible rfl | intro _ | split | (with_reducible refine Eq.trans (foldl_main ?_) ?_)
    | with_reducible refine Eq.trans State.newId_main ?_ | with_reducible refine Eq.trans (State.setMig_main ..) ?_
    | with_reducible refine snd_main (by assumption) ?_ | dsimp only | dsimp +zetaDelta only

@[simp] theorem State.memSend_main {s : State} {route : Route} {pa : Nat} {va : Nat} {op : MemOp} {core : Nat} {ctx : Nat} {cls : Nat} {leaves : List (Nat × Nat)} :
    (State.memSend s route pa va op core ctx cls leaves).main = s.main := by
  unfold State.memSend; (try dsimp only)
  repeat' first
    | with_reducible rfl | intro _ | split | (with_reducible refine Eq.trans (foldl_main ?_) ?_)
    | with_reducible refine Eq.trans State.memSendAt_main ?_ | dsimp only | dsimp +zetaDelta only

@[simp] theorem atomMem_main {o : MF} {op : AtomOp} {ls : List (Nat × Word × Word × Word)} {t : State} {j : Issue} :
    (atomMem o op ls t j).main = t.main := by
  unfold atomMem; (try dsimp only)
  repeat' first
    | with_reducible rfl | intro _ | split | (with_reducible refine Eq.trans (foldl_main ?_) ?_)
    | with_reducible refine Eq.trans State.trapLanes_main ?_ | with_reducible refine Eq.trans State.hold_main ?_
    | with_reducible refine Eq.trans State.keep_main ?_ | with_reducible refine Eq.trans State.ordered_main ?_
    | with_reducible refine Eq.trans State.awaitReply_main ?_ | with_reducible refine Eq.trans State.acquireWait_main ?_
    | with_reducible refine Eq.trans State.done_main ?_ | with_reducible refine Eq.trans State.memSend_main ?_
    | with_reducible refine fst_main (by assumption) ?_ | dsimp only | dsimp +zetaDelta only

@[simp] theorem atomEffect_main {o : MF} {op : AtomOp} {t : State} {j : Issue} :
    (atomEffect o op t j).main = t.main := by
  unfold atomEffect; (try dsimp only)
  repeat' first
    | with_reducible rfl | intro _ | split | (with_reducible refine Eq.trans (foldl_main ?_) ?_)
    | with_reducible refine Eq.trans State.hold_main ?_ | with_reducible refine Eq.trans atomShm_main ?_
    | with_reducible refine Eq.trans atomSpd_main ?_ | with_reducible refine Eq.trans atomMem_main ?_ | dsimp only | dsimp +zetaDelta only

/-! ### Of Machine/Barrier.lean -/

@[simp] theorem State.watchStart_main {s : State} {bid : Nat} {o : Nat} :
    (State.watchStart s bid o).main = s.main := by
  unfold State.watchStart; (try dsimp only)
  repeat' first
    | with_reducible rfl | intro _ | split | (with_reducible refine Eq.trans (foldl_main ?_) ?_)
    | with_reducible refine Eq.trans (State.modCore_main ..) ?_ | dsimp only | dsimp +zetaDelta only

@[simp] theorem State.watchEnd_main {s : State} {bid : Nat} {o : Nat} :
    (State.watchEnd s bid o).main = s.main := by
  unfold State.watchEnd; (try dsimp only)
  repeat' first
    | with_reducible rfl | intro _ | split | (with_reducible refine Eq.trans (foldl_main ?_) ?_)
    | with_reducible refine Eq.trans (State.modCore_main ..) ?_ | dsimp only | dsimp +zetaDelta only

@[simp] theorem State.barWake_main {s : State} {bid : Nat} {o : Nat} :
    (State.barWake s bid o).main = s.main := by
  unfold State.barWake; (try dsimp only)
  repeat' first
    | with_reducible rfl | intro _ | split | (with_reducible refine Eq.trans (foldl_main ?_) ?_)
    | with_reducible refine Eq.trans State.wake_main ?_ | dsimp only | dsimp +zetaDelta only

@[simp] theorem State.checkpointTake_main {s : State} {bid : Nat} :
    (State.checkpointTake s bid).main = s.main := by
  unfold State.checkpointTake; (try dsimp only)
  repeat' first
    | with_reducible rfl | intro _ | split | (with_reducible refine Eq.trans (foldl_main ?_) ?_)
    | with_reducible refine Eq.trans (State.setBlock_main ..) ?_ | dsimp only | dsimp +zetaDelta only

theorem State.arriveAt_main {s : State} {bid : Nat} {o : Nat} {slot : Option Nat} {out : State} {z : Bool} (e : State.arriveAt s bid o slot = some (out, z)) :
    out.main = s.main := by
  unfold State.arriveAt at e; (try dsimp only at e)
  repeat' split at e
  all_goals first | (cases e; done) | (cases e; repeat' first | with_reducible rfl | intro _ | split | (with_reducible refine Eq.trans (foldl_main ?_) ?_) | with_reducible refine Eq.trans State.watchStart_main ?_ | with_reducible refine Eq.trans State.shmStore_main ?_ | with_reducible refine Eq.trans State.barWake_main ?_ | with_reducible refine Eq.trans State.watchEnd_main ?_ | dsimp only | dsimp +zetaDelta only; done) | (repeat' first | with_reducible rfl | intro _ | split | (with_reducible refine Eq.trans (foldl_main ?_) ?_) | with_reducible refine Eq.trans State.watchStart_main ?_ | with_reducible refine Eq.trans State.shmStore_main ?_ | with_reducible refine Eq.trans State.barWake_main ?_ | with_reducible refine Eq.trans State.watchEnd_main ?_ | dsimp only | dsimp +zetaDelta only)

@[simp] theorem State.checkpointCheck_main {s : State} {bid : Nat} {all : Bool} :
    (State.checkpointCheck s bid all).main = s.main := by
  unfold State.checkpointCheck; (try dsimp only)
  repeat' first
    | with_reducible rfl | intro _ | split | (with_reducible refine Eq.trans (foldl_main ?_) ?_)
    | with_reducible refine Eq.trans State.checkpointTake_main ?_ | dsimp only | dsimp +zetaDelta only

@[simp] theorem State.barWait_main {s : State} {j : Issue} {o : Nat} {phase : Nat} {watched : Bool} {bar : Bool} :
    (State.barWait s j o phase watched bar).main = s.main := by
  unfold State.barWait; (try dsimp only)
  repeat' first
    | with_reducible rfl | intro _ | split | (with_reducible refine Eq.trans (foldl_main ?_) ?_)
    | with_reducible refine Eq.trans State.settle_main ?_ | with_reducible refine Eq.trans (State.modSplit_main ..) ?_ | dsimp only
    | dsimp +zetaDelta only

@[simp] theorem barFirst_main {k : Nat} {o : MF} {t : State} {j : Issue} :
    (barFirst k o t j).main = t.main := by
  unfold barFirst; (try dsimp only)
  repeat' first
    | with_reducible rfl | intro _ | split | (with_reducible refine Eq.trans (foldl_main ?_) ?_)
    | with_reducible refine Eq.trans State.trapAt_main ?_ | with_reducible refine Eq.trans State.consumeMem_main ?_
    | with_reducible refine Eq.trans State.barWait_main ?_ | with_reducible refine Eq.trans State.hold_main ?_
    | with_reducible refine Eq.trans (State.modSplit_main ..) ?_ | with_reducible refine Eq.trans (State.arriveAt_main (by assumption)) ?_
    | with_reducible refine Eq.trans State.checkpointCheck_main ?_ | with_reducible refine Eq.trans State.settle_main ?_
    | with_reducible refine Eq.trans State.done_main ?_ | dsimp only | dsimp +zetaDelta only

@[simp] theorem barAgain_main {off : Nat} {phase : Nat} {watched : Bool} {bar : Bool} {t : State} {j : Issue} :
    (barAgain off phase watched bar t j).main = t.main := by
  unfold barAgain; (try dsimp only)
  repeat' first
    | with_reducible rfl | intro _ | split | (with_reducible refine Eq.trans (foldl_main ?_) ?_)
    | with_reducible refine Eq.trans State.consumeMem_main ?_ | with_reducible refine Eq.trans State.barWait_main ?_
    | with_reducible refine Eq.trans State.done_main ?_ | dsimp only | dsimp +zetaDelta only

@[simp] theorem barrier_main {k : Nat} {o : MF} {t : State} {j : Issue} :
    (barrier k o t j).main = t.main := by
  unfold barrier; (try dsimp only)
  repeat' first
    | with_reducible rfl | intro _ | split | (with_reducible refine Eq.trans (foldl_main ?_) ?_)
    | with_reducible refine Eq.trans barAgain_main ?_ | with_reducible refine Eq.trans (issue_main ?_) ?_
    | with_reducible refine Eq.trans barFirst_main ?_ | dsimp only | dsimp +zetaDelta only

@[simp] theorem State.wmonDone_main {s : State} {j : Issue} {sd : Nat} {ret : Nat} :
    (State.wmonDone s j sd ret).main = s.main := by
  unfold State.wmonDone; (try dsimp only)
  repeat' first
    | with_reducible rfl | intro _ | split | (with_reducible refine Eq.trans (foldl_main ?_) ?_)
    | with_reducible refine Eq.trans State.putScalar_main ?_ | dsimp only | dsimp +zetaDelta only

@[simp] theorem wmonFirst_main {o : YF} {t : State} {j : Issue} :
    (wmonFirst o t j).main = t.main := by
  unfold wmonFirst; (try dsimp only)
  repeat' first
    | with_reducible rfl | intro _ | split | (with_reducible refine Eq.trans (foldl_main ?_) ?_)
    | with_reducible refine Eq.trans State.trapAt_main ?_ | with_reducible refine Eq.trans State.consumeMem_main ?_
    | with_reducible refine Eq.trans State.wmonDone_main ?_ | with_reducible refine Eq.trans State.settle_main ?_
    | with_reducible refine Eq.trans (State.modSplit_main ..) ?_ | with_reducible refine Eq.trans (State.modCore_main ..) ?_
    | with_reducible refine Eq.trans State.wbDrainLine_main ?_ | with_reducible refine Eq.trans State.modSlice_main ?_ | dsimp only
    | dsimp +zetaDelta only

@[simp] theorem wmonEffect_main {o : YF} {t : State} {j : Issue} :
    (wmonEffect o t j).main = t.main := by
  unfold wmonEffect; (try dsimp only)
  repeat' first
    | with_reducible rfl | intro _ | split | (with_reducible refine Eq.trans (foldl_main ?_) ?_)
    | with_reducible refine Eq.trans State.wmonDone_main ?_ | with_reducible refine Eq.trans (issue_main ?_) ?_
    | with_reducible refine Eq.trans wmonFirst_main ?_ | dsimp only | dsimp +zetaDelta only

@[simp] theorem State.wmonServe_main {s : State} {d : Nat} {k : Nat} {gid : Nat} {sid : Nat} {addr : Nat} {size : Nat} {expect : Word} :
    (State.wmonServe s d k gid sid addr size expect).main = s.main := by
  unfold State.wmonServe; (try dsimp only)
  repeat' first
    | with_reducible rfl | intro _ | split | (with_reducible refine Eq.trans (foldl_main ?_) ?_)
    | with_reducible refine Eq.trans State.settle_main ?_ | with_reducible refine Eq.trans State.takeTrap_main ?_
    | with_reducible refine Eq.trans (State.modSplit_main ..) ?_ | with_reducible refine Eq.trans State.parityLog_main ?_
    | with_reducible refine Eq.trans State.replyTo_main ?_ | with_reducible refine Eq.trans State.modSlice_main ?_ | dsimp only
    | dsimp +zetaDelta only

@[simp] theorem fenceEffect_main {o : MF} {t : State} {j : Issue} :
    (fenceEffect o t j).main = t.main := by
  unfold fenceEffect; (try dsimp only)
  repeat' first
    | with_reducible rfl | intro _ | split | (with_reducible refine Eq.trans (foldl_main ?_) ?_)
    | with_reducible refine Eq.trans State.hold_main ?_ | with_reducible refine Eq.trans State.done_main ?_
    | with_reducible refine Eq.trans State.wbDrainAll_main ?_ | dsimp only | dsimp +zetaDelta only

@[simp] theorem fenceOpEffect_main {t : State} {j : Issue} :
    (fenceOpEffect t j).main = t.main := by
  unfold fenceOpEffect; (try dsimp only)
  repeat' first
    | with_reducible rfl | intro _ | split | (with_reducible refine Eq.trans (foldl_main ?_) ?_)
    | with_reducible refine Eq.trans State.hold_main ?_ | with_reducible refine Eq.trans State.done_main ?_
    | with_reducible refine Eq.trans (State.modGroup_main ..) ?_ | dsimp only | dsimp +zetaDelta only

/-! ### Of Machine/Copy.lean -/

@[simp] theorem State.copyQueue_main {s : State} {gid : Nat} {sid : Nat} {g : Group} {reduce : Bool} {code : Nat} {dst : Word} {src : Word} {len : Word} {bar : Word} {batch : Nat} :
    (State.copyQueue s gid sid g reduce code dst src len bar batch).main = s.main := by
  unfold State.copyQueue; (try dsimp only)
  repeat' first
    | with_reducible rfl | intro _ | split | (with_reducible refine Eq.trans (foldl_main ?_) ?_)
    | with_reducible refine Eq.trans State.newId_main ?_ | with_reducible refine Eq.trans (State.modGroup_main ..) ?_
    | with_reducible refine snd_main (by assumption) ?_ | dsimp only | dsimp +zetaDelta only

@[simp] theorem copyEffect_main {reduce : Bool} {o : YF} {t : State} {j : Issue} :
    (copyEffect reduce o t j).main = t.main := by
  unfold copyEffect; (try dsimp only)
  repeat' first
    | with_reducible rfl | intro _ | split | (with_reducible refine Eq.trans (foldl_main ?_) ?_)
    | with_reducible refine Eq.trans State.trapAt_main ?_ | with_reducible refine Eq.trans State.hold_main ?_
    | with_reducible refine Eq.trans State.done_main ?_ | with_reducible refine Eq.trans State.copyQueue_main ?_ | dsimp only
    | dsimp +zetaDelta only

@[simp] theorem State.opErr_main {s : State} {gid : Nat} {cls : Nat} {id : Nat} {cause : Nat} {x : Word} :
    (State.opErr s gid cls id cause x).main = s.main := by
  unfold State.opErr; (try dsimp only)
  repeat' first
    | with_reducible rfl | intro _ | split | (with_reducible refine Eq.trans (foldl_main ?_) ?_)
    | with_reducible refine Eq.trans State.poisonLog_main ?_ | with_reducible refine Eq.trans (State.modGroup_main ..) ?_ | dsimp only
    | dsimp +zetaDelta only

@[simp] theorem State.copyErr_main {s : State} {c : CopyOp} {e : XErr} :
    (State.copyErr s c e).main = s.main := by
  unfold State.copyErr; (try dsimp only)
  repeat' first
    | with_reducible rfl | intro _ | split | (with_reducible refine Eq.trans (foldl_main ?_) ?_)
    | with_reducible refine Eq.trans State.opErr_main ?_ | dsimp only | dsimp +zetaDelta only

@[simp] theorem State.modCopy_main {s : State} {id : Nat} {f : CopyOp → CopyOp} :
    (State.modCopy s id f).main = s.main := by
  unfold State.modCopy; (try dsimp only)
  repeat' first | with_reducible rfl | intro _ | split | (with_reducible refine Eq.trans (foldl_main ?_) ?_) | dsimp only | dsimp +zetaDelta only

@[simp] theorem State.copyLine'_main {s : State} {id : Nat} {cause : Nat} {va : Nat} {n : Nat} :
    (State.copyLine' s id cause va n).main = s.main := by
  unfold State.copyLine'; (try dsimp only)
  repeat' first
    | with_reducible rfl | intro _ | split | (with_reducible refine Eq.trans (foldl_main ?_) ?_)
    | with_reducible refine Eq.trans State.modCopy_main ?_ | dsimp only | dsimp +zetaDelta only

@[simp] theorem State.markBad_main {s : State} {kind : Nat} {core : Nat} {holder : Nat} {unit : Nat} {lo : Nat} {bad : List Nat} :
    (State.markBad s kind core holder unit lo bad).main = s.main := by
  unfold State.markBad; (try dsimp only)
  repeat' first
    | with_reducible rfl | intro _ | split | (with_reducible refine Eq.trans (foldl_main ?_) ?_)
    | with_reducible refine Eq.trans State.parityMark_main ?_ | dsimp only | dsimp +zetaDelta only

@[simp] theorem State.copySlotWrite_main {s : State} {c : CopyOp} {slot : Nat} {a : Nat} {d : List CopyByte} :
    (State.copySlotWrite s c slot a d).main = s.main := by
  unfold State.copySlotWrite; (try dsimp only)
  repeat' first
    | with_reducible rfl | intro _ | split | (with_reducible refine Eq.trans (foldl_main ?_) ?_)
    | with_reducible refine Eq.trans (State.modGroup_main ..) ?_ | with_reducible refine Eq.trans State.slotWrite_main ?_
    | with_reducible refine Eq.trans State.slotKeep_main ?_ | with_reducible refine Eq.trans State.markBad_main ?_
    | with_reducible refine Eq.trans State.copyErr_main ?_ | dsimp only | dsimp +zetaDelta only

@[simp] theorem State.poisonBad_main {s : State} {pa : Nat} {bad : List Nat} :
    (State.poisonBad s pa bad).main = s.main := by
  unfold State.poisonBad; (try dsimp only)
  repeat' first
    | with_reducible rfl | intro _ | split | (with_reducible refine Eq.trans (foldl_main ?_) ?_)
    | with_reducible refine Eq.trans State.poisonPa_main ?_ | dsimp only | dsimp +zetaDelta only

theorem State.memPut_wf {s : State} {pa : Nat} {bs : List Byte} {bad : List Nat} (hw : s.main.wf = true) :
    (State.memPut s pa bs bad).main.wf = true := by
  unfold State.memPut; (try dsimp only)
  repeat' first
    | with_reducible exact hw | with_reducible assumption | intro _ | split | with_reducible apply foldl_wf
    | with_reducible refine main_wf State.poisonBad_main ?_ | with_reducible apply State.writePa_wf | dsimp only | dsimp +zetaDelta only

@[simp] theorem State.reduceElems_main {s : State} {c : CopyOp} {es : List Elem} :
    (State.reduceElems s c es).main = s.main := by
  unfold State.reduceElems; (try dsimp only)
  repeat' first
    | with_reducible rfl | intro _ | split | (with_reducible refine Eq.trans (foldl_main ?_) ?_)
    | with_reducible refine Eq.trans State.copyErr_main ?_ | with_reducible refine Eq.trans State.parityLog_main ?_
    | with_reducible refine Eq.trans State.shmAtomic_main ?_ | with_reducible refine fst_main (by assumption) ?_ | dsimp only
    | dsimp +zetaDelta only

@[simp] theorem State.copyMore_main {s : State} {id : Nat} :
    (State.copyMore s id).main = s.main := by
  unfold State.copyMore; (try dsimp only)
  repeat' first
    | with_reducible rfl | intro _ | split | (with_reducible refine Eq.trans (foldl_main ?_) ?_)
    | with_reducible refine Eq.trans State.modCopy_main ?_ | dsimp only | dsimp +zetaDelta only

@[simp] theorem State.copyWrote_main {s : State} {id : Nat} :
    (State.copyWrote s id).main = s.main := by
  unfold State.copyWrote; (try dsimp only)
  repeat' first
    | with_reducible rfl | intro _ | split | (with_reducible refine Eq.trans (foldl_main ?_) ?_)
    | with_reducible refine Eq.trans State.modCopy_main ?_ | dsimp only | dsimp +zetaDelta only

theorem State.copySendWrite_wf {s : State} {c : CopyOp} {off : Nat} {x : Xl} {pa : Nat} {permitted : Bool} {d : List CopyByte} (hw : s.main.wf = true) :
    (State.copySendWrite s c off x pa permitted d).main.wf = true := by
  unfold State.copySendWrite; (try dsimp only)
  repeat' first
    | with_reducible exact hw | with_reducible assumption | intro _ | split | with_reducible apply foldl_wf
    | with_reducible refine main_wf State.copyLine'_main ?_ | with_reducible apply State.lostWrite_wf
    | with_reducible refine main_wf State.memSend_main ?_ | with_reducible refine main_wf State.copyMore_main ?_ | dsimp only
    | dsimp +zetaDelta only

@[simp] theorem State.copySendSlices_main {s : State} {c : CopyOp} {d : Nat} {es : List Elem} :
    (State.copySendSlices s c d es).main = s.main := by
  unfold State.copySendSlices; (try dsimp only)
  repeat' first
    | with_reducible rfl | intro _ | split | (with_reducible refine Eq.trans (foldl_main ?_) ?_)
    | with_reducible refine Eq.trans State.modSlice_main ?_ | with_reducible refine Eq.trans State.copyMore_main ?_ | dsimp only
    | dsimp +zetaDelta only

theorem State.copyPutPart_wf {s : State} {c : CopyOp} {off : Nat} {d : List CopyByte} (hw : s.main.wf = true) :
    (State.copyPutPart s c off d).main.wf = true := by
  unfold State.copyPutPart; (try dsimp only)
  repeat' first
    | with_reducible exact hw | with_reducible assumption | intro _ | split | with_reducible apply foldl_wf
    | with_reducible refine main_wf State.copyWrote_main ?_ | with_reducible refine main_wf State.shmStore_main ?_
    | with_reducible refine main_wf State.reduceElems_main ?_ | with_reducible refine main_wf State.shmMark_main ?_
    | with_reducible refine main_wf State.parityMark_main ?_ | with_reducible refine main_wf State.sliceWrite_main ?_
    | with_reducible refine main_wf State.copySendSlices_main ?_ | with_reducible refine main_wf State.markBad_main ?_
    | with_reducible refine main_wf State.cnsWrite_main ?_ | with_reducible refine main_wf State.copySlotWrite_main ?_
    | with_reducible apply State.copySendWrite_wf | dsimp only | dsimp +zetaDelta only

theorem State.copyPut_wf {s : State} {c : CopyOp} {off : Nat} {d : List CopyByte} (hw : s.main.wf = true) :
    (State.copyPut s c off d).main.wf = true := by
  unfold State.copyPut; (try dsimp only)
  repeat' first
    | with_reducible exact hw | with_reducible assumption | intro _ | split | with_reducible apply foldl_wf
    | with_reducible apply State.copyPutPart_wf | dsimp only | dsimp +zetaDelta only

theorem State.lostRead_wf {s : State} {c : CopyOp} {off : Nat} {n : Nat} {cause : Nat} (hw : s.main.wf = true) :
    (State.lostRead s c off n cause).main.wf = true := by
  unfold State.lostRead; (try dsimp only)
  repeat' first
    | with_reducible exact hw | with_reducible assumption | intro _ | split | with_reducible apply foldl_wf
    | with_reducible refine main_wf State.copyLine'_main ?_ | with_reducible apply State.copyPut_wf | dsimp only | dsimp +zetaDelta only

theorem State.copyPiece_wf {s : State} {c : CopyOp} {p : Nat × Nat} (hw : s.main.wf = true) :
    (State.copyPiece s c p).main.wf = true := by
  unfold State.copyPiece; (try dsimp only)
  repeat' first
    | with_reducible exact hw | with_reducible assumption | intro _ | split | with_reducible apply foldl_wf
    | with_reducible refine main_wf State.copyErr_main ?_ | with_reducible refine main_wf State.parityLog_main ?_
    | with_reducible apply State.copyPut_wf | with_reducible apply State.lostRead_wf | with_reducible refine main_wf State.memSend_main ?_
    | with_reducible refine main_wf State.copyMore_main ?_ | dsimp only | dsimp +zetaDelta only

@[simp] theorem State.copyDrain_main {s : State} {c : CopyOp} :
    (State.copyDrain s c).main = s.main := by
  unfold State.copyDrain; (try dsimp only)
  repeat' first
    | with_reducible rfl | intro _ | split | (with_reducible refine Eq.trans (foldl_main ?_) ?_)
    | with_reducible refine Eq.trans State.wbDrainRange_main ?_ | dsimp only | dsimp +zetaDelta only

@[simp] theorem State.copyFinish_main {s : State} {id : Nat} :
    (State.copyFinish s id).main = s.main := by
  unfold State.copyFinish; (try dsimp only)
  repeat' first
    | with_reducible rfl | intro _ | split | (with_reducible refine Eq.trans (foldl_main ?_) ?_)
    | with_reducible refine Eq.trans State.modCopy_main ?_ | with_reducible refine Eq.trans State.slotWrite_main ?_
    | with_reducible refine Eq.trans State.wake_main ?_ | with_reducible refine Eq.trans State.settle_main ?_ | dsimp only
    | dsimp +zetaDelta only

@[simp] theorem State.copyTranslate_main {s : State} {c : CopyOp} {write : Bool} {vpn : Nat} :
    (State.copyTranslate s c write vpn).main = s.main := by
  unfold State.copyTranslate; (try dsimp only)
  repeat' first
    | with_reducible rfl | intro _ | split | (with_reducible refine Eq.trans (foldl_main ?_) ?_)
    | with_reducible refine Eq.trans State.keep_main ?_ | with_reducible refine Eq.trans State.modCopy_main ?_
    | with_reducible refine Eq.trans State.copyErr_main ?_ | dsimp only | dsimp +zetaDelta only

@[simp] theorem State.copyLess_main {s : State} {id : Nat} :
    (State.copyLess s id).main = s.main := by
  unfold State.copyLess; (try dsimp only)
  repeat' first
    | with_reducible rfl | intro _ | split | (with_reducible refine Eq.trans (foldl_main ?_) ?_)
    | with_reducible refine Eq.trans State.copyFinish_main ?_ | with_reducible refine Eq.trans State.modCopy_main ?_ | dsimp only
    | dsimp +zetaDelta only

/-! ### Of Machine/Batch.lean -/

@[simp] theorem State.batchWake_main {s : State} {gid : Nat} {cls : Nat} :
    (State.batchWake s gid cls).main = s.main := by
  unfold State.batchWake; (try dsimp only)
  repeat' first
    | with_reducible rfl | intro _ | split | (with_reducible refine Eq.trans (foldl_main ?_) ?_)
    | with_reducible refine Eq.trans State.wake_main ?_ | dsimp only | dsimp +zetaDelta only

@[simp] theorem State.opComplete_main {s : State} {gid : Nat} {cls : Nat} {id : Nat} :
    (State.opComplete s gid cls id).main = s.main := by
  unfold State.opComplete; (try dsimp only)
  repeat' first
    | with_reducible rfl | intro _ | split | (with_reducible refine Eq.trans (foldl_main ?_) ?_)
    | with_reducible refine Eq.trans State.settle_main ?_ | with_reducible refine Eq.trans State.batchWake_main ?_
    | with_reducible refine Eq.trans State.opDone_main ?_ | dsimp only | dsimp +zetaDelta only

@[simp] theorem State.batchLines_main {s : State} {gid : Nat} {batch : Nat} {cs : List CopyOp} :
    (State.batchLines s gid batch cs).main = s.main := by
  unfold State.batchLines; (try dsimp only)
  repeat' first
    | with_reducible rfl | intro _ | split | (with_reducible refine Eq.trans (foldl_main ?_) ?_)
    | with_reducible refine Eq.trans State.opErr_main ?_ | dsimp only | dsimp +zetaDelta only

@[simp] theorem State.batchArrive_main {s : State} {c : CopyOp} :
    (State.batchArrive s c).main = s.main := by
  unfold State.batchArrive; (try dsimp only)
  repeat' first
    | with_reducible rfl | intro _ | split | (with_reducible refine Eq.trans (foldl_main ?_) ?_)
    | with_reducible refine Eq.trans State.opErr_main ?_ | with_reducible refine Eq.trans State.parityLog_main ?_
    | with_reducible refine Eq.trans (State.arriveAt_main (by assumption)) ?_ | with_reducible refine Eq.trans State.checkpointCheck_main ?_
    | dsimp only | dsimp +zetaDelta only

@[simp] theorem bcloseEffect_main {o : YF} {t : State} {j : Issue} :
    (bcloseEffect o t j).main = t.main := by
  unfold bcloseEffect; (try dsimp only)
  repeat' first
    | with_reducible rfl | intro _ | split | (with_reducible refine Eq.trans (foldl_main ?_) ?_)
    | with_reducible refine Eq.trans State.putScalar_main ?_ | with_reducible refine Eq.trans (State.setGroup_main ..) ?_ | dsimp only
    | dsimp +zetaDelta only

@[simp] theorem State.covered_main {s : State} {gid : Nat} {cls : Nat} {n : Nat} :
    (State.covered s gid cls n).main = s.main := by
  unfold State.covered; (try dsimp only)
  repeat' first
    | with_reducible rfl | intro _ | split | (with_reducible refine Eq.trans (foldl_main ?_) ?_)
    | with_reducible refine Eq.trans State.usesUndef_main ?_ | with_reducible refine Eq.trans (State.modGroup_main ..) ?_ | dsimp only
    | dsimp +zetaDelta only

@[simp] theorem State.batchReport_main {s : State} {j : Issue} {cls : Nat} {n : Nat} :
    (State.batchReport s j cls n).main = s.main := by
  unfold State.batchReport; (try dsimp only)
  repeat' first
    | with_reducible rfl | intro _ | split | (with_reducible refine Eq.trans (foldl_main ?_) ?_)
    | with_reducible refine Eq.trans State.covered_main ?_ | with_reducible refine Eq.trans State.done_main ?_
    | with_reducible refine Eq.trans (State.modGroup_main ..) ?_ | with_reducible refine Eq.trans State.trapLanes_main ?_
    | with_reducible refine Eq.trans State.retryAt_main ?_ | with_reducible refine Eq.trans State.settle_main ?_
    | with_reducible refine Eq.trans State.takeTrap_main ?_ | dsimp only | dsimp +zetaDelta only

@[simp] theorem State.batchWait_main {s : State} {j : Issue} {cls : Nat} {n : Nat} :
    (State.batchWait s j cls n).main = s.main := by
  unfold State.batchWait; (try dsimp only)
  repeat' first
    | with_reducible rfl | intro _ | split | (with_reducible refine Eq.trans (foldl_main ?_) ?_)
    | with_reducible refine Eq.trans State.settle_main ?_ | with_reducible refine Eq.trans (State.modSplit_main ..) ?_
    | with_reducible refine Eq.trans State.batchReport_main ?_ | dsimp only | dsimp +zetaDelta only

@[simp] theorem bwaitEffect_main {o : YF} {t : State} {j : Issue} :
    (bwaitEffect o t j).main = t.main := by
  unfold bwaitEffect; (try dsimp only)
  repeat' first
    | with_reducible rfl | intro _ | split | (with_reducible refine Eq.trans (foldl_main ?_) ?_)
    | with_reducible refine Eq.trans State.batchWait_main ?_ | with_reducible refine Eq.trans (issue_main ?_) ?_ | dsimp only
    | dsimp +zetaDelta only

@[simp] theorem cstatEffect_main {o : YF} {t : State} {j : Issue} :
    (cstatEffect o t j).main = t.main := by
  unfold cstatEffect; (try dsimp only)
  repeat' first
    | with_reducible rfl | intro _ | split | (with_reducible refine Eq.trans (foldl_main ?_) ?_)
    | with_reducible refine Eq.trans (State.setGroup_main ..) ?_ | with_reducible refine Eq.trans State.settle_main ?_
    | with_reducible refine Eq.trans State.scalClear_main ?_ | dsimp only | dsimp +zetaDelta only

@[simp] theorem State.copyCancel_main {s : State} {c : CopyOp} :
    (State.copyCancel s c).main = s.main := by
  unfold State.copyCancel; (try dsimp only)
  repeat' first
    | with_reducible rfl | intro _ | split | (with_reducible refine Eq.trans (foldl_main ?_) ?_)
    | with_reducible refine Eq.trans State.dropCopies_main ?_ | with_reducible refine Eq.trans (State.modGroup_main ..) ?_ | dsimp only
    | dsimp +zetaDelta only

@[simp] theorem quiesceLoop_main {core : Nat} {lin : Nat} {s : State} {k : Nat} {x4 : List CopyOp} :
    (quiesceLoop core lin s k x4).1.main = s.main := by
  fun_induction quiesceLoop core lin s k x4 <;> (try dsimp only) <;>
  (repeat' first | with_reducible rfl | intro _ | split | (with_reducible refine Eq.trans (foldl_main ?_) ?_) | with_reducible refine Eq.trans State.copyCancel_main ?_ | with_reducible refine Eq.trans State.stageWrite_main ?_ | with_reducible refine Eq.trans (by assumption) ?_ | dsimp only | dsimp +zetaDelta only)

@[simp] theorem quiesceFrom_main {o : YF} {k : Nat} {next : Nat} {t : State} {j : Issue} :
    (quiesceFrom o k next t j).main = t.main := by
  unfold quiesceFrom; (try dsimp only)
  repeat' first
    | with_reducible rfl | intro _ | split | (with_reducible refine Eq.trans (foldl_main ?_) ?_)
    | with_reducible refine Eq.trans quiesceLoop_main ?_ | with_reducible refine Eq.trans State.settle_main ?_
    | with_reducible refine Eq.trans State.scalClear_main ?_ | with_reducible refine Eq.trans (State.modSplit_main ..) ?_
    | with_reducible refine fst_main (by assumption) ?_ | dsimp only | dsimp +zetaDelta only

@[simp] theorem quiesceFirst_main {o : YF} {t : State} {j : Issue} :
    (quiesceFirst o t j).main = t.main := by
  unfold quiesceFirst; (try dsimp only)
  repeat' first
    | with_reducible rfl | intro _ | split | (with_reducible refine Eq.trans (foldl_main ?_) ?_)
    | with_reducible refine Eq.trans State.trapAt_main ?_ | with_reducible refine Eq.trans quiesceFrom_main ?_
    | with_reducible refine Eq.trans State.wbDrainAll_main ?_ | dsimp only | dsimp +zetaDelta only

@[simp] theorem State.replayQueue_main {s : State} {j : Issue} {r : Replayed} :
    (State.replayQueue s j r).main = s.main := by
  unfold State.replayQueue; (try dsimp only)
  repeat' first
    | with_reducible rfl | intro _ | split | (with_reducible refine Eq.trans (foldl_main ?_) ?_)
    | with_reducible refine Eq.trans (State.setGroup_main ..) ?_ | with_reducible refine Eq.trans State.copyQueue_main ?_ | dsimp only
    | dsimp +zetaDelta only

@[simp] theorem State.replayFrom_main {s : State} {j : Issue} {k : Nat} {x3 : List Replayed} :
    (State.replayFrom s j k x3).main = s.main := by
  fun_induction State.replayFrom s j k x3 <;> (try dsimp only) <;>
  (repeat' first | with_reducible rfl | intro _ | split | (with_reducible refine Eq.trans (foldl_main ?_) ?_) | with_reducible refine Eq.trans State.done_main ?_ | with_reducible refine Eq.trans (State.modSplit_main ..) ?_ | with_reducible refine Eq.trans State.replayQueue_main ?_ | with_reducible refine Eq.trans (by assumption) ?_ | dsimp only | dsimp +zetaDelta only)

@[simp] theorem quiesceRstEffect_main {o : YF} {t : State} {j : Issue} :
    (quiesceRstEffect o t j).main = t.main := by
  unfold quiesceRstEffect; (try dsimp only)
  repeat' first
    | with_reducible rfl | intro _ | split | (with_reducible refine Eq.trans (foldl_main ?_) ?_)
    | with_reducible refine Eq.trans State.trapAt_main ?_ | with_reducible refine Eq.trans State.consumeMem_main ?_
    | with_reducible refine Eq.trans State.replayFrom_main ?_ | dsimp only | dsimp +zetaDelta only

/-! ### Of Machine/Service.lean -/

@[simp] theorem State.sliceTake_main {s : State} {d : Nat} {k : Nat} :
    (State.sliceTake s d k).main = s.main := by
  unfold State.sliceTake; (try dsimp only)
  repeat' first
    | with_reducible rfl | intro _ | split | (with_reducible refine Eq.trans (foldl_main ?_) ?_)
    | with_reducible refine Eq.trans State.modSlice_main ?_ | dsimp only | dsimp +zetaDelta only

@[simp] theorem State.sliceReduce_main {s : State} {d : Nat} {k : Nat} {copy : Nat} {op : AtomOp} {es : List Elem} :
    (State.sliceReduce s d k copy op es).main = s.main := by
  unfold State.sliceReduce; (try dsimp only)
  repeat' first
    | with_reducible rfl | intro _ | split | (with_reducible refine Eq.trans (foldl_main ?_) ?_)
    | with_reducible refine Eq.trans State.parityLog_main ?_ | with_reducible refine Eq.trans State.copyErr_main ?_
    | with_reducible refine Eq.trans State.copyWrote_main ?_ | with_reducible refine Eq.trans State.spdAtomic_main ?_
    | with_reducible refine fst_main (by assumption) ?_ | dsimp only | dsimp +zetaDelta only

@[simp] theorem State.atomicSpoilt_main {s : State} {gid : Nat} {sid : Nat} {pc : Word} {pend : Option Nat} {op : AtomOp} {es : List Elem} {u : Unit_} :
    (State.atomicSpoilt s gid sid pc pend op es u).main = s.main := by
  unfold State.atomicSpoilt; (try dsimp only)
  repeat' first
    | with_reducible rfl | intro _ | split | (with_reducible refine Eq.trans (foldl_main ?_) ?_)
    | with_reducible refine Eq.trans State.parityLog_main ?_ | with_reducible refine Eq.trans State.takeReply_main ?_
    | with_reducible refine Eq.trans State.settle_main ?_ | with_reducible refine Eq.trans State.takeTrap_main ?_ | dsimp only
    | dsimp +zetaDelta only

@[simp] theorem State.serviceExec_main {s : State} {d : Nat} {k : Nat} {x3 : SvcReq} :
    (State.serviceExec s d k x3).main = s.main := by
  unfold State.serviceExec; (try dsimp only)
  repeat' first
    | with_reducible rfl | intro _ | split | (with_reducible refine Eq.trans (foldl_main ?_) ?_)
    | with_reducible refine Eq.trans State.sliceTake_main ?_ | with_reducible refine Eq.trans State.atomicSpoilt_main ?_
    | with_reducible refine Eq.trans State.spdAtomic_main ?_ | with_reducible refine Eq.trans State.settle_main ?_
    | with_reducible refine Eq.trans State.replyTo_main ?_ | with_reducible refine Eq.trans State.copyLess_main ?_
    | with_reducible refine Eq.trans State.sliceReduce_main ?_ | with_reducible refine Eq.trans State.wmonServe_main ?_
    | with_reducible refine fst_main (by assumption) ?_ | dsimp only | dsimp +zetaDelta only

/-! ### Of Machine/Matrix.lean -/

@[simp] theorem State.claimSlot_main {s : State} {core : Nat} {k : Nat} {gid : Nat} :
    (State.claimSlot s core k gid).main = s.main := by
  unfold State.claimSlot; (try dsimp only)
  repeat' first
    | with_reducible rfl | intro _ | split | (with_reducible refine Eq.trans (foldl_main ?_) ?_)
    | with_reducible refine Eq.trans State.newSeed_main ?_ | with_reducible refine Eq.trans State.setSlot_main ?_
    | with_reducible refine snd_main (by assumption) ?_ | dsimp only | dsimp +zetaDelta only

@[simp] theorem oclaimEffect_main {o : YF} {any : Bool} {t : State} {j : Issue} :
    (oclaimEffect o any t j).main = t.main := by
  unfold oclaimEffect; (try dsimp only)
  repeat' first
    | with_reducible rfl | intro _ | split | (with_reducible refine Eq.trans (foldl_main ?_) ?_)
    | with_reducible refine Eq.trans State.putScalar_main ?_ | with_reducible refine Eq.trans State.claimSlot_main ?_ | dsimp only
    | dsimp +zetaDelta only

@[simp] theorem orelEffect_main {o : YF} {t : State} {j : Issue} :
    (orelEffect o t j).main = t.main := by
  unfold orelEffect; (try dsimp only)
  repeat' first
    | with_reducible rfl | intro _ | split | (with_reducible refine Eq.trans (foldl_main ?_) ?_)
    | with_reducible refine Eq.trans State.done_main ?_ | with_reducible refine Eq.trans State.setSlot_main ?_
    | with_reducible refine Eq.trans State.trapAt_main ?_ | dsimp only | dsimp +zetaDelta only

@[simp] theorem State.useTile_main {s : State} {core : Nat} {k : Nat} {attn : Bool} :
    (State.useTile s core k attn).main = s.main := by
  unfold State.useTile; (try dsimp only)
  repeat' first
    | with_reducible rfl | intro _ | split | (with_reducible refine Eq.trans (foldl_main ?_) ?_)
    | with_reducible refine Eq.trans State.tileUndef_main ?_ | with_reducible refine Eq.trans State.spoilTile_main ?_
    | with_reducible refine Eq.trans State.setTile_main ?_ | dsimp only | dsimp +zetaDelta only

@[simp] theorem State.matQueue_main {s : State} {op : MatOp} {regs : List Nat} :
    (State.matQueue s op regs).main = s.main := by
  unfold State.matQueue; (try dsimp only)
  repeat' first
    | with_reducible rfl | intro _ | split | (with_reducible refine Eq.trans (foldl_main ?_) ?_)
    | with_reducible refine Eq.trans State.setSlot_main ?_ | with_reducible refine Eq.trans State.useTile_main ?_
    | with_reducible refine Eq.trans (State.modGroup_main ..) ?_ | with_reducible refine Eq.trans (State.modCore_main ..) ?_ | dsimp only
    | dsimp +zetaDelta only

@[simp] theorem mmaEffect_main {o : XF} {sparse : Bool} {t : State} {j : Issue} :
    (mmaEffect o sparse t j).main = t.main := by
  unfold mmaEffect; (try dsimp only)
  repeat' first
    | with_reducible rfl | intro _ | split | (with_reducible refine Eq.trans (foldl_main ?_) ?_)
    | with_reducible refine Eq.trans State.trapAt_main ?_ | with_reducible refine Eq.trans State.hold_main ?_
    | with_reducible refine Eq.trans State.newId_main ?_ | with_reducible refine Eq.trans State.done_main ?_
    | with_reducible refine Eq.trans State.matQueue_main ?_ | with_reducible refine snd_main (by assumption) ?_ | dsimp only
    | dsimp +zetaDelta only

@[simp] theorem mzeroEffect_main {o : YF} {t : State} {j : Issue} :
    (mzeroEffect o t j).main = t.main := by
  unfold mzeroEffect; (try dsimp only)
  repeat' first
    | with_reducible rfl | intro _ | split | (with_reducible refine Eq.trans (foldl_main ?_) ?_)
    | with_reducible refine Eq.trans State.trapAt_main ?_ | with_reducible refine Eq.trans State.hold_main ?_
    | with_reducible refine Eq.trans State.newId_main ?_ | with_reducible refine Eq.trans State.done_main ?_
    | with_reducible refine Eq.trans State.matQueue_main ?_ | with_reducible refine snd_main (by assumption) ?_ | dsimp only
    | dsimp +zetaDelta only

@[simp] theorem smaskEffect_main {o : YF} {t : State} {j : Issue} :
    (smaskEffect o t j).main = t.main := by
  unfold smaskEffect; (try dsimp only)
  repeat' first
    | with_reducible rfl | intro _ | split | (with_reducible refine Eq.trans (foldl_main ?_) ?_)
    | with_reducible refine Eq.trans State.trapAt_main ?_ | with_reducible refine Eq.trans State.hold_main ?_
    | with_reducible refine Eq.trans State.newId_main ?_ | with_reducible refine Eq.trans State.done_main ?_
    | with_reducible refine Eq.trans State.matQueue_main ?_ | with_reducible refine snd_main (by assumption) ?_ | dsimp only
    | dsimp +zetaDelta only

@[simp] theorem State.tilePut_main {s : State} {core : Nat} {k : Nat} {cells : List (Nat × Nat)} :
    (State.tilePut s core k cells).main = s.main := by
  unfold State.tilePut; (try dsimp only)
  repeat' first
    | with_reducible rfl | intro _ | split | (with_reducible refine Eq.trans (foldl_main ?_) ?_)
    | with_reducible refine Eq.trans State.setTile_main ?_ | with_reducible refine Eq.trans State.parityClear_main ?_ | dsimp only
    | dsimp +zetaDelta only

@[simp] theorem State.tileChecked_main {s : State} {core : Nat} {k : Nat} {gid : Nat} {cells : List (Nat × Nat)} :
    (State.tileChecked s core k gid cells).1.main = s.main := by
  unfold State.tileChecked; (try dsimp only)
  repeat' first
    | with_reducible rfl | intro _ | split | (with_reducible refine Eq.trans (foldl_main ?_) ?_)
    | with_reducible refine Eq.trans State.tilePut_main ?_ | with_reducible refine Eq.trans (State.modGroup_main ..) ?_ | dsimp only
    | dsimp +zetaDelta only

@[simp] theorem State.matUndef_main {s : State} {o : MatOp} :
    (State.matUndef s o).main = s.main := by
  unfold State.matUndef; (try dsimp only)
  repeat' first
    | with_reducible rfl | intro _ | split | (with_reducible refine Eq.trans (foldl_main ?_) ?_)
    | with_reducible refine Eq.trans State.tileUndef_main ?_ | dsimp only | dsimp +zetaDelta only

@[simp] theorem State.smaskRun_main {s : State} {o : MatOp} :
    (State.smaskRun s o).main = s.main := by
  unfold State.smaskRun; (try dsimp only)
  repeat' first
    | with_reducible rfl | intro _ | split | (with_reducible refine Eq.trans (foldl_main ?_) ?_)
    | with_reducible refine Eq.trans State.slotWrite_main ?_ | dsimp only | dsimp +zetaDelta only

@[simp] theorem State.matRun_main {s : State} {o : MatOp} :
    (State.matRun s o).main = s.main := by
  unfold State.matRun; (try dsimp only)
  repeat' first
    | with_reducible rfl | intro _ | split | (with_reducible refine Eq.trans (foldl_main ?_) ?_)
    | with_reducible refine Eq.trans State.opErr_main ?_ | with_reducible refine Eq.trans State.matUndef_main ?_
    | with_reducible refine Eq.trans State.parityLog_main ?_ | with_reducible refine Eq.trans State.smaskRun_main ?_
    | with_reducible refine Eq.trans State.tileChecked_main ?_ | with_reducible refine fst_main (by assumption) ?_ | dsimp only
    | dsimp +zetaDelta only

@[simp] theorem State.modArray_main {s : State} {core : Nat} {f : ArrayState → ArrayState} :
    (State.modArray s core f).main = s.main := by
  unfold State.modArray; (try dsimp only)
  repeat' first
    | with_reducible rfl | intro _ | split | (with_reducible refine Eq.trans (foldl_main ?_) ?_)
    | with_reducible refine Eq.trans (State.modCore_main ..) ?_ | dsimp only | dsimp +zetaDelta only

@[simp] theorem State.stagcnt_main {s : State} {die : Nat} {starts : Nat} {waits : Nat} :
    (State.stagcnt s die starts waits).main = s.main := by
  unfold State.stagcnt; (try dsimp only)
  repeat' first
    | with_reducible rfl | intro _ | split | (with_reducible refine Eq.trans (foldl_main ?_) ?_)
    | with_reducible refine Eq.trans (State.setPkgReg_main ..) ?_ | dsimp only | dsimp +zetaDelta only

@[simp] theorem State.grantStart_main {s : State} {die : Nat} {cores : List Nat} :
    (State.grantStart s die cores).main = s.main := by
  unfold State.grantStart; (try dsimp only)
  repeat' first
    | with_reducible rfl | intro _ | split | (with_reducible refine Eq.trans (foldl_main ?_) ?_)
    | with_reducible refine Eq.trans State.modArray_main ?_ | with_reducible refine Eq.trans State.stagcnt_main ?_
    | with_reducible refine Eq.trans (State.modDie_main ..) ?_ | dsimp only | dsimp +zetaDelta only

@[simp] theorem State.grantWaiting_main {s : State} {die : Nat} {x2 : List (List Nat)} :
    (State.grantWaiting s die x2).main = s.main := by
  fun_induction State.grantWaiting s die x2 <;> (try dsimp only) <;>
  (repeat' first | with_reducible rfl | intro _ | split | (with_reducible refine Eq.trans (foldl_main ?_) ?_) | with_reducible refine Eq.trans (State.modDie_main ..) ?_ | with_reducible refine Eq.trans State.grantStart_main ?_ | with_reducible refine Eq.trans (by assumption) ?_ | dsimp only | dsimp +zetaDelta only)

@[simp] theorem State.rollWindow_main {s : State} {die : Nat} :
    (State.rollWindow s die).main = s.main := by
  unfold State.rollWindow; (try dsimp only)
  repeat' first
    | with_reducible rfl | intro _ | split | (with_reducible refine Eq.trans (foldl_main ?_) ?_)
    | with_reducible refine Eq.trans State.grantWaiting_main ?_ | with_reducible refine Eq.trans (State.modDie_main ..) ?_ | dsimp only
    | dsimp +zetaDelta only

@[simp] theorem State.startArrays_main {s : State} {cores : List Nat} :
    (State.startArrays s cores).1.main = s.main := by
  unfold State.startArrays; (try dsimp only)
  repeat' first
    | with_reducible rfl | intro _ | split | (with_reducible refine Eq.trans (foldl_main ?_) ?_)
    | with_reducible refine Eq.trans State.rollWindow_main ?_ | with_reducible refine Eq.trans State.grantStart_main ?_
    | with_reducible refine Eq.trans State.modArray_main ?_ | with_reducible refine Eq.trans State.stagcnt_main ?_
    | with_reducible refine Eq.trans (State.modDie_main ..) ?_ | dsimp only | dsimp +zetaDelta only

@[simp] theorem mleaseEffect_main {o : YF} {t : State} {j : Issue} :
    (mleaseEffect o t j).main = t.main := by
  unfold mleaseEffect; (try dsimp only)
  repeat' first
    | with_reducible rfl | intro _ | split | (with_reducible refine Eq.trans (foldl_main ?_) ?_)
    | with_reducible refine Eq.trans (State.modCore_main ..) ?_ | with_reducible refine Eq.trans State.done_main ?_
    | with_reducible refine Eq.trans State.leaseNext_main ?_ | dsimp only | dsimp +zetaDelta only

@[simp] theorem mleaseFolEffect_main {o : YF} {t : State} {j : Issue} :
    (mleaseFolEffect o t j).main = t.main := by
  unfold mleaseFolEffect; (try dsimp only)
  repeat' first
    | with_reducible rfl | intro _ | split | (with_reducible refine Eq.trans (foldl_main ?_) ?_)
    | with_reducible refine Eq.trans State.trapAt_main ?_ | with_reducible refine Eq.trans (State.modCore_main ..) ?_
    | with_reducible refine Eq.trans State.done_main ?_ | with_reducible refine Eq.trans State.bondNext_main ?_ | dsimp only
    | dsimp +zetaDelta only

@[simp] theorem State.leaseUse_main {s : State} {core : Nat} {gid : Nat} :
    (State.leaseUse s core gid).main = s.main := by
  unfold State.leaseUse; (try dsimp only)
  repeat' first
    | with_reducible rfl | intro _ | split | (with_reducible refine Eq.trans (foldl_main ?_) ?_)
    | with_reducible refine Eq.trans State.leaseNext_main ?_ | with_reducible refine Eq.trans (State.modCore_main ..) ?_ | dsimp only
    | dsimp +zetaDelta only

@[simp] theorem State.bondUse_main {s : State} {core : Nat} {b : Bond} {o : MatOp} :
    (State.bondUse s core b o).main = s.main := by
  unfold State.bondUse; (try dsimp only)
  repeat' first
    | with_reducible rfl | intro _ | split | (with_reducible refine Eq.trans (foldl_main ?_) ?_)
    | with_reducible refine Eq.trans (State.modCore_main ..) ?_ | with_reducible refine Eq.trans State.setSlot_main ?_
    | with_reducible refine Eq.trans (State.modGroup_main ..) ?_ | with_reducible refine Eq.trans State.useTile_main ?_
    | with_reducible refine Eq.trans State.bondNext_main ?_ | with_reducible refine Eq.trans State.leaseUse_main ?_ | dsimp only
    | dsimp +zetaDelta only

@[simp] theorem State.matBegin_main {s : State} {core : Nat} {o : MatOp} :
    (State.matBegin s core o).main = s.main := by
  unfold State.matBegin; (try dsimp only)
  repeat' first
    | with_reducible rfl | intro _ | split | (with_reducible refine Eq.trans (foldl_main ?_) ?_)
    | with_reducible refine Eq.trans (State.modCore_main ..) ?_ | with_reducible refine Eq.trans State.leaseUse_main ?_
    | with_reducible refine Eq.trans State.modArray_main ?_ | dsimp only | dsimp +zetaDelta only

@[simp] theorem State.arrayEnd_main {s : State} {core : Nat} {used : Bool} :
    (State.arrayEnd s core used).main = s.main := by
  unfold State.arrayEnd; (try dsimp only)
  repeat' first
    | with_reducible rfl | intro _ | split | (with_reducible refine Eq.trans (foldl_main ?_) ?_)
    | with_reducible refine Eq.trans (State.modCore_main ..) ?_ | dsimp only | dsimp +zetaDelta only

@[simp] theorem accrdEffect_main {o : XF} {t : State} {j : Issue} :
    (accrdEffect o t j).main = t.main := by
  unfold accrdEffect; (try dsimp only)
  repeat' first
    | with_reducible rfl | intro _ | split | (with_reducible refine Eq.trans (foldl_main ?_) ?_)
    | with_reducible refine Eq.trans State.trapAt_main ?_ | with_reducible refine Eq.trans State.trapLanes_main ?_
    | with_reducible refine Eq.trans State.parityLog_main ?_ | with_reducible refine Eq.trans State.done_main ?_
    | with_reducible refine Eq.trans State.vsend_main ?_ | dsimp only | dsimp +zetaDelta only

@[simp] theorem accwrEffect_main {o : XF} {t : State} {j : Issue} :
    (accwrEffect o t j).main = t.main := by
  unfold accwrEffect; (try dsimp only)
  repeat' first
    | with_reducible rfl | intro _ | split | (with_reducible refine Eq.trans (foldl_main ?_) ?_)
    | with_reducible refine Eq.trans State.trapAt_main ?_ | with_reducible refine Eq.trans State.trapLanes_main ?_
    | with_reducible refine Eq.trans State.retryAt_main ?_ | with_reducible refine Eq.trans (State.modGroup_main ..) ?_
    | with_reducible refine Eq.trans State.done_main ?_ | with_reducible refine Eq.trans State.tileUndef_main ?_
    | with_reducible refine Eq.trans State.spoilTile_main ?_ | with_reducible refine Eq.trans State.setTile_main ?_
    | with_reducible refine Eq.trans State.tilePut_main ?_ | dsimp only | dsimp +zetaDelta only

/-! ### Of Machine/Cache.lean -/

theorem State.lostLines_wf {s : State} {x : Xl} {va : Nat} {n : Nat} {fails : List (Nat × Nat)} (hw : s.main.wf = true) :
    (State.lostLines s x va n fails).main.wf = true := by
  unfold State.lostLines; (try dsimp only)
  repeat' first
    | with_reducible exact hw | with_reducible assumption | intro _ | split | with_reducible apply foldl_wf
    | with_reducible refine main_wf State.migFail_main ?_ | with_reducible apply State.lostWrite_wf | dsimp only | dsimp +zetaDelta only

theorem State.kvWrite_all {s : State} {core ctx va : Nat} {fails : List (Nat × Nat)} {bs : List Byte} (h : s.main.wf = true) :
    match s.kvWrite core ctx fails va bs with
    | .error e => e.1.main.wf = true
    | .ok t => t.main.wf = true := by
  let good : Written → Prop := fun acc => match acc with
    | .error e => e.1.main.wf = true
    | .ok t => t.main.wf = true
  have go : ∀ (l : List (Nat × Nat)) (f : Written → Nat × Nat → Written), (∀ acc pg, good acc → good (f acc pg)) →
      ∀ acc, good acc → good (l.foldl f acc) := by
    intro l f hf
    induction l with
    | nil => intro acc ha; exact ha
    | cons pg l ih => intro acc ha; exact ih _ (hf _ _ ha)
  refine go _ _ (fun acc pg ha => ?_) (.ok s) h
  cases acc with
  | error e => exact ha
  | ok t =>
    have ht : t.main.wf = true := ha
    dsimp only
    cases t.kvXl core ctx .copy true pg.1 with
    | error e => exact ht
    | ok x =>
      dsimp only
      have hk := fun r => main_wf (State.keep_main (s := t) (c := core) (ctx := ctx) (cls := t.defaultClass ctx)
        (va := pg.1 / 65536 * 65536) (r := r)) ht
      split
      · exact State.lostLines_wf (hk _)
      · split
        · exact State.pullFor_wf (hk _)
        · split
          · exact State.pullFor_wf (hk _)
          · exact State.writeXl_wf (by assumption) (State.pullFor_wf (hk _))
theorem State.kvWrite_wf {s t : State} {core ctx va : Nat} {fails : List (Nat × Nat)} {bs : List Byte} (e : s.kvWrite core ctx fails va bs = .ok t)
    (h : s.main.wf = true) : t.main.wf = true := by
  have k := State.kvWrite_all (core := core) (ctx := ctx) (va := va) (fails := fails) (bs := bs) h
  rw [e] at k; exact k
theorem State.kvWrite_err_wf {s t : State} {core ctx va : Nat} {fails : List (Nat × Nat)} {bs : List Byte} {x : XErr}
    (e : s.kvWrite core ctx fails va bs = .error (t, x)) (h : s.main.wf = true) : t.main.wf = true := by
  have k := State.kvWrite_all (core := core) (ctx := ctx) (va := va) (fails := fails) (bs := bs) h
  rw [e] at k; exact k

theorem State.kvWrites_wf {s t : State} {core ctx : Nat} {fails : List (Nat × Nat)} {ws : List (Nat × List Byte)} (e : s.kvWrites core ctx fails ws = .ok t)
    (h : s.main.wf = true) : t.main.wf = true := by
  induction ws generalizing s with
  | nil => cases e; exact h
  | cons w l ih =>
    unfold State.kvWrites at e
    split at e
    · cases e
    · exact ih e (State.kvWrite_wf (by assumption) h)
theorem State.kvWrites_err_wf {s t : State} {core ctx : Nat} {fails : List (Nat × Nat)} {ws : List (Nat × List Byte)} {x : XErr}
    (e : s.kvWrites core ctx fails ws = .error (t, x)) (h : s.main.wf = true) : t.main.wf = true := by
  induction ws generalizing s with
  | nil => cases e
  | cons w l ih =>
    unfold State.kvWrites at e
    split at e
    · rename_i k; cases e; exact State.kvWrite_err_wf k h
    · exact ih e (State.kvWrite_wf (by assumption) h)

theorem State.kvTouch_wf {s : State} {core : Nat} {ctx : Nat} {a : Agent} {fails : List (Nat × Nat)} {reads : List (Nat × Nat)} (hw : s.main.wf = true) :
    (State.kvTouch s core ctx a fails reads).main.wf = true := by
  unfold State.kvTouch; (try dsimp only)
  repeat' first
    | with_reducible exact hw | with_reducible assumption | intro _ | split | with_reducible apply foldl_wf
    | with_reducible refine main_wf State.keep_main ?_ | with_reducible apply State.readTouch_wf | dsimp only | dsimp +zetaDelta only

@[simp] theorem State.tierSend_main {s : State} {who : Prober} {core ctx : Nat} {lines : List (Nat × Nat)} :
    (State.tierSend s who core ctx lines).1.main = s.main :=
  foldl_fst_main (p := (s, [])) (fun _ _ => State.memSend_main)

theorem State.kvWait_main {s out : State} {j : Issue} {ready : Bool} {tier : List (Nat × Nat)}
    (e : s.kvWait j ready tier = .inl out) : out.main = s.main := by
  unfold State.kvWait at e
  split at e
  · cases e; exact State.hold_main
  · split at e
    · cases e
    · cases e
      refine State.settle_main.trans ((State.modSplit_main ..).trans ?_)
      exact State.tierSend_main

theorem State.kvFinish_wf {s : State} {j : Issue} {sd : Nat} {fails : List (Nat × Nat)} {a : KvAct} (hw : s.main.wf = true) :
    (State.kvFinish s j sd fails a).main.wf = true := by
  unfold State.kvFinish; (try dsimp only)
  repeat' first
    | with_reducible exact hw | with_reducible assumption | intro _ | split | with_reducible apply foldl_wf
    | with_reducible apply State.kvTouch_wf | with_reducible refine main_wf State.trapAt_main ?_
    | with_reducible refine main_wf State.putScalar_main ?_ | with_reducible refine State.kvWrites_wf (by assumption) ?_
    | with_reducible refine State.kvWrites_err_wf (by assumption) ?_ | dsimp only | dsimp +zetaDelta only

theorem kvOp_wf {o : YF} {vals : Issue → List (Word × Nat)} {stage : Issue → Option (Word × Nat)} {act : State → Issue → Desc → KvAct} {t : State} {j : Issue} (hw : t.main.wf = true) :
    (kvOp o vals stage act t j).main.wf = true := by
  unfold kvOp; (try dsimp only)
  repeat' first
    | with_reducible exact hw | with_reducible assumption | intro _ | split | with_reducible apply foldl_wf
    | with_reducible refine main_wf State.trapAt_main ?_ | with_reducible refine main_wf State.consumeMem_main ?_
    | with_reducible refine main_wf (State.kvWait_main (by assumption)) ?_ | with_reducible apply State.kvFinish_wf | dsimp only
    | dsimp +zetaDelta only

theorem kvIssue_main {n : Issue → Needs} {eff : State → Issue → State} {t : State} {j : Issue}
    (he : ∀ s i, (eff s i).main = s.main) : (kvIssue n eff t j).main = t.main := by
  unfold kvIssue
  split
  · exact State.trapAt_main
  · exact issue_main he

@[simp] theorem State.cacheFor_main {s : State} {core : Nat} {ctx : Nat} :
    (State.cacheFor s core ctx).1.main = s.main := by
  unfold State.cacheFor; (try dsimp only)
  repeat' first
    | with_reducible rfl | intro _ | split | (with_reducible refine Eq.trans (foldl_main ?_) ?_)
    | with_reducible refine Eq.trans State.emptyCache_main ?_ | with_reducible refine Eq.trans (State.modCore_main ..) ?_ | dsimp only
    | dsimp +zetaDelta only

@[simp] theorem State.framesWait_main {s : State} {j : Issue} {got : Option (Nat × Nat)} :
    (State.framesWait s j got).main = s.main := by
  unfold State.framesWait; (try dsimp only)
  repeat' first
    | with_reducible rfl | intro _ | split | (with_reducible refine Eq.trans (foldl_main ?_) ?_)
    | with_reducible refine Eq.trans State.settle_main ?_ | with_reducible refine Eq.trans (State.modSplit_main ..) ?_ | dsimp only
    | dsimp +zetaDelta only

@[simp] theorem State.trimInsert_main {s : State} {j : Issue} {sd : Nat} {f : Nat} :
    (State.trimInsert s j sd f).main = s.main := by
  unfold State.trimInsert; (try dsimp only)
  repeat' first
    | with_reducible rfl | intro _ | split | (with_reducible refine Eq.trans (foldl_main ?_) ?_)
    | with_reducible refine Eq.trans State.cacheFor_main ?_ | with_reducible refine Eq.trans State.framesWait_main ?_
    | with_reducible refine Eq.trans State.putScalar_main ?_ | with_reducible refine Eq.trans State.insertFrames_main ?_
    | with_reducible refine fst_main (by assumption) ?_ | dsimp only | dsimp +zetaDelta only

theorem kvtrimFirst_wf {o : YF} {t : State} {j : Issue} (hw : t.main.wf = true) :
    (kvtrimFirst o t j).main.wf = true := by
  unfold kvtrimFirst; (try dsimp only)
  repeat' first
    | with_reducible exact hw | with_reducible assumption | intro _ | split | with_reducible apply foldl_wf
    | with_reducible refine main_wf State.trapAt_main ?_ | with_reducible refine main_wf State.consumeMem_main ?_
    | with_reducible refine main_wf (State.kvWait_main (by assumption)) ?_ | with_reducible refine State.kvWrites_wf (by assumption) ?_
    | with_reducible refine State.kvWrites_err_wf (by assumption) ?_ | with_reducible apply State.kvTouch_wf
    | with_reducible refine main_wf State.trimInsert_main ?_ | with_reducible apply State.kvFinish_wf | dsimp only | dsimp +zetaDelta only

theorem kvtrimEffect_wf {o : YF} {t : State} {j : Issue} (hw : t.main.wf = true) :
    (kvtrimEffect o t j).main.wf = true := by
  unfold kvtrimEffect; (try dsimp only)
  repeat' first
    | with_reducible exact hw | with_reducible assumption | intro _ | split | with_reducible apply foldl_wf
    | with_reducible refine main_wf State.trimInsert_main ?_ | with_reducible apply kvtrimFirst_wf | dsimp only | dsimp +zetaDelta only

@[simp] theorem pggetEffect_main {o : YF} {t : State} {j : Issue} :
    (pggetEffect o t j).main = t.main := by
  unfold pggetEffect; (try dsimp only)
  repeat' first
    | with_reducible rfl | intro _ | split | (with_reducible refine Eq.trans (foldl_main ?_) ?_)
    | with_reducible refine Eq.trans State.cacheFor_main ?_ | with_reducible refine Eq.trans State.framesWait_main ?_
    | with_reducible refine Eq.trans State.putScalar_main ?_ | with_reducible refine Eq.trans (State.modCore_main ..) ?_
    | with_reducible refine Eq.trans State.postRefill_main ?_ | with_reducible refine fst_main (by assumption) ?_ | dsimp only
    | dsimp +zetaDelta only

@[simp] theorem pgputEffect_main {o : YF} {t : State} {j : Issue} :
    (pgputEffect o t j).main = t.main := by
  unfold pgputEffect; (try dsimp only)
  repeat' first
    | with_reducible rfl | intro _ | split | (with_reducible refine Eq.trans (foldl_main ?_) ?_)
    | with_reducible refine Eq.trans State.trapAt_main ?_ | with_reducible refine Eq.trans State.cacheFor_main ?_
    | with_reducible refine Eq.trans State.framesWait_main ?_ | with_reducible refine Eq.trans State.done_main ?_
    | with_reducible refine Eq.trans State.insertFrames_main ?_ | with_reducible refine fst_main (by assumption) ?_ | dsimp only
    | dsimp +zetaDelta only

theorem kvmapEffect_wf {o : XF} {t : State} {j : Issue} (hw : t.main.wf = true) :
    (kvmapEffect o t j).main.wf = true := by
  unfold kvmapEffect; (try dsimp only)
  repeat' first
    | with_reducible exact hw | with_reducible assumption | intro _ | split | with_reducible apply foldl_wf
    | with_reducible refine main_wf State.trapAt_main ?_ | with_reducible refine main_wf State.done_main ?_
    | with_reducible refine main_wf State.vsend_main ?_ | with_reducible refine main_wf State.consumeMem_main ?_
    | with_reducible refine main_wf (State.kvWait_main (by assumption)) ?_ | with_reducible apply State.kvTouch_wf | dsimp only
    | dsimp +zetaDelta only

/-! ### Of Machine/Attention.lean -/

@[simp] theorem State.attnQueue_main {s : State} {j : Issue} {o : YF} {resume : Bool} :
    (State.attnQueue s j o resume).main = s.main := by
  unfold State.attnQueue; (try dsimp only)
  repeat' first
    | with_reducible rfl | intro _ | split | (with_reducible refine Eq.trans (foldl_main ?_) ?_)
    | with_reducible refine Eq.trans State.spoilUses_main ?_ | with_reducible refine Eq.trans State.newId_main ?_
    | with_reducible refine Eq.trans State.useTile_main ?_ | with_reducible refine Eq.trans State.setSlot_main ?_
    | with_reducible refine Eq.trans (State.modGroup_main ..) ?_ | with_reducible refine Eq.trans (State.modCore_main ..) ?_
    | with_reducible refine snd_main (by assumption) ?_ | dsimp only | dsimp +zetaDelta only

@[simp] theorem attnEffect_main {o : YF} {resume : Bool} {t : State} {j : Issue} :
    (attnEffect o resume t j).main = t.main := by
  unfold attnEffect; (try dsimp only)
  repeat' first
    | with_reducible rfl | intro _ | split | (with_reducible refine Eq.trans (foldl_main ?_) ?_)
    | with_reducible refine Eq.trans State.trapAt_main ?_ | with_reducible refine Eq.trans State.hold_main ?_
    | with_reducible refine Eq.trans State.done_main ?_ | with_reducible refine Eq.trans State.attnQueue_main ?_ | dsimp only
    | dsimp +zetaDelta only

@[simp] theorem State.attnPut_main {s : State} {r : AttnRun} {k : Nat} {v : Nat} :
    (State.attnPut s r k v).main = s.main := by
  unfold State.attnPut; (try dsimp only)
  repeat' first
    | with_reducible rfl | intro _ | split | (with_reducible refine Eq.trans (foldl_main ?_) ?_)
    | with_reducible refine Eq.trans (State.modCore_main ..) ?_ | with_reducible refine Eq.trans State.shmPut_main ?_
    | with_reducible refine Eq.trans State.keepLines_main ?_ | dsimp only | dsimp +zetaDelta only

theorem State.attnKeep_wf {s : State} {r : AttnRun} {k : Nat} {first : Nat} {n : Nat} (hw : s.main.wf = true) :
    (State.attnKeep s r k first n).main.wf = true := by
  unfold State.attnKeep; (try dsimp only)
  repeat' first
    | with_reducible exact hw | with_reducible assumption | intro _ | split | with_reducible apply foldl_wf
    | with_reducible apply State.kvTouch_wf | dsimp only | dsimp +zetaDelta only

@[simp] theorem State.attnTierSet_main {s : State} {core : Nat} {id : Nat} {l : List TierAsk} :
    (State.attnTierSet s core id l).main = s.main := by
  unfold State.attnTierSet; (try dsimp only)
  repeat' first
    | with_reducible rfl | intro _ | split | (with_reducible refine Eq.trans (foldl_main ?_) ?_)
    | with_reducible refine Eq.trans (State.modCore_main ..) ?_ | dsimp only | dsimp +zetaDelta only

@[simp] theorem State.attnAsk_main {s : State} {op : AttnOp} {lines : List (Nat × Nat)} :
    (State.attnAsk s op lines).main = s.main := by
  unfold State.attnAsk; (try dsimp only)
  repeat' first
    | with_reducible rfl | intro _ | split | (with_reducible refine Eq.trans (foldl_main ?_) ?_)
    | with_reducible refine Eq.trans State.tierSend_main ?_ | with_reducible refine Eq.trans State.attnTierSet_main ?_
    | with_reducible refine fst_main (by assumption) ?_ | dsimp only | dsimp +zetaDelta only

theorem State.phase1_wf {s : State} {r : AttnRun} {qs : List (List FVal)} {x3 : List Nat} (hw : s.main.wf = true) :
    (State.phase1 s r qs x3).1.main.wf = true := by
  fun_induction State.phase1 s r qs x3 <;> (try dsimp only) <;>
  (repeat' first | with_reducible exact hw | with_reducible assumption | intro _ | split | with_reducible apply foldl_wf | with_reducible apply State.attnKeep_wf | with_reducible refine main_wf State.attnPut_main ?_ | (with_reducible apply_assumption) | dsimp only | dsimp +zetaDelta only)

@[simp] theorem State.putRow_main {s : State} {r : AttnRun} {i : Nat} {x : RowRun} :
    (State.putRow s r i x).main = s.main := by
  unfold State.putRow; (try dsimp only)
  repeat' first
    | with_reducible rfl | intro _ | split | (with_reducible refine Eq.trans (foldl_main ?_) ?_)
    | with_reducible refine Eq.trans State.tilePut_main ?_ | with_reducible refine Eq.trans State.setTile_main ?_
    | with_reducible refine Eq.trans State.parityClear_main ?_ | with_reducible refine Eq.trans (State.modGroup_main ..) ?_
    | with_reducible refine Eq.trans State.opErr_main ?_ | dsimp only | dsimp +zetaDelta only

theorem State.visitCommit_main {s : State} {r : AttnRun} {k : Nat} {t : Tokens} {out : State} (e : State.visitCommit s r k t = .ok out) :
    out.main = s.main := by
  unfold State.visitCommit at e; (try dsimp only at e)
  repeat' split at e
  all_goals first | (cases e; done) | (cases e; repeat' first | with_reducible rfl | intro _ | split | (with_reducible refine Eq.trans (foldl_main ?_) ?_) | with_reducible refine Eq.trans State.putRow_main ?_ | dsimp only | dsimp +zetaDelta only; done) | (repeat' first | with_reducible rfl | intro _ | split | (with_reducible refine Eq.trans (foldl_main ?_) ?_) | with_reducible refine Eq.trans State.putRow_main ?_ | dsimp only | dsimp +zetaDelta only)

@[simp] theorem State.descPut_main {s : State} {op : AttnOp} {at' : Nat} {bs : List Byte} :
    (State.descPut s op at' bs).main = s.main := by
  unfold State.descPut; (try dsimp only)
  repeat' first
    | with_reducible rfl | intro _ | split | (with_reducible refine Eq.trans (foldl_main ?_) ?_)
    | with_reducible refine Eq.trans State.slicePut_main ?_ | with_reducible refine Eq.trans State.wbDrainRange_main ?_ | dsimp only
    | dsimp +zetaDelta only

@[simp] theorem State.attnDone_main {s : State} {op : AttnOp} {e : Option (Nat × Word)} :
    (State.attnDone s op e).main = s.main := by
  unfold State.attnDone; (try dsimp only)
  repeat' first
    | with_reducible rfl | intro _ | split | (with_reducible refine Eq.trans (foldl_main ?_) ?_)
    | with_reducible refine Eq.trans State.opErr_main ?_ | with_reducible refine Eq.trans (State.modCore_main ..) ?_
    | with_reducible refine Eq.trans State.opComplete_main ?_ | with_reducible refine Eq.trans State.attnRelease_main ?_ | dsimp only
    | dsimp +zetaDelta only

@[simp] theorem State.attnReport_main {s : State} {x1 : AttnFault} :
    (State.attnReport s x1).1.main = s.main := by
  unfold State.attnReport; (try dsimp only)
  repeat' first
    | with_reducible rfl | intro _ | split | (with_reducible refine Eq.trans (foldl_main ?_) ?_)
    | with_reducible refine Eq.trans State.parityLog_main ?_ | dsimp only | dsimp +zetaDelta only

@[simp] theorem State.queryAdd_main {s : State} {bid : Nat} {q : QueryMark} :
    (State.queryAdd s bid q).main = s.main := by
  unfold State.queryAdd; (try dsimp only)
  repeat' first
    | with_reducible rfl | intro _ | split | (with_reducible refine Eq.trans (foldl_main ?_) ?_)
    | with_reducible refine Eq.trans (State.modBlock_main ..) ?_ | dsimp only | dsimp +zetaDelta only

@[simp] theorem State.queryMove_main {s : State} {bid : Nat} {old : Word} {new : Word} :
    (State.queryMove s bid old new).main = s.main := by
  unfold State.queryMove; (try dsimp only)
  repeat' first
    | with_reducible rfl | intro _ | split | (with_reducible refine Eq.trans (foldl_main ?_) ?_)
    | with_reducible refine Eq.trans (State.modBlock_main ..) ?_ | dsimp only | dsimp +zetaDelta only

@[simp] theorem State.attnStop_main {s : State} {r : AttnRun} {p1 : Bool} {code : Nat} {f : Option AttnFault} :
    (State.attnStop s r p1 code f).main = s.main := by
  unfold State.attnStop; (try dsimp only)
  repeat' first
    | with_reducible rfl | intro _ | split | (with_reducible refine Eq.trans (foldl_main ?_) ?_)
    | with_reducible refine Eq.trans State.tilePut_main ?_ | with_reducible refine Eq.trans State.tileChecked_main ?_
    | with_reducible refine Eq.trans State.opErr_main ?_ | with_reducible refine Eq.trans State.descPut_main ?_
    | with_reducible refine Eq.trans State.attnReport_main ?_ | with_reducible refine Eq.trans State.tileUndef_main ?_
    | with_reducible refine Eq.trans State.rowsUndef_main ?_ | with_reducible refine Eq.trans State.attnDone_main ?_
    | with_reducible refine Eq.trans State.queryAdd_main ?_ | with_reducible refine fst_main (by assumption) ?_ | dsimp only
    | dsimp +zetaDelta only

@[simp] theorem State.attnBad_main {s : State} {op : AttnOp} {d : Desc} {f : AttnFault} :
    (State.attnBad s op d f).main = s.main := by
  unfold State.attnBad; (try dsimp only)
  repeat' first
    | with_reducible rfl | intro _ | split | (with_reducible refine Eq.trans (foldl_main ?_) ?_)
    | with_reducible refine Eq.trans State.descPut_main ?_ | with_reducible refine Eq.trans State.attnReport_main ?_
    | with_reducible refine Eq.trans State.queryMove_main ?_ | with_reducible refine Eq.trans State.opErr_main ?_
    | with_reducible refine Eq.trans State.attnDone_main ?_ | with_reducible refine Eq.trans State.tileUndef_main ?_
    | with_reducible refine fst_main (by assumption) ?_ | dsimp only | dsimp +zetaDelta only

@[simp] theorem State.attnFresh_main {s : State} {r : AttnRun} :
    (State.attnFresh s r).main = s.main := by
  unfold State.attnFresh; (try dsimp only)
  repeat' first
    | with_reducible rfl | intro _ | split | (with_reducible refine Eq.trans (foldl_main ?_) ?_)
    | with_reducible refine Eq.trans State.putRow_main ?_ | dsimp only | dsimp +zetaDelta only

@[simp] theorem State.attnUseSet_main {s : State} {op : AttnOp} {d : Desc} :
    (State.attnUseSet s op d).main = s.main := by
  unfold State.attnUseSet; (try dsimp only)
  repeat' first
    | with_reducible rfl | intro _ | split | (with_reducible refine Eq.trans (foldl_main ?_) ?_)
    | with_reducible refine Eq.trans (State.modGroup_main ..) ?_ | dsimp only | dsimp +zetaDelta only

@[simp] theorem State.attnLost_main {s : State} {r : AttnRun} :
    (State.attnLost s r).main = s.main := by
  unfold State.attnLost; (try dsimp only)
  repeat' first
    | with_reducible rfl | intro _ | split | (with_reducible refine Eq.trans (foldl_main ?_) ?_)
    | with_reducible refine Eq.trans (State.modGroup_main ..) ?_ | with_reducible refine Eq.trans State.descPut_main ?_
    | with_reducible refine Eq.trans State.attnDone_main ?_ | with_reducible refine Eq.trans State.rowsUndef_main ?_
    | with_reducible refine Eq.trans State.tileUndef_main ?_ | dsimp only | dsimp +zetaDelta only

theorem State.attnBegin_wf {s : State} {op : AttnOp} (hw : s.main.wf = true) :
    (State.attnBegin s op).main.wf = true := by
  unfold State.attnBegin; (try dsimp only)
  repeat' first
    | with_reducible exact hw | with_reducible assumption | intro _ | split | with_reducible apply foldl_wf
    | with_reducible refine main_wf State.attnBad_main ?_ | with_reducible refine main_wf State.attnFresh_main ?_
    | with_reducible refine main_wf State.attnUseSet_main ?_ | with_reducible refine main_wf (State.modCore_main ..) ?_
    | with_reducible refine main_wf State.attnStop_main ?_ | with_reducible refine main_wf State.attnLost_main ?_
    | with_reducible apply State.phase1_wf | with_reducible refine main_wf State.attnTierSet_main ?_
    | with_reducible refine fst_wf (by assumption) ?_ | dsimp only | dsimp +zetaDelta only

@[simp] theorem State.attnCut_main {s : State} {op : AttnOp} :
    (State.attnCut s op).main = s.main := by
  unfold State.attnCut; (try dsimp only)
  repeat' first
    | with_reducible rfl | intro _ | split | (with_reducible refine Eq.trans (foldl_main ?_) ?_)
    | with_reducible refine Eq.trans State.descPut_main ?_ | with_reducible refine Eq.trans State.attnDone_main ?_
    | with_reducible refine Eq.trans State.queryMove_main ?_ | dsimp only | dsimp +zetaDelta only

@[simp] theorem State.attnArray_main {s : State} {op : AttnOp} :
    (State.attnArray s op).1.main = s.main := by
  unfold State.attnArray; (try dsimp only)
  repeat' first
    | with_reducible rfl | intro _ | split | (with_reducible refine Eq.trans (foldl_main ?_) ?_)
    | with_reducible refine Eq.trans State.startArrays_main ?_ | with_reducible refine Eq.trans State.modArray_main ?_
    | with_reducible refine fst_main (by assumption) ?_ | dsimp only | dsimp +zetaDelta only

@[simp] theorem State.attnVisited_main {s : State} {r : AttnRun} {k : Nat} {entry : Nat} :
    (State.attnVisited s r k entry).main = s.main := by
  unfold State.attnVisited; (try dsimp only)
  repeat' first
    | with_reducible rfl | intro _ | split | (with_reducible refine Eq.trans (foldl_main ?_) ?_)
    | with_reducible refine Eq.trans (State.modCore_main ..) ?_ | with_reducible refine Eq.trans State.attnPut_main ?_ | dsimp only
    | dsimp +zetaDelta only

@[simp] theorem State.attnStep_main {s : State} {r : AttnRun} {k : Nat} {entry : Nat} :
    (State.attnStep s r k entry).main = s.main := by
  unfold State.attnStep; (try dsimp only)
  repeat' first
    | with_reducible rfl | intro _ | split | (with_reducible refine Eq.trans (foldl_main ?_) ?_)
    | with_reducible refine Eq.trans State.attnStop_main ?_ | with_reducible refine Eq.trans State.attnVisited_main ?_
    | with_reducible refine Eq.trans (State.visitCommit_main (by assumption)) ?_ | dsimp only | dsimp +zetaDelta only

/-! ### Of Machine/Bench.lean -/

theorem State.journalChecked_main {s : State} {j : Issue} {k : State → State} (hk : ∀ s, (k s).main = s.main) :
    (State.journalChecked s j k).main = s.main := by
  unfold State.journalChecked
  repeat' first
    | with_reducible rfl | with_reducible exact hk _ | split | with_reducible refine Eq.trans State.trapAt_main ?_ | dsimp only
    | with_reducible refine Eq.trans (State.modGroup_main ..) ?_

@[simp] theorem State.benchIssue_main {s : State} {op : BenchOp} {o : YF} {j : Issue} :
    (State.benchIssue s op o j).main = s.main := by
  unfold State.benchIssue; (try dsimp only)
  repeat' first
    | with_reducible rfl | intro _ | split | (with_reducible refine Eq.trans (foldl_main ?_) ?_)
    | with_reducible refine Eq.trans State.newId_main ?_ | with_reducible refine Eq.trans State.settle_main ?_
    | with_reducible refine Eq.trans (State.modSplit_main ..) ?_ | with_reducible refine Eq.trans State.benchSend_main ?_
    | with_reducible refine snd_main (by assumption) ?_ | dsimp only | dsimp +zetaDelta only

@[simp] theorem benchFirst_main {op : BenchOp} {o : YF} {t : State} {j : Issue} :
    (benchFirst op o t j).main = t.main := by
  unfold benchFirst; (try dsimp only)
  repeat' first
    | with_reducible rfl | intro _ | split | (with_reducible refine Eq.trans (foldl_main ?_) ?_)
    | with_reducible refine Eq.trans State.trapAt_main ?_ | with_reducible refine Eq.trans State.hold_main ?_
    | with_reducible refine Eq.trans State.benchIssue_main ?_ | with_reducible refine Eq.trans State.wbDrainAll_main ?_
    | with_reducible refine Eq.trans (State.journalChecked_main ?_) ?_ | dsimp only | dsimp +zetaDelta only

@[simp] theorem benchEffect_main {op : BenchOp} {o : YF} {t : State} {j : Issue} :
    (benchEffect op o t j).main = t.main := by
  unfold benchEffect; (try dsimp only)
  repeat' first
    | with_reducible rfl | intro _ | split | (with_reducible refine Eq.trans (foldl_main ?_) ?_)
    | with_reducible refine Eq.trans State.settle_main ?_ | with_reducible refine Eq.trans (State.modSplit_main ..) ?_
    | with_reducible refine Eq.trans State.scalClear_main ?_ | with_reducible refine Eq.trans State.trapAt_main ?_
    | with_reducible refine Eq.trans (issue_main ?_) ?_ | with_reducible refine Eq.trans benchFirst_main ?_ | dsimp only
    | dsimp +zetaDelta only

theorem State.bufferPut_wf {s : State} {ctx : Nat} {pos : Nat} {bs : List Byte} (hw : s.main.wf = true) :
    (State.bufferPut s ctx pos bs).main.wf = true := by
  unfold State.bufferPut; (try dsimp only)
  repeat' first
    | with_reducible exact hw | with_reducible assumption | intro _ | split | with_reducible apply foldl_wf
    | with_reducible refine State.writeCtx_wf (by assumption) ?_ | dsimp only | dsimp +zetaDelta only

theorem State.recordAdd_wf {s : State} {ctx : Nat} {bs : List Byte} (hw : s.main.wf = true) :
    (State.recordAdd s ctx bs).main.wf = true := by
  unfold State.recordAdd; (try dsimp only)
  repeat' first
    | with_reducible exact hw | with_reducible assumption | intro _ | split | with_reducible apply foldl_wf
    | with_reducible refine main_wf State.setJournal_main ?_ | with_reducible apply State.bufferPut_wf | dsimp only | dsimp +zetaDelta only

theorem State.journalChecked_wf {s : State} {j : Issue} {k : State → State}
    (hk : ∀ s, s.main.wf = true → (k s).main.wf = true) (hw : s.main.wf = true) :
    (State.journalChecked s j k).main.wf = true := by
  unfold State.journalChecked
  split
  · exact main_wf (State.trapAt_main.trans (State.modGroup_main ..)) hw
  · split
    · exact main_wf State.trapAt_main hw
    · exact hk _ hw

theorem jrecEffect_wf {o : YF} {n : Nat} {t : State} {j : Issue} (hw : t.main.wf = true) :
    (jrecEffect o n t j).main.wf = true := by
  unfold jrecEffect
  refine State.journalChecked_wf (fun s hs => ?_) hw
  dsimp only
  split
  · exact main_wf State.trapAt_main hs
  · split
    · exact main_wf State.trapAt_main hs
    · split
      · exact main_wf State.consumeMem_main hs
      · split
        · exact main_wf State.hold_main hs
        · exact main_wf State.putScalar_main (State.recordAdd_wf hs)

theorem jrecFirst_wf {o : YF} {t : State} {j : Issue} (hw : t.main.wf = true) :
    (jrecFirst o t j).main.wf = true := by
  unfold jrecFirst; (try dsimp only)
  repeat' first
    | with_reducible exact hw | with_reducible assumption | intro _ | split | with_reducible apply foldl_wf
    | with_reducible refine main_wf State.trapAt_main ?_ | with_reducible refine main_wf State.hold_main ?_
    | with_reducible refine main_wf State.consumeMem_main ?_ | with_reducible apply jrecEffect_wf | dsimp only | dsimp +zetaDelta only

@[simp] theorem State.truncate_main {s : State} {ctx : Nat} {sq : Nat} {upto : Nat} :
    (State.truncate s ctx sq upto).main = s.main := by
  unfold State.truncate; (try dsimp only)
  repeat' first
    | with_reducible rfl | intro _ | split | (with_reducible refine Eq.trans (foldl_main ?_) ?_)
    | with_reducible refine Eq.trans State.setJournal_main ?_ | dsimp only | dsimp +zetaDelta only

@[simp] theorem jtruncEffect_main {o : YF} {t : State} {j : Issue} :
    (jtruncEffect o t j).main = t.main := by
  unfold jtruncEffect; (try dsimp only)
  repeat' first
    | with_reducible rfl | intro _ | split | (with_reducible refine Eq.trans (foldl_main ?_) ?_)
    | with_reducible refine Eq.trans State.putScalar_main ?_ | with_reducible refine Eq.trans State.truncate_main ?_ | dsimp only
    | dsimp +zetaDelta only

@[simp] theorem rngcEffect_main {o : XF} {t : State} {j : Issue} :
    (rngcEffect o t j).main = t.main := by
  unfold rngcEffect; (try dsimp only)
  repeat' first
    | with_reducible rfl | intro _ | split | (with_reducible refine Eq.trans (foldl_main ?_) ?_)
    | with_reducible refine Eq.trans State.done_main ?_ | with_reducible refine Eq.trans State.vsend_main ?_ | dsimp only
    | dsimp +zetaDelta only

@[simp] theorem State.setJstate_main {s : State} {ctx : Nat} {v : Nat} :
    (State.setJstate s ctx v).main = s.main := by
  unfold State.setJstate; (try dsimp only)
  repeat' first
    | with_reducible rfl | intro _ | split | (with_reducible refine Eq.trans (foldl_main ?_) ?_)
    | with_reducible refine Eq.trans (State.setCtxReg_main ..) ?_ | dsimp only | dsimp +zetaDelta only

@[simp] theorem State.setAcked_main {s : State} {ctx : Nat} {n : Nat} :
    (State.setAcked s ctx n).main = s.main := by
  unfold State.setAcked; (try dsimp only)
  repeat' first
    | with_reducible rfl | intro _ | split | (with_reducible refine Eq.trans (foldl_main ?_) ?_)
    | with_reducible refine Eq.trans (State.setCtxReg_main ..) ?_ | dsimp only | dsimp +zetaDelta only

@[simp] theorem State.bindPartner_main {s : State} {ctx : Nat} {st : Nat} :
    (State.bindPartner s ctx st).main = s.main := by
  unfold State.bindPartner; (try dsimp only)
  repeat' first
    | with_reducible rfl | intro _ | split | (with_reducible refine Eq.trans (foldl_main ?_) ?_)
    | with_reducible refine Eq.trans State.setJstate_main ?_ | with_reducible refine Eq.trans State.setJournal_main ?_ | dsimp only
    | dsimp +zetaDelta only

@[simp] theorem State.jcfgEnable_main {s : State} {ctx : Nat} {v : Word} :
    (State.jcfgEnable s ctx v).main = s.main := by
  unfold State.jcfgEnable; (try dsimp only)
  repeat' first
    | with_reducible rfl | intro _ | split | (with_reducible refine Eq.trans (foldl_main ?_) ?_)
    | with_reducible refine Eq.trans (State.setCtxReg_main ..) ?_ | with_reducible refine Eq.trans State.bindPartner_main ?_ | dsimp only
    | dsimp +zetaDelta only

@[simp] theorem State.jcfgUnbind_main {s : State} {ctx : Nat} {v : Word} :
    (State.jcfgUnbind s ctx v).main = s.main := by
  unfold State.jcfgUnbind; (try dsimp only)
  repeat' first
    | with_reducible rfl | intro _ | split | (with_reducible refine Eq.trans (foldl_main ?_) ?_)
    | with_reducible refine Eq.trans State.setJstate_main ?_ | with_reducible refine Eq.trans (State.setCtxReg_main ..) ?_ | dsimp only
    | dsimp +zetaDelta only

@[simp] theorem State.jbufSet_main {s : State} {ctx : Nat} {v : Word} :
    (State.jbufSet s ctx v).main = s.main := by
  unfold State.jbufSet; (try dsimp only)
  repeat' first
    | with_reducible rfl | intro _ | split | (with_reducible refine Eq.trans (foldl_main ?_) ?_)
    | with_reducible refine Eq.trans (State.setCtxReg_main ..) ?_ | with_reducible refine Eq.trans State.setJournal_main ?_
    | with_reducible refine Eq.trans State.setAcked_main ?_ | dsimp only | dsimp +zetaDelta only

@[simp] theorem State.partnerLost_main {s : State} {ctx : Nat} :
    (State.partnerLost s ctx).main = s.main := by
  unfold State.partnerLost; (try dsimp only)
  repeat' first
    | with_reducible rfl | intro _ | split | (with_reducible refine Eq.trans (foldl_main ?_) ?_)
    | with_reducible refine Eq.trans State.setJstate_main ?_ | dsimp only | dsimp +zetaDelta only

@[simp] theorem State.partnerStore_main {s : State} :
    (State.partnerStore s).main = s.main := by
  unfold State.partnerStore; (try dsimp only)
  repeat' first | with_reducible rfl | intro _ | split | (with_reducible refine Eq.trans (foldl_main ?_) ?_) | dsimp only | dsimp +zetaDelta only

/-! ### Of Machine/Control.lean -/

@[simp] theorem branchOp_main {o : BR} {needs : List Nat} {target : Issue → Word} {checked : Bool} {link : Option Nat} {s : State} {i : Issue} :
    (branchOp o needs target checked link s i).main = s.main := by
  unfold branchOp; (try dsimp only)
  repeat' first
    | with_reducible rfl | intro _ | split | (with_reducible refine Eq.trans (foldl_main ?_) ?_)
    | with_reducible refine Eq.trans (issue_main ?_) ?_ | with_reducible refine Eq.trans State.done_main ?_
    | with_reducible refine Eq.trans State.trapAt_main ?_ | with_reducible refine Eq.trans (State.setGroup_main ..) ?_
    | with_reducible refine Eq.trans State.settle_main ?_ | with_reducible refine Eq.trans State.scalClear_main ?_ | dsimp only
    | dsimp +zetaDelta only

@[simp] theorem splitEffect_main {o : SP} {t : State} {j : Issue} :
    (splitEffect o t j).main = t.main := by
  unfold splitEffect; (try dsimp only)
  repeat' first
    | with_reducible rfl | intro _ | split | (with_reducible refine Eq.trans (foldl_main ?_) ?_)
    | with_reducible refine Eq.trans State.trapAt_main ?_ | with_reducible refine Eq.trans State.settle_main ?_
    | with_reducible refine Eq.trans State.copiedClear_main ?_ | with_reducible refine Eq.trans (State.setGroup_main ..) ?_ | dsimp only
    | dsimp +zetaDelta only

@[simp] theorem joinEffect_main {t : State} {j : Issue} :
    (joinEffect t j).main = t.main := by
  unfold joinEffect; (try dsimp only)
  repeat' first
    | with_reducible rfl | intro _ | split | (with_reducible refine Eq.trans (foldl_main ?_) ?_)
    | with_reducible refine Eq.trans State.trapAt_main ?_ | with_reducible refine Eq.trans State.settle_main ?_
    | with_reducible refine Eq.trans (State.setGroup_main ..) ?_ | dsimp only | dsimp +zetaDelta only

@[simp] theorem exitEffect_main {o : EX} {t : State} {j : Issue} :
    (exitEffect o t j).main = t.main := by
  unfold exitEffect; (try dsimp only)
  repeat' first
    | with_reducible rfl | intro _ | split | (with_reducible refine Eq.trans (foldl_main ?_) ?_)
    | with_reducible refine Eq.trans State.hold_main ?_ | with_reducible refine Eq.trans State.settle_main ?_
    | with_reducible refine Eq.trans State.copiedClear_main ?_ | with_reducible refine Eq.trans (State.setGroup_main ..) ?_ | dsimp only
    | dsimp +zetaDelta only

/-! ### Of Machine/Fetch.lean -/

@[simp] theorem State.retime_main {s : State} :
    (State.retime s).main = s.main := by
  unfold State.retime; (try dsimp only)
  repeat' first | with_reducible rfl | intro _ | split | (with_reducible refine Eq.trans (foldl_main ?_) ?_) | dsimp only | dsimp +zetaDelta only

theorem State.enterClause_wf {s : State} {gid : Nat} {sid : Nat} (hw : s.main.wf = true) :
    (State.enterClause s gid sid).main.wf = true := by
  unfold State.enterClause; (try dsimp only)
  repeat' first
    | with_reducible exact hw | with_reducible assumption | intro _ | split | with_reducible apply foldl_wf
    | with_reducible refine main_wf State.trapAt_main ?_ | with_reducible apply State.fetchTouch_wf
    | with_reducible refine main_wf (State.setGroup_main ..) ?_ | dsimp only | dsimp +zetaDelta only

theorem State.groupPick_wf {s : State} {core : Nat} {q : Nat} (hw : s.main.wf = true) :
    (State.groupPick s core q).main.wf = true := by
  unfold State.groupPick; (try dsimp only)
  repeat' first
    | with_reducible exact hw | with_reducible assumption | intro _ | split | with_reducible apply foldl_wf
    | with_reducible apply State.enterClause_wf | dsimp only | dsimp +zetaDelta only

@[simp] theorem State.parkAfter_main {s : State} {i : Issue} :
    (State.parkAfter s i).main = s.main := by
  unfold State.parkAfter; (try dsimp only)
  repeat' first
    | with_reducible rfl | intro _ | split | (with_reducible refine Eq.trans (foldl_main ?_) ?_)
    | with_reducible refine Eq.trans (State.modGroup_main ..) ?_ | dsimp only | dsimp +zetaDelta only

@[simp] theorem State.stepAfter_main {s : State} {i : Issue} :
    (State.stepAfter s i).main = s.main := by
  unfold State.stepAfter; (try dsimp only)
  repeat' first
    | with_reducible rfl | intro _ | split | (with_reducible refine Eq.trans (foldl_main ?_) ?_)
    | with_reducible refine Eq.trans State.flush_main ?_ | with_reducible refine Eq.trans (State.modGroup_main ..) ?_ | dsimp only
    | dsimp +zetaDelta only

@[simp] theorem State.letGo_main {s : State} {i : Issue} :
    (State.letGo s i).main = s.main := by
  unfold State.letGo; (try dsimp only)
  repeat' first | with_reducible rfl | intro _ | split | (with_reducible refine Eq.trans (foldl_main ?_) ?_) | dsimp only | dsimp +zetaDelta only

@[simp] theorem State.afterIssue_main {s : State} {i : Issue} {sw : Bool} :
    (State.afterIssue s i sw).main = s.main := by
  unfold State.afterIssue; (try dsimp only)
  repeat' first
    | with_reducible rfl | intro _ | split | (with_reducible refine Eq.trans (foldl_main ?_) ?_)
    | with_reducible refine Eq.trans (State.modGroup_main ..) ?_ | with_reducible refine Eq.trans State.stepAfter_main ?_
    | with_reducible refine Eq.trans State.letGo_main ?_ | with_reducible refine Eq.trans State.parkAfter_main ?_ | dsimp only
    | dsimp +zetaDelta only

/-! ### Of Machine/Place.lean -/

@[simp] theorem State.launch_main {s : State} {ctx : Nat} {id : Nat} {depth : Nat} {parent : Option Nat} {node : Option (Nat × Nat)} {r : List Byte} {params : List Word} :
    (State.launch s ctx id depth parent node r params).main = s.main := by
  unfold State.launch; (try dsimp only)
  repeat' first
    | with_reducible rfl | intro _ | split | (with_reducible refine Eq.trans (foldl_main ?_) ?_)
    | with_reducible refine Eq.trans State.newId_main ?_ | with_reducible refine snd_main (by assumption) ?_ | dsimp only
    | dsimp +zetaDelta only

@[simp] theorem State.startClear_main {s : State} {g : Group} {params : Nat} {lanes : Nat} :
    (State.startClear s g params lanes).main = s.main := by
  unfold State.startClear; (try dsimp only)
  repeat' first
    | with_reducible rfl | intro _ | split | (with_reducible refine Eq.trans (foldl_main ?_) ?_)
    | with_reducible refine Eq.trans State.scalClear_main ?_ | with_reducible refine Eq.trans State.regClear_main ?_ | dsimp only
    | dsimp +zetaDelta only

@[simp] theorem State.startGroup_main {s : State} {bid : Nat} {slot : Nat} {pc : Word} {mask : Mask} {lanes : Sparse Word} :
    (State.startGroup s bid slot pc mask lanes).main = s.main := by
  unfold State.startGroup; (try dsimp only)
  repeat' first
    | with_reducible rfl | intro _ | split | (with_reducible refine Eq.trans (foldl_main ?_) ?_)
    | with_reducible refine Eq.trans State.newId_main ?_ | with_reducible refine Eq.trans State.newSeed_main ?_
    | with_reducible refine Eq.trans (State.setBlock_main ..) ?_ | with_reducible refine Eq.trans (State.setGroup_main ..) ?_
    | with_reducible refine Eq.trans State.startClear_main ?_ | with_reducible refine snd_main (by assumption) ?_ | dsimp only
    | dsimp +zetaDelta only

@[simp] theorem State.placeBlock_main {s : State} {uid : Nat} {g : Grid} {core : Nat} {quads : List (Nat × Nat)} :
    (State.placeBlock s uid g core quads).main = s.main := by
  unfold State.placeBlock; (try dsimp only)
  repeat' first
    | with_reducible rfl | intro _ | split | (with_reducible refine Eq.trans (foldl_main ?_) ?_)
    | with_reducible refine Eq.trans State.newId_main ?_ | with_reducible refine Eq.trans State.newSeed_main ?_
    | with_reducible refine Eq.trans (State.setBlock_main ..) ?_ | with_reducible refine Eq.trans State.setTile_main ?_
    | with_reducible refine Eq.trans State.modGrid_main ?_ | with_reducible refine Eq.trans State.startGroup_main ?_
    | with_reducible refine snd_main (by assumption) ?_ | dsimp only | dsimp +zetaDelta only

@[simp] theorem State.released_main {s : State} {bid : Nat} :
    (State.released s bid).main = s.main := by
  unfold State.released; (try dsimp only)
  repeat' first
    | with_reducible rfl | intro _ | split | (with_reducible refine Eq.trans (foldl_main ?_) ?_)
    | with_reducible refine Eq.trans State.setTile_main ?_ | with_reducible refine Eq.trans State.removeBlock_main ?_ | dsimp only
    | dsimp +zetaDelta only

@[simp] theorem State.nodeExit_main {s : State} {g : Group} :
    (State.nodeExit s g).main = s.main := by
  unfold State.nodeExit; (try dsimp only)
  repeat' first
    | with_reducible rfl | intro _ | split | (with_reducible refine Eq.trans (foldl_main ?_) ?_)
    | with_reducible refine Eq.trans State.wbDrainAll_main ?_ | dsimp only | dsimp +zetaDelta only

@[simp] theorem State.recordDrop_main {s : State} {ctx : Nat} {va : Nat} :
    (State.recordDrop s ctx va).main = s.main := by
  unfold State.recordDrop; (try dsimp only)
  repeat' first
    | with_reducible rfl | intro _ | split | (with_reducible refine Eq.trans (foldl_main ?_) ?_)
    | with_reducible refine Eq.trans (State.setCtx_main ..) ?_ | dsimp only | dsimp +zetaDelta only

theorem State.writeBlockRecord_wf {s : State} {bid : Nat} {b : Block} (hw : s.main.wf = true) :
    (State.writeBlockRecord s bid b).main.wf = true := by
  unfold State.writeBlockRecord
  extract_lets put saved s1 s2 t s3
  have hp : ∀ (u : State) (va : Nat) (bs : List Byte), u.main.wf = true → (put u va bs).main.wf = true := by
    intro u va bs hu
    unfold put
    split
    · exact State.writeCtx_wf (by assumption) hu
    · exact hu
  clear_value put
  have h1 : s1.main.wf = true := hp _ _ _ hw
  have h2 : s2.main.wf = true := by
    unfold s2
    split
    · exact h1
    · exact hp _ _ _ h1
  exact foldl_wf (fun _ _ hu => hp _ _ _ (hp _ _ _ hu)) (hp _ _ _ h2)

theorem State.wholeDone_wf {s : State} {bid : Nat} (hw : s.main.wf = true) :
    (State.wholeDone s bid).main.wf = true := by
  unfold State.wholeDone; (try dsimp only)
  repeat' first
    | with_reducible exact hw | with_reducible assumption | intro _ | split | with_reducible apply foldl_wf
    | with_reducible refine main_wf (State.setBlock_main ..) ?_ | with_reducible refine main_wf State.recordDrop_main ?_
    | with_reducible apply State.writeBlockRecord_wf | with_reducible refine main_wf (State.modCore_main ..) ?_ | dsimp only
    | dsimp +zetaDelta only

theorem State.evictDone_wf {s : State} {gid : Nat} {g : Group} {h : Handler} (hw : s.main.wf = true) :
    (State.evictDone s gid g h).main.wf = true := by
  unfold State.evictDone; (try dsimp only)
  repeat' first
    | with_reducible exact hw | with_reducible assumption | intro _ | split | with_reducible apply foldl_wf
    | with_reducible refine main_wf State.forgetGroup_main ?_ | with_reducible refine main_wf State.releaseSlots_main ?_
    | with_reducible refine main_wf (State.setCtx_main ..) ?_ | with_reducible refine main_wf (State.setCtxReg_main ..) ?_
    | with_reducible refine main_wf (State.setGroup_main ..) ?_ | with_reducible apply State.wholeDone_wf
    | with_reducible refine main_wf State.emptyCache_main ?_ | dsimp only | dsimp +zetaDelta only

theorem State.groupGone_wf {s : State} {gid : Nat} {g : Group} (hw : s.main.wf = true) :
    (State.groupGone s gid g).main.wf = true := by
  unfold State.groupGone; (try dsimp only)
  repeat' first
    | with_reducible exact hw | with_reducible assumption | intro _ | split | with_reducible apply foldl_wf
    | with_reducible apply State.blockCheck_wf | with_reducible apply State.wholeDone_wf
    | with_reducible refine main_wf State.removeGroup_main ?_ | with_reducible refine main_wf State.nodeExit_main ?_ | dsimp only
    | dsimp +zetaDelta only

/-! ### Of Machine/MainMem.lean -/

theorem State.performAt_wf {s : State} {r : MemReq} {pa : Nat} (hw : s.main.wf = true) :
    (State.performAt s r pa).1.main.wf = true := by
  unfold State.performAt; (try dsimp only)
  repeat' first
    | with_reducible exact hw | with_reducible assumption | intro _ | split | with_reducible apply foldl_wf
    | with_reducible refine main_wf State.bursts_main ?_ | with_reducible refine main_wf State.correct_main ?_
    | with_reducible apply State.memAtomic_wf | with_reducible apply State.writePa_wf
    | with_reducible refine main_wf State.copyWrote_main ?_ | with_reducible apply State.memPut_wf
    | with_reducible refine main_wf State.poisonBad_main ?_ | with_reducible refine fst_wf (by assumption) ?_ | dsimp only
    | dsimp +zetaDelta only

@[simp] theorem State.sendBack_main {s : State} {r : MemReq} {o : Outcome_} :
    (State.sendBack s r o).main = s.main := by
  unfold State.sendBack; (try dsimp only)
  repeat' first | with_reducible rfl | intro _ | split | (with_reducible refine Eq.trans (foldl_main ?_) ?_) | dsimp only | dsimp +zetaDelta only

theorem State.failReq_wf {s : State} {r : MemReq} {st : MemStatus} (hw : s.main.wf = true) :
    (State.failReq s r st).main.wf = true := by
  unfold State.failReq; (try dsimp only)
  repeat' first
    | with_reducible exact hw | with_reducible assumption | intro _ | split | with_reducible apply foldl_wf
    | with_reducible apply State.lostWrite_wf | with_reducible refine main_wf State.sendBack_main ?_ | dsimp only | dsimp +zetaDelta only

@[simp] theorem State.atomicBack_main {s : State} {c : Completion} {gid : Nat} {pend : Option Nat} {sid : Nat} {es : List Elem} :
    (State.atomicBack s c gid pend sid es).main = s.main := by
  unfold State.atomicBack; (try dsimp only)
  repeat' first
    | with_reducible rfl | intro _ | split | (with_reducible refine Eq.trans (foldl_main ?_) ?_)
    | with_reducible refine Eq.trans State.takeReply_main ?_ | with_reducible refine Eq.trans State.poisonLog_main ?_
    | with_reducible refine Eq.trans State.takeTrap_main ?_ | with_reducible refine Eq.trans State.settle_main ?_ | dsimp only
    | dsimp +zetaDelta only

@[simp] theorem State.copyBack_main {s : State} {c : Completion} {copy : Nat} {off : Nat} :
    (State.copyBack s c copy off).main = s.main := by
  unfold State.copyBack; (try dsimp only)
  repeat' first
    | with_reducible rfl | intro _ | split | (with_reducible refine Eq.trans (foldl_main ?_) ?_)
    | with_reducible refine Eq.trans State.copyLess_main ?_ | with_reducible refine Eq.trans State.copyErr_main ?_
    | with_reducible refine Eq.trans State.copyLine'_main ?_ | dsimp only | dsimp +zetaDelta only

@[simp] theorem State.hostPart_main {s : State} {acc : Nat} {off : Nat} {data : List Byte} {bad : Bool} :
    (State.hostPart s acc off data bad).main = s.main := by
  unfold State.hostPart; (try dsimp only)
  repeat' first | with_reducible rfl | intro _ | split | (with_reducible refine Eq.trans (foldl_main ?_) ?_) | dsimp only | dsimp +zetaDelta only

theorem State.deliverMem_wf {s : State} {c : Completion} (hw : s.main.wf = true) :
    (State.deliverMem s c).main.wf = true := by
  unfold State.deliverMem; (try dsimp only)
  repeat' first
    | with_reducible exact hw | with_reducible assumption | intro _ | split | with_reducible apply foldl_wf
    | with_reducible refine main_wf State.atomicBack_main ?_ | with_reducible refine main_wf State.copyLess_main ?_
    | with_reducible apply State.copyPut_wf | with_reducible apply State.lostRead_wf | with_reducible refine main_wf State.copyBack_main ?_
    | with_reducible refine main_wf (State.modSplit_main ..) ?_ | with_reducible refine main_wf State.hostPart_main ?_
    | with_reducible refine main_wf (State.modCore_main ..) ?_ | dsimp only | dsimp +zetaDelta only

@[simp] theorem State.avashFlit_main {s : State} {port : Nat} {n : Nat} {crcOk : Bool} :
    (State.avashFlit s port n crcOk).main = s.main := by
  unfold State.avashFlit; (try dsimp only)
  repeat' first
    | with_reducible rfl | intro _ | split | (with_reducible refine Eq.trans (foldl_main ?_) ?_)
    | with_reducible refine Eq.trans (State.setPkgReg_main ..) ?_ | dsimp only | dsimp +zetaDelta only

@[simp] theorem State.dieFlit_main {s : State} {id : Nat} {crcOk : Bool} :
    (State.dieFlit s id crcOk).main = s.main := by
  unfold State.dieFlit; (try dsimp only)
  repeat' first | with_reducible rfl | intro _ | split | (with_reducible refine Eq.trans (foldl_main ?_) ?_) | dsimp only | dsimp +zetaDelta only

@[simp] theorem State.scrubCount_main {s : State} {unit : Nat} :
    (State.scrubCount s unit).main = s.main := by
  unfold State.scrubCount; (try dsimp only)
  repeat' first
    | with_reducible rfl | intro _ | split | (with_reducible refine Eq.trans (foldl_main ?_) ?_)
    | with_reducible refine Eq.trans (State.setBaseDie_main ..) ?_ | dsimp only | dsimp +zetaDelta only

@[simp] theorem State.cxpEnable_main {s : State} {port : Nat} {en : Bool} :
    (State.cxpEnable s port en).main = s.main := by
  unfold State.cxpEnable; (try dsimp only)
  repeat' first
    | with_reducible rfl | intro _ | split | (with_reducible refine Eq.trans (foldl_main ?_) ?_)
    | with_reducible refine Eq.trans (State.setPkgReg_main ..) ?_ | dsimp only | dsimp +zetaDelta only

theorem State.migPerform_wf {s : State} {r : MemReq} {pa : Nat} (hw : s.main.wf = true) :
    (State.migPerform s r pa).1.main.wf = true := by
  unfold State.migPerform; (try dsimp only)
  repeat' first
    | with_reducible exact hw | with_reducible assumption | intro _ | split | with_reducible apply foldl_wf
    | with_reducible apply State.performAt_wf | with_reducible refine main_wf State.pickOne_main ?_
    | with_reducible refine fst_wf (by assumption) ?_ | dsimp only | dsimp +zetaDelta only

theorem State.migAnswer_wf {s : State} {r : MemReq} {pa : Nat} (hw : s.main.wf = true) :
    (State.migAnswer s r pa).main.wf = true := by
  unfold State.migAnswer; (try dsimp only)
  repeat' first
    | with_reducible exact hw | with_reducible assumption | intro _ | split | with_reducible apply foldl_wf
    | with_reducible apply State.migPerform_wf | with_reducible refine main_wf State.sendBack_main ?_
    | with_reducible refine fst_wf (by assumption) ?_ | dsimp only | dsimp +zetaDelta only

theorem State.migWrites_wf {s : State} {r : MemReq} {x2 : List Nat} (hw : s.main.wf = true) :
    (State.migWrites s r x2).1.main.wf = true := by
  fun_induction State.migWrites s r x2 <;> (try dsimp only) <;>
  (repeat' first | with_reducible exact hw | with_reducible assumption | intro _ | split | with_reducible apply foldl_wf | with_reducible apply State.migPerform_wf | with_reducible refine fst_wf (by assumption) ?_ | (with_reducible apply_assumption) | dsimp only | dsimp +zetaDelta only)

theorem State.migHalf_wf {s : State} {r : MemReq} {pas : List Nat} {link : LineStatus} {bytes : List Byte} {bad : List Nat} {st : MemStatus} (hw : s.main.wf = true) :
    (State.migHalf s r pas link bytes bad st).main.wf = true := by
  unfold State.migHalf; (try dsimp only)
  repeat' first
    | with_reducible exact hw | with_reducible assumption | intro _ | split | with_reducible apply foldl_wf
    | with_reducible refine main_wf State.sendBack_main ?_ | with_reducible apply State.lostWrite_wf | with_reducible apply State.memPut_wf
    | dsimp only | dsimp +zetaDelta only

theorem State.migDualServe_wf {s : State} {k : Nat} {off : Nat} {r : MemReq} {link : LineStatus} (hw : s.main.wf = true) :
    (State.migDualServe s k off r link).main.wf = true := by
  unfold State.migDualServe; (try dsimp only)
  repeat' first
    | with_reducible exact hw | with_reducible assumption | intro _ | split | with_reducible apply foldl_wf
    | with_reducible apply State.migAnswer_wf | with_reducible apply State.failReq_wf | with_reducible apply State.migWrites_wf
    | with_reducible refine main_wf State.sendBack_main ?_ | with_reducible apply State.migHalf_wf
    | with_reducible apply State.migPerform_wf | with_reducible apply State.migCopy_wf | with_reducible refine main_wf State.migFail_main ?_
    | with_reducible refine fst_wf (by assumption) ?_ | dsimp only | dsimp +zetaDelta only

theorem State.migAt_wf {s : State} {r : MemReq} {pa : Nat} {link : LineStatus} (hw : s.main.wf = true) :
    (State.migAt s r pa link).main.wf = true := by
  unfold State.migAt; (try dsimp only)
  repeat' first
    | with_reducible exact hw | with_reducible assumption | intro _ | split | with_reducible apply foldl_wf
    | with_reducible apply State.migAnswer_wf | with_reducible apply State.failReq_wf | dsimp only | dsimp +zetaDelta only

theorem State.migServe_wf {s : State} {k : Nat} {r : MemReq} {link : LineStatus} (hw : s.main.wf = true) :
    (State.migServe s k r link).main.wf = true := by
  unfold State.migServe; (try dsimp only)
  repeat' first
    | with_reducible exact hw | with_reducible assumption | intro _ | split | with_reducible apply foldl_wf
    | with_reducible apply State.migAt_wf | with_reducible apply State.migDualServe_wf | with_reducible apply State.migAnswer_wf
    | with_reducible apply State.migPull_wf | with_reducible apply State.failReq_wf | with_reducible refine main_wf State.migFail_main ?_
    | with_reducible refine main_wf State.migMark_main ?_ | dsimp only | dsimp +zetaDelta only

@[simp] theorem State.migArm_main {s : State} {k : Nat} :
    (State.migArm s k).main = s.main := by
  unfold State.migArm; (try dsimp only)
  repeat' first
    | with_reducible rfl | intro _ | split | (with_reducible refine Eq.trans (foldl_main ?_) ?_)
    | with_reducible refine Eq.trans (State.setMig_main ..) ?_ | with_reducible refine Eq.trans State.setMigState_main ?_
    | with_reducible refine Eq.trans (State.setPkgReg_main ..) ?_ | dsimp only | dsimp +zetaDelta only

@[simp] theorem State.migStart_main {s : State} {k : Nat} :
    (State.migStart s k).main = s.main := by
  unfold State.migStart; (try dsimp only)
  repeat' first
    | with_reducible rfl | intro _ | split | (with_reducible refine Eq.trans (foldl_main ?_) ?_)
    | with_reducible refine Eq.trans State.setMigState_main ?_ | dsimp only | dsimp +zetaDelta only

@[simp] theorem State.migSwitch_main {s : State} {k : Nat} :
    (State.migSwitch s k).main = s.main := by
  unfold State.migSwitch; (try dsimp only)
  repeat' first
    | with_reducible rfl | intro _ | split | (with_reducible refine Eq.trans (foldl_main ?_) ?_)
    | with_reducible refine Eq.trans State.setMigState_main ?_ | dsimp only | dsimp +zetaDelta only

@[simp] theorem State.migDone_main {s : State} {k : Nat} :
    (State.migDone s k).main = s.main := by
  unfold State.migDone; (try dsimp only)
  repeat' first
    | with_reducible rfl | intro _ | split | (with_reducible refine Eq.trans (foldl_main ?_) ?_)
    | with_reducible refine Eq.trans State.setMigState_main ?_ | with_reducible refine Eq.trans (State.setPkgReg_main ..) ?_ | dsimp only
    | dsimp +zetaDelta only

@[simp] theorem State.migFinish_main {s : State} {k : Nat} :
    (State.migFinish s k).main = s.main := by
  unfold State.migFinish; (try dsimp only)
  repeat' first
    | with_reducible rfl | intro _ | split | (with_reducible refine Eq.trans (foldl_main ?_) ?_)
    | with_reducible refine Eq.trans State.migDone_main ?_ | with_reducible refine Eq.trans (State.setMig_main ..) ?_ | dsimp only
    | dsimp +zetaDelta only

@[simp] theorem State.migAbort_main {s : State} {k : Nat} :
    (State.migAbort s k).main = s.main := by
  unfold State.migAbort; (try dsimp only)
  repeat' first
    | with_reducible rfl | intro _ | split | (with_reducible refine Eq.trans (foldl_main ?_) ?_)
    | with_reducible refine Eq.trans State.setMigState_main ?_ | with_reducible refine Eq.trans State.migDone_main ?_
    | with_reducible refine Eq.trans State.poisonPa_main ?_ | dsimp only | dsimp +zetaDelta only

@[simp] theorem State.migClear_main {s : State} {k : Nat} :
    (State.migClear s k).main = s.main := by
  unfold State.migClear; (try dsimp only)
  repeat' first
    | with_reducible rfl | intro _ | split | (with_reducible refine Eq.trans (foldl_main ?_) ?_)
    | with_reducible refine Eq.trans State.setMigState_main ?_ | dsimp only | dsimp +zetaDelta only

@[simp] theorem State.migWriteReg_main {s : State} {k : Nat} {v : Word} :
    (State.migWriteReg s k v).main = s.main := by
  unfold State.migWriteReg; (try dsimp only)
  repeat' first
    | with_reducible rfl | intro _ | split | (with_reducible refine Eq.trans (foldl_main ?_) ?_)
    | with_reducible refine Eq.trans (State.setPkgReg_main ..) ?_ | with_reducible refine Eq.trans State.migArm_main ?_
    | with_reducible refine Eq.trans State.migStart_main ?_ | with_reducible refine Eq.trans State.migSwitch_main ?_
    | with_reducible refine Eq.trans State.migFinish_main ?_ | with_reducible refine Eq.trans State.migAbort_main ?_
    | with_reducible refine Eq.trans State.migClear_main ?_ | dsimp only | dsimp +zetaDelta only

@[simp] theorem State.invalidate_main {s : State} {v : Word} :
    (State.invalidate s v).main = s.main := by
  unfold State.invalidate; (try dsimp only)
  repeat' first
    | with_reducible rfl | intro _ | split | (with_reducible refine Eq.trans (foldl_main ?_) ?_)
    | with_reducible refine Eq.trans (State.setPkgReg_main ..) ?_ | dsimp only | dsimp +zetaDelta only

/-! ### Of Machine/Channels.lean -/

@[simp] theorem State.switchRate_main {s : State} {ch : Nat} {r : Rate} :
    (State.switchRate s ch r).main = s.main := by
  unfold State.switchRate; (try dsimp only)
  repeat' first
    | with_reducible rfl | intro _ | split | (with_reducible refine Eq.trans (foldl_main ?_) ?_)
    | with_reducible refine Eq.trans State.closeWindow_main ?_ | with_reducible refine Eq.trans (State.setChannel_main ..) ?_ | dsimp only
    | dsimp +zetaDelta only

@[simp] theorem State.actThermal_main {s : State} {ch : Nat} :
    (State.actThermal s ch).main = s.main := by
  unfold State.actThermal; (try dsimp only)
  repeat' first
    | with_reducible rfl | intro _ | split | (with_reducible refine Eq.trans (foldl_main ?_) ?_)
    | with_reducible refine Eq.trans (State.setChannel_main ..) ?_ | dsimp only | dsimp +zetaDelta only

@[simp] theorem State.evalRate_main {s : State} {ch : Nat} :
    (State.evalRate s ch).main = s.main := by
  unfold State.evalRate; (try dsimp only)
  repeat' first
    | with_reducible rfl | intro _ | split | (with_reducible refine Eq.trans (foldl_main ?_) ?_)
    | with_reducible refine Eq.trans State.actThermal_main ?_ | with_reducible refine Eq.trans State.switchRate_main ?_ | dsimp only
    | dsimp +zetaDelta only

@[simp] theorem State.evalRates_main {s : State} :
    (State.evalRates s).main = s.main := by
  unfold State.evalRates; (try dsimp only)
  repeat' first
    | with_reducible rfl | intro _ | split | (with_reducible refine Eq.trans (foldl_main ?_) ?_)
    | with_reducible refine Eq.trans State.evalRate_main ?_ | dsimp only | dsimp +zetaDelta only

@[simp] theorem State.reportHeat_main {s : State} :
    (State.reportHeat s).main = s.main := by
  unfold State.reportHeat; (try dsimp only)
  repeat' first
    | with_reducible rfl | intro _ | split | (with_reducible refine Eq.trans (foldl_main ?_) ?_)
    | with_reducible refine Eq.trans (State.setPkgReg_main ..) ?_ | dsimp only | dsimp +zetaDelta only

@[simp] theorem State.hostSendPart_main {s : State} {op : MemOp} {pa : Nat} :
    (State.hostSendPart s op pa).main = s.main := by
  unfold State.hostSendPart; (try dsimp only)
  repeat' first
    | with_reducible rfl | intro _ | split | (with_reducible refine Eq.trans (foldl_main ?_) ?_)
    | with_reducible refine Eq.trans State.memSendAt_main ?_ | dsimp only | dsimp +zetaDelta only

@[simp] theorem State.hostReadAt_main {s : State} {pa : Nat} {n : Nat} :
    (State.hostReadAt s pa n).main = s.main := by
  unfold State.hostReadAt; (try dsimp only)
  repeat' first
    | with_reducible rfl | intro _ | split | (with_reducible refine Eq.trans (foldl_main ?_) ?_)
    | with_reducible refine Eq.trans State.serveRead_main ?_ | with_reducible refine Eq.trans State.newId_main ?_
    | with_reducible refine Eq.trans State.hostSendPart_main ?_ | with_reducible refine snd_main (by assumption) ?_ | dsimp only
    | dsimp +zetaDelta only

theorem State.hostWriteAt_wf {s : State} {pa : Nat} {bs : List Byte} (hw : s.main.wf = true) :
    (State.hostWriteAt s pa bs).main.wf = true := by
  unfold State.hostWriteAt; (try dsimp only)
  repeat' first
    | with_reducible exact hw | with_reducible assumption | intro _ | split | with_reducible apply foldl_wf
    | with_reducible apply State.putPa_wf | with_reducible refine main_wf State.hostSendPart_main ?_ | dsimp only | dsimp +zetaDelta only

@[simp] theorem State.catchUp_main {s : State} {stack : Nat} :
    (State.catchUp s stack).main = s.main := by
  unfold State.catchUp; (try dsimp only)
  repeat' first
    | with_reducible rfl | intro _ | split | (with_reducible refine Eq.trans (foldl_main ?_) ?_)
    | with_reducible refine Eq.trans (State.setBaseDie_main ..) ?_ | dsimp only | dsimp +zetaDelta only

@[simp] theorem State.channelReset_main {s : State} {ch : Nat} :
    (State.channelReset s ch).main = s.main := by
  unfold State.channelReset; (try dsimp only)
  repeat' first
    | with_reducible rfl | intro _ | split | (with_reducible refine Eq.trans (foldl_main ?_) ?_)
    | with_reducible refine Eq.trans State.closeWindow_main ?_ | with_reducible refine Eq.trans (State.setChannel_main ..) ?_ | dsimp only
    | dsimp +zetaDelta only

@[simp] theorem State.handback_main {s : State} {stack : Nat} :
    (State.handback s stack).main = s.main := by
  unfold State.handback; (try dsimp only)
  repeat' first
    | with_reducible rfl | intro _ | split | (with_reducible refine Eq.trans (foldl_main ?_) ?_)
    | with_reducible refine Eq.trans (State.setPkgReg_main ..) ?_ | dsimp only | dsimp +zetaDelta only

@[simp] theorem State.takeover_main {s : State} {stack : Nat} :
    (State.takeover s stack).main = s.main := by
  unfold State.takeover; (try dsimp only)
  repeat' first
    | with_reducible rfl | intro _ | split | (with_reducible refine Eq.trans (foldl_main ?_) ?_)
    | with_reducible refine Eq.trans State.catchUp_main ?_ | with_reducible refine Eq.trans (State.setPkgReg_main ..) ?_ | dsimp only
    | dsimp +zetaDelta only

@[simp] theorem State.setRel_main {s : State} {stack : Nat} {rel : Bool} :
    (State.setRel s stack rel).main = s.main := by
  unfold State.setRel; (try dsimp only)
  repeat' first
    | with_reducible rfl | intro _ | split | (with_reducible refine Eq.trans (foldl_main ?_) ?_)
    | with_reducible refine Eq.trans (State.setPkgReg_main ..) ?_ | dsimp only | dsimp +zetaDelta only

@[simp] theorem State.bdstatWrite_main {s : State} {stack : Nat} {v : Word} :
    (State.bdstatWrite s stack v).main = s.main := by
  unfold State.bdstatWrite; (try dsimp only)
  repeat' first
    | with_reducible rfl | intro _ | split | (with_reducible refine Eq.trans (foldl_main ?_) ?_)
    | with_reducible refine Eq.trans (State.setPkgReg_main ..) ?_ | with_reducible refine Eq.trans (State.setBaseDie_main ..) ?_
    | with_reducible refine Eq.trans State.setRel_main ?_ | dsimp only | dsimp +zetaDelta only

/-! ### Of Machine/System.lean -/

@[simp] theorem brkEffect_main {o : YF} {t : State} {j : Issue} :
    (brkEffect o t j).main = t.main := by
  unfold brkEffect; (try dsimp only)
  repeat' first
    | with_reducible rfl | intro _ | split | (with_reducible refine Eq.trans (foldl_main ?_) ?_)
    | with_reducible refine Eq.trans State.settle_main ?_ | with_reducible refine Eq.trans (State.setGroup_main ..) ?_
    | with_reducible refine Eq.trans State.trapAt_main ?_ | dsimp only | dsimp +zetaDelta only

@[simp] theorem eretEffect_main {o : YF} {t : State} {j : Issue} :
    (eretEffect o t j).main = t.main := by
  unfold eretEffect; (try dsimp only)
  repeat' first
    | with_reducible rfl | intro _ | split | (with_reducible refine Eq.trans (foldl_main ?_) ?_)
    | with_reducible refine Eq.trans State.trapAt_main ?_ | with_reducible refine Eq.trans State.consumeMem_main ?_
    | with_reducible refine Eq.trans State.settle_main ?_ | with_reducible refine Eq.trans State.endRestore_main ?_
    | with_reducible refine Eq.trans State.terminate_main ?_ | with_reducible refine Eq.trans State.scalClear_main ?_
    | with_reducible refine Eq.trans (State.setGroup_main ..) ?_ | dsimp only | dsimp +zetaDelta only

@[simp] theorem csrwEffect_main {o : YF} {t : State} {j : Issue} :
    (csrwEffect o t j).main = t.main := by
  unfold csrwEffect; (try dsimp only)
  repeat' first
    | with_reducible rfl | intro _ | split | (with_reducible refine Eq.trans (foldl_main ?_) ?_)
    | with_reducible refine Eq.trans State.settle_main ?_ | with_reducible refine Eq.trans (State.setGroup_main ..) ?_
    | with_reducible refine Eq.trans State.trapAt_main ?_ | dsimp only | dsimp +zetaDelta only

@[simp] theorem wdogEffect_main {o : YF} {t : State} {j : Issue} :
    (wdogEffect o t j).main = t.main := by
  unfold wdogEffect; (try dsimp only)
  repeat' first
    | with_reducible rfl | intro _ | split | (with_reducible refine Eq.trans (foldl_main ?_) ?_)
    | with_reducible refine Eq.trans State.putScalar_main ?_ | with_reducible refine Eq.trans (State.modBlock_main ..) ?_ | dsimp only
    | dsimp +zetaDelta only

/-! ### Of Machine/Debug.lean -/

@[simp] theorem State.dbgHaltAt_main {s : State} {ts : List (Nat × Nat)} :
    (State.dbgHaltAt s ts).main = s.main := by
  unfold State.dbgHaltAt; (try dsimp only)
  repeat' first
    | with_reducible rfl | intro _ | split | (with_reducible refine Eq.trans (foldl_main ?_) ?_)
    | with_reducible refine Eq.trans State.sendWithdraw_main ?_ | with_reducible refine Eq.trans (State.modSplit_main ..) ?_
    | with_reducible refine Eq.trans State.settle_main ?_ | dsimp only | dsimp +zetaDelta only

@[simp] theorem State.windowPut_main {s : State} {off : Nat} {v : Word} :
    (State.windowPut s off v).main = s.main := by
  unfold State.windowPut; (try dsimp only)
  repeat' first | with_reducible rfl | intro _ | split | (with_reducible refine Eq.trans (foldl_main ?_) ?_) | dsimp only | dsimp +zetaDelta only

@[simp] theorem State.windowClear_main {s : State} {g : Group} {a : Nat} :
    (State.windowClear s g a).main = s.main := by
  unfold State.windowClear; (try dsimp only)
  repeat' first
    | with_reducible rfl | intro _ | split | (with_reducible refine Eq.trans (foldl_main ?_) ?_)
    | with_reducible refine Eq.trans State.parityClear_main ?_ | with_reducible refine Eq.trans State.predClear_main ?_ | dsimp only
    | dsimp +zetaDelta only

@[simp] theorem State.windowApply_main {s : State} {gid : Nat} :
    (State.windowApply s gid).main = s.main := by
  unfold State.windowApply; (try dsimp only)
  repeat' first
    | with_reducible rfl | intro _ | split | (with_reducible refine Eq.trans (foldl_main ?_) ?_)
    | with_reducible refine Eq.trans State.windowClear_main ?_ | with_reducible refine Eq.trans (State.setGroup_main ..) ?_
    | with_reducible refine Eq.trans State.terminate_main ?_ | dsimp only | dsimp +zetaDelta only

@[simp] theorem State.wmonForget_main {s : State} {g : Group} {gid : Nat} {sid : Nat} :
    (State.wmonForget s g gid sid).main = s.main := by
  unfold State.wmonForget; (try dsimp only)
  repeat' first
    | with_reducible rfl | intro _ | split | (with_reducible refine Eq.trans (foldl_main ?_) ?_)
    | with_reducible refine Eq.trans (State.modCore_main ..) ?_ | with_reducible refine Eq.trans (State.modDie_main ..) ?_ | dsimp only
    | dsimp +zetaDelta only

@[simp] theorem State.wmonRelease_main {s : State} {gid : Nat} {sid : Nat} :
    (State.wmonRelease s gid sid).main = s.main := by
  unfold State.wmonRelease; (try dsimp only)
  repeat' first
    | with_reducible rfl | intro _ | split | (with_reducible refine Eq.trans (foldl_main ?_) ?_)
    | with_reducible refine Eq.trans (State.modSplit_main ..) ?_ | with_reducible refine Eq.trans State.scalClear_main ?_
    | with_reducible refine Eq.trans State.wmonForget_main ?_ | dsimp only | dsimp +zetaDelta only

@[simp] theorem State.dbgRelease_main {s : State} {gid : Nat} {sid : Nat} :
    (State.dbgRelease s gid sid).main = s.main := by
  unfold State.dbgRelease; (try dsimp only)
  repeat' first
    | with_reducible rfl | intro _ | split | (with_reducible refine Eq.trans (foldl_main ?_) ?_)
    | with_reducible refine Eq.trans (State.modSplit_main ..) ?_ | with_reducible refine Eq.trans State.wmonRelease_main ?_
    | with_reducible refine Eq.trans State.takeTrap_main ?_ | dsimp only | dsimp +zetaDelta only

@[simp] theorem State.dbgResumeAt_main {s : State} {v : Word} :
    (State.dbgResumeAt s v).main = s.main := by
  unfold State.dbgResumeAt; (try dsimp only)
  repeat' first
    | with_reducible rfl | intro _ | split | (with_reducible refine Eq.trans (foldl_main ?_) ?_)
    | with_reducible refine Eq.trans State.windowApply_main ?_ | with_reducible refine Eq.trans State.settle_main ?_
    | with_reducible refine Eq.trans State.dbgRelease_main ?_ | dsimp only | dsimp +zetaDelta only

@[simp] theorem State.dbgStepOne_main {s : State} {v : Word} :
    (State.dbgStepOne s v).main = s.main := by
  unfold State.dbgStepOne; (try dsimp only)
  repeat' first
    | with_reducible rfl | intro _ | split | (with_reducible refine Eq.trans (foldl_main ?_) ?_)
    | with_reducible refine Eq.trans (State.modSplit_main ..) ?_ | dsimp only | dsimp +zetaDelta only

@[simp] theorem State.dbgStepGroup_main {s : State} {v : Word} :
    (State.dbgStepGroup s v).main = s.main := by
  unfold State.dbgStepGroup; (try dsimp only)
  repeat' first
    | with_reducible rfl | intro _ | split | (with_reducible refine Eq.trans (foldl_main ?_) ?_)
    | with_reducible refine Eq.trans (State.modSplit_main ..) ?_ | dsimp only | dsimp +zetaDelta only

@[simp] theorem State.dbgAttached_main {s : State} {ctx : Nat} {on : Bool} :
    (State.dbgAttached s ctx on).main = s.main := by
  unfold State.dbgAttached; (try dsimp only)
  repeat' first
    | with_reducible rfl | intro _ | split | (with_reducible refine Eq.trans (foldl_main ?_) ?_)
    | with_reducible refine Eq.trans (State.setCtx_main ..) ?_ | dsimp only | dsimp +zetaDelta only

@[simp] theorem State.debugCommand_main {s : State} {v : Word} :
    (State.debugCommand s v).main = s.main := by
  unfold State.debugCommand; (try dsimp only)
  repeat' first
    | with_reducible rfl | intro _ | split | (with_reducible refine Eq.trans (foldl_main ?_) ?_)
    | with_reducible refine Eq.trans (State.setPkgReg_main ..) ?_ | with_reducible refine Eq.trans State.dbgHaltAt_main ?_
    | with_reducible refine Eq.trans State.dbgResumeAt_main ?_ | with_reducible refine Eq.trans State.dbgStepOne_main ?_
    | with_reducible refine Eq.trans State.dbgStepGroup_main ?_ | with_reducible refine Eq.trans State.dbgAttached_main ?_ | dsimp only
    | dsimp +zetaDelta only

/-! ### Of Machine/Launch.lean -/

@[simp] theorem spawnEffect_main {o : XF} {t : State} {j : Issue} :
    (spawnEffect o t j).main = t.main := by
  unfold spawnEffect; (try dsimp only)
  repeat' first
    | with_reducible rfl | intro _ | split | (with_reducible refine Eq.trans (foldl_main ?_) ?_)
    | with_reducible refine Eq.trans State.trapAt_main ?_ | with_reducible refine Eq.trans State.done_main ?_
    | with_reducible refine Eq.trans (State.modCore_main ..) ?_ | with_reducible refine Eq.trans State.trapLanes_main ?_
    | with_reducible refine Eq.trans State.holdRoom_main ?_ | dsimp only | dsimp +zetaDelta only

@[simp] theorem glaunchRecord_main {o : YF} {t : State} {j : Issue} {r : List Byte} :
    (glaunchRecord o t j r).main = t.main := by
  unfold glaunchRecord; (try dsimp only)
  repeat' first
    | with_reducible rfl | intro _ | split | (with_reducible refine Eq.trans (foldl_main ?_) ?_)
    | with_reducible refine Eq.trans State.trapAt_main ?_ | with_reducible refine Eq.trans State.putScalar_main ?_
    | with_reducible refine Eq.trans State.launch_main ?_ | dsimp only | dsimp +zetaDelta only

theorem glaunchEffect_wf {o : YF} {t : State} {j : Issue} (hw : t.main.wf = true) :
    (glaunchEffect o t j).main.wf = true := by
  unfold glaunchEffect; (try dsimp only)
  repeat' first
    | with_reducible exact hw | with_reducible assumption | intro _ | split | with_reducible apply foldl_wf
    | with_reducible refine main_wf State.trapAt_main ?_ | with_reducible refine main_wf (State.kvWait_main (by assumption)) ?_
    | with_reducible apply State.kvTouch_wf | with_reducible refine main_wf glaunchRecord_main ?_ | dsimp only | dsimp +zetaDelta only

@[simp] theorem gwaitEffect_main {o : YF} {t : State} {j : Issue} :
    (gwaitEffect o t j).main = t.main := by
  unfold gwaitEffect; (try dsimp only)
  repeat' first
    | with_reducible rfl | intro _ | split | (with_reducible refine Eq.trans (foldl_main ?_) ?_)
    | with_reducible refine Eq.trans State.done_main ?_ | with_reducible refine Eq.trans State.settle_main ?_
    | with_reducible refine Eq.trans (State.modSplit_main ..) ?_ | dsimp only | dsimp +zetaDelta only

@[simp] theorem gwaitOp_main {o : YF} {t : State} {j : Issue} :
    (gwaitOp o t j).main = t.main := by
  unfold gwaitOp; (try dsimp only)
  repeat' first
    | with_reducible rfl | intro _ | split | (with_reducible refine Eq.trans (foldl_main ?_) ?_)
    | with_reducible refine Eq.trans State.settle_main ?_ | with_reducible refine Eq.trans (State.modSplit_main ..) ?_
    | with_reducible refine Eq.trans State.done_main ?_ | with_reducible refine Eq.trans (issue_main ?_) ?_
    | with_reducible refine Eq.trans gwaitEffect_main ?_ | dsimp only | dsimp +zetaDelta only

@[simp] theorem State.tgobjSet_main {s : State} {ctx : Nat} {slot : Nat} {v : Word} :
    (State.tgobjSet s ctx slot v).main = s.main := by
  unfold State.tgobjSet; (try dsimp only)
  repeat' first
    | with_reducible rfl | intro _ | split | (with_reducible refine Eq.trans (foldl_main ?_) ?_)
    | with_reducible refine Eq.trans (State.setCtxReg_main ..) ?_ | dsimp only | dsimp +zetaDelta only

@[simp] theorem State.tgError_main {s : State} {ctx : Nat} {slot : Nat} {code : Nat} :
    (State.tgError s ctx slot code).main = s.main := by
  unfold State.tgError; (try dsimp only)
  repeat' first
    | with_reducible rfl | intro _ | split | (with_reducible refine Eq.trans (foldl_main ?_) ?_)
    | with_reducible refine Eq.trans (State.setCtxReg_main ..) ?_ | dsimp only | dsimp +zetaDelta only

@[simp] theorem State.kick_main {s : State} {ctx : Nat} {v : Word} :
    (State.kick s ctx v).main = s.main := by
  unfold State.kick; (try dsimp only)
  repeat' first
    | with_reducible rfl | intro _ | split | (with_reducible refine Eq.trans (foldl_main ?_) ?_)
    | with_reducible refine Eq.trans (State.setCtxReg_main ..) ?_ | with_reducible refine Eq.trans State.tgError_main ?_
    | with_reducible refine Eq.trans State.setTgSlot_main ?_ | dsimp only | dsimp +zetaDelta only

theorem State.clearCompletions_wf {s : State} {ctx obj n : Nat} (hw : s.main.wf = true) :
    (State.clearCompletions s ctx obj n).1.main.wf = true := by
  have go : ∀ (l : List Nat) (f : State × Option ReplayBad → Nat → State × Option ReplayBad),
      (∀ p k, p.1.main.wf = true → (f p k).1.main.wf = true) → ∀ p : State × Option ReplayBad, p.1.main.wf = true →
      (l.foldl f p).1.main.wf = true := by
    intro l f hf
    induction l with
    | nil => intro p hp; exact hp
    | cons k l ih => intro p hp; exact ih _ (hf _ _ hp)
  refine go _ _ (fun p k hp => ?_) _ hw
  split
  · exact hp
  · split
    · exact State.writeCtx_wf (by assumption) hp
    · exact hp

theorem State.validateTouch_wf {s : State} {ctx : Nat} {obj : Nat} {patch : Nat} {ns : List NodeImage} {entries : Nat} (hw : s.main.wf = true) :
    (State.validateTouch s ctx obj patch ns entries).main.wf = true := by
  unfold State.validateTouch; (try dsimp only)
  repeat' first
    | with_reducible exact hw | with_reducible assumption | intro _ | split | with_reducible apply foldl_wf
    | with_reducible apply State.touchCtx_wf | dsimp only | dsimp +zetaDelta only

theorem State.prepare_wf {s : State} {ctx : Nat} {obj : Nat} {patch : Nat} (hw : s.main.wf = true) :
    (State.prepare s ctx obj patch).1.main.wf = true := by
  unfold State.prepare; (try dsimp only)
  repeat' first
    | with_reducible exact hw | with_reducible assumption | intro _ | split | with_reducible apply foldl_wf
    | with_reducible apply State.touchCtx_wf | with_reducible apply State.clearCompletions_wf | with_reducible apply State.validateTouch_wf
    | with_reducible refine fst_wf (by assumption) ?_ | dsimp only | dsimp +zetaDelta only

/-! ### Of Machine/Preempt.lean -/

theorem State.chooseGroup_main {s : State} {gid : Nat} {out : State} (e : State.chooseGroup s gid = some out) :
    out.main = s.main := by
  unfold State.chooseGroup at e
  obtain ⟨f, hf⟩ : ∃ f, State.freeRecord s = f := ⟨_, rfl⟩
  obtain ⟨k, hk⟩ : ∃ k, State.freeStage s = k := ⟨_, rfl⟩
  rw [hf, hk] at e
  split at e
  · cases e
  · split at e
    · obtain rfl := Option.some.inj e
      exact (State.setGroup_main ..).trans (State.setCtx_main ..)
    · cases e

theorem State.chooseGroups_main {s : State} {l : List Nat} {out : State} (e : State.chooseGroups s l = some out) :
    out.main = s.main := by
  induction l generalizing s with
  | nil => cases e; rfl
  | cons k l ih =>
    unfold State.chooseGroups at e
    split at e
    · cases e
    · exact (ih e).trans (State.chooseGroup_main (by assumption))

theorem State.chooseBlock_main {s : State} {bid : Nat} {out : State} (e : State.chooseBlock s bid = some out) :
    out.main = s.main := by
  unfold State.chooseBlock at e
  obtain ⟨f, hf⟩ : ∃ f, State.freeRecord s = f := ⟨_, rfl⟩
  rw [hf] at e
  split at e
  · cases e
  · split at e
    · cases e
    · exact (State.chooseGroups_main e).trans ((State.setBlock_main ..).trans (State.setCtx_main ..))

@[simp] theorem State.afterVictim_main {s : State} {v : Victim} :
    (State.afterVictim s v).main = s.main := by
  unfold State.afterVictim; (try dsimp only)
  repeat' first
    | with_reducible rfl | intro _ | split | (with_reducible refine Eq.trans (foldl_main ?_) ?_)
    | with_reducible refine Eq.trans (State.modGroup_main ..) ?_ | with_reducible refine Eq.trans (State.setBlock_main ..) ?_
    | with_reducible refine Eq.trans State.setTile_main ?_ | dsimp only | dsimp +zetaDelta only

@[simp] theorem State.spillGone_main {s : State} {core : Nat} {pri : Nat} :
    (State.spillGone s core pri).main = s.main := by
  unfold State.spillGone; (try dsimp only)
  repeat' first
    | with_reducible rfl | intro _ | split | (with_reducible refine Eq.trans (foldl_main ?_) ?_)
    | with_reducible refine Eq.trans State.afterVictim_main ?_ | dsimp only | dsimp +zetaDelta only

@[simp] theorem State.giveQuad_main {s : State} {bid : Nat} {core : Nat} {q : Nat} {c : Shape} :
    (State.giveQuad s bid core q c).main = s.main := by
  unfold State.giveQuad; (try dsimp only)
  repeat' first
    | with_reducible rfl | intro _ | split | (with_reducible refine Eq.trans (foldl_main ?_) ?_)
    | with_reducible refine Eq.trans (State.setBlock_main ..) ?_ | dsimp only | dsimp +zetaDelta only

theorem State.chooseVictims_main {s : State} {l : List Victim} {out : State} (e : State.chooseVictims s l = some out) :
    out.main = s.main := by
  induction l generalizing s with
  | nil => cases e; rfl
  | cons v l ih =>
    unfold State.chooseVictims at e
    split at e
    · cases e
    · rename_i hc
      refine (ih e).trans ?_
      split at hc
      · exact State.chooseBlock_main hc
      · exact State.chooseGroups_main hc

theorem State.evictPlan_main {s : State} {uid : Nat} {g : Grid} {k : Nat} {vs : List Victim} {out : State}
    (e : State.evictPlan s uid g = some (k, vs, out)) : out.main = s.main := by
  obtain ⟨n, -, hn⟩ := List.mem_filterMap.mp (minBy_mem e)
  split at hn
  · split at hn
    · obtain ⟨t, ht, hk⟩ := Option.map_eq_some_iff.mp hn
      cases hk
      exact State.chooseVictims_main ht
    · cases hn
  · cases hn

@[simp] theorem State.evictFor_main {s : State} {uid : Nat} :
    (State.evictFor s uid).main = s.main := by
  unfold State.evictFor; (try dsimp only)
  repeat' first
    | with_reducible rfl | intro _ | split | (with_reducible refine Eq.trans (foldl_main ?_) ?_)
    | with_reducible refine Eq.trans (State.evictPlan_main (by assumption)) ?_ | with_reducible refine Eq.trans State.modGrid_main ?_
    | with_reducible refine Eq.trans State.settle_main ?_ | dsimp only | dsimp +zetaDelta only

@[simp] theorem State.countSlices_main {s : State} {k : Nat} :
    (State.countSlices s k).main = s.main := by
  unfold State.countSlices; (try dsimp only)
  repeat' first
    | with_reducible rfl | intro _ | split | (with_reducible refine Eq.trans (foldl_main ?_) ?_)
    | with_reducible refine Eq.trans (State.setCtxReg_main ..) ?_ | dsimp only | dsimp +zetaDelta only

@[simp] theorem State.tileFresh_main {s : State} {core : Nat} {k : Nat} :
    (State.tileFresh s core k).main = s.main := by
  unfold State.tileFresh; (try dsimp only)
  repeat' first
    | with_reducible rfl | intro _ | split | (with_reducible refine Eq.trans (foldl_main ?_) ?_)
    | with_reducible refine Eq.trans State.parityClear_main ?_ | dsimp only | dsimp +zetaDelta only

theorem State.restoreBlock_wf {s : State} {bid : Nat} {core : Nat} {b : Block} {quads : List (Nat × Nat)} {out : State} (e : State.restoreBlock s bid core b quads = .ok out) (hw : s.main.wf = true) :
    out.main.wf = true := by
  unfold State.restoreBlock at e; (try dsimp only at e)
  repeat' split at e
  all_goals first | (cases e; done) | (cases e; repeat' first | with_reducible exact hw | with_reducible assumption | intro _ | split | with_reducible apply foldl_wf | with_reducible apply State.touchCtx_wf | with_reducible refine main_wf State.newSeed_main ?_ | with_reducible refine main_wf State.setTile_main ?_ | with_reducible refine main_wf State.tileFresh_main ?_ | with_reducible refine main_wf (State.modCore_main ..) ?_ | with_reducible refine main_wf State.recordDrop_main ?_ | with_reducible refine main_wf State.shmClear_main ?_ | with_reducible refine main_wf (State.setBlock_main ..) ?_ | with_reducible refine snd_wf (by assumption) ?_ | dsimp only | dsimp +zetaDelta only; done) | (repeat' first | with_reducible exact hw | with_reducible assumption | intro _ | split | with_reducible apply foldl_wf | with_reducible apply State.touchCtx_wf | with_reducible refine main_wf State.newSeed_main ?_ | with_reducible refine main_wf State.setTile_main ?_ | with_reducible refine main_wf State.tileFresh_main ?_ | with_reducible refine main_wf (State.modCore_main ..) ?_ | with_reducible refine main_wf State.recordDrop_main ?_ | with_reducible refine main_wf State.shmClear_main ?_ | with_reducible refine main_wf (State.setBlock_main ..) ?_ | with_reducible refine snd_wf (by assumption) ?_ | dsimp only | dsimp +zetaDelta only)

@[simp] theorem State.seatGroup_main {s : State} {g : Group} :
    (State.seatGroup s g).1.main = s.main := by
  unfold State.seatGroup; (try dsimp only)
  repeat' first
    | with_reducible rfl | intro _ | split | (with_reducible refine Eq.trans (foldl_main ?_) ?_)
    | with_reducible refine Eq.trans (State.setBlock_main ..) ?_ | dsimp only | dsimp +zetaDelta only

@[simp] theorem State.startRestore_main {s : State} {gid : Nat} {g : Group} {h : Handler} {k : Nat} {slots : List Nat} :
    (State.startRestore s gid g h k slots).main = s.main := by
  unfold State.startRestore; (try dsimp only)
  repeat' first
    | with_reducible rfl | intro _ | split | (with_reducible refine Eq.trans (foldl_main ?_) ?_)
    | with_reducible refine Eq.trans State.terminate_main ?_ | with_reducible refine Eq.trans State.seatGroup_main ?_
    | with_reducible refine Eq.trans (State.setCtx_main ..) ?_ | with_reducible refine Eq.trans State.newSeed_main ?_
    | with_reducible refine Eq.trans State.setSlot_main ?_ | with_reducible refine Eq.trans (State.setGroup_main ..) ?_
    | with_reducible refine Eq.trans State.scalClear_main ?_ | with_reducible refine Eq.trans State.handlerClear_main ?_
    | with_reducible refine fst_main (by assumption) ?_ | with_reducible refine snd_main (by assumption) ?_ | dsimp only
    | dsimp +zetaDelta only

theorem State.restoreGroup_wf {s : State} {gid : Nat} (hw : s.main.wf = true) :
    (State.restoreGroup s gid).main.wf = true := by
  unfold State.restoreGroup; (try dsimp only)
  repeat' first
    | with_reducible exact hw | with_reducible assumption | intro _ | split | with_reducible apply foldl_wf
    | with_reducible apply State.touchCtx_wf | with_reducible refine main_wf State.startRestore_main ?_
    | with_reducible refine main_wf State.terminate_main ?_ | dsimp only | dsimp +zetaDelta only

/-! ### Of Machine/Host.lean -/

@[simp] theorem State.termrepWrite_main {s : State} {ctx : Nat} {v : Word} :
    (State.termrepWrite s ctx v).main = s.main := by
  unfold State.termrepWrite; (try dsimp only)
  repeat' first
    | with_reducible rfl | intro _ | split | (with_reducible refine Eq.trans (foldl_main ?_) ?_)
    | with_reducible refine Eq.trans (State.setCtxReg_main ..) ?_ | with_reducible refine Eq.trans State.terminate_main ?_ | dsimp only
    | dsimp +zetaDelta only

@[simp] theorem State.tgstatWrite_main {s : State} {ctx : Nat} {slot : Nat} {v : Word} :
    (State.tgstatWrite s ctx slot v).main = s.main := by
  unfold State.tgstatWrite; (try dsimp only)
  repeat' first
    | with_reducible rfl | intro _ | split | (with_reducible refine Eq.trans (foldl_main ?_) ?_)
    | with_reducible refine Eq.trans (State.setCtxReg_main ..) ?_ | dsimp only | dsimp +zetaDelta only

@[simp] theorem State.parlogWrite_main {s : State} {core : Nat} {v : Word} :
    (State.parlogWrite s core v).main = s.main := by
  unfold State.parlogWrite; (try dsimp only)
  repeat' first
    | with_reducible rfl | intro _ | split | (with_reducible refine Eq.trans (foldl_main ?_) ?_)
    | with_reducible refine Eq.trans (State.setPkgReg_main ..) ?_ | dsimp only | dsimp +zetaDelta only

@[simp] theorem State.writePackage_main {s : State} {n : Nat} {v : Word} :
    (State.writePackage s n v).main = s.main := by
  unfold State.writePackage; (try dsimp only)
  repeat' first
    | with_reducible rfl | with_reducible refine ite_main ?_ ?_ | intro _ | split | (with_reducible refine Eq.trans (foldl_main ?_) ?_)
    | with_reducible refine Eq.trans (State.setPkgReg_main ..) ?_ | with_reducible refine Eq.trans State.evalRates_main ?_
    | with_reducible refine Eq.trans State.invalidate_main ?_ | with_reducible refine Eq.trans State.bdstatWrite_main ?_
    | with_reducible refine Eq.trans State.cxpEnable_main ?_ | with_reducible refine Eq.trans State.migWriteReg_main ?_
    | with_reducible refine Eq.trans State.parlogWrite_main ?_ | with_reducible refine Eq.trans State.debugCommand_main ?_
    | with_reducible refine Eq.trans State.windowPut_main ?_ | dsimp only | dsimp +zetaDelta only

@[simp] theorem State.writePrivileged_main {s : State} {ctx : Nat} {n : Nat} {v : Word} :
    (State.writePrivileged s ctx n v).main = s.main := by
  unfold State.writePrivileged; (try dsimp only)
  repeat' first
    | with_reducible rfl | with_reducible refine ite_main ?_ ?_ | intro _ | split | (with_reducible refine Eq.trans (foldl_main ?_) ?_)
    | with_reducible refine Eq.trans (State.setCtxReg_main ..) ?_ | with_reducible refine Eq.trans State.tgobjSet_main ?_
    | with_reducible refine Eq.trans State.tgstatWrite_main ?_ | with_reducible refine Eq.trans State.jbufSet_main ?_
    | with_reducible refine Eq.trans State.jcfgEnable_main ?_ | with_reducible refine Eq.trans State.jcfgUnbind_main ?_
    | with_reducible refine Eq.trans State.termrepWrite_main ?_ | with_reducible refine Eq.trans State.kick_main ?_ | dsimp only
    | dsimp +zetaDelta only

@[simp] theorem State.writeContext_main {s : State} {ctx : Nat} {n : Nat} {v : Word} :
    (State.writeContext s ctx n v).main = s.main := by
  unfold State.writeContext; (try dsimp only)
  repeat' first
    | with_reducible rfl | intro _ | split | (with_reducible refine Eq.trans (foldl_main ?_) ?_)
    | with_reducible refine Eq.trans State.tgobjSet_main ?_ | with_reducible refine Eq.trans State.tgstatWrite_main ?_
    | with_reducible refine Eq.trans State.kick_main ?_ | dsimp only | dsimp +zetaDelta only

@[simp] theorem State.setPort_main {s : State} {ctx : Nat} {r : Nat} {p : HostPort} :
    (State.setPort s ctx r p).main = s.main := by
  unfold State.setPort; (try dsimp only)
  repeat' first
    | with_reducible rfl | intro _ | split | (with_reducible refine Eq.trans (foldl_main ?_) ?_)
    | with_reducible refine Eq.trans (State.setCtx_main ..) ?_ | dsimp only | dsimp +zetaDelta only

@[simp] theorem State.hostSend_main {s : State} {ctx : Nat} {r : Nat} {w : Word} :
    (State.hostSend s ctx r w).main = s.main := by
  unfold State.hostSend; (try dsimp only)
  repeat' first
    | with_reducible rfl | intro _ | split | (with_reducible refine Eq.trans (foldl_main ?_) ?_)
    | with_reducible refine Eq.trans State.setPort_main ?_ | with_reducible refine Eq.trans State.newId_main ?_
    | with_reducible refine Eq.trans State.benchSend_main ?_ | with_reducible refine snd_main (by assumption) ?_ | dsimp only
    | dsimp +zetaDelta only

@[simp] theorem State.writePort_main {s : State} {ctx : Nat} {r : Nat} {n : Nat} {w : Word} :
    (State.writePort s ctx r n w).main = s.main := by
  unfold State.writePort; (try dsimp only)
  repeat' first
    | with_reducible rfl | intro _ | split | (with_reducible refine Eq.trans (foldl_main ?_) ?_)
    | with_reducible refine Eq.trans State.hostSend_main ?_ | with_reducible refine Eq.trans State.setPort_main ?_ | dsimp only
    | dsimp +zetaDelta only

@[simp] theorem State.hostRequest_main {s : State} {ctx : Nat} {r : Nat} {w : Word} {op : Nat} :
    (State.hostRequest s ctx r w op).main = s.main := by
  unfold State.hostRequest; (try dsimp only)
  repeat' first
    | with_reducible rfl | intro _ | split | (with_reducible refine Eq.trans (foldl_main ?_) ?_)
    | with_reducible refine Eq.trans State.hostSend_main ?_ | dsimp only | dsimp +zetaDelta only

@[simp] theorem State.foremanSend_main {s : State} {op : BenchOp} {ctx : Nat} {r : Nat} {w : Word} {fields : List Word} :
    (State.foremanSend s op ctx r w fields).main = s.main := by
  unfold State.foremanSend; (try dsimp only)
  repeat' first
    | with_reducible rfl | intro _ | split | (with_reducible refine Eq.trans (foldl_main ?_) ?_)
    | with_reducible refine Eq.trans State.newId_main ?_ | with_reducible refine Eq.trans State.benchSend_main ?_
    | with_reducible refine snd_main (by assumption) ?_ | dsimp only | dsimp +zetaDelta only

@[simp] theorem State.outsideBench_main {s : State} {src : BenchSource} {op : BenchOp} {code : Nat} {r : Nat} {w : Word} :
    (State.outsideBench s src op code r w).main = s.main := by
  unfold State.outsideBench; (try dsimp only)
  repeat' first
    | with_reducible rfl | intro _ | split | (with_reducible refine Eq.trans (foldl_main ?_) ?_)
    | with_reducible refine Eq.trans State.hostRequest_main ?_ | with_reducible refine Eq.trans State.foremanSend_main ?_ | dsimp only
    | dsimp +zetaDelta only

@[simp] theorem State.constPut_main {s : State} {ctx : Nat} {off : Nat} {n : Nat} {v : Word} :
    (State.constPut s ctx off n v).main = s.main := by
  unfold State.constPut; (try dsimp only)
  repeat' first
    | with_reducible rfl | intro _ | split | (with_reducible refine Eq.trans (foldl_main ?_) ?_)
    | with_reducible refine Eq.trans State.cnsWrite_main ?_ | dsimp only | dsimp +zetaDelta only

@[simp] theorem State.viewWrite_main {s : State} {n : Nat} {v : Word} {x3 : View} :
    (State.viewWrite s n v x3).main = s.main := by
  unfold State.viewWrite; (try dsimp only)
  repeat' first
    | with_reducible rfl | intro _ | split | (with_reducible refine Eq.trans (foldl_main ?_) ?_)
    | with_reducible refine Eq.trans State.writePackage_main ?_ | with_reducible refine Eq.trans State.writePrivileged_main ?_
    | with_reducible refine Eq.trans State.writeContext_main ?_ | with_reducible refine Eq.trans State.writePort_main ?_ | dsimp only
    | dsimp +zetaDelta only

@[simp] theorem State.viewAccess_main {s : State} {w : View} {n : Nat} {v : Word} {read : Bool} {size : Nat} {low : Nat} :
    (State.viewAccess s w n v read size low).main = s.main := by
  unfold State.viewAccess; (try dsimp only)
  repeat' first
    | with_reducible rfl | intro _ | split | (with_reducible refine Eq.trans (foldl_main ?_) ?_)
    | with_reducible refine Eq.trans State.viewWrite_main ?_ | dsimp only | dsimp +zetaDelta only

@[simp] theorem State.hostRefused_main {s : State} :
    (State.hostRefused s).main = s.main := by
  unfold State.hostRefused; (try dsimp only)
  repeat' first
    | with_reducible rfl | intro _ | split | (with_reducible refine Eq.trans (foldl_main ?_) ?_)
    | with_reducible refine Eq.trans (State.setPkgReg_main ..) ?_ | dsimp only | dsimp +zetaDelta only

@[simp] theorem State.reportTake_main {s : State} {ctx : Nat} :
    (State.reportTake s ctx).main = s.main := by
  unfold State.reportTake; (try dsimp only)
  repeat' first
    | with_reducible rfl | intro _ | split | (with_reducible refine Eq.trans (foldl_main ?_) ?_)
    | with_reducible refine Eq.trans State.newId_main ?_ | with_reducible refine Eq.trans State.benchSend_main ?_
    | with_reducible refine snd_main (by assumption) ?_ | dsimp only | dsimp +zetaDelta only

theorem State.reportWrite_wf {s : State} {ctx : Nat} {fields : List Word} (hw : s.main.wf = true) :
    (State.reportWrite s ctx fields).1.main.wf = true := by
  unfold State.reportWrite; (try dsimp only)
  repeat' first
    | with_reducible exact hw | with_reducible assumption | intro _ | split | with_reducible apply foldl_wf
    | with_reducible refine State.writeCtx_wf (by assumption) ?_ | dsimp only | dsimp +zetaDelta only

/-! ### Of Machine/Holds.lean -/

@[simp] theorem State.atHold_main {s : State} {gid : Nat} {sid : Nat} {g : Group} :
    (State.atHold s gid sid g).main = s.main := by
  unfold State.atHold; (try dsimp only)
  repeat' first
    | with_reducible rfl | intro _ | split | (with_reducible refine Eq.trans (foldl_main ?_) ?_)
    | with_reducible refine Eq.trans (State.modSplit_main ..) ?_ | dsimp only | dsimp +zetaDelta only

/-! ### Of Machine/Step.lean -/

@[simp] theorem State.withFetchWord_main {s : State} {nbits : Nat} {w : Nat} :
    (State.withFetchWord s nbits w).main = s.main := by
  unfold State.withFetchWord; (try dsimp only)
  repeat' first | with_reducible rfl | intro _ | split | (with_reducible refine Eq.trans (foldl_main ?_) ?_) | dsimp only | dsimp +zetaDelta only

end Sys2Proof.Machine
end

