-- ==== Sys2Proof/Laws/PerInstr.lean ====
section
/-!
SUPPORT. One family of facts per instruction: the major of an instruction of the opcode map lies below the class of clause
headers, 0x7F, and its minor fits its field (R177, R178, R192); an event of the device has neither.
-/
namespace Sys2Proof.Laws

/-- The opcode map gives `i` a major below 0x7F and a minor of seven bits, if any (R177, R192). -/
def Opcode.Statement (i : Instr) : Prop :=
  match Decode.opcode i with
  | some mm => mm.1 < 0x7F ∧ mm.2 < 128
  | none => True


theorem Opcode.sadd (o : SR) : Opcode.Statement (.sadd o) := ⟨by decide, by decide⟩
theorem Opcode.ssub (o : SR) : Opcode.Statement (.ssub o) := ⟨by decide, by decide⟩
theorem Opcode.smul (o : SR) : Opcode.Statement (.smul o) := ⟨by decide, by decide⟩
theorem Opcode.smulh (o : SR) : Opcode.Statement (.smulh o) := ⟨by decide, by decide⟩
theorem Opcode.smulhn (o : SR) : Opcode.Statement (.smulhn o) := ⟨by decide, by decide⟩
theorem Opcode.sand (o : SR) : Opcode.Statement (.sand o) := ⟨by decide, by decide⟩
theorem Opcode.sor (o : SR) : Opcode.Statement (.sor o) := ⟨by decide, by decide⟩
theorem Opcode.sxor (o : SR) : Opcode.Statement (.sxor o) := ⟨by decide, by decide⟩
theorem Opcode.sshl (o : SR) : Opcode.Statement (.sshl o) := ⟨by decide, by decide⟩
theorem Opcode.sshr (o : SR) : Opcode.Statement (.sshr o) := ⟨by decide, by decide⟩
theorem Opcode.ssra (o : SR) : Opcode.Statement (.ssra o) := ⟨by decide, by decide⟩
theorem Opcode.smin (o : SR) : Opcode.Statement (.smin o) := ⟨by decide, by decide⟩
theorem Opcode.smax (o : SR) : Opcode.Statement (.smax o) := ⟨by decide, by decide⟩
theorem Opcode.sminn (o : SR) : Opcode.Statement (.sminn o) := ⟨by decide, by decide⟩
theorem Opcode.smaxn (o : SR) : Opcode.Statement (.smaxn o) := ⟨by decide, by decide⟩
theorem Opcode.scmp (o : SR) : Opcode.Statement (.scmp o) := ⟨by decide, by decide⟩
theorem Opcode.saddi (o : SI) : Opcode.Statement (.saddi o) := ⟨by decide, by decide⟩
theorem Opcode.sandi (o : SI) : Opcode.Statement (.sandi o) := ⟨by decide, by decide⟩
theorem Opcode.sori (o : SI) : Opcode.Statement (.sori o) := ⟨by decide, by decide⟩
theorem Opcode.sxori (o : SI) : Opcode.Statement (.sxori o) := ⟨by decide, by decide⟩
theorem Opcode.sshli (o : SI) : Opcode.Statement (.sshli o) := ⟨by decide, by decide⟩
theorem Opcode.sshri (o : SI) : Opcode.Statement (.sshri o) := ⟨by decide, by decide⟩
theorem Opcode.ssrai (o : SI) : Opcode.Statement (.ssrai o) := ⟨by decide, by decide⟩
theorem Opcode.sli (o : SI) : Opcode.Statement (.sli o) := ⟨by decide, by decide⟩
theorem Opcode.slih (o : SI) : Opcode.Statement (.slih o) := ⟨by decide, by decide⟩
theorem Opcode.scmpi (o : SI) : Opcode.Statement (.scmpi o) := ⟨by decide, by decide⟩
theorem Opcode.sgetv (o : XF) : Opcode.Statement (.sgetv o) := ⟨by decide, by decide⟩
theorem Opcode.sballot (o : XF) : Opcode.Statement (.sballot o) := ⟨by decide, by decide⟩
theorem Opcode.spopc (o : SR) : Opcode.Statement (.spopc o) := ⟨by decide, by decide⟩
theorem Opcode.sclz (o : SR) : Opcode.Statement (.sclz o) := ⟨by decide, by decide⟩
theorem Opcode.sffs (o : SR) : Opcode.Statement (.sffs o) := ⟨by decide, by decide⟩
theorem Opcode.srd (o : YF) : Opcode.Statement (.srd o) := ⟨by decide, by decide⟩
theorem Opcode.swr (o : YF) : Opcode.Statement (.swr o) := ⟨by decide, by decide⟩
theorem Opcode.br (o : BR) : Opcode.Statement (.br o) := ⟨by decide, by decide⟩
theorem Opcode.brx (o : BR) : Opcode.Statement (.brx o) := ⟨by decide, by decide⟩
theorem Opcode.call (o : BR) : Opcode.Statement (.call o) := ⟨by decide, by decide⟩
theorem Opcode.ret (o : BR) : Opcode.Statement (.ret o) := ⟨by decide, by decide⟩
theorem Opcode.split (o : SP) : Opcode.Statement (.split o) := ⟨by decide, by decide⟩
theorem Opcode.join : Opcode.Statement .join := ⟨by decide, by decide⟩
theorem Opcode.exit (o : EX) : Opcode.Statement (.exit o) := ⟨by decide, by decide⟩
theorem Opcode.ient : Opcode.Statement .ient := ⟨by decide, by decide⟩
theorem Opcode.fmt (o : YF) : Opcode.Statement (.fmt o) := ⟨by decide, by decide⟩
theorem Opcode.nop : Opcode.Statement .nop := ⟨by decide, by decide⟩
theorem Opcode.vadd (ty : IntTy) (o : V3) : Opcode.Statement (.vadd ty o) := by cases ty <;> exact ⟨by decide, by decide⟩
theorem Opcode.vsub (ty : IntTy) (o : V3) : Opcode.Statement (.vsub ty o) := by cases ty <;> exact ⟨by decide, by decide⟩
theorem Opcode.vmul (ty : IntTy) (o : V3) : Opcode.Statement (.vmul ty o) := by cases ty <;> exact ⟨by decide, by decide⟩
theorem Opcode.vmulh (ty : IntTy) (o : V3) : Opcode.Statement (.vmulh ty o) := by cases ty <;> exact ⟨by decide, by decide⟩
theorem Opcode.vmulhn (ty : IntTy) (o : V3) : Opcode.Statement (.vmulhn ty o) := by cases ty <;> exact ⟨by decide, by decide⟩
theorem Opcode.vand (ty : IntTy) (o : V3) : Opcode.Statement (.vand ty o) := by cases ty <;> exact ⟨by decide, by decide⟩
theorem Opcode.vor (ty : IntTy) (o : V3) : Opcode.Statement (.vor ty o) := by cases ty <;> exact ⟨by decide, by decide⟩
theorem Opcode.vxor (ty : IntTy) (o : V3) : Opcode.Statement (.vxor ty o) := by cases ty <;> exact ⟨by decide, by decide⟩
theorem Opcode.vshl (ty : IntTy) (o : V3) : Opcode.Statement (.vshl ty o) := by cases ty <;> exact ⟨by decide, by decide⟩
theorem Opcode.vshr (ty : IntTy) (o : V3) : Opcode.Statement (.vshr ty o) := by cases ty <;> exact ⟨by decide, by decide⟩
theorem Opcode.vsra (ty : IntTy) (o : V3) : Opcode.Statement (.vsra ty o) := by cases ty <;> exact ⟨by decide, by decide⟩
theorem Opcode.vmin (ty : IntTy) (o : V3) : Opcode.Statement (.vmin ty o) := by cases ty <;> exact ⟨by decide, by decide⟩
theorem Opcode.vmax (ty : IntTy) (o : V3) : Opcode.Statement (.vmax ty o) := by cases ty <;> exact ⟨by decide, by decide⟩
theorem Opcode.vminn (ty : IntTy) (o : V3) : Opcode.Statement (.vminn ty o) := by cases ty <;> exact ⟨by decide, by decide⟩
theorem Opcode.vmaxn (ty : IntTy) (o : V3) : Opcode.Statement (.vmaxn ty o) := by cases ty <;> exact ⟨by decide, by decide⟩
theorem Opcode.vabs (ty : IntTy) (o : V3) : Opcode.Statement (.vabs ty o) := by cases ty <;> exact ⟨by decide, by decide⟩
theorem Opcode.vneg (ty : IntTy) (o : V3) : Opcode.Statement (.vneg ty o) := by cases ty <;> exact ⟨by decide, by decide⟩
theorem Opcode.vclz (ty : IntTy) (o : V3) : Opcode.Statement (.vclz ty o) := by cases ty <;> exact ⟨by decide, by decide⟩
theorem Opcode.vpopc (ty : IntTy) (o : V3) : Opcode.Statement (.vpopc ty o) := by cases ty <;> exact ⟨by decide, by decide⟩
theorem Opcode.vaddi (ty : IntTy) (o : VI) : Opcode.Statement (.vaddi ty o) := by cases ty <;> exact ⟨by decide, by decide⟩
theorem Opcode.vandi (ty : IntTy) (o : VI) : Opcode.Statement (.vandi ty o) := by cases ty <;> exact ⟨by decide, by decide⟩
theorem Opcode.vori (ty : IntTy) (o : VI) : Opcode.Statement (.vori ty o) := by cases ty <;> exact ⟨by decide, by decide⟩
theorem Opcode.vxori (ty : IntTy) (o : VI) : Opcode.Statement (.vxori ty o) := by cases ty <;> exact ⟨by decide, by decide⟩
theorem Opcode.vshli (ty : IntTy) (o : VI) : Opcode.Statement (.vshli ty o) := by cases ty <;> exact ⟨by decide, by decide⟩
theorem Opcode.vshri (ty : IntTy) (o : VI) : Opcode.Statement (.vshri ty o) := by cases ty <;> exact ⟨by decide, by decide⟩
theorem Opcode.vsrai (ty : IntTy) (o : VI) : Opcode.Statement (.vsrai ty o) := by cases ty <;> exact ⟨by decide, by decide⟩
theorem Opcode.vli (o : VL) : Opcode.Statement (.vli o) := ⟨by decide, by decide⟩
theorem Opcode.vcmp (c : IntCmp) (ty : IntTy) (o : V3) : Opcode.Statement (.vcmp c ty o) := by cases c <;> cases ty <;> exact ⟨by decide, by decide⟩
theorem Opcode.vfcmp (c : FloatCmp) (ty : FloatTy) (o : V3) : Opcode.Statement (.vfcmp c ty o) := by cases c <;> cases ty <;> exact ⟨by decide, by decide⟩
theorem Opcode.pand (o : V3) : Opcode.Statement (.pand o) := ⟨by decide, by decide⟩
theorem Opcode.por (o : V3) : Opcode.Statement (.por o) := ⟨by decide, by decide⟩
theorem Opcode.pxor (o : V3) : Opcode.Statement (.pxor o) := ⟨by decide, by decide⟩
theorem Opcode.pandn (o : V3) : Opcode.Statement (.pandn o) := ⟨by decide, by decide⟩
theorem Opcode.pnot (o : V3) : Opcode.Statement (.pnot o) := ⟨by decide, by decide⟩
theorem Opcode.pmov (o : V3) : Opcode.Statement (.pmov o) := ⟨by decide, by decide⟩
theorem Opcode.pset (o : V3) : Opcode.Statement (.pset o) := ⟨by decide, by decide⟩
theorem Opcode.pclr (o : V3) : Opcode.Statement (.pclr o) := ⟨by decide, by decide⟩
theorem Opcode.ptest (o : V3) : Opcode.Statement (.ptest o) := ⟨by decide, by decide⟩
theorem Opcode.vsel (o : V3) : Opcode.Statement (.vsel o) := ⟨by decide, by decide⟩
theorem Opcode.vmov (o : V3) : Opcode.Statement (.vmov o) := ⟨by decide, by decide⟩
theorem Opcode.vbcast (o : VS) : Opcode.Statement (.vbcast o) := ⟨by decide, by decide⟩
theorem Opcode.vlane (o : VS) : Opcode.Statement (.vlane o) := ⟨by decide, by decide⟩
theorem Opcode.vfadd (ty : FloatTy) (o : V3) : Opcode.Statement (.vfadd ty o) := by cases ty <;> exact ⟨by decide, by decide⟩
theorem Opcode.vfsub (ty : FloatTy) (o : V3) : Opcode.Statement (.vfsub ty o) := by cases ty <;> exact ⟨by decide, by decide⟩
theorem Opcode.vfmul (ty : FloatTy) (o : V3) : Opcode.Statement (.vfmul ty o) := by cases ty <;> exact ⟨by decide, by decide⟩
theorem Opcode.vfma (ty : FloatTy) (o : V3) : Opcode.Statement (.vfma ty o) := by cases ty <;> exact ⟨by decide, by decide⟩
theorem Opcode.vfms (ty : FloatTy) (o : V3) : Opcode.Statement (.vfms ty o) := by cases ty <;> exact ⟨by decide, by decide⟩
theorem Opcode.vfnma (ty : FloatTy) (o : V3) : Opcode.Statement (.vfnma ty o) := by cases ty <;> exact ⟨by decide, by decide⟩
theorem Opcode.vfmin (ty : FloatTy) (o : V3) : Opcode.Statement (.vfmin ty o) := by cases ty <;> exact ⟨by decide, by decide⟩
theorem Opcode.vfmax (ty : FloatTy) (o : V3) : Opcode.Statement (.vfmax ty o) := by cases ty <;> exact ⟨by decide, by decide⟩
theorem Opcode.vfabs (ty : FloatTy) (o : V3) : Opcode.Statement (.vfabs ty o) := by cases ty <;> exact ⟨by decide, by decide⟩
theorem Opcode.vfneg (ty : FloatTy) (o : V3) : Opcode.Statement (.vfneg ty o) := by cases ty <;> exact ⟨by decide, by decide⟩
theorem Opcode.vfclass (ty : FloatTy) (o : V3) : Opcode.Statement (.vfclass ty o) := by cases ty <;> exact ⟨by decide, by decide⟩
theorem Opcode.vrcp (o : XF) : Opcode.Statement (.vrcp o) := ⟨by decide, by decide⟩
theorem Opcode.vrsq (o : XF) : Opcode.Statement (.vrsq o) := ⟨by decide, by decide⟩
theorem Opcode.vsqrt (o : XF) : Opcode.Statement (.vsqrt o) := ⟨by decide, by decide⟩
theorem Opcode.vexp2 (o : XF) : Opcode.Statement (.vexp2 o) := ⟨by decide, by decide⟩
theorem Opcode.vlog2 (o : XF) : Opcode.Statement (.vlog2 o) := ⟨by decide, by decide⟩
theorem Opcode.vcvt (o : XF) : Opcode.Statement (.vcvt o) := ⟨by decide, by decide⟩
theorem Opcode.vpack (o : XF) : Opcode.Statement (.vpack o) := ⟨by decide, by decide⟩
theorem Opcode.vunpack (o : XF) : Opcode.Statement (.vunpack o) := ⟨by decide, by decide⟩
theorem Opcode.vscl (o : XF) : Opcode.Statement (.vscl o) := ⟨by decide, by decide⟩
theorem Opcode.vdot8 (o : XF) : Opcode.Statement (.vdot8 o) := ⟨by decide, by decide⟩
theorem Opcode.vdot4 (o : XF) : Opcode.Statement (.vdot4 o) := ⟨by decide, by decide⟩
theorem Opcode.vdoti8 (o : XF) : Opcode.Statement (.vdoti8 o) := ⟨by decide, by decide⟩
theorem Opcode.tmv (o : XF) : Opcode.Statement (.tmv o) := ⟨by decide, by decide⟩
theorem Opcode.vperm (o : V3) : Opcode.Statement (.vperm o) := ⟨by decide, by decide⟩
theorem Opcode.vred (o : XF) : Opcode.Statement (.vred o) := ⟨by decide, by decide⟩
theorem Opcode.vscan (o : XF) : Opcode.Statement (.vscan o) := ⟨by decide, by decide⟩
theorem Opcode.vconf (o : V3) : Opcode.Statement (.vconf o) := ⟨by decide, by decide⟩
theorem Opcode.vcomp (o : V3) : Opcode.Statement (.vcomp o) := ⟨by decide, by decide⟩
theorem Opcode.lds (o : MF) : Opcode.Statement (.lds o) := ⟨by decide, by decide⟩
theorem Opcode.sts (o : MF) : Opcode.Statement (.sts o) := ⟨by decide, by decide⟩
theorem Opcode.ldx (o : MF) : Opcode.Statement (.ldx o) := ⟨by decide, by decide⟩
theorem Opcode.stx (o : MF) : Opcode.Statement (.stx o) := ⟨by decide, by decide⟩
theorem Opcode.ldc (o : MF) : Opcode.Statement (.ldc o) := ⟨by decide, by decide⟩
theorem Opcode.vspill (o : MF) : Opcode.Statement (.vspill o) := ⟨by decide, by decide⟩
theorem Opcode.vfill (o : MF) : Opcode.Statement (.vfill o) := ⟨by decide, by decide⟩
theorem Opcode.vgth (o : MF) : Opcode.Statement (.vgth o) := ⟨by decide, by decide⟩
theorem Opcode.vsct (o : MF) : Opcode.Statement (.vsct o) := ⟨by decide, by decide⟩
theorem Opcode.aadd (o : MF) : Opcode.Statement (.aadd o) := ⟨by decide, by decide⟩
theorem Opcode.afadd (o : MF) : Opcode.Statement (.afadd o) := ⟨by decide, by decide⟩
theorem Opcode.amin (o : MF) : Opcode.Statement (.amin o) := ⟨by decide, by decide⟩
theorem Opcode.amax (o : MF) : Opcode.Statement (.amax o) := ⟨by decide, by decide⟩
theorem Opcode.aand (o : MF) : Opcode.Statement (.aand o) := ⟨by decide, by decide⟩
theorem Opcode.aor (o : MF) : Opcode.Statement (.aor o) := ⟨by decide, by decide⟩
theorem Opcode.axchg (o : MF) : Opcode.Statement (.axchg o) := ⟨by decide, by decide⟩
theorem Opcode.acas (o : MF) : Opcode.Statement (.acas o) := ⟨by decide, by decide⟩
theorem Opcode.bar (o : MF) : Opcode.Statement (.bar o) := ⟨by decide, by decide⟩
theorem Opcode.barr (o : MF) : Opcode.Statement (.barr o) := ⟨by decide, by decide⟩
theorem Opcode.barw (o : MF) : Opcode.Statement (.barw o) := ⟨by decide, by decide⟩
theorem Opcode.wmon (o : YF) : Opcode.Statement (.wmon o) := ⟨by decide, by decide⟩
theorem Opcode.fence (o : MF) : Opcode.Statement (.fence o) := ⟨by decide, by decide⟩
theorem Opcode.fenceOp (o : MF) : Opcode.Statement (.fenceOp o) := ⟨by decide, by decide⟩
theorem Opcode.cpy (o : YF) : Opcode.Statement (.cpy o) := ⟨by decide, by decide⟩
theorem Opcode.cpyr (o : YF) : Opcode.Statement (.cpyr o) := ⟨by decide, by decide⟩
theorem Opcode.bclose (o : YF) : Opcode.Statement (.bclose o) := ⟨by decide, by decide⟩
theorem Opcode.bwait (o : YF) : Opcode.Statement (.bwait o) := ⟨by decide, by decide⟩
theorem Opcode.cquiesce (o : YF) : Opcode.Statement (.cquiesce o) := ⟨by decide, by decide⟩
theorem Opcode.cquiesceRst (o : YF) : Opcode.Statement (.cquiesceRst o) := ⟨by decide, by decide⟩
theorem Opcode.cstat (o : YF) : Opcode.Statement (.cstat o) := ⟨by decide, by decide⟩
theorem Opcode.oclaim (o : YF) : Opcode.Statement (.oclaim o) := ⟨by decide, by decide⟩
theorem Opcode.oclaimAny (o : YF) : Opcode.Statement (.oclaimAny o) := ⟨by decide, by decide⟩
theorem Opcode.orel (o : YF) : Opcode.Statement (.orel o) := ⟨by decide, by decide⟩
theorem Opcode.mma (o : XF) : Opcode.Statement (.mma o) := ⟨by decide, by decide⟩
theorem Opcode.mmas (o : XF) : Opcode.Statement (.mmas o) := ⟨by decide, by decide⟩
theorem Opcode.mzero (o : YF) : Opcode.Statement (.mzero o) := ⟨by decide, by decide⟩
theorem Opcode.accrd (o : XF) : Opcode.Statement (.accrd o) := ⟨by decide, by decide⟩
theorem Opcode.accwr (o : XF) : Opcode.Statement (.accwr o) := ⟨by decide, by decide⟩
theorem Opcode.mlease (o : YF) : Opcode.Statement (.mlease o) := ⟨by decide, by decide⟩
theorem Opcode.mleaseFol (o : YF) : Opcode.Statement (.mleaseFol o) := ⟨by decide, by decide⟩
theorem Opcode.smask (o : YF) : Opcode.Statement (.smask o) := ⟨by decide, by decide⟩
theorem Opcode.attnBrim (o : YF) : Opcode.Statement (.attnBrim o) := ⟨by decide, by decide⟩
theorem Opcode.attnBrimRes (o : YF) : Opcode.Statement (.attnBrimRes o) := ⟨by decide, by decide⟩
theorem Opcode.kvmap (o : XF) : Opcode.Statement (.kvmap o) := ⟨by decide, by decide⟩
theorem Opcode.kvapp (o : YF) : Opcode.Statement (.kvapp o) := ⟨by decide, by decide⟩
theorem Opcode.kvreq (o : YF) : Opcode.Statement (.kvreq o) := ⟨by decide, by decide⟩
theorem Opcode.kvsum (o : YF) : Opcode.Statement (.kvsum o) := ⟨by decide, by decide⟩
theorem Opcode.kvlink (o : YF) : Opcode.Statement (.kvlink o) := ⟨by decide, by decide⟩
theorem Opcode.kvtrim (o : YF) : Opcode.Statement (.kvtrim o) := ⟨by decide, by decide⟩
theorem Opcode.pgget (o : YF) : Opcode.Statement (.pgget o) := ⟨by decide, by decide⟩
theorem Opcode.pgput (o : YF) : Opcode.Statement (.pgput o) := ⟨by decide, by decide⟩
theorem Opcode.bdep (o : YF) : Opcode.Statement (.bdep o) := ⟨by decide, by decide⟩
theorem Opcode.bcpy (o : YF) : Opcode.Statement (.bcpy o) := ⟨by decide, by decide⟩
theorem Opcode.btak (o : YF) : Opcode.Statement (.btak o) := ⟨by decide, by decide⟩
theorem Opcode.jrec (o : YF) : Opcode.Statement (.jrec o) := ⟨by decide, by decide⟩
theorem Opcode.jack (o : YF) : Opcode.Statement (.jack o) := ⟨by decide, by decide⟩
theorem Opcode.jtrunc (o : YF) : Opcode.Statement (.jtrunc o) := ⟨by decide, by decide⟩
theorem Opcode.rngc (o : XF) : Opcode.Statement (.rngc o) := ⟨by decide, by decide⟩
theorem Opcode.bdset (o : YF) : Opcode.Statement (.bdset o) := ⟨by decide, by decide⟩
theorem Opcode.bdget (o : YF) : Opcode.Statement (.bdget o) := ⟨by decide, by decide⟩
theorem Opcode.bdclr (o : YF) : Opcode.Statement (.bdclr o) := ⟨by decide, by decide⟩
theorem Opcode.spawn (o : XF) : Opcode.Statement (.spawn o) := ⟨by decide, by decide⟩
theorem Opcode.glaunch (o : YF) : Opcode.Statement (.glaunch o) := ⟨by decide, by decide⟩
theorem Opcode.gwait (o : YF) : Opcode.Statement (.gwait o) := ⟨by decide, by decide⟩
theorem Opcode.trap (o : YF) : Opcode.Statement (.trap o) := ⟨by decide, by decide⟩
theorem Opcode.eret (o : YF) : Opcode.Statement (.eret o) := ⟨by decide, by decide⟩
theorem Opcode.csrr (o : YF) : Opcode.Statement (.csrr o) := ⟨by decide, by decide⟩
theorem Opcode.csrw (o : YF) : Opcode.Statement (.csrw o) := ⟨by decide, by decide⟩
theorem Opcode.brk (o : YF) : Opcode.Statement (.brk o) := ⟨by decide, by decide⟩
theorem Opcode.wdog (o : YF) : Opcode.Statement (.wdog o) := ⟨by decide, by decide⟩
theorem Opcode.wdogQ (o : YF) : Opcode.Statement (.wdogQ o) := ⟨by decide, by decide⟩
theorem Opcode.groupPick (core q : Nat) : Opcode.Statement (.groupPick core q) := trivial
theorem Opcode.holdClear (gid sid : Nat) : Opcode.Statement (.holdClear gid sid) := trivial
theorem Opcode.resultWriteback (gid idx : Nat) : Opcode.Statement (.resultWriteback gid idx) := trivial
theorem Opcode.returnSlotReply (core idx : Nat) : Opcode.Statement (.returnSlotReply core idx) := trivial
theorem Opcode.wbDrainTimeout (core idx : Nat) : Opcode.Statement (.wbDrainTimeout core idx) := trivial
theorem Opcode.serviceGroupExec (die slice : Nat) : Opcode.Statement (.serviceGroupExec die slice) := trivial
theorem Opcode.benchServe (die slice : Nat) : Opcode.Statement (.benchServe die slice) := trivial
theorem Opcode.benchWithdraw (gid sid : Nat) : Opcode.Statement (.benchWithdraw gid sid) := trivial
theorem Opcode.channelPick (sched : Nat) (eligible : List Nat) : Opcode.Statement (.channelPick sched eligible) := trivial
theorem Opcode.memCompletion (id : Nat) : Opcode.Statement (.memCompletion id) := trivial
theorem Opcode.dieFlitReceive (id : FlitId) (crcOk : Bool) : Opcode.Statement (.dieFlitReceive id crcOk) := trivial
theorem Opcode.patrolScrub (unit : Nat) : Opcode.Statement (.patrolScrub unit) := trivial
theorem Opcode.dbiWindowEnd (ch ones toggles : Nat) : Opcode.Statement (.dbiWindowEnd ch ones toggles) := trivial
theorem Opcode.thermalSample (ch temp : Nat) : Opcode.Statement (.thermalSample ch temp) := trivial
theorem Opcode.thermalStateFall (ch : Nat) : Opcode.Statement (.thermalStateFall ch) := trivial
theorem Opcode.rateRiseTimer (ch : Nat) : Opcode.Statement (.rateRiseTimer ch) := trivial
theorem Opcode.rateSwitchEnd (ch : Nat) : Opcode.Statement (.rateSwitchEnd ch) := trivial
theorem Opcode.baseDieReset (stack : Nat) : Opcode.Statement (.baseDieReset stack) := trivial
theorem Opcode.fallbackTakeover (stack : Nat) : Opcode.Statement (.fallbackTakeover stack) := trivial
theorem Opcode.refreshHandback (stack : Nat) : Opcode.Statement (.refreshHandback stack) := trivial
theorem Opcode.bdstatRel (stack : Nat) : Opcode.Statement (.bdstatRel stack) := trivial
theorem Opcode.cxlTimeout (id : Nat) : Opcode.Statement (.cxlTimeout id) := trivial
theorem Opcode.cxlLateCompletion (id : Nat) : Opcode.Statement (.cxlLateCompletion id) := trivial
theorem Opcode.cxlLinkDown (port : Nat) : Opcode.Statement (.cxlLinkDown port) := trivial
theorem Opcode.cxlLinkTrained (port cap : Nat) : Opcode.Statement (.cxlLinkTrained port cap) := trivial
theorem Opcode.cxpstatEnable (port : Nat) : Opcode.Statement (.cxpstatEnable port) := trivial
theorem Opcode.xlinvcCommand (v : Word) : Opcode.Statement (.xlinvcCommand v) := trivial
theorem Opcode.xlinvcComplete : Opcode.Statement .xlinvcComplete := trivial
theorem Opcode.migArm (slot : Nat) : Opcode.Statement (.migArm slot) := trivial
theorem Opcode.migStart (slot : Nat) : Opcode.Statement (.migStart slot) := trivial
theorem Opcode.migSwitch (slot : Nat) : Opcode.Statement (.migSwitch slot) := trivial
theorem Opcode.migFinish (slot : Nat) : Opcode.Statement (.migFinish slot) := trivial
theorem Opcode.migAbort (slot : Nat) : Opcode.Statement (.migAbort slot) := trivial
theorem Opcode.migClear (slot : Nat) : Opcode.Statement (.migClear slot) := trivial
theorem Opcode.migRoutedRequest (slot : Nat) (link : LineStatus) : Opcode.Statement (.migRoutedRequest slot link) := trivial
theorem Opcode.migBackgroundFill (slot : Nat) (link : LineStatus) : Opcode.Statement (.migBackgroundFill slot link) := trivial
theorem Opcode.copyBatchComplete (gid batch : Nat) : Opcode.Statement (.copyBatchComplete gid batch) := trivial
theorem Opcode.matrixOpStart (core : Nat) : Opcode.Statement (.matrixOpStart core) := trivial
theorem Opcode.matrixOpRetire (core : Nat) : Opcode.Statement (.matrixOpRetire core) := trivial
theorem Opcode.startLimitWindow (die : Nat) : Opcode.Statement (.startLimitWindow die) := trivial
theorem Opcode.arrayIdle (core : Nat) : Opcode.Statement (.arrayIdle core) := trivial
theorem Opcode.leaseIdleExpire (core : Nat) : Opcode.Statement (.leaseIdleExpire core) := trivial
theorem Opcode.attnStart (core : Nat) : Opcode.Statement (.attnStart core) := trivial
theorem Opcode.attnVisit (core : Nat) : Opcode.Statement (.attnVisit core) := trivial
theorem Opcode.blockPlace (die : Nat) : Opcode.Statement (.blockPlace die) := trivial
theorem Opcode.placementStarvation (bid : Nat) : Opcode.Statement (.placementStarvation bid) := trivial
theorem Opcode.evictionSelect (bid : Nat) : Opcode.Statement (.evictionSelect bid) := trivial
theorem Opcode.groupRestore (core : Nat) : Opcode.Statement (.groupRestore core) := trivial
theorem Opcode.timeSliceExpire (ctx : Nat) : Opcode.Statement (.timeSliceExpire ctx) := trivial
theorem Opcode.groupEnd (gid : Nat) : Opcode.Statement (.groupEnd gid) := trivial
theorem Opcode.spawnHoldTimeout (gid sid : Nat) : Opcode.Statement (.spawnHoldTimeout gid sid) := trivial
theorem Opcode.spawnBinTimeout (core idx : Nat) : Opcode.Statement (.spawnBinTimeout core idx) := trivial
theorem Opcode.packedGroupStart (core : Nat) : Opcode.Statement (.packedGroupStart core) := trivial
theorem Opcode.barrierWatchdogExpire (core idx : Nat) : Opcode.Statement (.barrierWatchdogExpire core idx) := trivial
theorem Opcode.tgobjWrite (ctx slot : Nat) (v : Word) : Opcode.Statement (.tgobjWrite ctx slot v) := trivial
theorem Opcode.kick (ctx : Nat) (v : Word) : Opcode.Statement (.kick ctx v) := trivial
theorem Opcode.replayStart (ctx slot : Nat) : Opcode.Statement (.replayStart ctx slot) := trivial
theorem Opcode.nodeStart (ctx slot node : Nat) : Opcode.Statement (.nodeStart ctx slot node) := trivial
theorem Opcode.frameGrant (core : Nat) : Opcode.Statement (.frameGrant core) := trivial
theorem Opcode.grantTakeRetry (core : Nat) : Opcode.Statement (.grantTakeRetry core) := trivial
theorem Opcode.jcfgBind (ctx : Nat) (v : Word) : Opcode.Statement (.jcfgBind ctx v) := trivial
theorem Opcode.jcfgDisable (ctx : Nat) (v : Word) : Opcode.Statement (.jcfgDisable ctx v) := trivial
theorem Opcode.jbufWrite (ctx : Nat) (v : Word) : Opcode.Statement (.jbufWrite ctx v) := trivial
theorem Opcode.journalAck (ctx : Nat) (dev n : Nat) : Opcode.Statement (.journalAck ctx dev n) := trivial
theorem Opcode.partnerIdleMessage (ctx : Nat) (dev : Nat) : Opcode.Statement (.partnerIdleMessage ctx dev) := trivial
theorem Opcode.partnerSilence (ctx : Nat) : Opcode.Statement (.partnerSilence ctx) := trivial
theorem Opcode.avashLinkDown (port : Nat) : Opcode.Statement (.avashLinkDown port) := trivial
theorem Opcode.hostBenchDeposit (src : BenchSource) (region : Nat) (w : Word) : Opcode.Statement (.hostBenchDeposit src region w) := trivial
theorem Opcode.hostBenchCopy (src : BenchSource) (region : Nat) (w : Word) : Opcode.Statement (.hostBenchCopy src region w) := trivial
theorem Opcode.hostBenchTake (src : BenchSource) (region : Nat) (w : Word) : Opcode.Statement (.hostBenchTake src region w) := trivial
theorem Opcode.hostBenchRefusedOp (ctx region : Nat) (w : Word) : Opcode.Statement (.hostBenchRefusedOp ctx region w) := trivial
theorem Opcode.hostMemRead (pa len : Nat) : Opcode.Statement (.hostMemRead pa len) := trivial
theorem Opcode.hostMemWrite (pa : Nat) (bytes : List Byte) : Opcode.Statement (.hostMemWrite pa bytes) := trivial
theorem Opcode.attestationReport (ctx : Nat) : Opcode.Statement (.attestationReport ctx) := trivial
theorem Opcode.termrepKill (ctx : Nat) (v : Word) : Opcode.Statement (.termrepKill ctx v) := trivial
theorem Opcode.dbgHalt (v : Word) : Opcode.Statement (.dbgHalt v) := trivial
theorem Opcode.dbgResume (v : Word) : Opcode.Statement (.dbgResume v) := trivial
theorem Opcode.dbgStep (v : Word) : Opcode.Statement (.dbgStep v) := trivial
theorem Opcode.dbgStepAll (v : Word) : Opcode.Statement (.dbgStepAll v) := trivial
theorem Opcode.dbgAttach (v : Word) : Opcode.Statement (.dbgAttach v) := trivial
theorem Opcode.dbgDetach (v : Word) : Opcode.Statement (.dbgDetach v) := trivial
theorem Opcode.debugWindowWrite (off : Nat) (v : Word) : Opcode.Statement (.debugWindowWrite off v) := trivial
theorem Opcode.boot (foreman baseDie service : Bool) : Opcode.Statement (.boot foreman baseDie service) := trivial
theorem Opcode.registerWrite (win : Window) (num : Nat) (v : Word) : Opcode.Statement (.registerWrite win num v) := trivial
theorem Opcode.copyEngineTransfer (core : Nat) : Opcode.Statement (.copyEngineTransfer core) := trivial
theorem Opcode.avashLinkTrained (port peer : Nat) : Opcode.Statement (.avashLinkTrained port peer) := trivial
theorem Opcode.journalRecordReceive (src : JournalSource) (num : Nat) (rec : List Byte) : Opcode.Statement (.journalRecordReceive src num rec) := trivial
theorem Opcode.journalTruncateReceive (src : JournalSource) (seq upto : Nat) : Opcode.Statement (.journalTruncateReceive src seq upto) := trivial
theorem Opcode.refreshDue (stack : Nat) : Opcode.Statement (.refreshDue stack) := trivial
theorem Opcode.storageError (u : Unit_) (bits : Nat) : Opcode.Statement (.storageError u bits) := trivial

end Sys2Proof.Laws
end

