-- ==== Sys2Proof/Tests/Slice0.lean ====
section
/-!
SUPPORT. Tests: words written out from the encoding chapter and their instructions, an ill-formed term for every check,
a few results worked in the specification, and for every statement with hypotheses a state and operands that meet them.
-/
namespace Sys2Proof.Tests

open Sys2Proof Sys2Proof.Machine

set_option Elab.async false

/-! ### Decoding (R177 to R193): each word is the sum of its fields at their bits, from the tables of R180 and R192 -/

/-- The worked words of chapters 8 and 10. -/
theorem test_decode_worked :
    Decode.decode 0x4018140280100321 = .ok (false, .vfma .f32 ⟨5, 0, 10, 2, 3, 1, 1⟩) ∧
    Decode.decode 0x90005A000FFFFFFE = .ok (true, .br ⟨2, 3, 1, 0, 0, 0xFFFFFFE⟩) ∧
    Decode.decode 0x0100208000000001 = .ok (false, .saddi ⟨4, 4, 1⟩) ∧
    Decode.decode 0x011200800000000A = .ok (false, .scmpi ⟨0, 4, 10⟩) ∧
    Decode.decode 0x100068000FFFFFFD = .ok (false, .br ⟨3, 1, 0, 0, 0, 0xFFFFFFD⟩) := by decide

/-- The worked words of chapters 11 to 15. -/
theorem test_decode_worked_vector :
    Decode.decode 0x5000000A00601E03 = .ok (false, .vcvt ⟨0, 0, 40, 12, 30, 0, 3⟩) ∧
    Decode.decode 0x6C02080200201200 = .ok (false, .afadd ⟨2, 0, 8, 4, 0, 1, 1, 0, 0, 0, 0⟩) ∧
    Decode.decode 0x7404008D0000D400 = .ok (false, .mma ⟨0, 0, 2 * 256 + 3 * 16 + 4, 0, 3 * 64 + 20, 0, 0⟩) ∧
    Decode.decode 0x7800008000004521 = .ok (false, .attnBrimRes ⟨0, 4, 0x4521⟩) ∧
    Decode.decode 0x7804398000000000 = .ok (false, .kvapp ⟨7, 12, 0⟩) ∧
    Decode.decode 0x7A00114000148020 = .ok (false, .bdep ⟨2, 10, 0x148020⟩) := by decide

/-- The worked words of the programs of chapters 17 and 19 to 23. -/
theorem test_decode_programs :
    Decode.decode 0x1100000000000000 = .ok (false, .ient) ∧
    Decode.decode 0x213800C000000001 = .ok (false, .vli ⟨3, 0, 1⟩) ∧
    Decode.decode 0x6C0001FFC0120000 = .ok (false, .aadd ⟨0, 0, 2047, 2, 16, 0, 0, 0, 0, 0, 0⟩) ∧
    Decode.decode 0x100C000000000000 = .ok (false, .exit ⟨0, 0⟩) ∧
    Decode.decode 0xE00E040280388008 = .ok (true, .vgth ⟨1, 0, 10, 7, 4, 0, 0, 0, 0, 2, 0⟩) ∧
    Decode.decode 0x7D00000000000D0D = .ok (false, .trap ⟨0, 0, 0xD0D⟩) ∧
    Decode.decode 0x78064B0000000000 = .ok (false, .kvreq ⟨9, 24, 0⟩) ∧
    Decode.decode 0x7A04868000000001 = .ok (false, .btak ⟨16, 52, 1⟩) := by decide

/-- Scalar, special-register and control words by fields. -/
theorem test_decode_scalar_and_control :
    Decode.decode (0x00 * 2 ^ 56 + 1 * 2 ^ 49 + 5 * 2 ^ 43 + 6 * 2 ^ 37 + 7 * 2 ^ 31) = .ok (false, .ssub ⟨5, 6, 7⟩) ∧
    Decode.decode (0x02 * 2 ^ 56 + 0 * 2 ^ 49 + 9 * 2 ^ 30 + 12 * 2 ^ 19 + (3 * 16 + 8) * 2 ^ 8) =
      .ok (false, .sgetv ⟨0, 0, 9, 12, 56, 0, 0⟩) ∧
    Decode.decode (0x02 * 2 ^ 56 + 5 * 2 ^ 49 + 7 * 2 ^ 43 + 0x00D) = .ok (false, .srd ⟨7, 0, 0x00D⟩) ∧
    Decode.decode (0x10 * 2 ^ 56 + 2 * 2 ^ 49 + 63 * 2 ^ 28 + 0x10) = .ok (false, .call ⟨0, 0, 0, 0, 63, 16⟩) ∧
    Decode.decode (0x10 * 2 ^ 56 + 4 * 2 ^ 49 + 3 * 2 ^ 42 + 6 * 2 ^ 21 + 3 * 2 + 1) =
      .ok (false, .split ⟨3, 0, 6, 3, 1⟩) ∧
    Decode.decode (0x11 * 2 ^ 56 + 1 * 2 ^ 49 + 0x43) = .ok (false, .fmt ⟨0, 0, 0x43⟩) := by decide

/-- Vector words by fields. -/
theorem test_decode_vector :
    Decode.decode (0x20 * 2 ^ 56 + (13 * 4 + 1) * 2 ^ 49 + 2 * 2 ^ 42 + 1 * 2 ^ 41 + 10 * 2 ^ 30 + 11 * 2 ^ 19 + 12 * 2 ^ 8 +
      3 * 2 ^ 5 + 5) = .ok (false, .vminn .i16 ⟨2, 1, 10, 11, 12, 3, 5⟩) ∧
    Decode.decode (0x21 * 2 ^ 56 + (4 * 4 + 3) * 2 ^ 49 + 10 * 2 ^ 30 + 11 * 2 ^ 19 + 40) =
      .ok (false, .vshli .i64 ⟨0, 0, 10, 11, 40⟩) ∧
    Decode.decode (0x22 * 2 ^ 56 + (8 * 4 + 1) * 2 ^ 49 + 6 * 2 ^ 30 + 11 * 2 ^ 19 + 12 * 2 ^ 8) =
      .ok (false, .vfcmp .lt .bf16 ⟨0, 0, 6, 11, 12, 0, 0⟩) ∧
    Decode.decode (0x23 * 2 ^ 56 + 3 * 2 ^ 49 + 6 * 2 ^ 30 + 4 * 2 ^ 19 + 5 * 2 ^ 8) =
      .ok (false, .pandn ⟨0, 0, 6, 4, 5, 0, 0⟩) ∧
    Decode.decode 0x2404000080040000 = .ok (false, .vbcast ⟨0, 0, 2, 0, 32, 0⟩) ∧
    Decode.decode (0x41 * 2 ^ 56 + 2 * 2 ^ 49 + 10 * 2 ^ 30 + 11 * 2 ^ 19 + 9 * 2 ^ 4) =
      .ok (false, .vsqrt ⟨0, 0, 10, 11, 0, 9, 0⟩) ∧
    Decode.decode (0x51 * 2 ^ 56 + 1 * 2 ^ 49 + 10 * 2 ^ 30 + 11 * 2 ^ 19 + 12 * 2 ^ 8) =
      .ok (false, .vdot4 ⟨0, 0, 10, 11, 12, 0, 0⟩) ∧
    Decode.decode (0x52 * 2 ^ 56 + 10 * 2 ^ 30 + 20 * 2 ^ 19 + 8 * 2 ^ 8 + 3) =
      .ok (false, .tmv ⟨0, 0, 10, 20, 8, 0, 3⟩) ∧
    Decode.decode 0x5806040240200000 = .ok (false, .vconf ⟨1, 0, 9, 4, 0, 0, 0⟩) := by decide

/-- Words of memory, synchronisation and engine instructions by fields. -/
theorem test_decode_memory_and_engines :
    Decode.decode (0x60 * 2 ^ 56 + 2 * 2 ^ 49 + 10 * 2 ^ 30 + 11 * 2 ^ 19 + 4 * 2 ^ 13 + 1 * 2 ^ 12 + 5 * 2 ^ 9 + 2 * 2 ^ 6 +
      1 * 2 ^ 4 + 3 * 2 ^ 2 + 1) = .ok (false, .ldx ⟨0, 0, 10, 11, 4, 1, 5, 2, 1, 3, 1⟩) ∧
    Decode.decode (0x6D * 2 ^ 56 + 3 * 2 ^ 49 + 7 * 2 ^ 43 + 8 * 2 ^ 37 + 9 * 2 ^ 8 + 4 + 1) =
      .ok (false, .wmon ⟨7, 8, 9 * 256 + 5⟩) ∧
    Decode.decode (0x6D * 2 ^ 56 + 4 * 2 ^ 49 + 3 * 2 ^ 6 + 2 * 2 ^ 4) =
      .ok (false, .fence ⟨0, 0, 0, 0, 0, 0, 0, 3, 2, 0, 0⟩) ∧
    Decode.decode (0x70 * 2 ^ 56 + 0 * 2 ^ 49 + 8 * 2 ^ 37 + 2 ^ 12 + 4 * 8 + 0) = .ok (false, .cpy ⟨0, 8, 0x1020⟩) ∧
    Decode.decode (0x70 * 2 ^ 56 + 4 * 2 ^ 49 + 7 * 2 ^ 43 + 8 * 2 ^ 37 + 1) = .ok (false, .cquiesceRst ⟨7, 8, 1⟩) ∧
    Decode.decode (0x74 * 2 ^ 56 + 0 * 2 ^ 49 + 7 * 2 ^ 43 + 16) = .ok (false, .oclaimAny ⟨7, 0, 16⟩) ∧
    Decode.decode (0x74 * 2 ^ 56 + 7 * 2 ^ 49 + 8 * 2 ^ 37 + 128 + 5) = .ok (false, .mleaseFol ⟨0, 8, 133⟩) := by decide

/-- Words of the cache, bench, journal, range, launch and system instructions by fields. -/
theorem test_decode_system :
    Decode.decode (0x78 * 2 ^ 56 + 1 * 2 ^ 49 + 10 * 2 ^ 30 + 11 * 2 ^ 19 + 8 * 2 ^ 8) =
      .ok (false, .kvmap ⟨0, 0, 10, 11, 8, 0, 0⟩) ∧
    Decode.decode 0x7A06B08000000000 = .ok (false, .jrec ⟨22, 4, 0⟩) ∧
    Decode.decode 0x7A0C000A015024D0 = .ok (false, .rngc ⟨0, 0, 40, 42, 36, 13, 0⟩) ∧
    Decode.decode (0x7B * 2 ^ 56 + 0 * 2 ^ 49 + 11 * 2 ^ 43 + 10 * 2 ^ 37 + 3) = .ok (false, .bdset ⟨11, 10, 3⟩) ∧
    Decode.decode (0x7C * 2 ^ 56 + 0 * 2 ^ 49 + 2 * 2 ^ 42 + 10 * 2 ^ 19 + 8 * 2 ^ 8) =
      .ok (false, .spawn ⟨2, 0, 0, 10, 8, 0, 0⟩) ∧
    Decode.decode (0x7D * 2 ^ 56 + 3 * 2 ^ 49 + 8 * 2 ^ 37 + 0x150) = .ok (false, .csrw ⟨0, 8, 0x150⟩) ∧
    Decode.decode (0x7D * 2 ^ 56 + 5 * 2 ^ 49 + 7 * 2 ^ 43 + 1) = .ok (false, .wdogQ ⟨7, 0, 1⟩) := by decide

/-- The REASONs of R193: an unassigned major and minor, a set zero bit, an illegal amount, a class that forbids the
major, and a clause header where an instruction is expected; and the header of the worked example. -/
theorem test_decode_reasons :
    Decode.decode (0x03 * 2 ^ 56) = .error 1 ∧ Decode.decode 0x209E000000000000 = .error 2 ∧
    Decode.decode (0x10 * 2 ^ 56 + 5 * 2 ^ 49 + 1) = .error 3 ∧ Decode.decode 0x4018140280100369 = .error 4 ∧
    Decode.header 0x7F10000000000000 = some (1, 0, 0) := by decide

/-! ### Well-formedness: terms that one check refuses -/

/-- A field of every format that does not fit its bits (R180); an event that names what does not exist. -/
theorem test_wf_fields : [Instr.vadd .i8 ⟨0, 0, 1, 2, 3, 0, 32⟩, .vaddi .i8 ⟨0, 0, 1, 2, 2 ^ 19⟩, .vbcast ⟨0, 2, 1, 0, 4, 0⟩,
    .lds ⟨0, 0, 1, 2, 64, 0, 0, 0, 0, 2, 0⟩, .vrcp ⟨128, 0, 1, 2, 0, 0, 0⟩, .vli ⟨1, 0, 2 ^ 32⟩, .sadd ⟨64, 0, 0⟩,
    .saddi ⟨1, 64, 0⟩, .srd ⟨64, 0, 1⟩, .br ⟨0, 0, 0, 0, 0, 2 ^ 28⟩, .split ⟨0, 0, 2 ^ 20, 0, 0⟩, .exit ⟨0, 2⟩,
    .groupPick 96 0, .holdClear 0 4, .channelPick 386 [], .migArm 64, .kick 193 0, .registerWrite (.benchPort 0 16) 0 0,
    .registerWrite (.constants 0 9) 0 0, .registerWrite (.access (.privileged 193) true 8 0) 0 0,
    .registerWrite (.access .package true 8 8) 0 0, .registerWrite (.access .package true 65 0) 0 0, .dieFlitReceive (.avash 4 0) true].all
      (fun i => !i.fits) = true := by decide

/-- A bit that must be zero, an unused field, or a slot where none may stand (REASON 3, R193). -/
theorem test_wf_zero : [Instr.scmp ⟨4, 1, 2⟩, .spopc ⟨1, 2, 3⟩, .scmpi ⟨4, 1, 2⟩, .sli ⟨1, 1, 2⟩,
    .sgetv ⟨1, 0, 1, 2, 0, 0, 0⟩, .sballot ⟨0, 0, 64, 2, 0, 0, 0⟩, .srd ⟨1, 1, 1⟩, .swr ⟨1, 1, 0xB⟩,
    .br ⟨0, 0, 1, 0, 0, 0⟩, .fmt ⟨1, 0, 0x38⟩, .vabs .i8 ⟨0, 0, 1, 2, 3, 0, 0⟩, .vfabs .f32 ⟨0, 0, 1, 2, 0, 1, 0⟩,
    .vmov ⟨0, 0, 1, 2, 0, 0, 1⟩, .vli ⟨1, 1, 2⟩, .vcmp .eq .i8 ⟨0, 0, 128, 2, 3, 0, 0⟩,
    .vfcmp .eq .f32 ⟨0, 0, 128, 2, 3, 0, 0⟩, .pand ⟨0, 0, 1, 128, 3, 0, 0⟩, .pnot ⟨0, 0, 1, 2, 3, 0, 0⟩,
    .pset ⟨0, 0, 1, 2, 0, 0, 0⟩, .ptest ⟨0, 0, 4, 2, 0, 0, 0⟩, .vbcast ⟨0, 0, 1, 1, 4, 0⟩, .vrcp ⟨0, 0, 1, 2, 3, 0, 0⟩,
    .vrcp ⟨0, 0, 2047, 2, 0, 8, 0⟩, .vscl ⟨0, 0, 1, 2, 3, 0, 3⟩, .vdot8 ⟨0, 0, 1, 2, 3, 0, 1⟩, .tmv ⟨0, 0, 1, 2, 64, 0, 1⟩,
    .vred ⟨0, 0, 1, 2, 64, 0, 0⟩, .lds ⟨0, 0, 1, 2, 3, 0, 1, 0, 0, 2, 0⟩, .lds ⟨0, 0, 1, 2, 3, 0, 0, 2, 0, 2, 0⟩,
    .sts ⟨0, 0, 1, 2, 3, 1, 0, 0, 0, 2, 0⟩, .ldc ⟨0, 0, 1, 2, 3, 0, 0, 0, 1, 2, 0⟩, .vspill ⟨1, 0, 1, 2, 0, 0, 0, 0, 0, 0, 0⟩,
    .vfill ⟨0, 0, 1, 2, 1, 0, 0, 0, 0, 0, 0⟩, .vgth ⟨0, 0, 1, 2, 3, 0, 0, 0, 0, 2, 1⟩, .vsct ⟨0, 0, 1, 2, 3, 0, 0, 0, 0, 2, 1⟩,
    .aadd ⟨0, 0, 1, 2, 1, 0, 0, 0, 0, 0, 0⟩, .bar ⟨0, 0, 1, 0, 4, 0, 0, 0, 0, 0, 0⟩, .fence ⟨0, 0, 0, 0, 1, 0, 0, 2, 2, 0, 0⟩,
    .fenceOp ⟨0, 0, 0, 0, 0, 0, 0, 2, 2, 0, 0⟩, .wmon ⟨1, 2, 8⟩].all
      (fun i => i.fits && !Checks.zeroOk i) = true := by decide

/-- The same of the engine, cache, bench, journal, launch and system instructions. -/
theorem test_wf_zero_codes : [Instr.cpy ⟨1, 2, 0⟩, .cpyr ⟨0, 2, 0x2000⟩, .bclose ⟨1, 1, 0⟩, .bwait ⟨1, 1, 0⟩, .cstat ⟨1, 1, 0⟩,
    .cquiesce ⟨1, 2, 2⟩, .cquiesceRst ⟨1, 2, 3⟩, .oclaim ⟨1, 1, 0⟩, .oclaimAny ⟨1, 0, 17⟩, .orel ⟨1, 0, 0⟩,
    .mma ⟨0, 0, 0, 1, 64, 0, 0⟩, .mmas ⟨0, 0, 0, 1, 64, 1, 0⟩, .mzero ⟨1, 0, 0⟩, .accrd ⟨0, 0, 1, 1, 0, 0, 0⟩,
    .accwr ⟨0, 0, 1, 1, 0, 0, 0⟩, .mlease ⟨1, 0, 1⟩, .mleaseFol ⟨0, 1, 1⟩, .smask ⟨0, 1, 1⟩, .attnBrim ⟨0, 1, 8⟩,
    .attnBrimRes ⟨0, 1, 0⟩, .kvmap ⟨0, 0, 1, 2, 64, 0, 0⟩, .kvapp ⟨1, 2, 1⟩, .kvlink ⟨1, 2, 8⟩, .kvtrim ⟨1, 2, 2⟩,
    .pgget ⟨1, 1, 0⟩, .pgput ⟨1, 1, 0⟩, .bdep ⟨1, 2, 2 ^ 16⟩, .bcpy ⟨1, 2, 16⟩, .jrec ⟨1, 2, 1⟩, .jack ⟨1, 1, 0⟩, .jtrunc ⟨1, 2, 1⟩,
    .rngc ⟨0, 0, 1, 3, 64, 0, 0⟩, .bdset ⟨1, 2, 32⟩, .bdget ⟨1, 1, 0⟩, .bdclr ⟨1, 0, 0⟩, .spawn ⟨0, 0, 1, 2, 3, 0, 0⟩,
    .glaunch ⟨1, 2, 1⟩, .gwait ⟨1, 2, 0⟩, .trap ⟨0, 0, 2 ^ 16⟩, .eret ⟨0, 0, 4⟩, .csrr ⟨1, 1, 0x100⟩, .csrw ⟨1, 1, 0x150⟩,
    .wdog ⟨1, 2, 2⟩, .wdogQ ⟨1, 2, 1⟩].all (fun i => i.fits && !Checks.zeroOk i) = true ∧
    [Instr.br ⟨0, 0, 0, 0, 1, 0⟩, .ret ⟨0, 0, 0, 0, 1, 1⟩].all (fun i => Checks.zeroOk i && !Checks.branchZero i) = true := by
  decide

/-- A field whose value is not legal (REASON 4, R193). -/
theorem test_wf_range : [Instr.sshli ⟨1, 2, 64⟩, .sgetv ⟨0, 0, 1, 1536, 0, 0, 0⟩, .sballot ⟨0, 0, 1, 96, 0, 0, 0⟩,
    .srd ⟨1, 0, 0xF⟩, .swr ⟨0, 1, 0x10⟩, .br ⟨15, 0, 0, 0, 0, 0⟩, .br ⟨13, 0, 0, 96, 0, 0⟩, .split ⟨96, 0, 0, 0, 0⟩,
    .exit ⟨96, 0⟩, .fmt ⟨0, 0, 0x3C⟩, .fmt ⟨0, 0, 0x28⟩, .vadd .i8 ⟨0, 0, 1536, 2, 3, 0, 0⟩, .vadd .i8 ⟨0, 0, 1, 2046, 3, 0, 0⟩,
    .vadd .i8 ⟨0, 0, 1, 2, 1600, 0, 0⟩, .vadd .i8 ⟨0, 0, 1, 2, 3, 0, 1⟩, .vadd .i8 ⟨0, 0, 1, 2, 3, 3, 8⟩,
    .vadd .i8 ⟨0, 0, 1, 2, 3, 5, 0⟩, .vabs .i8 ⟨96, 0, 1, 2, 0, 0, 0⟩, .vaddi .i8 ⟨0, 0, 1, 1536, 0⟩, .vshli .i8 ⟨0, 0, 1, 2, 8⟩,
    .vli ⟨1536, 0, 0⟩, .vcmp .eq .i8 ⟨0, 0, 96, 2, 3, 0, 0⟩, .vfcmp .eq .f32 ⟨0, 0, 96, 2, 3, 0, 0⟩, .pand ⟨0, 0, 1, 96, 3, 0, 0⟩,
    .pnot ⟨0, 0, 96, 2, 0, 0, 0⟩, .pset ⟨0, 0, 96, 0, 0, 0, 0⟩, .ptest ⟨0, 0, 1, 96, 0, 0, 0⟩, .vbcast ⟨0, 0, 1536, 0, 1, 0⟩,
    .vlane ⟨0, 0, 1, 1536, 1, 0⟩, .vrcp ⟨0, 0, 1, 1536, 0, 0, 0⟩, .vcvt ⟨0, 0, 1, 2, 2047, 10, 0⟩, .vcvt ⟨0, 0, 1, 2, 3, 0, 1⟩,
    .vpack ⟨0, 0, 1, 2, 2047, 1, 0⟩, .vpack ⟨0, 0, 1, 1535, 2047, 0, 1⟩, .vunpack ⟨0, 0, 1, 2, 2047, 0, 1⟩,
    .vscl ⟨0, 0, 1, 2, 0, 3, 3⟩, .vdot8 ⟨0, 0, 1, 2, 1536, 0, 0⟩, .tmv ⟨0, 0, 1, 2, 3, 0, 8⟩, .tmv ⟨0, 0, 1534, 2, 3, 0, 7⟩,
    .vred ⟨0, 0, 1, 2, 47, 0, 0⟩].all (fun i => i.fits && Checks.zeroOk i && !Checks.rangeOk i) = true := by decide

/-- The same of the memory, engine, cache, bench and system instructions. -/
theorem test_wf_range_codes : [Instr.lds ⟨0, 0, 1, 2, 3, 0, 0, 0, 2, 2, 0⟩, .lds ⟨0, 0, 1, 2, 3, 0, 0, 5, 1, 2, 0⟩,
    .lds ⟨0, 0, 1, 2, 3, 0, 0, 1, 1, 2, 1⟩, .sts ⟨0, 0, 1, 2, 3, 0, 0, 0, 1, 2, 0⟩, .ldc ⟨0, 0, 1, 1536, 3, 0, 0, 0, 0, 2, 0⟩,
    .vspill ⟨0, 0, 1, 512, 0, 0, 0, 0, 0, 0, 0⟩, .aadd ⟨0, 0, 1, 2, 48, 0, 0, 0, 0, 0, 0⟩,
    .aadd ⟨0, 0, 1, 2, 0, 0, 0, 0, 0, 2, 0⟩, .afadd ⟨0, 0, 1, 2, 0, 0, 0, 0, 0, 3, 0⟩, .amin ⟨0, 0, 1, 1535, 0, 0, 0, 0, 0, 0, 0⟩,
    .acas ⟨0, 0, 1535, 2, 0, 0, 0, 0, 0, 0, 0⟩, .fence ⟨0, 0, 0, 0, 0, 0, 0, 2, 0, 0, 0⟩, .fenceOp ⟨0, 0, 0, 0, 0, 0, 0, 5, 0, 0, 0⟩,
    .wmon ⟨1, 2, 3⟩, .cpy ⟨0, 61, 0⟩, .cpy ⟨0, 1, 5⟩, .cpy ⟨0, 1, 16⟩, .cpyr ⟨0, 1, 3⟩, .cpyr ⟨0, 1, 3 * 2 ^ 14 + 4 * 2 ^ 17⟩,
    .bclose ⟨1, 0, 3⟩, .bwait ⟨0, 1, 3⟩, .cstat ⟨63, 0, 0⟩, .mma ⟨0, 0, 5 * 256, 0, 64, 0, 0⟩, .mma ⟨0, 0, 0, 0, 0, 0, 0⟩,
    .mma ⟨0, 0, 0, 0, 64 + 63, 0, 0⟩, .mmas ⟨0, 0, 0, 1, 64, 0, 2⟩, .mzero ⟨0, 0, 5⟩, .accrd ⟨0, 0, 1, 0, 5 * 256, 0, 0⟩,
    .accwr ⟨0, 0, 0, 1536, 0, 0, 0⟩, .mlease ⟨0, 0, 65⟩, .mleaseFol ⟨0, 1, 128 + 65⟩, .attnBrim ⟨0, 1, 5⟩,
    .kvmap ⟨0, 0, 1, 1536, 3, 0, 0⟩, .kvapp ⟨1, 61, 0⟩, .kvlink ⟨1, 62, 0⟩, .kvsum ⟨1, 63, 0⟩, .bdep ⟨1, 57, 7 * 16⟩,
    .bcpy ⟨57, 1, 0⟩, .btak ⟨1, 57, 64 * 256⟩, .jtrunc ⟨1, 63, 0⟩, .rngc ⟨0, 0, 1535, 3, 1, 0, 0⟩, .spawn ⟨0, 0, 0, 1535, 3, 0, 0⟩,
    .eret ⟨0, 0, 3⟩, .csrr ⟨1, 0, 0x105⟩, .csrw ⟨0, 1, 0x124⟩].all (fun i => i.fits && Checks.zeroOk i && !Checks.rangeOk i) = true := by
  decide

/-! ### States in which one split issues one word -/

/-- A group of 64 registers on core 0, one split with lanes 0 and 1, all of its registers named below 4 zero. -/
def grp : Group :=
  { loadGroup 0 0 with nregs := 64, nspill := 2, v := (List.range 4).flatMap (fun r => (List.range 32).map (fun l => (32 * r + l, 0))) }

/-- Its split, with `s1` to `s4` zero. -/
def spl : Split := { Split.blank 0 8 with
  hdr := 0, region := 0, mask := 3, code := [0], s := [(1, 0), (2, 0), (3, 0), (4, 0)], cc := [(0, ⟨true, false, true, false⟩)] }

/-- `s` where group 0 is `g` and its one split `sp` issues. -/
def here (s : State) (g : Group) (sp : Split) : State :=
  { s with sched := [(0, (0, 0))], blocks := [(0, loadBlock)], groups := [(0, { g with splits := [(0, sp)] })], nextId := 1 }

/-- Its issue. -/
def iss (g : Group) (sp : Split) : Issue := ⟨0, 0, { g with splits := [(0, sp)] }, sp⟩

/-- Context 1 takes its traps at 0x1000. -/
def vec : State := State.reset.setCtxReg 1 0x161 (BitVec.ofNat 64 (2 ^ 63 + 0x1000))

/-- Lanes of a mask are among 32. -/
theorem lanes_bounded (m : Mask) (p : Nat → Prop) (h : ∀ l < 32, m.getLsbD l = true → p l) (l : Nat) (hl : m.getLsbD l = true) :
    p l := h l (BitVec.lt_of_getLsbD hl) hl

/-! ### Witnesses: every hypothesis of the statements about program instructions is met -/

/-- ScalarInstructionsWriteTheirRule, at the wrap of `sadd`. -/
theorem test_meets_scalar : let sp := spl.put 1 (BitVec.allOnes 64)
    steady (here .reset grp sp) (iss grp sp) = true ∧ (Instr.saddi ⟨2, 1, 1⟩).wf = true ∧
    scalarRule (.saddi ⟨2, 1, 1⟩) sp = some (2, 0) := by decide +kernel

/-- LaneReadsReachScalars, for `z` and for a named register. -/
theorem test_meets_lane_reads : steady (here .reset grp spl) (iss grp spl) = true ∧
    ((⟨0, 0, 1, zReg, 0, 0, 0⟩ : XF).f2 = zReg ∨ zReg < (iss grp spl).g.nregs) ∧
    ((⟨0, 0, 1, 63, 0, 0, 0⟩ : XF).f2 = zReg ∨ 63 < (iss grp spl).g.nregs) := by decide +kernel

/-- SpecialRegistersAreReadAndWritten: FMT at both ends of its values, a handler that writes TRAPE, a trap of `csrw`. -/
theorem test_meets_special :
    (∀ v ∈ [0x38, 0x43], let sp := spl.put 1 (w64 v)
      steady (here .reset grp sp) (iss grp sp) = true ∧ (sp.get 1).toNat < 2 ^ 8 ∧
      ((sp.get 1).toNat / 16 = 3 ∨ (sp.get 1).toNat / 16 = 4) ∧ (sp.get 1).getLsbD 2 = false) ∧
    (let sp := { spl with trap := { spl.trap with hnd := true } };
      steady (here vec grp sp) (iss grp sp) = true ∧ (sp.get 1).toNat % 8 = 0) ∧
    steady (here vec grp spl) (iss grp spl) = true ∧ traps (here vec grp spl) (iss grp spl) = true ∧
    (here vec grp spl).blocks.get? (iss grp spl).g.bid = some loadBlock := by decide +kernel

/-- The first gigabyte maps to itself with every permission; a clause header stands at 0x40 and 0x80. -/
def paged : State := { vec.setCtxReg 1 0x160 0x10001 with
  main := ⟨none, [(0x46, 0x10), (0x47, 0x7F), (0x86, 0x10), (0x87, 0x7F), (0x10000, 1), (0x10002, 2), (0x20000, 0x3F)]⟩ }

/-- DivergenceDividesJoinsAndEndsLanes: both parts have lanes; all, and none, are taken; all lanes end, and one does. -/
theorem test_meets_divergence :
    (∀ p1 ∈ [1, 3, 0], let g := { grp with p := (List.range 2).map (fun l => (32 * 5 + l, p1.testBit l)) };
      let i := iss g spl
      steady (here paged g spl) i = true ∧ i.guard 5 0 = BitVec.ofNat 32 p1 ∧ i.sp.pc + wordsOff 20 7 = 0x40 ∧
      i.sp.pc + wordsOff 20 15 = 0x80 ∧ (here paged g spl).fetch 0 1 0x40 = .ok 0x7F10000000000000 ∧
      (Decode.header 0x7F10000000000000).isSome = true ∧ i.sp.pc + 8 ≠ 0x40) ∧
    (∀ e ∈ (iss grp spl).g.splits, e.2.youngest = none ∧ e.2.atRecord = false ∧ e.2.shadow = none) ∧
    (iss grp spl).g.splits.get? 1 = none ∧ (iss grp spl).g.splits.get? 0 ≠ none := by decide +kernel

/-- A scoreboard slot with room. -/
theorem room_of {g : Group} {sb : Option Nat} (k : Nat) (h : sb = none ∨ (sb = some k ∧ g.sb.getD k 0 < 63)) : g.room sb := by
  rintro j rfl
  rcases h with h | ⟨h, h'⟩
  · cases h
  · cases h; exact h'

/-- The group with lane 0 of `v1` replaced. -/
def grpV (w : Nat) : Group := { grp with v := grp.v.set 32 (w64 w) }

/-- BranchesRegionsAndFormats: not taken and taken, with an aligned target. -/
theorem test_meets_branches : let i := iss grp spl
    steady (here .reset grp spl) i = true ∧ takes i ⟨2, 0, 0, 0, 1, 0⟩ = false ∧ takes i ⟨1, 0, 0, 0, 1, 0xFFFFFFF⟩ = true ∧
    takes i ⟨13, 0, 0, 0, 1, 0⟩ = false ∧ takes i ⟨14, 0, 0, 0, 1, 0⟩ = true ∧
    (i.sp.get 1 + wordsOff 28 0xFFFFFFF).toNat % 8 = 0 ∧ (i.sp.get 1).toNat % 8 = 0 := by decide +kernel

/-- GuardsPatternsAndHardWiredRegisters: a group that lives. -/
theorem test_meets_guards : ((here .reset grp spl).groups.get? 0).isSome = true := by decide

/-- IntegerVectorsComputeByElement: two operands with the last register, one operand, and an immediate. -/
theorem test_meets_integer_vectors : let i := iss grp spl
    steady (here .reset grp spl) i = true ∧ (Instr.vmul .i16 ⟨0, 0, 63, 1, zReg, 0, 0⟩).wf = true ∧
    (intRule (.vmul .i16 ⟨0, 0, 63, 1, zReg, 0, 0⟩)).isSome = true ∧ i.g.names 63 = true ∧ i.g.names zReg = true ∧
    (Instr.vneg .i8 ⟨0, 0, 1, 2, 0, 0, 0⟩).wf = true ∧ (intRule1 (.vneg .i8 ⟨0, 0, 1, 2, 0, 0, 0⟩)).isSome = true ∧
    (Instr.vaddi .i64 ⟨0, 0, 1, 2, 2 ^ 19 - 1⟩).wf = true ∧ (immRule (.vaddi .i64 ⟨0, 0, 1, 2, 2 ^ 19 - 1⟩)).isSome = true := by
  decide +kernel

/-- ComparesAndLogicWriteAPredicate. -/
theorem test_meets_compares : let i := iss grp spl
    steady (here .reset grp spl) i = true ∧ i.g.names 1 = true ∧ i.g.names zReg = true ∧
    (predRule (.pand ⟨0, 0, 0, 1, 2, 0, 0⟩) i).isSome = true ∧ (predRule (.ptest ⟨0, 0, 0, 1, 0, 0, 0⟩) i).isSome = true := by
  decide +kernel

/-- MovesAndCrossLaneOperations; `vlane` with its selector at 511. -/
theorem test_meets_moves : let i := iss grp spl
    steady (here .reset grp spl) i = true ∧ (Instr.vli ⟨1, 48, 2 ^ 32 - 1⟩).wf = true ∧ i.g.names 1 = true ∧
    ((511 : Nat) : Int) = ((i.sp.get 1).toNat + sg 13 (2 ^ 13 - 1)) % 512 := by decide +kernel

/-- FloatVectorsRoundOnce: a NaN, a sum that is not zero, and one that is. -/
theorem test_meets_float : let i := iss (grpV 0x7FC000003F800000) spl
    let v := fun j => fp32.val (getE 32 j (i.g.v? 1 0))
    steady (here .reset (grpV 0x7FC000003F800000) spl) i = true ∧ (floatRule (.vfma .f32 ⟨0, 0, 2, 1, 3, 0, 0⟩)).isSome = true ∧
    i.g.bd = [] ∧ i.g.names 2 = true ∧ (i.guard 0 0).getLsbD 0 = true ∧ (v 1).isNan = true ∧ (v 0).finite = true ∧
    (v 0).exact + 0 ≠ 0 ∧ (fp32.val (getE 32 0 (i.g.v? 3 0))).finite = true ∧
    (fp32.val (getE 32 0 (i.g.v? 2 0))).exact = 0 := by decide +kernel

/-- FloatSelectionSignAndClass: one and two NaNs, both orders, and zeros of both signs. -/
theorem test_meets_float_selection : let i := iss grp spl
    steady (here .reset grp spl) i = true ∧ i.g.bd = [] ∧ i.g.names 1 = true ∧ (i.guard 0 0).getLsbD 1 = true ∧
    (fp32.val 0x7F800001).isNan = true ∧ (fp32.val 0x3F800000).isNan = false ∧
    (fp32.val 0x80000000).isZero = true ∧ (fp32.val 0x80000000).neg? = true ∧ (fp32.val 0).isZero = true ∧
    (fp32.val 0).neg? = false := by decide +kernel

/-- The order of that statement: 1 below 2, and −∞ below 1. -/
theorem test_meets_below : FVal.below (.fin false 1 0) (.fin false 1 1) ∧ FVal.below (.inf true) (.fin false 1 0) :=
  ⟨show (FVal.fin false 1 0).exact < (FVal.fin false 1 1).exact by decide +kernel, rfl⟩

/-- RoundingIsNearestOrDirected, for a value between two of E4M3. -/
theorem test_meets_rounding : e4m3 ∈ [fp32, bf16, fp16, e4m3, e5m2, e2m1] ∧ (17 : Nat) ≠ 0 ∧ 0x38 < 2 ^ e4m3.width ∧
    (e4m3.val 0x38).finite = true ∧ (∀ mode < 4, (e4m3.val (e4m3.roundFin false mode true 17 (-4)).1).finite = true) ∧
    e4m3 ≠ e2m1 := by decide +kernel

/-- SpecialFunctionsAreExactWhereTheyCanBe: an operand of the table, and one whose result is exact. -/
theorem test_meets_special_functions : let i := iss (grpV 0x7FC0000040800000) spl
    steady (here .reset (grpV 0x7FC0000040800000) spl) i = true ∧ (sfuRule (.vsqrt ⟨0, 0, 2, 1, 0, 8, 0⟩)).isSome = true ∧
    i.g.bd = [] ∧ i.g.names 2 = true ∧ (sfuSpecial .sqrt (fp32.val (getE 32 1 (i.g.v? 1 0)))).isSome = true ∧
    sfuSpecial .sqrt (fp32.val (getE 32 0 (i.g.v? 1 0))) = none := by decide +kernel

/-- Its exact result: the root of 4 is 2; and slot 0 with 62 results has room. -/
theorem test_meets_exact_result : sfuExact .sqrt (fp32.val 0x40800000).exact (fp32.val 0x40000000).exact ∧
    Group.room { grp with sb := [(0, 62)] } (XF.sb ⟨0, 0, 2, 1, 0, 8, 0⟩) :=
  ⟨by unfold sfuExact; decide +kernel, room_of 0 (by decide +kernel)⟩

/-- DotProductsAccumulate. -/
theorem test_meets_dot : let i := iss grp spl
    steady (here .reset grp spl) i = true ∧ i.g.bd = [] ∧ i.g.names 1 = true ∧
    (fp32.val (getE 32 1 (i.g.v? 1 0))).finite = true ∧ (∀ e < 4, ((fmtOf (i.sp.fmt.toNat / 16)).val
      (getE 8 (4 + e) (i.g.v? 2 0))).finite = true) ∧ ((fmtOf 3).val 0x7F).isNan = true := by decide +kernel

/-- ReductionsCombineGuardedLanes. -/
theorem test_meets_reductions : let i := iss grp spl
    steady (here .reset grp spl) i = true ∧ i.g.bd = [] ∧ i.g.names 1 = true ∧ (31 : Nat) / 32 % 2 = 0 ∧
    (i.guard 0 0).getLsbD 0 = true ∧ 64 = 8 * 2 ^ ((31 : Nat) % 4) := by decide +kernel

/-- The windows of context 1: 128 KiB of scratchpad on die 0 and 1 KiB of constants. -/
def win : State := (vec.setCtxReg 1 0x100 0x20000).setCtxReg 1 0x104 0x10000

/-- MatrixVectorProductsChainFusedAdds, of odd size, at the end of the constant window. -/
theorem test_meets_tmv : let sp := spl.put 1 (w64 (1024 - 36))
    let i := iss grp sp;
    steady (here win grp sp) i = true ∧ i.g.bd = [] ∧ (3 : Nat) = 2 + 1 ∧ 2 + (3 + 1) / 2 ≤ min i.g.nregs 1536 ∧
    (i.sp.get (1 % 64)).toNat % 4 = 0 ∧ (i.sp.get (1 % 64)).toNat + 4 * 3 * 3 ≤ (here win grp sp).cnExtent i.g.ctx := by
  decide +kernel

/-- ConversionsRoundScaleAndSaturate: to a scaled format, from a NaN, and to an integer at its bounds. -/
theorem test_meets_conversions : let i := iss grp spl
    let o : XF := ⟨0, 0, 1, 2, 3, 0, 3⟩
    steady (here .reset grp spl) i = true ∧ (Instr.vcvt o).wf = true ∧ (cvtRule (.vcvt o)).isSome = true ∧ i.g.bd = [] ∧
    i.g.names 1 = true ∧ i.g.names 3 = true ∧ (i.g.v? 3 0).toNat % 256 ≠ 255 ∧
    (elemVal 0 (getE 32 0 (i.g.v? 2 0))).finite = true ∧ (elemVal 0 0x7FC00000).isNan = true ∧
    (Instr.vcvt ⟨0, 0, 1, 2, zReg, 0, 6⟩).wf = true ∧ (elemVal 0 0xCF000000).exact * 1 = ((-2 ^ 31 : Int) : Rat) ∧
    (2 : Rat) ^ (32 - 1) ≤ (elemVal 0 0x4F000000).exact ∧ (elemVal 0 0xCF000000).exact ≤ -(2 : Rat) ^ (32 - 1) := by
  decide +kernel

/-- SharedScalesComeFromTheLargestMagnitude: a lane of zeros, one that is not finite, one of magnitude 1. -/
theorem test_meets_scales : let i := iss (grpV 0x3F8000003F800000) spl
    steady (here .reset (grpV 0x3F8000003F800000) spl) i = true ∧ (Instr.vscl ⟨0, 0, 2, 1, 0, 0, 3⟩).wf = true ∧
    i.g.names 2 = true ∧ (3, (8 : Int)) ∈ [(3, (8 : Int)), (4, 15), (5, 2), (8, 6), (9, 2)] ∧
    (fp32.val (getE 32 1 (i.g.v? 2 0))).isZero = true ∧ (fp32.val 0x7F800000).finite = false ∧
    (fp32.val (getE 32 1 (i.g.v? 1 0))).finite = true ∧ (fp32.val (getE 32 1 (i.g.v? 1 0))).exact < (2 : Rat) ^ ((0 : Int) + 1) ∧
    (2 : Rat) ^ (0 : Int) ≤ (fp32.val (getE 32 1 (i.g.v? 1 0))).exact ∧
    Decode.decode (0x50 * 2 ^ 56 + 3 * 2 ^ 49 + 2 * 2 ^ 30 + 1 * 2 ^ 19 + 3) = .ok (false, .vscl ⟨0, 0, 2, 1, 0, 0, 3⟩) := by
  decide +kernel

/-- RangeRegistersAreSetReadAndApplied: a valid pair for a register, one whose bounds are out of order, and a tile. -/
theorem test_meets_range_registers : let d := w64 (2 * 2 ^ 58 + 2 * 2 ^ 12 + 2)
    let b := w64 (0x3F800000 * 2 ^ 32 + 0xBF800000)
    let sp := (spl.put 1 d).put 2 b
    let i := iss grp sp
    steady (here vec grp sp) i = true ∧ bdValid d = true ∧ bdBounds b = true ∧ bits d 53 3 ≠ 1 ∧
    traps (here vec grp sp) i = true ∧ bdBounds (w64 (0xBF800000 * 2 ^ 32 + 0x3F800000)) = false ∧
    bdValid (w64 (5 * 2 ^ 58)) = false ∧ loadBlock.tiles.length = 5 ∧ bdValid (w64 (2 ^ 58 + 2 ^ 53 + 4)) = true := by
  decide +kernel

/-- Its second part, in both modes: −1 to 1 on `v2`, with a result of 2 in lane 0 and of 0 in lane 1. -/
theorem test_meets_range_check : ∀ mode ∈ [2, 3], let d := w64 (mode * 2 ^ 58 + 2 * 2 ^ 12 + 2)
    let b := w64 (0x3F800000 * 2 ^ 32 + 0xBF800000)
    let g := { grpV 0x40000000 with bd := [(0, (d, b))] };
    let i := iss g spl
    steady (here vec g spl) i = true ∧ (floatRule (.vfadd .f32 ⟨0, 0, 2, 1, 3, 0, 0⟩)).isSome = true ∧
    bdCovers d 0 2 = true ∧ (fp32.val (bits b 0 32)).finite = true ∧ (fp32.val (bits b 32 32)).finite = true ∧
    (fp32.val (bits b 0 32)).exact ≤ (fp32.val (bits b 32 32)).exact ∧ d.getLsbD 57 = false ∧ 2 ≠ zReg ∧ bdMode d = mode ∧
    i.g.names 2 = true ∧ traps (here vec g spl) i = true ∧ (i.guard 0 0).getLsbD 0 = true ∧
    (fp32.val (bits b 32 32)).exact < (fp32.val (getE 32 0 (i.g.v? 1 0))).exact := by decide +kernel

/-- The outcome is the next state `t`. -/
def nextIs (o : Host.Outcome State Fault Refusal) (t : State) : Bool :=
  match o with
  | .next u => decide (u = t)
  | .fault _ => false
  | .refused _ => false

theorem nextIs_eq {o : Host.Outcome State Fault Refusal} {t : State} (h : nextIs o t = true) : o = .next t := by
  cases o with
  | next u => exact congrArg _ (of_decide_eq_true h)
  | fault _ => cases h
  | refused _ => cases h

/-- Its last hypothesis: without the range register the sum completes. -/
theorem test_meets_range_unchecked : exec (.vfadd .f32 ⟨0, 0, 2, 1, 3, 0, 0⟩) (here vec (grpV 0x40000000) spl) =
    .next ((here vec (grpV 0x40000000) spl).floatOn (iss (grpV 0x40000000) spl) 2
      (onLanes ((iss (grpV 0x40000000) spl).guard 0 0) (fun l => if l = 0 then 0x40000000 else 0)) 0) :=
  nextIs_eq (by decide +kernel)

/-- LoadsReturnTheBytesAtTheirOffsets and StoresPutTheirBytesAtTheirOffsets, at the last word of each space. -/
theorem test_meets_loads_and_stores : (∀ e ∈ [(0, 512 * 1024), (1, 0x20000), (2, 1024)], let sp := spl.put 4 (w64 (e.2 - 8))
      let i := iss grp sp
      let s := here win grp sp
      let x := match e.1 with
        | 0 => Instr.lds ⟨0, 0, 1, 2, 4, 1, 0, 0, 0, 3, 0⟩
        | 1 => .ldx ⟨0, 0, 1, 2, 4, 1, 0, 0, 0, 3, 0⟩
        | _ => .ldc ⟨0, 0, 1, 2, 4, 1, 0, 0, 0, 3, 0⟩
      steady s i = true ∧ (loadRule x).isSome = true ∧ x.wf = true ∧ i.g.names 1 = true ∧ s.unperformed 0 = false) ∧
    (Instr.sts ⟨0, 0, 1, 2, 4, 0, 0, 0, 0, 3, 0⟩).wf = true ∧ (Instr.stx ⟨0, 0, 1, 2, 4, 0, 0, 0, 0, 3, 0⟩).wf = true ∧
    quietMem (here win grp spl) = true ∧ (here win grp spl).wbRoom 0 [0x1FFF8, 0x1FFF8] = true := by decide +kernel

/-- Their lanes are legal there. -/
theorem test_meets_legal_lanes : ∀ e ∈ [(Space.shm, 512 * 1024), (.spd, 0x20000), (.cns, 1024)],
    ∀ l, ((iss grp (spl.put 4 (w64 (e.2 - 8)))).guard 0 0).getLsbD l = true →
      fits (here win grp (spl.put 4 (w64 (e.2 - 8)))) grp e.1 (2 ^ 3)
        (offsetOf (iss grp (spl.put 4 (w64 (e.2 - 8)))) ⟨0, 0, 1, 2, 4, 1, 0, 0, 0, 3, 0⟩ l) := by
  intro e he
  apply lanes_bounded
  revert e
  unfold fits
  decide +kernel

/-- IllegalOffsetsTrapBeforeAnyEffect: one byte past the end, before the start, and misaligned inside. -/
theorem test_meets_illegal_offsets : (∀ e ∈ [0x80001 - 4, 2 ^ 64 - 4, 2], let sp := spl.put 4 (w64 e)
      let i := iss grp sp
      let s := here win grp sp
      let o : MF := ⟨0, 0, 1, 2, 4, 0, 0, 0, 0, 2, 0⟩
      steady s i = true ∧ (Instr.lds o).wf = true ∧ traps s i = true ∧ i.g.names 1 = true ∧ i.guard 0 0 = 3 ∧
      ((e = 2 ∧ offsetOf i o 0 % 2 ^ 2 ≠ 0 ∧ 0 ≤ offsetOf i o 0 ∧ offsetOf i o 1 + 2 ^ 2 ≤ s.extent i.g .shm) ∨
        offsetOf i o 0 < 0 ∨ (s.extent i.g .shm : Int) < offsetOf i o 0 + 2 ^ 2)) := by decide +kernel

/-- GathersAndScattersFaultByLane: lane 0 passes and lane 1 fails. -/
theorem test_meets_gathers : let g := { grp with v := grp.v.set 65 0x80000 };
    let i := iss g spl
    let o : MF := ⟨0, 0, 1, 2, 4, 0, 0, 0, 0, 2, 0⟩
    steady (here vec g spl) i = true ∧ quietMem (here vec g spl) = true ∧ (Instr.vgth o).wf = true ∧ o.mx / 2 = 0 ∧
    traps (here vec g spl) i = true ∧ 1 < i.g.nregs ∧ i.guard 0 0 = 3 ∧ offsetOf i o 0 = 0 ∧
    (here vec g spl).extent i.g .shm < offsetOf i o 1 + 2 ^ 2 ∧ o.se = 0 ∧ o.slot = 0 := by decide +kernel

/-- SpillSlotsHoldWholeRegisters: the last slot, and the one past it. -/
theorem test_meets_spill : let i := iss grp spl
    steady (here vec grp spl) i = true ∧ i.g.names 1 = true ∧ 1 < i.g.nspill ∧ i.g.nspill ≤ 2 ∧
    traps (here vec grp spl) i = true := by decide +kernel

/-- SharedMemoryAtomicsApplyInLaneOrder: two lanes at one element; a float add of one lane. -/
theorem test_meets_shared_atomics : let i := iss grp spl
    let s := here vec grp spl
    steady s i = true ∧ (atomRule (.acas ⟨0, 0, 0, 2, 0, 0, 0, 0, 0, 1, 0⟩)).isSome = true ∧
    (Instr.acas ⟨0, 0, 0, 2, 0, 0, 0, 0, 0, 1, 0⟩).wf = true ∧ quietMem s = true ∧ s.copies = [] ∧
    s.unperformed 0 = false ∧ s.retSlots 0 < 128 ∧ i.g.names 0 = true ∧ 2 + 1 < i.g.nregs ∧ i.guard 0 0 = 3 ∧
    (i.g.v? 2 0).toNat = (i.g.v? 2 1).toNat ∧ (iss grp { spl with mask := 1 }).guard 0 0 = 1 ∧
    (Instr.afadd ⟨0, 0, 0, 2, 0, 0, 0, 0, 0, 2, 0⟩).wf = true := by decide +kernel

/-- Its lanes are legal. -/
theorem test_meets_shared_lanes : ∀ l, ((iss grp spl).guard 0 0).getLsbD l = true →
    fits (here vec grp spl) grp .shm 8 ((iss grp spl).g.v? 2 l).toInt := by
  apply lanes_bounded; unfold fits; decide +kernel

/-- DistantAtomicsAreSentToTheirHomes, on the scratchpad and on main memory, translated by the page table. -/
theorem test_meets_distant_atomics : let i := iss grp spl
    let s := here (paged.setCtxReg 1 0x100 0x20000) grp spl
    steady s i = true ∧ (atomRule (.aadd ⟨0, 0, 0, 2, 16, 0, 0, 0, 0, 0, 0⟩)).isSome = true ∧
    (Instr.aadd ⟨0, 0, 0, 2, 16, 0, 0, 0, 0, 0, 0⟩).wf = true ∧ (Instr.aadd ⟨0, 0, 0, 2, 32, 0, 0, 4, 3, 0, 0⟩).wf = true ∧
    s.unperformed 0 = false ∧ s.retSlots 0 < 128 ∧ 2 + 1 < i.g.nregs ∧ s.unitError 0 4 = none ∧
    (i.g.v? 2 1).toNat = 0 ∧ s.walkReady 0 1 0 = true ∧
    s.translateRouted 0 1 .atomic [.q, .w, .a, .hbm] true 0 = .ok ⟨0, 0x3F, 2⟩ := by decide +kernel

/-- `s` with shared memory `m` in block 0. -/
def withShm (s : State) (m : Memory) : State := { s with blocks := [(0, { loadBlock with shm := m })] }

/-- BarrierWordsCountArrivals: an arrival of two, the last of one, an over-full word, and a wait whose phase has passed. -/
theorem test_meets_barriers : (∀ w ∈ [2, 1, 0x10001], let s := withShm (here vec grp spl) ((⟨none, []⟩ : Memory).writeN 0 8 w)
      let i := iss grp spl
      poised s i = true ∧ steady s i = true ∧ quietMem s = true ∧ s.copies = [] ∧ (s.blocks.get? i.g.bid).isSome = true ∧
      i.g.slot < 16 ∧ ((0 : Nat) : Int) = (i.sp.get 4).toInt ∧ s.unperformed 0 = false ∧ traps s i = true ∧
      ((s.blocks.get? 0).map (fun k => k.shm.readN 0 8)) = some w) ∧
    (w64 2).toNat / 2 ^ 16 % 2 ^ 16 < (w64 2).toNat % 2 ^ 16 ∧ (w64 0x10001).toNat % 2 ^ 16 ≤ (w64 0x10001).toNat / 2 ^ 16 % 2 ^ 16 ∧
    (let sp := { spl with wait := .barrier 0 0 true true };
      poised (withShm (here vec grp sp) ⟨none, [(6, 1)]⟩) (iss grp sp) = true ∧ (⟨none, [(6, 1)]⟩ : Memory).readN 0 8 / 2 ^ 48 ≠ 0) := by
  decide +kernel

/-- Its word is legal. -/
theorem test_meets_barrier_word : fits (here vec grp spl) grp .shm 8 (0 : Nat) := by unfold fits; decide +kernel

/-- MonitorsCheckArmAndReturn: a return, equal and different words, a full table, the scratchpad, and main memory. -/
theorem test_meets_monitors : let i := iss grp spl
    let sp := { spl with wait := .wmon false 5 (some 1) };
    calm (here win grp sp) (iss grp sp) = true ∧ calm (here win grp spl) i = true ∧ ((0 : Nat) : Int) = (i.sp.get 1).toInt ∧
    leNat ((here win grp spl).shmRead 0 0 4) = (i.sp.get (2 * 2 ^ 8 / 2 ^ 8 % 64)).toNat % 2 ^ (8 * 4) ∧
    ((here win grp spl).core 0).monitors.length < 64 ∧ (List.replicate 64 (⟨8, 4, 0, 1, 0⟩ : Monitor)).length = 64 ∧
    leNat ((withShm (here win grp spl) ⟨none, [(0, 1)]⟩).shmRead 0 0 4) ≠ (i.sp.get 2).toNat % 2 ^ (8 * 4) ∧
    (here win grp spl).retSlots 0 < 128 ∧ traps (here win grp spl) i = true := by decide +kernel

/-- Its word on the scratchpad is legal. -/
theorem test_meets_monitored_word : fits (here win grp spl) grp .spd 8 (0x1FFF8 : Nat) := by unfold fits; decide +kernel

/-- FencesDrainAndPublish, with an entry in the write buffer. -/
theorem test_meets_fences : let s := (here win grp spl).setCore 0 { Core.init with wbuf := [⟨0, [(0, 5)], 0⟩] };
    poised s (iss grp spl) = true ∧ s.unperformed 0 = false ∧ (s.core 0).wbuf ≠ [] := by decide +kernel

/-- An operation of class `c` and batch `n`, and an error of a batch. -/
def op (c n : Nat) (done : Bool) : OpRec := ⟨9, c, n, done, [], [], [], false⟩

/-- BatchesAreClosedAwaitedAndReported: one operation incomplete, one done, and one error. -/
theorem test_meets_batches : (∀ done ∈ [false, true], let g := { grp with ops := [op 0 1 done], counters := [(0, 1)] };
      let sp := spl.put 1 5
      let i := iss g sp
      poised (here vec g sp) i = true ∧ i.sp.wait = .none ∧ i.sp.trap.hnd = false ∧
      1 = min (i.sp.get 1).toNat (i.g.counters.getD 0 0) ∧ (op 0 1 done).batch ≠ 0 ∧ i.g.errs = []) ∧
    (let g := { grp with errs := [⟨0, 9, 1, 5, 7⟩], counters := [(0, 1)], errLists := [(0, [⟨5, 1, 7⟩])] };
      let i := iss g (spl.put 1 1)
      steady (here vec g (spl.put 1 1)) i = true ∧ traps (here vec g (spl.put 1 1)) i = true ∧ i.g.ops = [] ∧
      i.g.errs = [⟨0, 9, 1, 5, 7⟩] ∧ i.g.errLists.getD 0 [] = ⟨5, 1, 7⟩ :: [] ∧ i.g.errLists.getD 1 [] = []) := by decide +kernel

/-- CopiesAreQueuedQuiescedAndReissued: from the last bytes of a claimed slot to the end of shared memory. -/
theorem test_meets_copies : let sp := (((spl.put 8 (w64 (512 * 1024 - 8))).put 9 (w64 0xFFF8)).put 10 8).put 11 0
    let i := iss grp sp
    let s := (here win grp sp).setSlot 0 0 { Slot.init with st := .claimed };
    poised s i = true ∧ (i.sp.get 10).toNat ≤ 2 ^ 32 ∧ s.copyBounds i.g 0 0 (i.sp.get 8) 8 = true ∧
    s.copyBounds i.g 3 0 (i.sp.get 9) 8 = true ∧ (i.sp.get 8).toNat % 8 = 0 ∧ (i.sp.get 9).toNat % 8 = 0 ∧
    s.mayName 0 0 ((i.sp.get 9).toNat / 65536 % 16) = true ∧ s.copyQueueFull 0 = false ∧ s.openCopies 0 < 64 := by decide +kernel

/-- A queued copy of group 0. -/
def cop : CopyOp := ⟨9, 0, 0, 1, 0, 0, false, 0x20, 0, 64, 8, 0, false, false, false, 0, [], [], []⟩

/-- Its second part: outside a handler; in one with a copy to cancel; an entry to queue again. -/
theorem test_meets_quiesce : let sp := { spl with trap := { spl.trap with hnd := true } };
    let g := { grp with ops := [op 0 0 false] };
    let i := iss g sp
    let s := { here win g sp with copies := [cop] };
    steady (here win grp spl) (iss grp spl) = true ∧ traps (here win grp spl) (iss grp spl) = true ∧ poised s i = true ∧
    (i.sp.get 1).toInt = ((i.sp.get 1).toNat : Int) ∧ (i.sp.get 1).toNat % 64 = 0 ∧ 4096 ≤ s.extent i.g .spd ∧
    s.inSpan 1 0 0 4096 = false ∧ (∀ c ∈ s.copies, c.gid = i.gid ∧ c.wrote = false ∧ s.copyOpen c = true) ∧
    (s.copies.map (fun c => c.id)).Nodup ∧ (∀ e ∈ s.groups, ∀ p ∈ e.2.ops, p.uses = []) ∧
    (replayOf (cop.entry 0)).legal = true ∧
    s.copyCheck 0 i.g cop.code cop.dst cop.src (w64 cop.len) cop.bar = none ∧ cop.code < 2 ^ 32 := by decide +kernel

/-- SlotsAreClaimedAndReleased: a free slot, one of the group, one of another group, and none free. -/
theorem test_meets_slots : let i := iss grp spl
    let s := here vec grp spl
    let t := s.setSlot 0 15 { Slot.init with st := .claimed };
    let u := s.setSlot 0 15 { Slot.init with st := .claimed, owner := 7 };
    let full := (List.range 16).foldl (fun (x : State) k => x.setSlot 0 k { Slot.init with st := .claimed, owner := 7 }) s
    poised s i = true ∧ (s.slotOf 0 15).st = .free ∧ t.mayName 0 0 15 = true ∧ poised t i = true ∧
    (u.slotOf 0 15).st ≠ .free ∧ u.mayName 0 0 15 = false ∧ steady u i = true ∧ traps u i = true ∧
    (∀ m < 15, (full.slotOf 0 m).st ≠ .free) ∧ (∀ m < 16, (full.slotOf 0 m).st ≠ .free) ∧ poised full i = true := by decide +kernel

/-- TilesAreReadAndWrittenByLane: the last position, one out of range, and a tile past the block's. -/
theorem test_meets_tiles : let sp := (spl.put 1 (w64 (2 ^ 32 + 190 * 2 ^ 16 + 96))).put 2 (w64 129)
    let i := iss grp sp
    let s := here vec grp sp
    steady s i = true ∧ s.blocks.get? 0 = some loadBlock ∧ loadBlock.tiles[4 * 256 / 256]? = some 4 ∧ accOk (i.sp.get 1) = true ∧
    s.tileInUse 0 4 = false ∧ i.g.names 1 = true ∧ i.g.bd = [] ∧ traps s i = true ∧ accOk (i.sp.get 2) = false ∧
    loadBlock.tiles[5 * 256 / 256]? = none := by decide +kernel

/-- MatrixOperationsAreQueued: one element by one in BF16, sparse and dense; a tile out of range; and `smask`. -/
theorem test_meets_matrix : let shape := w64 (1 + 2 ^ 16 + 64 * 2 ^ 32)
    let sp := (spl.put 1 shape).put 2 0
    let i := iss grp sp
    let s := (here vec grp sp).setSlot 0 0 { Slot.init with st := .claimed };
    steady s i = true ∧ s.matFull 0 = false ∧ shapeOk shape false = true ∧ metaLen 1 shape = 1 ∧ s.mayName 0 0 0 = true ∧
    (∀ r ∈ rangesA 2 true (min 128 (shM shape)) (shK shape) 0 ++ rangesB 2 (shN shape) (shK shape) 0, r.1 + r.2 ≤ 65536) ∧
    4 < loadBlock.tiles.length ∧ loadBlock.tiles.length ≤ 5 ∧ traps s i = true ∧ (i.sp.get 2).toNat / 2 ^ 56 = 0 ∧
    (∀ r ∈ smaskRanges (i.sp.get 2), r.1 + r.2 ≤ 65536) := by decide +kernel

/-- LeasesAndBondsAreReplaced, on an even core and on an odd one. -/
theorem test_meets_leases : let g := { grp with core := 1 };
    let s := (here vec g spl).setSlot 1 0 { Slot.init with st := .claimed };
    let i := iss g spl
    poised (here vec grp spl) (iss grp spl) = true ∧ traps (here vec grp spl) (iss grp spl) = true ∧ grp.core % 2 = 0 ∧
    poised s i = true ∧ i.g.core % 2 = 1 ∧ (i.sp.get 1).toNat / 8 % 2 = 0 ∧ (i.sp.get 1).toNat < 2 ^ 8 ∧
    loadBlock.tiles[(i.sp.get 1).toNat % 8]? = some 0 ∧ s.mayName 0 1 ((i.sp.get 1).toNat / 16) = true := by decide +kernel

/-- A descriptor at scratchpad offset 0: 1 row, LENGTH 128, SCALE 1, MAPB 0x30000, in a context whose cache is enabled with its
frames from 0x40000 and its headers from 0x50000 on. -/
def cached : State := (((paged.setCtxReg 1 0x100 0x20000).setCtxReg 1 0x120 0x40001).setCtxReg 1 0x121 0x50000).setDie 0
  { Die.init with scratch := ⟨none, [(6, 1), (8, 128), (0x12, 0x80), (0x13, 0x3F), (0x22, 3)]⟩ }

/-- Its descriptor. -/
def desc : Desc := ⟨1, 128, 0, 0x3F800000, 0, 0, 0x30000, 0, true⟩

/-- AttentionOperationsAreQueued, and with the cache off. -/
theorem test_meets_attention : let i := iss grp spl
    let s := (here cached grp spl).setSlot 0 0 { Slot.init with st := .claimed };
    steady s i = true ∧ s.blocks.get? 0 = some loadBlock ∧ (s.ctxReg 1 0x120).getLsbD 0 = true ∧ loadBlock.tiles[(4 : Nat)]? = some 4 ∧
    s.mayName 0 0 0 = true ∧ s.descCheck i.g (i.sp.get 1) = none ∧ (i.sp.get 2).toNat % 8 = 0 ∧ s.attnFull 0 = false ∧
    ((here vec grp spl).ctxReg 1 0x120).getLsbD 0 = false ∧ traps (here vec grp spl) i = true ∧ s.unperformed 0 = false ∧
    loadBlock.tiles[(5 : Nat)]? = none ∧ s.mayName 0 0 1 = false ∧ s.descCheck i.g 4 = some 3 ∧ s.descCheck i.g 0x20000 = some 4 ∧
    (w64 4).toNat % 8 ≠ 0 := by decide +kernel

/-- FrameCachesAndMapLookups: a frame to take, an empty cache, a frame to give and a number that names none. -/
theorem test_meets_frame_caches : let sp := (spl.put 2 (w64 0xFFFFFFE)).put 3 (w64 0xFFFFFFF)
    let i := iss grp sp
    let s := (here cached grp sp).setCore 0 { Core.init with frames := { Core.init.frames with ctx := some 1, frames := [4, 9] } };
    let t := (here cached grp sp).setCore 0 { Core.init with frames := { Core.init.frames with ctx := some 1 } };
    steady s i = true ∧ (s.ctxReg 1 0x120).getLsbD 0 = true ∧ (s.core 0).frames.frames = [4] ++ [9] ∧ steady t i = true ∧
    (t.core 0).frames.frames = [] ∧ (i.sp.get 2).toNat < 0x0FFFFFFF ∧ 0x0FFFFFFF ≤ (i.sp.get 3).toNat ∧
    traps s i = true := by decide +kernel

/-- The descriptor of the cache instructions, as they read it. -/
theorem test_meets_descriptor : kvReady (here cached grp spl) (iss grp spl) 0 desc ∧ desc.inRange = true := by
  unfold kvReady; decide +kernel

/-- FrameCachesAndMapLookups, a lookup: the last position and the one past it, with the map entry readable. -/
theorem test_meets_lookup : steady (here cached grp spl) (iss grp spl) = true ∧ ((grpV 127).v? 1 0).toNat < desc.len ∧
    desc.len ≤ ((grpV 128).v? 1 0).toNat ∧ 63 < { desc with wstart := 64 }.wstart ∧
    (here cached grp spl).kvRead 0 1 .copy (desc.mapb + 4 * 1) 4 = .ok [0, 0, 0, 0] ∧
    (here (cached.setCtxReg 1 0x160 0) grp spl).kvRead 0 1 .copy (desc.mapb + 4 * 1) 4 =
      .error ⟨5, 0x9800000000030000⟩ ∧
    kvServed (here cached grp spl) (iss grp spl) [(desc.mapb + 4 * 0, 4)] [] = true ∧
    (∀ k < 64, (here cached grp spl).migState k ≠ 2) := by decide +kernel

/-- CacheInstructionsWriteOrReturnACode: the entry of page 0 and its empty header, the staged record, and every status. -/
theorem test_meets_cache : let i := iss grp spl
    let s := here cached grp spl
    s.kvRead 0 1 .copy (desc.mapb + 4 * 0) 4 = .ok [0, 0, 0, 0] ∧ (i.sp.get 2).toNat < 2 ^ 24 ∧ (i.sp.get 4).toNat < 2 ^ 28 ∧
    s.stagingCheck i.g (i.sp.get 3) 264 = none ∧ (0 : Nat) < { desc with wstart := 64 }.wstart ∧
    badRecord (s.windowRead i.g (i.sp.get 3) 264) = false ∧ badRecord (List.replicate 264 0x7F) = true ∧
    (hdrOf (List.replicate 1024 0)).malformed 0 = false ∧ (hdrOf (List.replicate 1024 0)).valid = 0 % 64 ∧
    (hdrOf (List.replicate 1024 0)).valid < 1 % 64 ∧ maskSlots (i.sp.get 4) = [] ∧ maskSlots (w64 (2 ^ 63)) = [63] ∧
    linkListed 0 2 = false ∧ linkListed 0 4 = true ∧ desc.wstart < 64 * 0 + 64 ∧ 64 * 0 + 64 ≤ { desc with wstart := 64 }.wstart := by
  decide +kernel

/-- The header of frame 0 as read. -/
theorem test_meets_header : (here cached grp spl).kvRead 0 1 .copy ((here cached grp spl).headerVa 1 0) 1024 =
    .ok (List.replicate 1024 0) := by decide +kernel

/-- Its map entry in each status, and an append, whose accesses can be served and whose writes succeed. -/
theorem test_meets_cache_writes : (∀ st < 16,
      let s := here { cached with main := ⟨none, cached.main.cells ++ (if st = 0 then [] else [(0x30003, BitVec.ofNat 8 (16 * st))])⟩ } grp spl
      s.kvRead 0 1 .copy (desc.mapb + 4 * 0) 4 = .ok [0, 0, 0, BitVec.ofNat 8 (16 * st)] ∧
      leNat [0, 0, 0, BitVec.ofNat 8 (16 * st)] / 2 ^ 28 % 16 = st) ∧
    (let s := here cached grp spl
      let ws := s.appendWrites 1 0 0 0 (List.replicate 128 (0, 0)) (List.replicate 264 0)
      kvServed s (iss grp spl) [(0x30000, 4), (s.headerVa 1 0, 1024)] (ws.map (fun w => (w.1, w.2.length))) = true ∧
      ((s.kvTouch 0 1 .copy [] [(0x30000, 4), (s.headerVa 1 0, 1024)]).kvWrites 0 1 [] ws).isOk = true) ∧
    (let s := here { cached with main := ⟨none, cached.main.cells ++ [(0x50005, 1)]⟩ } grp spl;
      (s.core 0).frames.frames.length < 32 ∧ kvServed s (iss grp spl) [(0x30000, 4)] [(0x30000, 4)] = true ∧
      ((s.kvTouch 0 1 .copy [] [(0x30000, 4)]).kvWrites 0 1 [] [(0x30000, leBytes 4 (3 * 2 ^ 28))]).isOk = true) := by decide +kernel

/-- A region of context 1 that the host may use, in slices 2 and 5 of die 0: BASE 0, SIZE 1 KiB each, in a window of all of the die. -/
def benched : State := (vec.setCtxReg 1 0x100 (w64 (1152 * 2 ^ 16))).setCtxReg 1 0x110 (w64 (2 ^ 63 + 2 ^ 62 + 0x24 * 2 ^ 24 + 2 ^ 8))

/-- BenchRequestsAreCheckedSentAndAnswered: a usable region and the last tag; a reserved tag; a region without a descriptor. -/
theorem test_meets_bench_requests : let sp := (spl.put 1 (w64 0xFFFEFFFF)).put 2 (w64 0xFFFF0000)
    let i := iss grp sp
    let s := here benched grp sp
    calm s i = true ∧ (benchRule (.bdep ⟨5, 1, 0⟩)).isSome = true ∧ i.sp.wait = .none ∧ s.retSlots 0 < 128 ∧
    s.benchUsable 1 0 = true ∧ s.benchUsable 1 1 = false ∧ traps s i = true ∧ (i.sp.get 1).toNat % 2 ^ 32 < 0xFFFF0000 ∧
    0xFFFF0000 ≤ (i.sp.get 2).toNat % 2 ^ 32 ∧ s.unperformed 0 = false ∧ i.g.armed = false ∧
    ((s.setCtxReg 1 0x166 (w64 (2 ^ 52))).setCtxReg 1 0x168 (w64 (2 ^ 62))).journalOn 1 = true := by decide +kernel

/-- The home of tag 0 is slice 2, and of tag 1, by its hash, slice 5. -/
theorem test_meets_homes : homes (benched.ctxReg 1 0x110) 0 0 2 ∧ homes (benched.ctxReg 1 0x110) 1 0 5 := by
  unfold homes; decide +kernel

/-- Its replies: fields, and a refusal. -/
theorem test_meets_bench_replies : (∀ ws ∈ [some (List.replicate 8 0), none],
    let sp := { spl with wait := .bench 9 true 5 (some ws) };
    calm (here benched grp sp) (iss grp sp) = true ∧ traps (here benched grp sp) (iss grp sp) = true) ∧
    (List.replicate 7 (0 : Word)).length = 7 := by decide +kernel

/-- A bound journal of context 1 with 64 KiB, and one record of sequence 0. -/
def journal : State := ((benched.setCtxReg 1 0x166 (w64 (2 ^ 52))).setCtxReg 1 0x168 (w64 (2 ^ 62 + 1))).setJournal 1
  ⟨1, 64, [⟨1, List.replicate 64 0, false⟩], [], some (0, 7), 0, 0⟩

/-- JournalRecordsAreNumberedKeptAndTruncated: an armed group, a journal that is off, room, and a newly truncated record. -/
theorem test_meets_journal : let i := iss grp spl
    let s := here journal grp spl
    steady s i = true ∧ s.journalOn 1 = true ∧ (s.ctx 1).journal.made + 1 < 2 ^ 48 ∧ s.unperformed 0 = false ∧
    traps (here vec grp spl) i = true ∧ (here vec grp spl).journalOn 1 = false ∧
    steady (here vec { grp with armed := true } spl) (iss { grp with armed := true } spl) = true ∧
    s.jbufUsed 1 + (64 + 0 + 63) / 64 * 64 ≤ s.jbufBytes 1 ∧ leNat ((List.replicate 64 (0 : Byte)).take 4) = (i.sp.get 1).toNat % 2 ^ 32 ∧
    (s.ctxReg 1 0x168).toNat % 2 ^ 48 = 1 ∧ s.memOpen = true := by decide +kernel

/-- Its staged record: an empty one at offset 0x300000, outside the span of every region. -/
theorem test_meets_staged : staged (here journal grp (spl.put 1 (w64 0))) (iss grp (spl.put 1 (w64 0))) (w64 0) 0 := by
  unfold staged; decide +kernel

/-- CounterBasedRandomWords. -/
theorem test_meets_random : let i := iss grp spl
    steady (here .reset grp spl) i = true ∧ 1 + 1 < i.g.nregs ∧ 62 + 1 < i.g.nregs ∧ i.g.nregs ≤ 1536 ∧
    (i.guard 0 0).getLsbD 0 = true ∧ (i.guard 0 0).getLsbD 1 = true := by decide +kernel

/-- SpawnsAndChildGrids: a misaligned entry, a block without packed slots, one with, depth 10 and 1, and a child. -/
theorem test_meets_spawns : let i := iss grp (spl.put 2 4)
    let s := here cached grp (spl.put 2 4)
    steady s i = true ∧ i.g.names (1 + 1) = true ∧ (i.sp.get 2).toNat % 8 ≠ 0 ∧ traps s i = true ∧ (i.sp.get 1).toNat % 8 = 0 ∧
    loadBlock.packedSlots = 0 ∧ { loadBlock with packedSlots := 1 }.packedSlots ≠ 0 ∧ (s.core 0).spawned + 2 ≤ 2048 ∧
    i.g.slot = 0 ∧ s.depthOf i.g < 10 ∧ (i.sp.get 1).toNat < 2 ^ 52 ∧ s.unperformed 0 = false ∧
    { grp with slot := 1 }.slot ≠ 0 ∧ (∀ e ∈ s.grids, e.2.id ≠ 0) := by decide +kernel

/-- Its launch record: one block of one group of 64 registers at 0x40, in virtual memory at 0x60000. -/
theorem test_meets_launch_record :
    let s : State := here { cached with main := ⟨none, cached.main.cells ++ [(0x60000, 0x40), (0x60010, 1), (0x60014, 1),
      (0x60016, 1), (0x6001B, 8)]⟩ } grp spl
    let r := s.main.readBytes 0x60000 64
    let reads := [(0x60000, 64), paramRange r]
    s.kvRead 0 1 .copy 0x60000 64 = .ok r ∧ kvServed s (iss grp spl) reads [] = true ∧
    (s.kvTouch 0 1 .copy [] reads).launchParams grp r = .ok [] ∧ recordBad r = none ∧ (∀ k < 64, s.migState k ≠ 2) := by
  decide +kernel

/-- TrapsEnterEndOrReturn: a handler, none and no vector, and a shadow to return from. -/
theorem test_meets_traps : let sp := { spl with trap := { spl.trap with hnd := true }, shadow := some ⟨3, 0x38, [], [1, 2, 3, 4], none⟩ };
    let i := iss grp sp
    steady (here paged grp spl) (iss grp spl) = true ∧ traps (here paged grp spl) (iss grp spl) = true ∧
    ((here paged grp spl).ctx 1).attached = false ∧ (State.reset.ctxReg 1 0x161).getLsbD 63 = false ∧
    steady (here paged grp sp) i = true ∧ i.sp.trap.hnd = true ∧ i.sp.shadow = some ⟨3, 0x38, [], [1, 2, 3, 4], none⟩ ∧
    (∀ e ∈ i.g.splits, e.1 ≠ i.sid → e.2.mask &&& 3 = 0) ∧
    (here paged grp sp).fetch 0 1 i.sp.trap.trapi = .ok 0 := by decide +kernel

/-- DecodeReadsWhatEncodeWrites and StepRunsTheDecodedInstruction: a well-formed instruction at its place, and an illegal word. -/
theorem test_meets_step : (Instr.nop).wf = true ∧ (Decode.opcode .nop).isSome = true ∧
    Decode.decode 0x1104000000000000 = .ok (false, .nop) ∧
    (let sp := { spl with code := [0x1104000000000000] };
      (here .reset grp sp).agenda = [] ∧ (here .reset grp sp).issuer = some (iss grp sp) ∧ sp.able = true ∧
      (here .reset grp sp).groupAble (iss grp sp).g = true ∧ Decode.decodeAt sp.cls true 0x1104000000000000 = .ok (false, .nop) ∧
      sp.stepping = false) ∧
    (let sp := { spl with code := [0x209E000000000000] };
      Decode.decodeAt sp.cls true 0x209E000000000000 = .error 2 ∧ steady ((here vec grp sp).tick 0) (iss grp sp) = true ∧
      traps (here vec grp sp) (iss grp sp) = true) := by decide +kernel

/-- StepKeepsMemoryCanonical: the reset state meets the invariant and steps. -/
theorem test_meets_invariant : Sys2Proof.Machine.Inv State.reset ∧ nextIs (step State.reset) { State.reset with time := 1, fresh := 1 } = true :=
  ⟨by unfold Sys2Proof.Machine.Inv; decide +kernel, by decide +kernel⟩

/-! ### Witnesses: every hypothesis of the statements about events is met -/

/-- A group at rest, by its block. -/
theorem rest {s : State} {g : Group} (b : Block) (hb : s.blocks.get? g.bid = some b)
    (h : (g.recs = [] ∧ g.deferred = [] ∧ g.status = .running ∧ s.parity = [] ∧
      ∀ e ∈ g.splits, e.2.haltReq = false ∧ e.2.watchdog = none ∧ e.2.pendTrap = none ∧ e.2.restartPend = false ∧
        e.2.parked = false ∧ e.2.stepping = false) ∧ b.rolling = false ∧ b.checkpoint = none) : atRest s g := by
  obtain ⟨⟨h1, h2, h3, h4, h5⟩, h6, h7⟩ := h
  refine ⟨h1, h2, h3, h4, h5, fun c hc => ?_⟩
  cases hb.symm.trans hc
  exact ⟨h6, h7⟩

/-- Group 0 with its split at a clause, as an event finds it: no scheduler has an issue. -/
def idle (s : State) (g : Group) (sp : Split) : State := { here s g sp with sched := [] }

/-- Group 0 is at rest. -/
theorem test_meets_rest : atRest (idle vec grp spl) (iss grp spl).g := rest loadBlock (by decide +kernel) (by decide +kernel)

/-- SchedulerAndResultEvents: an empty scheduler; a split at a clause, at a word that is no header, and inside its clause. -/
theorem test_meets_picks : State.reset.pick 0 = none ∧
    (∀ pc ∈ [0x40, 0x48], let sp := { spl with pc := w64 pc, code := [] };
      let s := idle paged grp sp
      s.sched.get? (0 * 4 + 0) = none ∧ s.pick 0 = some (0, 0) ∧ s.split? 0 0 = some ((iss grp sp).g, sp) ∧
      s.fetch 0 1 sp.pc = .ok (if pc = 0x40 then 0x7F10000000000000 else 0) ∧ traps s (iss grp sp) = true) ∧
    (idle paged grp spl).pick 0 = some (0, 0) ∧ Decode.header 0x7F10000000000000 = some (1, 0, 0) ∧
    ((idle paged grp spl).fetchTouch 0 1 0x40 (8 * (1 + 2))).fetchWords 0 1 (0x40 + 8) (1 + 1) = .ok [0, 0] ∧ Decode.header 0 = none ∧
    (let s := idle vec grp { spl with code := [] }; (s.fetch 0 1 spl.pc).isOk = false) ∧
    (let s := { idle paged grp spl with time := 64 };
      64 ≤ s.time - grp.readySince ∧ (s.pickSplit (iss grp spl).g).isSome = true ∧ ¬ 64 ≤ (idle paged grp spl).time - grp.readySince) := by
  decide +kernel

/-- A result on its way to lane 0 of `v1`, under slot 3. -/
def pend : Pend := ⟨9, 0, [1], 1, [(32, 5)], 0, some 3, true, 0, 0, [], 0⟩

/-- SchedulerAndResultEvents: a hold, a result that has arrived, the three replies, and a write-buffer entry. -/
theorem test_meets_results : (idle vec grp { spl with wait := .hold 0 }).split? 0 0 =
      some ((iss grp { spl with wait := .hold 0 }).g, { spl with wait := .hold 0 }) ∧
    (let g := { grp with outs := [pend] };
      (idle vec g spl).groups.get? 0 = some (iss g spl).g ∧ (iss g spl).g.ops = [] ∧ (iss g spl).g.outs[(0 : Nat)]? = some pend ∧
      pend.need = 0 ∧ pend.undef = 0 ∧ (pend.data.map (fun e => e.1)).Nodup) ∧
    (let s := (idle vec { grp with outs := [{ pend with need := 1, data := [] }] }
        { spl with wait := .bench 9 true 5 none }).setCore 0 { Core.init with
          replies := [.bench 0 0 9 none 7, .wmon 0 0 1, .atomic 0 9 [(0, 5)]], wbuf := [⟨64, [(0, 1), (1, 2)], 0⟩] };
      (s.core 0).replies[(0 : Nat)]? = some (.bench 0 0 9 none 7) ∧ (s.core 0).replies[(1 : Nat)]? = some (.wmon 0 0 1) ∧
      (s.core 0).replies[(2 : Nat)]? = some (.atomic 0 9 [(0, 5)]) ∧ s.parity = [] ∧
      (s.core 0).wbuf[(0 : Nat)]? = some ⟨64, [(0, 1), (1, 2)], 0⟩ ∧ ([(0, (1 : Byte)), (1, 2)].map (fun b => b.1)).Nodup) := by
  decide +kernel

/-- An item of the spawn queue. -/
def item : SpawnItem := ⟨0x40, 1, 2, 0, 0⟩

/-- GroupAndSpawnEvents: groups with and without splits; a held `spawn` below and at its limit; a bin; a group to start;
and a watched phase below and at its limit. -/
theorem test_meets_groups : (idle vec grp spl).groups.get? 0 = some (iss grp spl).g ∧ (iss grp spl).g.splits ≠ [] ∧
    grp.status ≠ .evicted ∧ grp.handler = none ∧ loadBlock.evicting = false ∧ { grp with splits := [] }.outs = [] ∧
    (idle vec grp spl).nodeGroup (iss grp spl).g = false ∧ (idle vec grp spl).unperformed 0 = false ∧ (idle vec grp spl).memOpen = true ∧
    (let sp := { spl with wait := .hold 0, awake := false, roomSince := some 0, code := [w64 (0x7C * 2 ^ 56 + 1 * 2 ^ 19 + 1 * 2 ^ 8)] };
      let s := { idle vec grp sp with time := 4096, blocks := [(0, { loadBlock with packedSlots := 1 })] };
      s.split? 0 0 = some ((iss grp sp).g, sp) ∧ sp.roomSince = some 0 ∧ sp.awake = false ∧ sp.halted = false ∧ sp.heldWord = some (false, .spawn ⟨0, 0, 0, 1, 1, 0, 0⟩) ∧ grp.names 1 = true ∧
      grp.names 2 = true ∧ (sp.get 1).toNat % 8 = 0 ∧ traps s (iss grp sp) = true ∧ 4096 ≤ s.time - 0 ∧ (4095 : Nat) - 0 < 4096 ∧
      2048 < ((s.setCore 0 { Core.init with spawnQ := List.replicate 2047 item }).core 0).spawned +
        (lanesOf ((iss grp sp).guard 0 0)).length) ∧
    (let s := { (idle vec grp spl).setCore 0 { Core.init with bins := [⟨0, 0x40, [item]⟩], formed := [⟨0, 0x40, [item]⟩] } with
        time := 1024, blocks := [(0, { loadBlock with packedSlots := 1 })] };
      (s.core 0).bins[(0 : Nat)]? = some ⟨0, 0x40, [item]⟩ ∧ 1024 ≤ s.time - item.time ∧ (s.core 0).formed = ⟨0, 0x40, [item]⟩ :: [] ∧
      (s.blocks.get? 0).isSome = true ∧ loadBlock.evicted = false ∧ loadBlock.evicting = false ∧ 1 ≤ 1 ∧ 1 < 1 + { loadBlock with packedSlots := 1 }.packedSlots ∧
      (∀ e ∈ s.groups, e.2.bid = 0 → e.2.slot ≠ 1) ∧ (⟨0, 0x40, [item]⟩ : Formed).items.length ≤ 32) ∧
    (let sp := { spl with wait := .barrier 0 0 true true };
      let s := { (idle vec grp sp).setCore 0 { Core.init with watch := [⟨0, 0, 0, 1024⟩] } with time := 1024 };
      (s.core 0).watch[(0 : Nat)]? = some ⟨0, 0, 0, 1024⟩ ∧ 1024 ≤ s.time - 0 ∧ s.groupsOf 0 = [(0, (iss grp sp).g)] ∧
      sp.halted = false ∧ sp.awake = false ∧ traps s (iss grp sp) = true ∧
      (let g := { grp with status := .evicted }; (idle vec g sp).groupsOf 0 = [(0, (iss g sp).g)])) := by decide +kernel

/-- A grid of context 1: two blocks of one group of 64 registers. -/
def grid : Grid := ⟨1, 0, 1, none, 0x40, 2, 1, 1, w64 (2 ^ 27), [7], .pending, 0, 0, 0, none, [], none⟩

/-- A machine with that grid, whose blocks core 0 may take. -/
def gridded : State := { paged.setCtxReg 1 0x169 1 with grids := [(5, grid)], nextId := 6, time := 2 ^ 20 }

/-- Context 1 has 16 save records of 2 MiB from 0x100000 on, 16 staging areas, and 1 MiB of window on die 0. -/
def saving (s : State) : State :=
  ((s.setCtxReg 1 0x100 0x100000).setCtxReg 1 0x162 (w64 (16 * 2 ^ 52 + 0x100000 + 32))).setCtxReg 1 0x163 (w64 (16 * 2 ^ 32))

/-- Four groups of 1536 registers and priority 0 fill core 0; the grid's blocks need as many, at priority 3. -/
def crowded : State := { here (saving gridded) grp spl with
  grids := [(5, { grid with config := w64 (3 * 2 ^ 62 + 24 * 2 ^ 27) })]
  blocks := [(0, { loadBlock with statics := 4, quads := [0, 1, 2, 3], grid := 9 })]
  groups := (List.range 4).map (fun q => (q, { grp with nregs := 1536, quad := q, slot := q, splits := [(0, spl)] }))
  nextId := 6 }

/-- Group 0 is evicted, with save record 0. -/
def evicted : State := idle (saving paged) { grp with
  nspill := 0, status := .evicted, saved := some ⟨true, false, 0x0E, 0, 0, 0, 0x100000, 0⟩ } spl

/-- PlacementAndTaskGraphEvents: nothing to place; a block and its core; a starved grid and one not yet. -/
theorem test_meets_placement : State.reset.placeNext 0 = none ∧ gridded.placeNext 0 = some (5, grid, 0, [(1, 0)]) ∧ gridded.fits 0 (shapeOf grid.config) = some [(1, 0)] ∧
    gridded.grids.get? 5 = some grid ∧ gridded.time - grid.waitSince ≥ 2 ^ 20 ∧ (4095 : Nat) - grid.waitSince < 4096 ∧
    gridded.evictPlan 5 grid = none ∧ (shapeOf grid.config).statics = 1 ∧
    (crowded.grids.get? 5).any (fun g => (crowded.coreFor 5 g).isNone && decide (g.next < g.total) && g.reserved.isNone &&
      (crowded.releases 0 (shapeOf g.config) ((crowded.blocksOn 0).map (fun e => e.1))).isSome && crowded.evictDue 5 g &&
      (crowded.evictPlan 5 g).any (fun p => (p.2.2.grids.get? 5).isSome)) = true ∧ crowded.permitted 1 0 = true ∧
    (∀ e ∈ crowded.grids, e.1 ≠ 5 → e.2.reserved ≠ some 0) ∧ 2 ^ 20 ≤ crowded.time - grid.waitSince := by decide +kernel

/-- Its block, without shared memory or tiles, evicted whole to a record of its own. -/
def evictedWhole : State := { evicted.setCtxReg 1 0x169 1 with blocks := [(0, { loadBlock with
  shmKiB := 0, tiles := [], nregs := 64, evicted := true, blockVa := 0x300000 })] }

/-- GROUP_RESTORE of a block evicted whole. -/
theorem test_meets_whole_restore : (evictedWhole.restoreNext 0 = some (0, some [(1, 0)])) ∧ (evictedWhole.groups.get? 0).isSome = true ∧
    (evictedWhole.restoreBlock 0 0 { loadBlock with shmKiB := 0, tiles := [], nregs := 64, evicted := true, blockVa := 0x300000 }
      [(1, 0)]).isOk = true := by decide +kernel

/-- GROUP_RESTORE: nothing to restore, and a group whose record is read. -/
theorem test_meets_restore : State.reset.restoreNext 0 = none ∧ evicted.restoreNext 0 = some (0, none) ∧
    evicted.readCtx 1 (0x100000 + 0x30) 2 = .ok [0, 0] ∧ evicted.recordSlots 1 0x100000 = .ok [] ∧
    evicted.freeStage 1 (dieOf 0) = some 0 ∧ (evicted.ctxReg 1 0x161).getLsbD 63 = true := by decide +kernel

/-- TIME_SLICE_EXPIRE: no slice; and one used up while another context waits below 4,096 cycles. -/
theorem test_meets_slice : bits (State.reset.ctxReg 2 0x16B) 0 32 = 0 ∧
    (let s := { (idle gridded { grp with ctx := 2 } spl).setCtxReg 2 0x16B 100 with time := 4095 };
      bits (s.ctxReg 2 0x16B) 0 32 ≠ 0 ∧ s.resident 2 = true ∧ (s.pendingGrids.map (fun e => e.2.ctx)) = [1] ∧
      (∀ e ∈ s.pendingGrids, s.time - e.2.waitSince < 4096)) := by decide +kernel

/-- Task graphs: a slot without kicks, with one, and with four; the kick word of slot 2. -/
theorem test_meets_kicks : (w64 0x2000004000001000).toNat / 2 ^ 60 = 2 ∧ vec.responds 1 = true ∧
    (vec.pkgReg 5).getLsbD 2 = false ∧ ((vec.setPkgReg 5 4).pkgReg 5).getLsbD 2 = true ∧
    ((vec.tgSlot 1 2).kicks = [] ∧ ((vec.setTgSlot 1 2 ⟨[1], none⟩).tgSlot 1 2).kicks ≠ []) ∧
    (vec.ctxReg 1 0x16C).getLsbD 63 = false ∧ (vec.ctxReg 1 (0x130 + 2)).getLsbD 63 = false ∧
    ((vec.setCtxReg 1 0x132 (w64 (2 ^ 63))).ctxReg 1 (0x130 + 2)).getLsbD 63 = true ∧
    ((vec.setCtxReg 1 0x16C (w64 (2 ^ 63))).ctxReg 1 0x16C).getLsbD 63 = true ∧ 4 ≤ (List.replicate 4 (0 : Word)).length := by
  decide +kernel

/-- An object of no nodes, and one of one node at virtual address 0x60000, its record a launch record. -/
def objected (n : Byte) : State := { (paged.setCtxReg 1 0x130 (w64 (2 ^ 63 + 0x60000))).setTgSlot 1 0 ⟨[0], none⟩ with
  main := ⟨none, paged.main.cells ++ (if n = 0 then [] else [(0x60000, n)]) ++
    [(0x60040, 0x40), (0x60050, 1), (0x60054, 1), (0x60056, 1), (0x6005B, 8)]⟩ }

/-- Whether an object is ready, and the code it ends with otherwise. -/
def prepared (s : State) : Nat :=
  match (s.prepare 1 0x60000 0).2 with
  | .ok r => 100 + r.nodes.length
  | .error e => e.code

/-- REPLAY_START: an object that is ready, one without nodes, and one that cannot be read. -/
theorem test_meets_replay : ((objected 1).tgSlot 1 0) = ⟨0 :: [], none⟩ ∧
    bits ((objected 1).ctxReg 1 0x130) 6 46 * 64 = 0x60000 ∧ ((objected 1).ctxReg 1 0x16C).getLsbD 63 = false ∧ (objected 1).memOpen = true ∧
    prepared (objected 1) = 101 ∧ prepared (objected 0) = 2 ∧ prepared ((objected 1).setCtxReg 1 0x160 0) = 4 ∧
    (objected 0).readCtx 1 0x60000 64 = .ok ((objected 0).main.readBytes 0x60000 64) ∧
    fieldAt ((objected 0).main.readBytes 0x60000 64) 0 4 = 0 := by decide +kernel

/-- The node of that object. -/
def node : Node := ⟨(objected 1).main.readBytes 0x60040 128, [], false, false⟩

/-- NODE_START: a node whose predecessors have all ended, and one whose have not. -/
theorem test_meets_node : let s := (objected 1).setTgSlot 1 0 ⟨[0], some ⟨0x60000, [node]⟩⟩
    (s.tgSlot 1 0).replay = some ⟨0x60000, [node]⟩ ∧ node.started = false ∧
    s.readCtx 1 (completionAt 0x60000 0) 8 = .ok (List.replicate 8 0) ∧ s.freeGridId 1 = some 0 ∧
    leNat (List.replicate 8 0) = fieldAt node.image 0x48 2 ∧
    leNat (List.replicate 8 0) ≠ fieldAt (List.replicate 128 (1 : Byte)) 0x48 2 := by decide +kernel

/-- A request of group 0 to slice 2 of die 0. -/
def breq (op : BenchOp) (poll : Bool) : BenchReq := ⟨9, op, 1, 0, 0, 0, [5], poll, none, .split 0 0⟩

/-- ServiceGroupEvents: a check of equal bits, an atomic, and the requests of R331 at the head of the queue. -/
theorem test_meets_service : let s := fun (q : SvcReq) (f : Slice → Slice) =>
      (idle benched grp spl).setSlice 0 2 (f { Slice.init with queue := [q] })
    (((s (.wmon 0 0 0 4 0) id).slice 0 2).queue = .wmon 0 0 0 4 0 :: [] ∧
      leNat ((s (.wmon 0 0 0 4 0) id).sliceRead 0 0 4) = (0 : Word).toNat) ∧
    (s (.atomic 0 0 0 0 (some 9) (.add 32) [⟨0, 0x600000, 1, 0⟩]) id).spdOpen 0 0x600000 4 = false ∧
    (s (.bench (breq .dep false)) id).hasPlace 0 2 1 0 = true ∧
    (s (.bench (breq .dep false)) id).hasPlace 0 2 1 1 = false ∧
    (breq .tak false).matches 0 [5] = true ∧ (breq .tak false).matches 1 [5] = false ∧
    (s (.withdraw 0 0 9) (fun x => { x with parked := [breq .tak false] })).withdrawAt 0 0 = some (0, 2) ∧
    (breq .tak false).who = .split 0 0 := by decide +kernel

/-- HostBenchAndFrameEvents: a port in use, a refused and an accepted request, a grant, and a take to send again. -/
theorem test_meets_host_bench : (State.reset.port 1 0).reply.getLsbD 63 = true ∧
    ((State.reset.setPort 1 0 ⟨[], 0, []⟩).port 1 0).reply.getLsbD 63 = false ∧ benched.responds 1 = true ∧
    benched.hostRefuses 1 0 (setBits 0 0 2 0) = false ∧ benched.hostRefuses 1 1 (setBits 0 0 2 0) = true ∧
    (let f : FrameCache := { Core.init.frames with ctx := some 1, grants := [(1, [w64 (2 ^ 63 + 4)])] };
      f.grants = (1, [w64 (2 ^ 63 + 4)]) :: [] ∧ ([w64 (2 ^ 63 + 4)].take 7).filter (fun w => w.getLsbD 63) = [w64 (2 ^ 63 + 4)]) ∧
    (let f : FrameCache := { Core.init.frames with ctx := some 1, refill := some 1 };
      f.taking = false ∧ f.grants = [] ∧ benched.benchUsable 1 (benched.mailbox 1) = true) := by decide +kernel

/-- The home of the tag of core 0's grants. -/
theorem test_meets_grant_home : homes (benched.ctxReg 1 (0x110 + benched.mailbox 1)) (0xFFFF0100 + 0) 0 2 := by
  unfold homes; decide +kernel

/-- JournalAndPartnerEvents: the states 0 to 3, a message from the partner and from another, silence, and a link. -/
theorem test_meets_partner : (w64 (2 ^ 63)).getLsbD 63 = true ∧ (0 : Word).getLsbD 63 = false ∧
    journal.fromPartner 1 7 = true ∧ journal.fromPartner 1 8 = false ∧ journal.jstate 1 = 1 ∧ State.reset.jstate 1 = 0 ∧
    (journal.setCtxReg 1 0x168 (w64 (2 ^ 63))).jstate 1 = 2 ∧ (journal.setCtxReg 1 0x168 (w64 (3 * 2 ^ 62))).jstate 1 = 3 ∧
    (journal.ctx 1).journal.made = 1 ∧ journal.holdsGated 1 = false ∧
    journal.silenceCycles 1 ≤ { journal with time := 2 ^ 30 }.time - (journal.ctx 1).journal.lastMsg ∧
    journal.time - (journal.ctx 1).journal.lastMsg < journal.silenceCycles 1 ∧
    (State.reset.pkgReg 0x034).getLsbD 63 = false ∧ ((State.reset.setPkgReg 0x034 (w64 (2 ^ 63))).pkgReg 0x034).getLsbD 63 = true := by
  decide +kernel

/-- A request of core 0 in context 1, in class 1, at physical address 0x40000. -/
def mreq (r : Route) (op : MemOp) : MemReq := ⟨9, r, 0x40000, 0, op, 0, 1, 1, 100, 0, false, [], none⟩

/-- The four kinds of request at the place of `mreq`. -/
def mops : List MemOp := [.read 7 0 32, .write 7 0 (List.replicate 32 1) [], .atomic 0 (some 9) 0 (.add 32) [⟨0, 0x40000, 1, 0⟩],
  .reduce 7 0 (.add 32) (List.replicate 32 1) [] []]

/-- MainMemoryRequestEvents, CHANNEL_PICK: a channel that switches, none, one of each kind, and the two quota clauses. -/
theorem test_meets_pick : { Channel.init with switching := true }.switching = true ∧ (State.reset.channel 3).switching = false ∧
    (∀ k < 4, let r := mreq (.channel 3) (mops.getD k (.read 7 0 32))
      let s := { State.reset with requests := [r] };
      (s.waitingAt 3).filter (fun q => [9].contains q.id) = [r] ∧ r.cls < 4 ∧ s.unitErrs = []) ∧
    (let s := State.reset.setChannel 3 { Channel.init with cur := 1, quota := 1 };
      (s.channel 3).quota = 0 + 1 ∧ (mreq (.channel 3) (.read 7 0 32)).cls = (s.channel 3).cur) ∧
    (let u := (State.reset.setPkgReg 0 0x04040404).setChannel 3 { Channel.init with cur := 0, quota := 0 };
      (u.channel 3).quota = 0 ∧ 1 = ((u.channel 3).cur + 1) % 4 ∧ 0 < bits (u.pkgReg 0) (8 * 1) 8) := by decide +kernel

/-- A completion of a request. -/
def comp (op : MemOp) (m : Bool) : Completion := ⟨mreq (.channel 3) op, .good, [], [], [], [(0, 5)], 0, m⟩

/-- MEM_COMPLETION and DIE_FLIT_RECEIVE: a write of a copy, in time and late, and an atomic that returns a value. -/
theorem test_meets_completion : let x := { cop with begun := true, waiting := 1 }
    let c := comp (.write 9 0 [1] []) true
    let p := { pend with sb := none, data := [] };
    c.status = .good ∧ c.req.op = .write x.id 0 [1] [] ∧ x.begun = true ∧ x.finished = false ∧ 0 < x.waiting ∧ c.req.cls < 4 ∧
    c.missed = true ∧ (comp (.write 9 0 [1] []) false).missed = false ∧
    (comp (.atomic 0 (some 9) 0 (.add 32) []) false).req.op = .atomic 0 (some p.id) 0 (.add 32) [] ∧
    (comp (.read 7 0 8) false).req.op = .read 7 0 8 ∧
    ({ idle vec { grp with outs := [p] } spl with completions := [comp (.atomic 0 (some 9) 0 (.add 32) []) false] }.groups.get? 0) =
      some { grp with outs := [p], splits := [(0, spl)] } := by decide +kernel

/-- Its group is at rest. -/
theorem test_meets_completion_rest (f : List Pend) (cs : List Completion) :
    atRest { idle vec { grp with outs := f } spl with completions := cs } { grp with outs := f, splits := [(0, spl)] } :=
  rest loadBlock rfl ⟨⟨rfl, rfl, rfl, rfl, by simp [spl, Split.blank]⟩, rfl, rfl⟩

/-- Errors of units, and requests at a CXL port before and after its limit; a port that is up and one that is down. -/
theorem test_meets_ports : (∀ r ∈ [mreq (.port 0) (.read 7 0 32), { mreq (.port 0) (.write 7 0 [1] []) with pa := 0xC000000000 }],
      r.lost = false ∧ r.route = .port 0 ∧ 0xC000000000 ≤ ({ r with pa := 0xC000000000 } : MemReq).pa) ∧
    (let l := (min (max (bits (State.reset.pkgReg (0x030 + 0)) 0 32) 1000) 1000000 * 9 + 3) / 4;
      (0 : Nat) - 0 < l ∧ l ≤ 10000000 - 0) ∧
    (w64 (2 ^ 63)).getLsbD 63 = true ∧ (w64 0).getLsbD 63 = false ∧ 0x40000 < 0xC000000000 ∧
    Sparse.get? [(0x40000 / 32, UnitErr.correctable)] (0x40000 / 32) = some .correctable := by decide +kernel

/-- ChannelAndRefreshEvents: thresholds in order, a state that falls and one that rises, a rate that rises, and a stack's beats. -/
theorem test_meets_channels : let v := w64 (85 + 95 * 2 ^ 8 + 105 * 2 ^ 16 + 5 * 2 ^ 24)
    let th := fun k => bits v (8 * (k - 1)) 8
    let c := { Channel.init with thermal := 1, below := [(1, 0)] }
    th 1 ≤ th 2 ∧ th 2 ≤ th 3 ∧ 0 < c.thermal ∧ c.below.get? c.thermal = some 0 ∧ (0 : Nat) - 0 < Config.msCycles ∧
    Config.msCycles ≤ 2250000 - 0 ∧ (rateFor 0 0).steps < Rate.low.steps ∧ Channel.init.below.get? 0 = none ∧
    BaseDie.init.beatSeen = false ∧ { BaseDie.init with missed := 2 }.missed ≥ 2 ∧ (w64 (2 ^ 61)).getLsbD 61 = true := by
  decide +kernel

/-- Requests and flits: an up port, a probe of a split that waits for it, and a flit at its fourth failure for a read's data, a
write and an atomic; a unit whose channel serves, and one whose channel changes its rate. -/
theorem test_meets_flits : ((State.reset.setPkgReg 0x032 (w64 (2 ^ 62))).pkgReg (0x032 + (384 - 384))).getLsbD 62 = true ∧
    (let l : List TierAsk := [⟨9, 0, 64, none⟩, ⟨8, 1, 128, none⟩]
      let sp := { spl with wait := .tier l };
      (idle vec grp sp).split? 0 0 = some ((iss grp sp).g, sp) ∧ (comp (.probe (.split 0 0)) false).req.id = 9 ∧
      (idle vec grp sp).flits = [] ∧ (∃ a ∈ answersWith 9 .good l, a.status = none) ∧
      ¬ ∃ a ∈ answersWith 9 .good (l.take 1), a.status = none) ∧
    (let w : HostWait := ⟨7, 1, [], false⟩
      let s := { State.reset with hostWaits := [w], completions := [comp (.hostRead 7 0 32) false] };
      s.flits = [] ∧ (comp (.hostRead 7 0 32) false).req.op = .hostRead w.id 0 32 ∧ w.left = 1 ∧ (s.pkgReg 5).getLsbD 1 = false) ∧
    (let s := { State.reset with completions := [comp (.read 7 0 32) false], flits := [⟨.die 37, 3⟩] };
      s.requests = [] ∧ (comp (.read 7 0 32) false).req.id = 37 / 4 ∧ (∃ r ∈ s.inFlight, r.id = 37 / 4) ∧
      s.flits.find? (fun f => f.id = .die 37) = some ⟨.die 37, 3⟩) ∧
    (∀ k ∈ [1, 3], let s := { State.reset.setPkgReg 0x035 (w64 (2 ^ 63)) with flits := [⟨.avash 1 5, k⟩] };
      (s.pkgReg (0x034 + 1)).getLsbD 63 = true ∧ s.flits.find? (fun f => f.id = .avash 1 5) = some ⟨.avash 1 5, k⟩) ∧
    (State.reset.pkgReg (0x034 + 1)).getLsbD 63 = false ∧ (BaseDie.init.scrubbed % 2 ^ 31 / 8 * 12 + 0) * 8 + 0 = 0 ∧
    (∀ k < 4, (mreq (.channel 3) (mops.getD k (.read 7 0 32))).id = 37 / 4 ∧
      (mreq (.channel 3) (mops.getD k (.read 7 0 32))).spoilt = none) ∧
    (⟨0, 0x40040, 1, 0⟩ : Elem).addr / 64 % 4 = 37 % 4 ∧ State.reset.canServe 0 32 = true ∧
    (State.reset.setChannel (schedOf 0) { Channel.init with switching := true }).canServe 0 32 = false := by decide +kernel

/-- Channels: a coding window below and at its length; channels that accept commands; a stack that a fallback sequencer refreshes, with
one channel that changes its rate, and one that a core refreshes. -/
theorem test_meets_channel_events : Channel.init.bursts < 4096 ∧ 4096 ≤ { Channel.init with bursts := 4096 }.bursts ∧
    Channel.init.switching = false ∧ Channel.init.acted ≠ 3 ∧
    (∀ k < 32, (State.reset.channel (0 * 32 + k)).switching = false) ∧ ({ Channel.init with rate := .low }).rate.steps = 2 ∧
    (let s := (State.reset.setChannel 3 { Channel.init with switching := true }).setPkgReg 0x020 (w64 (2 ^ 63));
      (s.pkgReg (0x020 + 3 / 32)).getLsbD 63 = true ∧ (s.channel 3).switching = true ∧
      ∀ k < 32, 3 / 32 * 32 + k ≠ 3 → (s.channel (3 / 32 * 32 + k)).switching = false) ∧
    (State.reset.pkgReg (0x020 + 3 / 32)).getLsbD 63 = false := by decide +kernel

/-- Records of a partner: none, one stored, one that waits for room; and a copy that ends an invalidation. -/
theorem test_meets_partner_records : (let r : PartnerRec := ⟨7, 1, 3, List.replicate 64 0, false, true, false⟩
      let w := { r with stored := false };
      r.src = 7 ∧ r.ctx = 1 ∧ 3 ≤ r.num ∧ r.stored = true ∧ w.stored = false ∧ w.num ≤ 3 ∧ leNat (r.bytes.take 4) = 0) ∧
    cop.finished = false ∧ { cop with finished := true }.finished = true ∧ cop.id ∈ [9] ∧ Core.init.array.chosen = none ∧
    { Core.init.array with chosen := some 9 }.chosen ≠ none := by decide +kernel

/-- A boundary of refresh is due at some time, and none is while the interval runs. -/
theorem test_meets_boundary : Config.trefiCycles ≤ Config.trefiCycles - BaseDie.init.lastBoundary ∧
    (0 < Config.trefiCycles → ¬ Config.trefiCycles ≤ 0 - BaseDie.init.lastBoundary) :=
  ⟨Nat.le_refl _, fun h h' => absurd (Nat.lt_of_lt_of_le h h') (by decide)⟩

/-- Slot 0 in state `st`, dual-write or pull, over frames 1 and 2 (64 KiB each), with the lines and requests given. -/
def moving (st : Nat) (dual : Bool) (ls : List Nat) (q : List MemReq) : State :=
  ((State.reset.setPkgReg 0x040 (w64 (2 * 2 ^ 32 + 1))).setPkgReg 0x080 (w64 (st * 2 ^ 61 + (if dual then 2 ^ 59 else 0)))).setMig 0
    ⟨ls, q, false, []⟩

/-- A request routed to slot 0 at physical address `pa`. -/
def routed (pa : Nat) (op : MemOp) : MemReq := { mreq (.mig 0) op with pa := pa }

/-- MigrationAndInvalidationEvents: the states of a slot; the last line of each frame, set and clear; and a complete slot. -/
theorem test_meets_migration : (∀ st < 5, bits ((moving st false [] []).pkgReg 0x080) 61 3 = st ∧
      bits ((moving st true [] []).pkgReg 0x080) 61 3 = st ∧ ((moving st true [] []).pkgReg 0x080).getLsbD 59 = true ∧
      ((moving st false [] []).pkgReg 0x080).getLsbD 59 = false) ∧
    (let s := moving 2 false [0] [routed (0x20000 + 0xFF00) (.read 7 0 32)];
      bits (s.pkgReg 0x040) 0 28 * 2 ^ 16 = 0x10000 ∧ bits (s.pkgReg 0x040) 32 28 * 2 ^ 16 = 0x20000 ∧
      (0x10000 + 2 ^ 16 ≤ 0x20000) ∧ 0xFF00 < 2 ^ 16 ∧ (s.mig 0).queue = routed (0x20000 + 0xFF00) (.read 7 0 32) :: [] ∧
      0x10000 < 0xC000000000 ∧ s.unitErrs = [] ∧ 255 ∉ (s.mig 0).bits ∧ 0 ∈ (s.mig 0).bits ∧ (∀ l < 1, l ∈ (s.mig 0).bits) ∧
      (s.mig 0).last = [] ∧ 0xFF00 % 256 = 0 ∧ (List.replicate 256 (0 : Byte)).length = 256) ∧
    (∀ l < 2 ^ 16 / 256, l ∈ List.range 256) ∧ 0xC000000000 < 0xBFFFFF0000 + 0x10000 + 1 ∧
    0xFC % 256 + (AtomOp.add 32).size ≤ 256 := by decide +kernel

/-- The channels of those slots accept commands, and no copy is open over their frames. -/
theorem test_meets_migration_traffic (st : Nat) (dual : Bool) (ls : List Nat) (q : List MemReq) :
    accepting (moving st dual ls q) ∧ settledMem (moving st dual ls q) ∧ (moving st dual ls q).copies = [] ∧
    ((moving st dual ls q).mig 0).finished = false ∧ ((moving st dual ls q).mig 0).last = [] :=
  ⟨fun _ => rfl, fun _ h => absurd h List.not_mem_nil, rfl, rfl, rfl⟩

/-- A line of a CXL port that times out, both ports up: OLD is frame 0x4000000, which as NEW ends inside its port. -/
theorem test_meets_cxl_line : let s := ((State.reset.setPkgReg 0x040 (w64 (2 * 2 ^ 32 + 0x4000000))).setPkgReg 0x032
      (w64 (2 ^ 62))).setPkgReg 0x033 (w64 (2 ^ 62))
    0x40000000000 ≤ bits (s.pkgReg 0x040) 0 28 * 2 ^ 16 ∧ bits (s.pkgReg 0x040) 32 28 * 2 ^ 16 < 0xC000000000 ∧
    bits (s.pkgReg 0x040) 0 28 * 2 ^ 16 + 2 ^ 16 ≤ 0xC0000000000 ∧ (∀ p < 2, s.portUp p = true) := by decide +kernel

/-- Invalidations: none under way, one that awaits a request, and one that awaits none. -/
theorem test_meets_invalidation : (State.reset.pkgReg 3).getLsbD 63 = false ∧
    ((State.reset.setPkgReg 3 (w64 (2 ^ 63))).pkgReg 3).getLsbD 63 = true ∧
    { State.reset with xlinv := some [9] }.xlinv = some [9] ∧ (mreq (.channel 0) (.read 7 0 8)).id ∈ [9] ∧
    (w64 (2 ^ 32 + 2 ^ 48)).getLsbD 32 = true ∧ bits (w64 (2 ^ 32 + 2 ^ 48)) 48 8 = (mreq (.channel 0) (.read 7 0 8)).ctx ∧
    State.reset.migs = [] ∧ State.reset.completions = [] := by decide +kernel

/-- CopyAndMatrixEngineEvents: a copy that can begin and one that has; a batch with and without its arrival. -/
theorem test_meets_copy_engine : let s := { idle vec { grp with ops := [op 0 3 false] } spl with copies := [cop] }
    let x := { cop with finished := true, code := 0x1002 };
    cop.begun = false ∧ cop.finished = false ∧ cop.waiting = 0 ∧ cop.reduce = false ∧ cop.core = 0 ∧
    s.copyHeld { cop with code := 0, dst := 0, src := 64, len := 64 } = false ∧ s.parity = [] ∧
    (∀ e ∈ s.groups, ∀ p ∈ e.2.ops, p.uses = []) ∧ s.blocks.get? cop.bid = some loadBlock ∧
    s.groups.get? 0 = some { grp with ops := [op 0 3 false], splits := [(0, spl)] } ∧ (op 0 3 false).cls = 0 ∧
    (op 0 3 false).batch = 3 ∧ x.id = (op 0 3 false).id ∧ x.gid = 0 ∧ x.finished = true ∧ x.failedLines = [] ∧
    x.code / 4096 % 2 = 1 ∧ x.code % 8 ≠ 0 ∧ { x with code := 2 }.code / 4096 % 2 = 0 ∧
    (let w := ({ loadBlock with shm := ⟨none, [(0, 2)]⟩ }.shm.readN 0 8); w / 2 ^ 16 % 2 ^ 16 + 1 < w % 2 ^ 16) := by decide +kernel

/-- A queued `mzero` of group 0 on tile 0 of core 0. -/
def mat : MatOp := ⟨9, .mzero, 0, 0, 0, 0, 0, 5, 0, 0, 0, false, 1, w64 (16 + 16 * 2 ^ 16 + 16 * 2 ^ 32), 0, [], 0, none⟩

/-- Core 0 with the operation queued, and its array inactive, active, or requested. -/
def queued (q : List MatOp) (a : ArrayState) (l : Limiter) : State :=
  let s := idle vec { grp with ops := [op 1 3 false] } spl
  let s := s.setDie 0 { Die.init with limiter := l }
  s.setCore 0 { Core.init with matQ := q, array := a, tiles := [(0, { Tile.init with owner := some 0 })] }

/-- The array's cases: nothing queued; an active array; one that asks for a start and gets it, or waits; and an operation that retires. -/
theorem test_meets_matrix_engine : (∀ e ∈ [(true, 0, 0), (false, 0, 0), (false, 8, 1)],
      let s := queued [mat] { Core.init.array with active := e.1 } ⟨0, e.2.1, if e.2.2 = 0 then [] else [[4]]⟩
      let c := s.core 0
      let l := (s.die (dieOf 0)).limiter
      l.window = s.time / 64 ∧ c.lease = none ∧ c.leaseReqs = [] ∧ (s.core (0 + 1)).bondReqs = [] ∧ c.array.busy = none ∧
      c.array.slaved = false ∧ c.matQ = [mat] ∧ (c.matQ.map (fun o => o.gid)).Nodup ∧ mat.core = 0 ∧ mat.pair = false ∧ mat.bond = none ∧
      mat.kind ≠ .smask ∧ mat.pri < 4 ∧ mat.arrival < 2 ^ 64 ∧ mat.grpSlot < 16 ∧
      (c.array.active = false ∨ 256 ≤ s.time - c.array.lastUse ↔ e.1 = false) ∧ c.array.granted = false ∧
      c.array.requested = false ∧ (l.waiting ≠ [] ∨ 8 < l.grants + 1 ↔ e.2.2 = 1)) ∧
    (let s := queued [] { Core.init.array with busy := some { mat with kind := .mma } } ⟨0, 0, []⟩;
      (s.core 0).array.busy = some { mat with kind := .mma } ∧ s.groups.get? 0 = some { grp with ops := [op 1 3 false], splits := [(0, spl)] } ∧
      (op 1 3 false).id = mat.id ∧ (op 1 3 false).spoilt = false ∧ (s.tileOf 0 0).owner = some 0 ∧ (s.blocks.get? 0).isSome = true ∧
      (s.tileOf 0 0).spoilt = false ∧ (s.slotOf 0 0).prev = [] ∧ bits mat.shape 16 8 ≤ 192 ∧
      (bf16.val ((s.slotOf 0 0).mem.readN 0 2)).finite = true) := by decide +kernel

/-- Its group is at rest. -/
theorem test_meets_matrix_rest (q : List MatOp) (a : ArrayState) (l : Limiter) :
    atRest (queued q a l) { grp with ops := [op 1 3 false], splits := [(0, spl)] } :=
  rest loadBlock rfl ⟨⟨rfl, rfl, rfl, rfl, by simp [spl, Split.blank]⟩, rfl, rfl⟩

/-- Start windows and leases: a window past and one that runs; a lease idle for 64 cycles and one in use. -/
theorem test_meets_windows : (64 : Nat) / 64 ≠ Die.init.limiter.window ∧ (0 : Nat) / 64 = Die.init.limiter.window ∧
    (let c := { Core.init with lease := some ⟨0, 1, 0⟩ };
      c.array.busy = none ∧ c.array.slaved = false ∧ (∀ o ∈ c.matQ, o.gid ≠ 0) ∧ 64 ≤ 64 - 0 ∧ ¬ 64 ≤ 63 - 0) := by decide +kernel

/-- The attention operation of group 0: its descriptor at offset 0, its work area at 0 of shared memory, slot 0, tile 0. -/
def att (resume : Bool) : AttnOp := ⟨9, 0, 0, 0, 1, 0, 0, 0, 0, resume, []⟩

/-- Core 0 with that operation queued or running on an active array. -/
def attending (q : List AttnOp) (r : Option AttnRun) (c : Byte) (e : List (Nat × Byte)) (z : State) : State :=
  let s := idle z { grp with ops := [op 2 3 false] } spl
  let s := { s with blocks := [(0, { loadBlock with shm := ⟨none, e⟩ })] }
  let s := s.setDie 0 { s.die 0 with scratch := ⟨none, (s.die 0).scratch.cells ++ (if c = 0 then [] else [(0x2C, 2), (0x2F, c)])⟩ }
  s.setCore 0 { Core.init with
    attnQ := q, attnRun := r, array := { Core.init.array with active := true }, tiles := [(0, { Tile.init with owner := some 0 })] }

/-- AttentionEngineEvents, a start: an illegal descriptor, a legal one, a resumption, and one whose pages are all before WSTART. -/
theorem test_meets_attention_start : (∀ e ∈ [(cached, false, 0), (vec, false, 0), (cached, true, 0xC0)],
      let s := attending [att e.2.1] none (BitVec.ofNat 8 e.2.2) [] (e.1.setCtxReg 1 0x100 0x20000)
      let d := descOf ((s.ownView 0 9).spdRead 0 (s.spBase 1 (dieOf 0) + 0) 64)
      (s.core 0).attnRun = none ∧ (s.core 0).attnQ = att e.2.1 :: [] ∧ s.blockLeaves 0 = false ∧ (s.core 0).array.busy = none ∧
      (s.core 0).array.slaved = false ∧ (s.core 0).array.active = true ∧ s.time - (s.core 0).array.lastUse < 256 ∧
      (s.core 0).matQ = [] ∧ (s.die (dieOf 0)).limiter.window = s.time / 64 ∧ (s.groups.get? 0).isSome = true ∧
      (op 2 3 false).id = 9 ∧ (s.tileOf 0 0).spoilt = false ∧ (s.core 0).wbuf = [] ∧ (s.tileOf 0 0).owner = some 0 ∧
      (s.slotOf 0 0).prev = [] ∧ (bf16.val ((s.slotOf 0 0).mem.readN 0 2)).finite = true ∧
      (d.rows = 0 ↔ e.1.die 0 = Die.init) ∧ (e.2.2 ≠ 0 → bits d.cursor 62 2 = 3 ∧ bits d.cursor 32 17 = pagesIn d.len d.wstart) ∧
      (e.1.die 0 ≠ Die.init → pagesIn d.len d.wstart = 2 ∧ 0 + 8 * pagesIn d.len d.wstart ≤ loadBlock.shmKiB * 1024)) ∧
    ({ desc with wstart := 128 }.len ≤ { desc with wstart := 128 }.wstart) := by decide +kernel

/-- A resumption as the engine of core 0 finds it, and the operation that it begins. -/
def asking : State := attending [att true] none 0xC0 [] (cached.setCtxReg 1 0x100 0x20000)
/-- The bytes of its descriptor. -/
def askingDesc : List Byte := (asking.ownView 0 9).spdRead 0 (asking.spBase 1 (dieOf 0) + 0) 64
/-- Its operation. -/
def askingRun : AttnRun :=
  let d := descOf askingDesc
  ⟨att true, d.rows, d.len, d.wstart, BitVec.ofNat 32 d.scale, BitVec.ofNat 32 d.tau, d.budget, d.mapb, pagesIn d.len d.wstart,
    bits d.cursor 0 32, askingDesc, (List.range d.rows).map (fun i => (List.range 128).map (fun j =>
      (asking.slotOf 0 0).mem.readN (256 * i + 2 * j) 2)), none⟩
/-- What a stop has left of its query. -/
def askingMark : QueryMark := asking.queryMark askingRun ((askingDesc.drop 0x28).take 12)
/-- The same machine after that stop. -/
def askingKept : State := { asking with blocks := [(0, { loadBlock with queries := [askingMark] })] }

/-- The query stands as the stop left it; and one that no stop left. No copy writes the query slot. -/
theorem test_meets_resumption : askingKept.queryKept askingRun = true ∧ asking.queryKept askingRun = false ∧
    asking.copies = [] ∧ loadBlock.queries = [] := by
  refine ⟨?_, by decide +kernel, by decide, rfl⟩
  have h : askingKept.queryMark askingRun ((askingRun.desc.drop 0x28).take 12) = askingMark := by decide +kernel
  have b : askingKept.blocks.get? askingRun.op.bid = some { loadBlock with queries := [askingMark] } := by decide +kernel
  simp [State.queryKept, b, h, QueryMark.same]

/-- A legal descriptor. -/
theorem test_meets_legal_descriptor : desc.legal ∧ { desc with wstart := 128 }.legal := by
  unfold Desc.legal; decide +kernel

/-- The running operation, over one page. -/
def run1 : AttnRun := ⟨att false, 1, 64, 0, 0x3F800000, 0, 0, 0x30000, 1, 0, [], [], none⟩

/-- A visit: the one page visited, and one not yet, whose map entry says that it has been trimmed. -/
theorem test_meets_attention_visit : (∀ b < 2,
      let s := attending [] (some run1) 0 [(5, if b = 0 then 0x20 else 0x90), (6, 1)]
        { cached with main := ⟨none, cached.main.cells ++ [(0x30003, 0x70)]⟩ }
      (s.core 0).attnRun = some run1 ∧ (s.groups.get? 0).isSome = true ∧ (s.blocks.get? 0).isSome = true ∧
      (s.tileOf 0 0).spoilt = false ∧ run1.rows ≤ 128 ∧ (s.core 0).wbuf = [] ∧ (s.tileOf 0 0).owner = some 0 ∧
      (leNat ((s.ownView 0 9).shmRead 0 0 8) / 2 ^ 45 % 4 = 0 ↔ b = 1) ∧ run1.np = 1 ∧ run1.budget = 0 ∧ 0 < run1.rows ∧
      ((s.tileOf 0 0).rows.getD 0 ⟨none, 0⟩).eref = none ∧ (fp32.val ((s.tileOf 0 0).rows.getD 0 ⟨none, 0⟩).sum.toNat).finite = true ∧
      (fp32.val run1.tau.toNat).finite = true ∧ (fp32.val run1.tau.toNat).exact < 1 ∧
      s.kvRead 0 1 .attention (0x30000 + 4 * (0 / 64)) 4 = .ok [0, 0, 0, 0x70] ∧
      (let e := leNat ((s.ownView 0 9).shmRead 0 0 8);
        b = 1 → s.attnReady run1 0 (e / 2 ^ 32 % 64) (e / 2 ^ 38 % 128) = true ∧
          s.attnLines run1 0 (e / 2 ^ 32 % 64) (e / 2 ^ 38 % 128) = []) ∧ leNat [0, 0, 0, (0x70 : Byte)] / 2 ^ 28 % 16 = 7) := by
  decide +kernel

/-- Its group is at rest. -/
theorem test_meets_attention_rest (q : List AttnOp) (r : Option AttnRun) (c : Byte) (e : List (Nat × Byte)) (z : State)
    (h : z.parity = []) : atRest (attending q r c e z) { grp with ops := [op 2 3 false], splits := [(0, spl)] } :=
  rest { loadBlock with shm := ⟨none, e⟩ } rfl ⟨⟨rfl, rfl, rfl, h, by simp [spl, Split.blank]⟩, rfl, rfl⟩

/-- HostAndDebuggerEvents: KILL; host accesses inside and outside; boot; a request for a report; and a selected split. -/
theorem test_meets_host : (w64 (2 ^ 62)).getLsbD 62 = true ∧ (∀ e ∈ (State.reset.ctx 1).tg, e.1 < 16) ∧
    (let s := State.reset.setPkgReg 6 (w64 (2 ^ 32 + 1));
      bits (s.pkgReg 6) 0 10 * 2 ^ 30 = 2 ^ 30 ∧ min (2 ^ 30 + bits (s.pkgReg 6) 32 10 * 2 ^ 30) 0xC000000000 = 2 ^ 31 ∧
      s.unitErrs = [] ∧ 2 ^ 31 - 8 + 8 ≤ 2 ^ 31 ∧ 2 ^ 31 < 2 ^ 31 - 7 + 8 ∧ s.canServe (2 ^ 30) 8 = true ∧
      ((s.setChannel (schedOf (2 ^ 30)) { Channel.init with switching := true }).canServe (2 ^ 30) 8 = false)) ∧
    (∀ w ∈ [View.package, .privileged 1, .context 1, .benchPort 1 0], (vec.viewRead 0x200 w).isSome = true) ∧
    (let s := vec.setPkgReg 5 4;
      s.responds 1 = false ∧ s.viewRead 0x200 (.context 1) = none ∧ vec.viewRead 0x200 (.privileged 193) = none) ∧
    (benched.pkgReg 5).getLsbD 0 = false ∧ ((benched.setPkgReg 5 1).pkgReg 5).getLsbD 0 = true ∧ spl.atRecord = false ∧
    State.reset.booted = false ∧ { State.reset with booted := true }.booted = true ∧ vec.responds 1 = true ∧
    (State.reset.reportAsked 1).isNone = true ∧ ({ benched with foreman := [.asked 1 []] }.reportAsked 1).isSome = true ∧
    (let s := benched.setCtxReg 1 0x16D 0;
      s.benchUsable 1 (s.mailbox 1) = true ∧
      { Slice.init with tuples := [⟨1, s.mailbox 1, 0xFFFF0010, List.replicate 7 0, 0⟩] }.parked = []) ∧
    ({ spl with halted := true }.halted = true ∧ { spl with halted := true }.pendFault = none ∧ spl.wait = .none ∧
      { spl with wait := .wmon false 5 none }.pendFault = none) ∧
    (let v := w64 (grp.ctx * 2 ^ 38);
      grp.ctx = bits v 38 8 ∧ grp.core = bits v 46 7 ∧ grp.slot = bits v 53 4 ∧ 0 = bits v 57 2 ∧
      (here vec grp { spl with stepping := true }).groups = [(0, { grp with splits := [(0, { spl with stepping := true })] })] ∧
      grp.status = .running ∧ 0x76F8 % 8 = 0 ∧ 0x76F8 < 0x7700) := by decide +kernel

/-- The homes of the tags of a report. -/
theorem test_meets_report_homes : (∃ k, homes (benched.ctxReg 1 (0x110 + benched.mailbox 1)) 0xFFFF0010 0 k) ∧
    ∃ k, homes (benched.ctxReg 1 (0x110 + benched.mailbox 1)) 0xFFFF0011 0 k := by
  unfold homes
  exact ⟨⟨homeOf (benched.benchd 1 0) 0xFFFF0010, by decide +kernel⟩, ⟨homeOf (benched.benchd 1 0) 0xFFFF0011, by decide +kernel⟩⟩

end Sys2Proof.Tests
end

/-! ## The canonical form of main memory is an invariant of every step (O47)

The laws of Laws/Main.lean say for each operation that it leaves main memory alone (`_main`) or keeps its canonical form (`_wf`). Here
each meaning is put together from them, then a step is one meaning between operations that leave main memory alone. -/

namespace Sys2Proof.Machine

/-- Every next state that an outcome answers has main memory in its canonical form. -/
def EndsCanonical (o : Host.Outcome State Fault Refusal) : Prop := ∀ t, o = .next t → Inv t

namespace EndsCanonical

theorem next {t : State} (h : t.main.wf = true) : EndsCanonical (.next t) := by
  rintro _ ⟨⟩; exact h

/-- An event that leaves main memory alone. -/
theorem next_same {s t : State} (hs : Inv s) (h : t.main = s.main) : EndsCanonical (.next t) :=
  next (main_wf h hs)

/-- A program instruction answers the state that its meaning gives the issuing split. -/
theorem onIssue {s : State} {f : State → Issue → State} (h : ∀ i, (f s i).main.wf = true) :
    EndsCanonical (Machine.onIssue s f) := by
  unfold Machine.onIssue
  split
  · rintro _ ⟨⟩
  · exact next (h _)

/-- A program instruction whose meaning leaves main memory alone. -/
theorem onIssue_same {s : State} {f : State → Issue → State} (hs : Inv s) (h : ∀ i, (f s i).main = s.main) :
    EndsCanonical (Machine.onIssue s f) :=
  onIssue fun i => main_wf (h i) hs

/-- A change of the next state that leaves main memory alone. -/
theorem mapNext {f : State → State} {o : Host.Outcome State Fault Refusal} (hf : ∀ t, (f t).main = t.main)
    (h : EndsCanonical o) : EndsCanonical (mapNext f o) := by
  cases o with
  | next t => exact next (main_wf (hf t) (h t rfl))
  | fault _ => rintro _ ⟨⟩
  | refused _ => rintro _ ⟨⟩

end EndsCanonical

/-- The frame of issue writes no main memory: what an instruction keeps canonical stays canonical. -/
theorem issue_wf {n : Issue → Needs} {eff : State → Issue → State} {s : State} {i : Issue} (hs : s.main.wf = true)
    (he : ∀ t j, t.main.wf = true → (eff t j).main.wf = true) : (issue n eff s i).main.wf = true := by
  unfold issue
  split
  · exact main_wf State.trapAt_main hs
  · split
    · exact main_wf State.hold_main hs
    · split
      · split
        · exact he s i hs
        · exact main_wf State.consume_main hs
      · exact he s i hs

theorem kvIssue_wf {n : Issue → Needs} {eff : State → Issue → State} {s : State} {i : Issue} (hs : s.main.wf = true)
    (he : ∀ t j, t.main.wf = true → (eff t j).main.wf = true) : (kvIssue n eff s i).main.wf = true := by
  unfold kvIssue
  split
  · exact main_wf State.trapAt_main hs
  · exact issue_wf hs he

/-! ### Events that write main memory -/

theorem ite_wf {c : Prop} [Decidable c] {a b : State} (ha : a.main.wf = true) (hb : b.main.wf = true) :
    (if c then a else b).main.wf = true := by
  split
  · exact ha
  · exact hb

theorem execCopyEngineTransfer_canonical {s : State} (core : Nat) (hs : s.main.wf = true) :
    EndsCanonical (execCopyEngineTransfer core s) := by
  refine .next ?_
  split
  · exact hs
  · next c _ =>
    refine main_wf State.copyFinish_main (foldl_wf (fun _ _ => State.copyPiece_wf) ?_)
    have translated : ∀ w (t : State) l, t.main.wf = true →
        (List.foldl (fun u v => State.copyTranslate u c w v) t l).main.wf = true :=
      fun _ _ _ ht => foldl_wf (fun _ _ => main_wf State.copyTranslate_main) ht
    have begun := translated true _ (c.pages true) (translated false _ (c.pages false)
      (main_wf (State.modCopy_main (id := c.id) (f := fun x => { x with begun := true }))
        (main_wf (State.copyDrain_main (c := c)) hs)))
    split
    · exact main_wf State.copyErr_main begun
    · exact begun

theorem execChannelPick_canonical {s : State} (sched : Nat) (eligible : List Nat) (hs : s.main.wf = true) :
    EndsCanonical (execChannelPick sched eligible s) := by
  refine .next (ite_wf hs ?_)
  split
  · exact hs
  · have picked : (if sched < 384 then s.refreshFirst (sched / 32) else s).main.wf = true :=
      ite_wf (main_wf State.refreshFirst_main hs) hs
    exact ite_wf (State.failReq_wf picked) (main_wf State.sendBack_main (State.performAt_wf picked))

theorem execMemCompletion_canonical {s : State} (id : Nat) (hs : s.main.wf = true) :
    EndsCanonical (execMemCompletion id s) := by
  refine .next ?_
  split
  · exact hs
  · exact State.deliverMem_wf (ite_wf (main_wf State.countMiss_main hs) hs)

theorem execCxlTimeout_canonical {s : State} (id : Nat) (hs : s.main.wf = true) : EndsCanonical (execCxlTimeout id s) := by
  refine .next ?_
  split
  · exact hs
  · exact ite_wf (State.failReq_wf hs) hs

theorem execCxlLinkDown_canonical {s : State} (port : Nat) (hs : s.main.wf = true) :
    EndsCanonical (execCxlLinkDown port s) := by
  refine .next (ite_wf hs (foldl_wf (fun _ _ => State.failReq_wf) ?_))
  exact hs

theorem execMigRoutedRequest_canonical {s : State} (slot : Nat) (link : LineStatus) (hs : s.main.wf = true) :
    EndsCanonical (execMigRoutedRequest slot link s) := by
  refine .next ?_
  split
  · exact hs
  · exact ite_wf hs (State.migServe_wf hs)

theorem execMigBackgroundFill_canonical {s : State} (slot : Nat) (link : LineStatus) (hs : s.main.wf = true) :
    EndsCanonical (execMigBackgroundFill slot link s) := by
  refine .next (ite_wf hs ?_)
  split
  · exact hs
  · refine ite_wf hs ?_
    split
    · exact main_wf State.migFail_main hs
    · exact State.migPull_wf hs

theorem execAttnStart_canonical {s : State} (core : Nat) (hs : s.main.wf = true) : EndsCanonical (execAttnStart core s) := by
  refine .next ?_
  split
  · exact main_wf State.attnCut_main hs
  · split
    · next o _ _ _ =>
      refine ite_wf hs ?_
      split
      · exact main_wf State.attnAsk_main hs
      · exact hs
      · split
        · next h => exact State.attnBegin_wf (fst_wf h (main_wf State.attnArray_main hs))
        · next h => exact fst_wf h (main_wf State.attnArray_main hs)
    · exact hs

theorem execAttnVisit_canonical {s : State} (core : Nat) (hs : s.main.wf = true) : EndsCanonical (execAttnVisit core s) := by
  refine .next ?_
  split
  · exact hs
  · split
    · exact main_wf State.attnStop_main hs
    · split
      · exact main_wf State.attnStop_main hs
      · refine ite_wf hs ?_
        split
        · exact main_wf State.attnAsk_main hs
        · exact hs
        · split
          · next h =>
            exact main_wf State.attnStep_main (State.attnKeep_wf (fst_wf h (main_wf State.attnArray_main hs)))
          · next h => exact fst_wf h (main_wf State.attnArray_main hs)

theorem execGroupRestore_canonical {s : State} (core : Nat) (hs : s.main.wf = true) :
    EndsCanonical (execGroupRestore core s) := by
  refine .next ?_
  split
  · exact hs
  · exact State.restoreGroup_wf hs
  · split
    · exact hs
    · split
      · exact hs
      · split
        · next h => exact State.restoreGroup_wf (State.restoreBlock_wf h hs)
        · exact main_wf State.terminate_main hs

theorem execGroupEnd_canonical {s : State} (gid : Nat) (hs : s.main.wf = true) : EndsCanonical (execGroupEnd gid s) := by
  refine .next ?_
  split
  · exact hs
  · refine ite_wf hs ?_
    split
    · exact ite_wf (State.groupGone_wf hs) (State.evictDone_wf hs)
    · exact State.groupGone_wf hs

theorem execReplayStart_canonical {s : State} (ctx slot : Nat) (hs : s.main.wf = true) :
    EndsCanonical (execReplayStart ctx slot s) := by
  refine .next (ite_wf hs (ite_wf (main_wf State.replayEnd_main hs) ?_))
  dsimp only
  split
  · next h => exact main_wf State.replayEnd_main (fst_wf h (State.prepare_wf hs))
  · next h => exact main_wf State.setTgSlot_main (fst_wf h (State.prepare_wf hs))

theorem execNodeStart_canonical {s : State} (ctx slot node : Nat) (hs : s.main.wf = true) :
    EndsCanonical (execNodeStart ctx slot node s) := by
  refine .next ?_
  split
  · exact hs
  · refine ite_wf hs ?_
    split
    · exact main_wf State.launch_main (main_wf State.setTgSlot_main (State.touchCtx_wf hs))
    · exact hs

theorem execAttestationReport_canonical {s : State} (ctx : Nat) (hs : s.main.wf = true) :
    EndsCanonical (execAttestationReport ctx s) := by
  refine .next ?_
  split
  · exact main_wf State.reportTake_main hs
  · exact ite_wf hs (main_wf State.foremanSend_main (State.reportWrite_wf hs))

/-! ### Events that leave main memory alone -/

theorem execBarrierWatchdogExpire_canonical {s : State} (core k : Nat) (hs : Inv s) :
    EndsCanonical (execBarrierWatchdogExpire core k s) := by
  refine .next_same hs ?_
  split
  · rfl
  · refine ite_main rfl ((foldl_main fun u e => ?_).trans (State.watchEnd_main.trans ?_))
    · exact ite_main (State.modGroup_main ..) (State.settle_main.trans (State.modGroup_main ..))
    · split
      · exact State.parityLog_main
      · rfl

theorem execCopyBatchComplete_canonical {s : State} (gid batch : Nat) (hs : Inv s) :
    EndsCanonical (execCopyBatchComplete gid batch s) := by
  refine .next_same hs ?_
  split
  · rfl
  · refine ite_main rfl (State.settle_main.trans (State.batchWake_main.trans ?_))
    exact (foldl_main fun _ _ => State.opDone_main).trans
      ((foldl_main fun _ _ => State.batchArrive_main).trans State.batchLines_main)

theorem execMatrixOpStart_canonical {s : State} (core : Nat) (hs : Inv s) : EndsCanonical (execMatrixOpStart core s) := by
  refine .next_same hs ?_
  have leased : ((s.leaseNext core).bondNext (core / 2 * 2 + 1)).main = s.main :=
    State.bondNext_main.trans State.leaseNext_main
  dsimp only
  split
  · exact leased
  · split
    · exact State.matBegin_main.trans leased
    · refine ite_main ?_ (ite_main (State.matBegin_main.trans ?_) ?_)
      · split
        · exact State.bondUse_main.trans leased
        · exact leased
      · exact State.startArrays_main.trans leased
      · exact State.startArrays_main.trans leased

theorem execMatrixOpRetire_canonical {s : State} (core : Nat) (hs : Inv s) : EndsCanonical (execMatrixOpRetire core s) := by
  refine .next_same hs ?_
  split
  · rfl
  · have ended : ∀ o used, ((s.matRun o).arrayEnd core used).main = s.main :=
      fun _ _ => State.arrayEnd_main.trans State.matRun_main
    exact State.opComplete_main.trans (State.matRelease_main.trans
      (ite_main (State.arrayEnd_main.trans (ended _ _)) (ended _ _)))

theorem execFrameGrant_canonical {s : State} (core : Nat) (hs : Inv s) : EndsCanonical (execFrameGrant core s) := by
  refine .next_same hs ?_
  split
  · rfl
  · exact ite_main State.insertFrames_main State.returnFrames_main

theorem execJournalAck_canonical {s : State} (ctx dev n : Nat) (hs : Inv s) : EndsCanonical (execJournalAck ctx dev n s) := by
  refine .next_same hs (ite_main rfl (ite_main State.setJournal_main (State.releaseHeld_main.trans ?_)))
  have acked : ∀ j k m, ((State.setAcked (s.setJournal ctx j) ctx m).setJournal ctx k).main = s.main :=
    fun _ _ _ => State.setJournal_main.trans (State.setAcked_main.trans State.setJournal_main)
  exact ite_main (State.setJstate_main.trans (acked _ _ _)) (acked _ _ _)

theorem execJournalRecordReceive_canonical {s : State} (src : JournalSource) (num : Nat) (rec : List Byte) (hs : Inv s) :
    EndsCanonical (execJournalRecordReceive src num rec s) :=
  .next_same hs (ite_main (ite_main rfl rfl) State.partnerStore_main)

theorem execStorageError_canonical {s : State} (u : Unit_) (n : Nat) (hs : Inv s) : EndsCanonical (execStorageError u n s) := by
  refine .next_same hs ?_
  split
  · exact ite_main State.parityMark_main rfl
  · refine ite_main rfl (ite_main (ite_main State.poisonPa_main rfl) ?_)
    split <;> rfl

theorem execSpawnHoldTimeout_canonical {s : State} (gid sid : Nat) (hs : Inv s) :
    EndsCanonical (execSpawnHoldTimeout gid sid s) := by
  refine .next_same hs ?_
  split
  · rfl
  · refine ite_main rfl ?_
    split
    · exact State.afterIssue_main.trans (issue_main fun _ _ => spawnEffect_main)
    · rfl

theorem execTimeSliceExpire_canonical {s : State} (ctx : Nat) (hs : Inv s) : EndsCanonical (execTimeSliceExpire ctx s) := by
  refine .next_same hs (ite_main rfl ?_)
  dsimp only
  split
  · exact State.evictFor_main
  · rfl

theorem execBoot_canonical {s : State} (fm bd sv : Bool) (hs : Inv s) : EndsCanonical (execBoot fm bd sv s) :=
  .next_same hs (ite_main rfl (ite_main rfl (foldl_main fun _ _ => rfl)))

theorem execRegisterWrite_canonical {s : State} (w : Window) (n : Nat) (v : Word) (hs : Inv s) :
    EndsCanonical (execRegisterWrite w n v s) := by
  refine .next_same hs ?_
  split
  · exact State.viewWrite_main
  · exact State.viewWrite_main
  · exact State.viewWrite_main
  · exact State.viewWrite_main
  · exact ite_main State.constPut_main rfl
  · exact State.viewAccess_main

theorem execCquiesce_canonical {s : State} (o : YF) (hs : Inv s) : EndsCanonical (execCquiesce o s) := by
  refine .onIssue_same hs fun _ => ?_
  split
  · exact quiesceFrom_main
  · exact issue_main fun _ _ => quiesceFirst_main

theorem execCquiesceRst_canonical {s : State} (o : YF) (hs : Inv s) : EndsCanonical (execCquiesceRst o s) := by
  refine .onIssue_same hs fun _ => ?_
  split
  · exact State.replayFrom_main
  · exact issue_main fun _ _ => quiesceRstEffect_main

theorem execReturnSlotReply_canonical {s : State} (core k : Nat) (hs : Inv s) :
    EndsCanonical (execReturnSlotReply core k s) := by
  refine .next_same hs ?_
  split
  · rfl
  · exact State.settle_main.trans State.takeReply_main

theorem execServiceGroupExec_canonical {s : State} (die k : Nat) (hs : Inv s) :
    EndsCanonical (execServiceGroupExec die k s) := by
  refine .next_same hs ?_
  split
  · exact State.serviceExec_main
  · rfl

theorem execBenchServe_canonical {s : State} (die k : Nat) (hs : Inv s) : EndsCanonical (execBenchServe die k s) := by
  refine .next_same hs ?_
  split
  · exact State.benchExec_main.trans State.sliceTake_main
  · rfl

theorem execBenchWithdraw_canonical {s : State} (gid sid : Nat) (hs : Inv s) :
    EndsCanonical (execBenchWithdraw gid sid s) := by
  refine .next_same hs ?_
  split
  · rfl
  · exact State.settle_main.trans (State.withdrawServe_main.trans State.sliceTake_main)

theorem execDieFlitReceive_canonical {s : State} (id : FlitId) (ok : Bool) (hs : Inv s) :
    EndsCanonical (execDieFlitReceive id ok s) := by
  refine .next_same hs ?_
  split
  · exact State.dieFlit_main
  · exact State.avashFlit_main

theorem execLeaseIdleExpire_canonical {s : State} (core : Nat) (hs : Inv s) :
    EndsCanonical (execLeaseIdleExpire core s) := by
  refine .next_same hs ?_
  split
  · rfl
  · exact ite_main State.leaseNext_main rfl

theorem execBlockPlace_canonical {s : State} (die : Nat) (hs : Inv s) : EndsCanonical (execBlockPlace die s) := by
  refine .next_same hs ?_
  split
  · rfl
  · exact State.placeBlock_main

theorem execPlacementStarvation_canonical {s : State} (uid : Nat) (hs : Inv s) :
    EndsCanonical (execPlacementStarvation uid s) := by
  refine .next_same hs ?_
  split
  · rfl
  · split
    · rfl
    · exact State.modGrid_main

theorem execSpawnBinTimeout_canonical {s : State} (core k : Nat) (hs : Inv s) :
    EndsCanonical (execSpawnBinTimeout core k s) := by
  refine .next_same hs ?_
  split
  · rfl
  · exact ite_main rfl rfl

theorem execPackedGroupStart_canonical {s : State} (core : Nat) (hs : Inv s) :
    EndsCanonical (execPackedGroupStart core s) := by
  refine .next_same hs ?_
  split
  · rfl
  · exact State.startGroup_main

theorem execGrantTakeRetry_canonical {s : State} (core : Nat) (hs : Inv s) :
    EndsCanonical (execGrantTakeRetry core s) := by
  refine .next_same hs ?_
  split
  · rfl
  · exact ite_main rfl State.grantTake_main

/-! ### Every meaning -/

/-- No meaning of an instruction or event takes main memory out of its canonical form. -/
theorem exec_canonical (x : Instr) {s : State} (hs : Inv s) : EndsCanonical (exec x s) := by
  cases x with
  -- Program instructions
  | sadd o | ssub o | smul o | smulh o | smulhn o | sand o | sor o | sxor o | sshl o | sshr o | ssra o | smin o
  | smax o | sminn o | smaxn o => exact .onIssue_same hs fun _ => srOp_main
  | scmp o | scmpi o => exact .onIssue_same hs fun _ => cmpOp_main
  | saddi o | sandi o | sori o | sxori o => exact .onIssue_same hs fun _ => siOp_main
  | sshli o | sshri o | ssrai o => exact .onIssue_same hs fun _ => siShift_main
  | sli o | slih o | srd o | bdget o | csrr o | wdogQ o => exact .onIssue_same hs fun _ => scalarOp_main
  | sgetv o | sballot o => exact .onIssue_same hs fun _ => issue_main fun _ _ => State.putScalar_main
  | spopc o | sclz o | sffs o => exact .onIssue_same hs fun _ => srUnary_main
  | swr o => exact .onIssue_same hs fun _ => issue_main fun _ _ => swrEffect_main
  | br o | brx o | call o | ret o => exact .onIssue_same hs fun _ => branchOp_main
  | split o => exact .onIssue_same hs fun _ => issue_main fun _ _ => splitEffect_main
  | join => exact .onIssue_same hs fun _ => issue_main fun _ _ => joinEffect_main
  | exit o => exact .onIssue_same hs fun _ => issue_main fun _ _ => exitEffect_main
  | ient | fmt o => exact .onIssue_same hs fun _ => issue_main fun _ _ => State.putSplit_main
  | nop => exact .onIssue_same hs fun _ => issue_main fun _ _ => State.done_main
  | vadd ty o | vsub ty o | vmul ty o | vmulh ty o | vmulhn ty o | vand ty o | vor ty o | vxor ty o | vshl ty o
  | vshr ty o | vsra ty o | vmin ty o | vmax ty o | vminn ty o | vmaxn ty o => exact .onIssue_same hs fun _ => vint_main
  | vabs ty o | vneg ty o | vclz ty o | vpopc ty o => exact .onIssue_same hs fun _ => vint1_main
  | vaddi ty o | vandi ty o | vori ty o | vxori ty o | vshli ty o | vshri ty o | vsrai ty o =>
    exact .onIssue_same hs fun _ => vimm_main
  | vli o | vsel o | vlane o | vscl o | vperm o | vconf o | vcomp o | vbcast o => exact .onIssue_same hs fun _ => vectorOp_main
  | vcmp c ty o | vfcmp c ty o => exact .onIssue_same hs fun _ => cmpPred_main
  | pand o | por o | pxor o | pandn o | pnot o | pmov o | pset o | pclr o => exact .onIssue_same hs fun _ => predOp_main
  | ptest o => exact .onIssue_same hs fun _ => issue_main fun _ _ => State.done_main.trans State.pwrite_main
  | vmov o | vfclass ty o => exact .onIssue_same hs fun _ => v3UnaryOp_main
  | vfadd ty o | vfsub ty o | vfmul ty o | vfma ty o | vfms ty o | vfnma ty o | vfmin ty o | vfmax ty o | vfabs ty o
  | vfneg ty o => exact .onIssue_same hs fun _ => vfloat_main
  | vrcp o | vrsq o | vsqrt o | vexp2 o | vlog2 o => exact .onIssue_same hs fun _ => vsfu_main
  | vcvt o | vpack o | vunpack o => exact .onIssue_same hs fun _ => convertRun_main
  | vdot8 o | vdot4 o | vdoti8 o => exact .onIssue_same hs fun _ => dotOp_main
  | tmv o => exact .onIssue_same hs fun _ => issue_main fun _ _ => tmvEffect_main
  | vred o | vscan o => exact .onIssue_same hs fun _ => redOp_main
  | lds o | ldx o | ldc o => exact .onIssue_same hs fun _ => issue_main fun _ _ => loadEffect_main
  | sts o | stx o => exact .onIssue_same hs fun _ => issue_main fun _ _ => storeEffect_main
  | vspill o => exact .onIssue_same hs fun _ => issue_main fun _ _ => vspillEffect_main
  | vfill o => exact .onIssue_same hs fun _ => issue_main fun _ _ => vfillEffect_main
  | vgth o => exact .onIssue_same hs fun _ => issue_main fun _ _ => vgthEffect_main
  | vsct o => exact .onIssue_same hs fun _ => issue_main fun _ _ => vsctEffect_main
  | aadd o | afadd o | amin o | amax o | aand o | aor o | axchg o | acas o =>
    exact .onIssue_same hs fun _ => issue_main fun _ _ => atomEffect_main
  | bar o | barr o | barw o => exact .onIssue_same hs fun _ => barrier_main
  | wmon o => exact .onIssue_same hs fun _ => wmonEffect_main
  | fence o => exact .onIssue_same hs fun _ => issue_main fun _ _ => fenceEffect_main
  | fenceOp o => exact .onIssue_same hs fun _ => issue_main fun _ _ => fenceOpEffect_main
  | cpy o | cpyr o => exact .onIssue_same hs fun _ => issue_main fun _ _ => copyEffect_main
  | bclose o => exact .onIssue_same hs fun _ => issue_main fun _ _ => bcloseEffect_main
  | bwait o => exact .onIssue_same hs fun _ => bwaitEffect_main
  | cstat o => exact .onIssue_same hs fun _ => issue_main fun _ _ => cstatEffect_main
  | oclaim o | oclaimAny o => exact .onIssue_same hs fun _ => issue_main fun _ _ => oclaimEffect_main
  | orel o => exact .onIssue_same hs fun _ => issue_main fun _ _ => orelEffect_main
  | mma o | mmas o => exact .onIssue_same hs fun _ => issue_main fun _ _ => mmaEffect_main
  | mzero o => exact .onIssue_same hs fun _ => issue_main fun _ _ => mzeroEffect_main
  | accrd o => exact .onIssue_same hs fun _ => issue_main fun _ _ => accrdEffect_main
  | accwr o => exact .onIssue_same hs fun _ => issue_main fun _ _ => accwrEffect_main
  | mlease o => exact .onIssue_same hs fun _ => issue_main fun _ _ => mleaseEffect_main
  | mleaseFol o => exact .onIssue_same hs fun _ => issue_main fun _ _ => mleaseFolEffect_main
  | smask o => exact .onIssue_same hs fun _ => issue_main fun _ _ => smaskEffect_main
  | attnBrim o | attnBrimRes o => exact .onIssue_same hs fun _ => kvIssue_main fun _ _ => attnEffect_main
  | kvmap o => exact .onIssue fun _ => kvIssue_wf hs fun _ _ => kvmapEffect_wf
  | kvapp o | kvsum o | kvlink o | kvreq o => exact .onIssue fun _ => kvIssue_wf hs fun _ _ => kvOp_wf
  | kvtrim o => exact .onIssue fun _ => kvIssue_wf hs fun _ _ => kvtrimEffect_wf
  | pgget o => exact .onIssue_same hs fun _ => kvIssue_main fun _ _ => pggetEffect_main
  | pgput o => exact .onIssue_same hs fun _ => kvIssue_main fun _ _ => pgputEffect_main
  | bdep o | bcpy o | btak o => exact .onIssue_same hs fun _ => benchEffect_main
  | jrec o => exact .onIssue fun _ => issue_wf hs fun _ _ => jrecFirst_wf
  | jack o => exact .onIssue_same hs fun _ => issue_main fun _ _ => State.journalChecked_main fun _ => State.putScalar_main
  | jtrunc o => exact .onIssue_same hs fun _ => issue_main fun _ _ => jtruncEffect_main
  | rngc o => exact .onIssue_same hs fun _ => issue_main fun _ _ => rngcEffect_main
  | bdset o => exact .onIssue_same hs fun _ => issue_main fun _ _ => bdsetEffect_main
  | bdclr o => exact .onIssue_same hs fun _ => issue_main fun _ _ => State.settle_main.trans (State.setGroup_main ..)
  | spawn o => exact .onIssue_same hs fun _ => issue_main fun _ _ => spawnEffect_main
  | glaunch o => exact .onIssue fun _ => issue_wf hs fun _ _ => glaunchEffect_wf
  | gwait o => exact .onIssue_same hs fun _ => gwaitOp_main
  | trap o => exact .onIssue_same hs fun _ => issue_main fun _ _ => State.trapAt_main
  | eret o => exact .onIssue_same hs fun _ => issue_main fun _ _ => eretEffect_main
  | csrw o => exact .onIssue_same hs fun _ => issue_main fun _ _ => csrwEffect_main
  | brk o => exact .onIssue_same hs fun _ => issue_main fun _ _ => brkEffect_main
  | wdog o => exact .onIssue_same hs fun _ => issue_main fun _ _ => wdogEffect_main
  | cquiesce o => exact execCquiesce_canonical o hs
  | cquiesceRst o => exact execCquiesceRst_canonical o hs
  -- Events that write main memory
  | groupPick core q => exact .next (State.groupPick_wf hs)
  | channelPick sched e => exact execChannelPick_canonical sched e hs
  | memCompletion id => exact execMemCompletion_canonical id hs
  | cxlTimeout id => exact execCxlTimeout_canonical id hs
  | cxlLinkDown port => exact execCxlLinkDown_canonical port hs
  | migRoutedRequest slot link => exact execMigRoutedRequest_canonical slot link hs
  | migBackgroundFill slot link => exact execMigBackgroundFill_canonical slot link hs
  | copyEngineTransfer core => exact execCopyEngineTransfer_canonical core hs
  | attnStart core => exact execAttnStart_canonical core hs
  | attnVisit core => exact execAttnVisit_canonical core hs
  | groupRestore core => exact execGroupRestore_canonical core hs
  | groupEnd gid => exact execGroupEnd_canonical gid hs
  | replayStart ctx slot => exact execReplayStart_canonical ctx slot hs
  | nodeStart ctx slot node => exact execNodeStart_canonical ctx slot node hs
  | attestationReport ctx => exact execAttestationReport_canonical ctx hs
  | hostMemWrite pa bytes => exact .next (ite_wf (State.hostWriteAt_wf hs) (main_wf State.hostRefused_main hs))
  -- Events that leave it alone
  | holdClear gid sid => exact .next_same hs (State.modSplit_main ..)
  | resultWriteback gid k => exact .next_same hs (State.settle_main.trans State.writeback_main)
  | returnSlotReply core k => exact execReturnSlotReply_canonical core k hs
  | wbDrainTimeout core k => exact .next_same hs State.wbDrain_main
  | serviceGroupExec die slice => exact execServiceGroupExec_canonical die slice hs
  | benchServe die slice => exact execBenchServe_canonical die slice hs
  | benchWithdraw gid sid => exact execBenchWithdraw_canonical gid sid hs
  | dieFlitReceive id ok => exact execDieFlitReceive_canonical id ok hs
  | patrolScrub unit =>
    exact .next_same hs (ite_main (State.serveRead_main.trans State.scrubCount_main)
      (State.memSendAt_main.trans State.scrubCount_main))
  | dbiWindowEnd ch ones toggles => exact .next_same hs (ite_main State.windowEnd_main rfl)
  | thermalSample ch temp => exact .next_same hs (State.evalRate_main.trans State.reportHeat_main)
  | thermalStateFall ch => exact .next_same hs (ite_main (State.evalRate_main.trans State.reportHeat_main) rfl)
  | rateRiseTimer ch => exact .next_same hs (ite_main State.switchRate_main rfl)
  | rateSwitchEnd ch => exact .next_same hs (State.evalRate_main.trans State.catchUp_main)
  | baseDieReset stack => exact .next_same hs (foldl_main fun _ _ => State.channelReset_main)
  | fallbackTakeover stack => exact .next_same hs (ite_main State.takeover_main rfl)
  | refreshHandback stack => exact .next_same hs (ite_main State.handback_main rfl)
  | refreshDue stack => exact .next_same hs (ite_main rfl (ite_main State.handback_main rfl))
  | bdstatRel stack => exact .next_same hs State.setRel_main
  | cxlLateCompletion | cxlLinkTrained | avashLinkTrained => exact .next_same hs rfl
  | cxpstatEnable port => exact .next_same hs State.cxpEnable_main
  | xlinvcCommand v => exact .next_same hs State.invalidate_main
  | xlinvcComplete => exact .next_same hs (ite_main rfl rfl)
  | migArm slot => exact .next_same hs State.migArm_main
  | migStart slot => exact .next_same hs State.migStart_main
  | migSwitch slot => exact .next_same hs State.migSwitch_main
  | migFinish slot => exact .next_same hs State.migFinish_main
  | migAbort slot => exact .next_same hs State.migAbort_main
  | migClear slot => exact .next_same hs State.migClear_main
  | copyBatchComplete gid batch => exact execCopyBatchComplete_canonical gid batch hs
  | matrixOpStart core => exact execMatrixOpStart_canonical core hs
  | matrixOpRetire core => exact execMatrixOpRetire_canonical core hs
  | startLimitWindow die => exact .next_same hs State.rollWindow_main
  | arrayIdle core => exact .next_same hs (ite_main State.modArray_main rfl)
  | leaseIdleExpire core => exact execLeaseIdleExpire_canonical core hs
  | blockPlace die => exact execBlockPlace_canonical die hs
  | placementStarvation uid => exact execPlacementStarvation_canonical uid hs
  | evictionSelect uid => exact .next_same hs State.evictFor_main
  | timeSliceExpire ctx => exact execTimeSliceExpire_canonical ctx hs
  | spawnHoldTimeout gid sid => exact execSpawnHoldTimeout_canonical gid sid hs
  | spawnBinTimeout core k => exact execSpawnBinTimeout_canonical core k hs
  | packedGroupStart core => exact execPackedGroupStart_canonical core hs
  | barrierWatchdogExpire core k => exact execBarrierWatchdogExpire_canonical core k hs
  | tgobjWrite ctx slot v => exact .next_same hs (ite_main State.tgobjSet_main rfl)
  | kick ctx v => exact .next_same hs (ite_main State.kick_main rfl)
  | frameGrant core => exact execFrameGrant_canonical core hs
  | grantTakeRetry core => exact execGrantTakeRetry_canonical core hs
  | jcfgBind ctx v => exact .next_same hs (ite_main State.jcfgEnable_main rfl)
  | jcfgDisable ctx v => exact .next_same hs (ite_main rfl State.jcfgUnbind_main)
  | jbufWrite ctx v => exact .next_same hs State.jbufSet_main
  | journalAck ctx dev n => exact execJournalAck_canonical ctx dev n hs
  | partnerIdleMessage ctx dev => exact .next_same hs (ite_main State.setJournal_main rfl)
  | partnerSilence ctx => exact .next_same hs (ite_main State.partnerLost_main rfl)
  | avashLinkDown port =>
    exact .next_same hs (ite_main rfl (foldl_main fun _ _ => ite_main State.partnerLost_main rfl))
  | journalRecordReceive src num rec => exact execJournalRecordReceive_canonical src num rec hs
  | journalTruncateReceive src sq upto => exact .next_same hs State.partnerStore_main
  | hostBenchDeposit | hostBenchCopy | hostBenchTake => exact .next_same hs State.outsideBench_main
  | hostBenchRefusedOp ctx r w => exact .next_same hs State.hostRequest_main
  | hostMemRead pa len => exact .next_same hs (ite_main State.hostReadAt_main State.hostRefused_main)
  | termrepKill ctx v => exact .next_same hs (ite_main State.termrepWrite_main rfl)
  | dbgHalt v | dbgResume v | dbgStep v | dbgStepAll v | dbgAttach v | dbgDetach v =>
    exact .next_same hs State.debugCommand_main
  | debugWindowWrite off v => exact .next_same hs State.windowPut_main
  | boot fm bd sv => exact execBoot_canonical fm bd sv hs
  | registerWrite w n v => exact execRegisterWrite_canonical w n v hs
  | storageError u n => exact execStorageError_canonical u n hs

/-! ### Every step -/

theorem stepInstr_canonical {s : State} {i : Issue} {w : Word} {last : Bool} (hs : Inv s) :
    EndsCanonical (stepInstr s i w last) := by
  unfold stepInstr
  split
  · exact .next_same hs State.trapAt_main
  · exact .mapNext (fun _ => State.afterIssue_main) (exec_canonical _ hs)

theorem stepRaw_canonical {s : State} (hs : Inv s) : EndsCanonical (stepRaw s) := by
  have ticked : ∀ n, Inv (s.tick n) := fun n => main_wf (s.tick_main n) hs
  unfold stepRaw
  split
  · exact exec_canonical _ (main_wf (s.tick_main _) hs)
  · split
    · exact stepInstr_canonical (ticked 0)
    · split
      · exact exec_canonical _ (ticked 0)
      · exact .next (ticked 0)

/-- Settles O47: a step is the meaning of one event or instruction, or none, between operations that leave main memory alone, and
every meaning keeps the canonical form. -/
theorem stepKeepsMemoryCanonical : Obligations.StepKeepsMemoryCanonical :=
  fun _ t hs h => EndsCanonical.mapNext (fun _ => State.retime_main) (stepRaw_canonical hs) t h

end Sys2Proof.Machine

/-! ## Host bench ports, foreman requests, grants and retries (O53) -/

namespace Sys2Proof.Machine

/-! ### Fields of words -/

/-- A field of a word in its place is the word under the mask of the field. -/
theorem ofNat_bits_mul (v : Word) (lo n : Nat) :
    w64 (bits v lo n * 2 ^ lo) = v &&& w64 ((2 ^ n - 1) * 2 ^ lo) := by
  refine BitVec.eq_of_getLsbD_eq fun i hi => ?_
  simp only [w64, bits, BitVec.getLsbD_ofNat, BitVec.getLsbD_and, Nat.testBit_mul_two_pow, Nat.testBit_mod_two_pow,
    Nat.testBit_div_two_pow, Nat.testBit_two_pow_sub_one, BitVec.testBit_toNat]
  by_cases hlo : lo ≤ i
  · simp [hi, hlo, Nat.sub_add_cancel hlo, Bool.and_comm]
  · simp [hlo]

/-- Request word 0 of a host bench port without its reserved bits (R5, R379). -/
theorem fieldsOf_requestWord (v : Word) :
    fieldsOf v [(32, 32), (12, 3), (4, 7), (0, 2)] = v &&& 0xFFFFFFFF000077F3 := by
  have sum : fieldsOf v [(32, 32), (12, 3), (4, 7), (0, 2)] =
      w64 (bits v 32 32 * 2 ^ 32) + w64 (bits v 12 3 * 2 ^ 12) + w64 (bits v 4 7 * 2 ^ 4) + w64 (bits v 0 2 * 2 ^ 0) := by
    simp [fieldsOf, w64, BitVec.ofNat_add]
  have disjoint : ∀ a b : Word, a &&& b = 0 → (v &&& a) + (v &&& b) = v &&& (a ||| b) := by
    intro a b hab
    rw [BitVec.add_eq_or_of_and_eq_zero, BitVec.and_or_distrib_left]
    calc v &&& a &&& (v &&& b) = v &&& (a &&& b) := by ac_nf
      _ = 0 := by simp [hab]
  rw [sum, ofNat_bits_mul, ofNat_bits_mul, ofNat_bits_mul, ofNat_bits_mul, disjoint _ _ (by decide), disjoint _ _ (by decide),
    disjoint _ _ (by decide)]
  rfl

/-- The number of a word whose lowest two bits are replaced. -/
theorem setBits_low_toNat (w : Word) {op : Nat} (h : op < 4) :
    (setBits w 0 2 op).toNat = w.toNat / 4 * 4 + op := by
  have := w.isLt
  simp [setBits, bits]
  omega

theorem bits_setBits_low (w : Word) {op : Nat} (h : op < 4) : bits (setBits w 0 2 op) 0 2 = op := by
  simp [bits, setBits_low_toNat w h]
  omega

theorem bits_setBits_above (w : Word) {op lo : Nat} (n : Nat) (h : op < 4) (hlo : 2 ≤ lo) :
    bits (setBits w 0 2 op) lo n = bits w lo n := by
  obtain ⟨k, rfl⟩ := Nat.exists_eq_add_of_le hlo
  have quarter : (w.toNat / 4 * 4 + op) / 2 ^ 2 = w.toNat / 2 ^ 2 := by omega
  simp only [bits, setBits_low_toNat w h, pow_add, ← Nat.div_div_eq_div_mul, quarter]

/-! ### A request on its way to its home slice (R49, R328) -/

@[simp] theorem Slice.send_all (x : Slice) (q : SvcReq) : (x.send q).all = x.all ++ [q] := by
  unfold Slice.send Slice.all
  split
  · next h => simp [List.isEmpty_iff.mp (Bool.and_eq_true_iff.mp h).2]
  · simp

@[simp] theorem State.slice_modSlice_same (s : State) (d k : Nat) (f : Slice → Slice) :
    (s.modSlice d k f).slice d k = f (s.slice d k) := by
  simp [State.modSlice, State.setSlice, State.modDie, State.slice]

theorem homeOf_of_homes {desc : Word} {tag die k : Nat} (h : homes desc tag die k) :
    bits desc 56 2 = die ∧ homeOf desc tag = k := by
  obtain ⟨hd, hk⟩ := h
  have slices : benchSlices desc = (List.range 24).filter (fun j => desc.getLsbD (24 + j)) := by
    refine List.filter_congr fun j hj => ?_
    simp only [bits, Nat.testBit_mod_two_pow, Nat.testBit_div_two_pow, List.mem_range.mp hj, decide_true, Bool.true_and,
      BitVec.testBit_toNat, Nat.add_comm]
  refine ⟨hd.symm, ?_⟩
  simp only [homeOf, slices, List.getD_eq_getElem?_getD]
  rw [hk, Option.getD_some]

section
variable {s : State} {q : BenchReq} {die k : Nat}

/-- A request joins the requests of the slice that homes its tag. -/
theorem benchSend_all (h : homes (s.ctxReg q.ctx (0x110 + q.region)) q.tag die k) :
    ((s.benchSend q).slice die k).all = (s.slice die k).all ++ [.bench q] := by
  obtain ⟨hd, hk⟩ := homeOf_of_homes h
  simp only [State.benchSend, State.benchd, hd, hk, State.slice_modSlice_same, Slice.send_all]

@[simp] theorem benchSend_core (j : Nat) : (s.benchSend q).core j = s.core j := rfl
@[simp] theorem benchSend_port (ctx r : Nat) : (s.benchSend q).port ctx r = s.port ctx r := rfl

end

/-! ### Host bench ports (R379) -/

@[simp] theorem State.port_setPort_same (s : State) (ctx r : Nat) (p : HostPort) : (s.setPort ctx r p).port ctx r = p := by
  simp [State.port, State.setPort]

/-- A port replaced changes no register. -/
@[simp] theorem State.setPort_ctxReg (s : State) (ctx r : Nat) (p : HostPort) (c n : Nat) :
    (s.setPort ctx r p).ctxReg c n = s.ctxReg c n := by
  by_cases hc : c = ctx
  · subst hc; simp [State.ctxReg, State.setPort]
  · simp [State.ctxReg, State.setPort, State.ctx_setCtx_ne _ _ hc]

section
variable {s : State} {ctx r : Nat} {v : Word}

theorem hostSend_busy (h : (s.port ctx r).reply.getLsbD 63 = false) : s.hostSend ctx r v = s := by
  unfold State.hostSend
  exact if_pos (by rw [h]; rfl)

theorem hostSend_refused (h : (s.port ctx r).reply.getLsbD 63 = true) (hr : s.hostRefuses ctx r v = true) :
    s.hostSend ctx r v =
      s.setPort ctx r ⟨(s.port ctx r).words.set 0 (v &&& 0xFFFFFFFF000077F3), w64 (2 ^ 63 + 3 * 2 ^ 61), []⟩ := by
  simp only [State.hostSend, h, hr, fieldsOf_requestWord, Bool.not_true, Bool.false_eq_true, if_false, if_true]

/-- The port while its request is on its way. -/
def HostPort.asking (p : HostPort) (v : Word) : HostPort := ⟨p.words.set 0 (v &&& 0xFFFFFFFF000077F3), 0, []⟩

theorem hostSend_sent (h : (s.port ctx r).reply.getLsbD 63 = true) (hr : s.hostRefuses ctx r v = false) :
    s.hostSend ctx r v = (s.newId.2.setPort ctx r ((s.port ctx r).asking v)).benchSend
      (((s.port ctx r).asking v).request s.nextId ctx r v) := by
  simp only [State.hostSend, h, hr, fieldsOf_requestWord, Bool.not_true, Bool.false_eq_true, if_false]
  rfl

end

/-- The fields that a request carries are those of the port: NF of a deposit, the masked ones of a pattern. -/
theorem HostPort.request_fields (p : HostPort) (id ctx r : Nat) (v : Word) {f : Nat}
    (h : (bits v 0 2 = 0 ∧ f < bits v 12 3) ∨ (bits v 0 2 ≠ 0 ∧ f < 7 ∧ (bits v 4 7).testBit f = true)) :
    (p.request id ctx r v).fields[f]? = some (p.words.getD (f + 1) 0) := by
  rcases h with ⟨h0, hf⟩ | ⟨h0, hf, hm⟩
  · simp [HostPort.request, h0, hf]
  · simp [HostPort.request, h0, hf, hm]

/-- Writing word 0 leaves the words of the fields alone. -/
theorem HostPort.asking_field (p : HostPort) (v : Word) (f : Nat) :
    (p.asking v).words.getD (f + 1) 0 = p.words.getD (f + 1) 0 :=
  Sparse.getD_set_ne _ _ _ (by omega)

/-! ### Foreman cores (R330) -/

theorem foremanSend_refused {s : State} {op : BenchOp} {ctx r : Nat} {w : Word} {fields : List Word}
    (h : (s.pkgReg 5).getLsbD 0 = true ∨ s.benchUsable ctx r = false) : s.foremanSend op ctx r w fields = s := by
  unfold State.foremanSend
  exact if_pos (by simpa using h)

theorem foremanSend_sent {s : State} {op : BenchOp} {ctx r : Nat} {w : Word} {fields : List Word}
    (hf : (s.pkgReg 5).getLsbD 0 = false) (hu : s.benchUsable ctx r = true) : s.foremanSend op ctx r w fields =
      { s.newId.2.benchSend (foremanRequest s.nextId op ctx r w fields) with
        msix := s.msix ++ if op = .dep ∧ r = s.mailbox ctx then [⟨0, ctx⟩] else [] } := by
  unfold State.foremanSend
  rw [if_neg (by rw [hf, hu]; decide)]
  dsimp only
  split
  · rfl
  · simp only [List.append_nil]; rfl

theorem foremanRequest_fields (id : Nat) (op : BenchOp) (ctx r : Nat) (w : Word) (fields : List Word) {f : Nat}
    (h : (op = .dep ∧ f < bits w 12 3) ∨ (op ≠ .dep ∧ f < 7 ∧ (bits w 4 7).testBit f = true)) :
    (foremanRequest id op ctx r w fields).fields[f]? = some (fields.getD f 0) := by
  rcases h with ⟨h0, hf⟩ | ⟨h0, hf, hm⟩
  · simp [foremanRequest, h0, hf, fieldOf]
  · simp [foremanRequest, h0, hf, hm, fieldOf]

/-! ### Frame caches (R103 to R105) -/

@[simp] theorem State.core_modCore_same (s : State) (k : Nat) (f : Core → Core) : (s.modCore k f).core k = f (s.core k) := by
  simp [State.modCore]

/-- Nothing is returned where every frame has found a place. -/
@[simp] theorem State.returnFrames_nil (s : State) (core ctx n : Nat) : s.returnFrames core ctx [] n = s := by
  cases n <;> rfl

theorem insertFrames_fit {s : State} {core ctx : Nat} {fs : List Nat}
    (h : (s.core core).frames.frames.length + fs.length ≤ 32) : s.insertFrames core ctx fs =
      s.modCore core (fun c => { c with frames := { c.frames with frames := (s.core core).frames.frames ++ fs } }) := by
  have room : fs.length ≤ 32 - (s.core core).frames.frames.length := by omega
  simp only [State.insertFrames, List.take_of_length_le room, List.drop_eq_nil_of_le room, State.returnFrames_nil]

/-- A grant for the context of a frame cache fills it (R104). -/
theorem frameGrant_exec {s : State} {core ctx : Nat} {fields : List Word} {rest : List (Nat × List Word)}
    (hg : (s.core core).frames.grants = (ctx, fields) :: rest) (hc : (s.core core).frames.ctx = some ctx) :
    exec (.frameGrant core) s = .next (State.insertFrames
      (s.modCore core (fun c => { c with frames := { c.frames with grants := rest, refill := none } })) core ctx
      (((fields.take 7).filter (fun w => w.getLsbD 63)).map (fun w => bits w 0 28))) := by
  simp only [exec_frameGrant, execFrameGrant, hg, State.core_modCore_same, hc, if_true]

theorem grantTake_sent {s : State} {core ctx : Nat} (h : s.benchUsable ctx (s.mailbox ctx) = true) :
    s.grantTake core ctx =
      (s.newId.2.modCore core (fun c => { c with frames := { c.frames with taking := true } })).benchSend
        ⟨s.nextId, .tak, ctx, s.mailbox ctx, 0xFFFF0100 + core, 0, [], false, none, .frameCache core⟩ := by
  unfold State.grantTake
  rw [if_pos h]
  rfl

/-! ### The events -/

/-- A write of request word 0 of a host bench port whose DONE is 1 sends a request, or is refused (R379). -/
theorem hostBench_request {s : State} {ctx r op : Nat} {w : Word} {x : Instr} (hc : s.responds ctx = true) (hr : r < 16)
    (hx : (op, x) ∈ [(0, Instr.hostBenchDeposit (.host ctx) r w), (1, .hostBenchCopy (.host ctx) r w),
      (2, .hostBenchTake (.host ctx) r w), (3, .hostBenchRefusedOp ctx r w)]) :
    op < 4 ∧ exec x s = .next (s.hostSend ctx r (setBits w 0 2 op)) := by
  have request : ∀ n, s.hostRequest ctx r w n = s.hostSend ctx r (setBits w 0 2 n) := fun n => if_pos ⟨hc, hr⟩
  simp only [List.mem_cons, Prod.mk.injEq, List.not_mem_nil, or_false] at hx
  rcases hx with ⟨rfl, rfl⟩ | ⟨rfl, rfl⟩ | ⟨rfl, rfl⟩ | ⟨rfl, rfl⟩
  · exact ⟨by decide, congrArg _ (request 0)⟩
  · exact ⟨by decide, congrArg _ (request 1)⟩
  · exact ⟨by decide, congrArg _ (request 2)⟩
  · exact ⟨by decide, congrArg _ (request 3)⟩

theorem hostRefuses_op3 {s : State} {ctx r : Nat} {v : Word} (h : bits v 0 2 = 3) : s.hostRefuses ctx r v = true := by
  simp [State.hostRefuses, h]

/-- A bench operation of a foreman core (R330). -/
theorem foremanBench_exec {s : State} {ctx r : Nat} {w : Word} {fields : List Word} {op : BenchOp} {x : Instr}
    (hx : (op, x) ∈ [(.dep, Instr.hostBenchDeposit (.foreman ctx fields) r w), (.cpy, .hostBenchCopy (.foreman ctx fields) r w),
      (.tak, .hostBenchTake (.foreman ctx fields) r w)]) :
    exec x s = .next (s.foremanSend op ctx r w fields) := by
  simp only [List.mem_cons, Prod.mk.injEq, List.not_mem_nil, or_false] at hx
  rcases hx with ⟨rfl, rfl⟩ | ⟨rfl, rfl⟩ | ⟨rfl, rfl⟩
  · rfl
  · rfl
  · rfl

/-- Settles O53: each event is its sending operation, whose request joins the slice that `homes` names. -/
theorem hostBenchAndFrameEvents : Obligations.HostBenchAndFrameEvents := by
  unfold Obligations.HostBenchAndFrameEvents
  refine ⟨?ports, ?foremen, ?grants, ?retries⟩
  case ports =>
    rintro s ctx r die k op w _ x _ hc hr hx rfl rfl
    obtain ⟨hop, hexec⟩ := hostBench_request hc hr hx
    have hv := bits_setBits_low w hop
    rw [hexec]
    refine ⟨fun hb => by rw [hostSend_busy hb], fun hd hf => by rw [hostSend_refused hd hf]; rfl,
      fun h3 => hostRefuses_op3 (hv.trans h3), fun hd hf home => ?_⟩
    refine ⟨_, ((s.port ctx r).asking (setBits w 0 2 op)).request s.nextId ctx r (setBits w 0 2 op), rfl, ?_⟩
    rw [hostSend_sent hd hf]
    have tag := bits_setBits_above w 32 hop (lo := 32) (by decide)
    refine ⟨?_, rfl, ?_, rfl, rfl, ?_, tag, rfl, rfl, rfl, fun f hf => ?_⟩
    · rw [benchSend_port, State.port_setPort_same]; rfl
    · refine (benchSend_all ?_).trans rfl
      rw [State.setPort_ctxReg]
      exact (congrArg (homes _ · die k) tag).mpr home
    · simp only [HostPort.request, hv]
    · rw [HostPort.request_fields, HostPort.asking_field]
      rwa [hv, bits_setBits_above w 3 hop (by decide), bits_setBits_above w 7 hop (by decide)]
  case foremen =>
    intro s ctx r die k w fields op x hx
    rw [foremanBench_exec hx]
    refine ⟨fun h => by rw [foremanSend_refused h], fun hf hu home => ?_⟩
    refine ⟨_, foremanRequest s.nextId op ctx r w fields, rfl, ?_⟩
    rw [foremanSend_sent hf hu]
    exact ⟨rfl, benchSend_all (s := s.newId.2) home, rfl, rfl, rfl, rfl, rfl, rfl, rfl, rfl,
      fun f h => foremanRequest_fields _ _ _ _ _ _ h⟩
  case grants =>
    rintro s core ctx fields rest _ fs rfl hg hc rfl hroom
    refine ⟨_, frameGrant_exec hg hc, ?_⟩
    have frames : ((fields.take 7).filter (fun w => w.getLsbD 63)).map (fun w => bits w 0 28) =
        ((fields.take 7).filter (fun w => w.getLsbD 63)).map (fun w => w.toNat % 2 ^ 28) := by simp [bits]
    rw [frames, insertFrames_fit (by simpa using hroom)]
    exact ⟨by simp, rfl⟩
  case retries =>
    rintro s core ctx die k _ rfl hrefill
    have retry : exec (.grantTakeRetry core) s = .next (if (s.core core).frames.taking ||
        !(s.core core).frames.grants.isEmpty then s else s.grantTake core ctx) := by
      simp only [exec_grantTakeRetry, execGrantTakeRetry, hrefill]
    refine ⟨fun h => ?_, fun ht hg hu home => ?_⟩
    · rw [retry, if_pos]
      simpa using h
    · rw [ht, hg, if_neg (by decide), grantTake_sent hu] at retry
      exact ⟨_, _, retry, by rw [benchSend_core, State.core_modCore_same]; rfl, benchSend_all (s := State.modCore _ core _) home,
        rfl, rfl, rfl, rfl⟩

end Sys2Proof.Machine

/-! ## A halt waits for the check of a result (O60 fails)

R263 has a split that works under a range register wait for the verdict on a result that arrives late, and the model has a halt
wait for that verdict too (`Split.haltTry`). The halt clause of `HostAndDebuggerEvents` asks only that the group be at rest, which
does not say that no check is outstanding. -/

namespace Sys2Proof.Machine

/-- A split at an instruction that waits for the check of result 7. -/
def checkingSplit : Split := { Split.blank 0 0 with checking := some 7 }

/-- A late result on its way to lane 0 of register 2, to be checked when it is written. -/
def lateResult : Pend where
  id := 7
  sid := 0
  regs := [2]
  lanes := 1
  data := [(vkey 2 0, 0)]
  need := 0
  sb := none
  ret := false
  flags := 0
  undef := 0
  checks := [⟨2, 0, fp32, 2, 0⟩]
  pc := 0

/-- The group of that split and that result, of context 1 on core 0. -/
def checkingGroup : Group :=
  { Group.start loadBlock 0 0 0 0 0 0 0 allLanes [] with outs := [lateResult], splits := [(0, checkingSplit)] }

/-- The machine after reset, with that group. -/
def checkingState : State := { State.reset with groups := [(0, checkingGroup)] }

/-- The word of DBGCTL that selects split 0 of that group. -/
def checkingSelect : Word := w64 (2 ^ 38)

theorem checkingState_atRest : atRest checkingState checkingGroup :=
  ⟨rfl, rfl, rfl, rfl, by simp [checkingGroup, checkingSplit, Split.blank], fun _ h => by cases h⟩

/-- The halt is noted, and the split has not halted. -/
theorem checkingState_halt_waits : ∃ t, exec (.dbgHalt checkingSelect) checkingState = .next t ∧
    t.groups = [(0, { checkingGroup with splits := [(0, { checkingSplit with haltReq := true })] })] :=
  ⟨_, rfl, rfl⟩

/-- Refutes O60: the debugger halts a split that has a check outstanding, and the split has not halted. -/
theorem not_hostAndDebuggerEvents : ¬ Obligations.HostAndDebuggerEvents := by
  unfold Obligations.HostAndDebuggerEvents
  rintro ⟨-, -, -, -, -, -, -, selected, -⟩
  obtain ⟨halts, -⟩ := selected checkingState checkingSelect 0 0 checkingGroup checkingSplit rfl rfl rfl rfl checkingState_atRest
    rfl rfl rfl
  obtain ⟨t, h, q, ht, hg, hq, -, -, -, -, -, -, -, halted, -⟩ := halts rfl rfl
  obtain ⟨u, hu, waits⟩ := checkingState_halt_waits
  have same : t = u := by rw [ht] at hu; exact Host.Outcome.next.inj hu
  subst same
  obtain rfl : h = { checkingGroup with splits := [(0, { checkingSplit with haltReq := true })] } := by
    simpa using hg.symm.trans waits
  obtain rfl : { checkingSplit with haltReq := true } = q := by simpa using hq
  exact absurd halted (by simp [checkingSplit, Split.blank])

end Sys2Proof.Machine

/-! ## Lanes of a mask and the answer of a vector load (R11, R165) -/

namespace Sys2Proof.Machine

/-! ### Lanes of a mask -/

theorem mem_lanesOf {m : Mask} {l : Nat} : l ∈ lanesOf m ↔ m.getLsbD l = true := by
  simp only [lanesOf, lane, List.mem_filter, List.mem_range, and_iff_right_iff_imp]
  exact BitVec.lt_of_getLsbD

/-- The bits that `maskOf` adds up, below `n`. -/
theorem testBit_laneSum (p : Nat → Bool) (n l : Nat) :
    ((List.range n).foldl (fun a k => a + (if p k then 2 ^ k else 0)) 0).testBit l = (decide (l < n) && p l) ∧
      (List.range n).foldl (fun a k => a + (if p k then 2 ^ k else 0)) 0 < 2 ^ n := by
  induction n with
  | zero => simp
  | succ n ih =>
    obtain ⟨bit, below⟩ := ih
    rw [List.range_succ, List.foldl_append, List.foldl_cons, List.foldl_nil]
    generalize (List.range n).foldl (fun a k => a + (if p k then 2 ^ k else 0)) 0 = a at bit below
    split
    case isTrue hp =>
      refine ⟨?_, by omega⟩
      rcases lt_trichotomy l n with h | rfl | h
      · rw [Nat.add_comm, Nat.testBit_two_pow_add_gt h, bit]
        simp [h, Nat.lt_succ_of_lt h]
      · rw [Nat.add_comm, Nat.testBit_two_pow_add_eq, Nat.testBit_lt_two_pow below]
        simp [hp]
      · rw [Nat.testBit_lt_two_pow (lt_of_lt_of_le (by omega : a + 2 ^ n < 2 ^ (n + 1)) (Nat.pow_le_pow_right (by decide) h))]
        simp [show ¬ l < n + 1 by omega]
    case isFalse hp =>
      refine ⟨?_, by omega⟩
      rw [Nat.add_zero, bit]
      rcases lt_trichotomy l n with h | rfl | h
      · simp [h, Nat.lt_succ_of_lt h]
      · simp [hp]
      · simp [show ¬ l < n by omega, show ¬ l < n + 1 by omega]

theorem getLsbD_maskOf (p : Nat → Bool) (l : Nat) : (maskOf p).getLsbD l = (decide (l < 32) && p l) := by
  rw [maskOf, BitVec.getLsbD_ofNat, (testBit_laneSum p 32 l).1]
  by_cases h : l < 32
  · simp [h]
  · simp [h]

/-- A mask is made of its lanes. -/
@[simp] theorem maskList_lanesOf (m : Mask) : maskList (lanesOf m) = m := by
  refine BitVec.eq_of_getLsbD_eq fun l hl => ?_
  rw [maskList, getLsbD_maskOf]
  by_cases h : m.getLsbD l = true
  · simp [hl, h, mem_lanesOf.mpr h]
  · simp [h, mt mem_lanesOf.mp h]

@[simp] theorem onLanes_lanes (m : Mask) (f : Nat → Word) : (onLanes m f).map (fun e => e.1) = lanesOf m := by
  simp [onLanes, Function.comp_def]

@[simp] theorem lanesMask_onLanes (m : Mask) (f : Nat → Word) : lanesMask (onLanes m f) = m := by
  rw [lanesMask, onLanes_lanes, maskList_lanesOf]

/-- Choosing among the lanes of a mask gives the lanes of another. -/
theorem lanesOf_filter {g m : Mask} {p : Nat → Bool} (h : ∀ q, m.getLsbD q = true ↔ g.getLsbD q = true ∧ p q = true) :
    (lanesOf g).filter p = lanesOf m := by
  simp only [lanesOf, List.filter_filter]
  refine List.filter_congr fun q _ => ?_
  rw [Bool.eq_iff_iff, Bool.and_eq_true, and_comm]
  exact (h q).symm

/-- The lowest lane of a mask comes first. -/
theorem head?_lanesOf {m : Mask} {l : Nat} (h : m.getLsbD l = true) (low : ∀ q < l, m.getLsbD q = false) :
    (lanesOf m).head? = some l := by
  rw [lanesOf, List.head?_filter, List.find?_range_eq_some]
  exact ⟨h, List.mem_range.mpr (BitVec.lt_of_getLsbD h), fun q hq => by simp [lane, low q hq]⟩

/-! ### Issue -/

/-- The registers an instruction names are allocated, or `z`. -/
theorem Needs.beyond_none {n : Needs} {g : Group} (h : ∀ r ∈ n.wr ++ n.rd, g.names r = true) : n.beyond g = none := by
  simp only [Needs.beyond, Needs.regs, List.find?_eq_none, List.mem_filter, decide_eq_true_eq, not_le, bne_iff_ne]
  rintro r ⟨hr, hz⟩
  simpa [Group.names, hz] using h r hr

section
variable {s : State} {i : Issue}

/-- The issuing split and the group's boundary do not depend on cores and dies. -/
theorem Poised.congr (h : Poised s i) {u : State} (hg : u.groups = s.groups) (hb : u.blocks = s.blocks) (hp : u.parity = s.parity)
    (hs : u.sched = s.sched) (ht : u.turn = s.turn) : Poised u i := by
  refine { h with issuer := ?_, parity := hp.trans h.parity, block := hb ▸ h.block }
  rw [← h.issuer, State.issuer, State.issuer, hs, ht]
  simp only [State.split?, hg]

/-- The split goes on after an instruction that changes its group. -/
theorem Poised.done_setGroup (h : Poised s i) {g : Group} (ha : Alike i g) {u : State} (hb : u.blocks = s.blocks)
    (hp : u.parity = s.parity) : (u.setGroup i.gid g).done i = u.goOn i g i.sp := by
  rw [h.done ha (u := u.setGroup i.gid g) hb hp (Sparse.get?_set_same _ _ _)]
  exact State.setGroup_setGroup u _ _ _

/-- A result of the issuing split that meets no other is sent, and the split goes on (R37, R167). -/
theorem Calm.vsendWith_done (h : Calm s i) (rs : List Nat) (m : Mask) (data : Sparse Word) (fl : BitVec 6) (sb : Option Nat)
    (checks : List Part) (pc : Word) :
    (s.vsendWith i.gid i.sid rs m data fl sb checks pc).done i = s.sendRun i rs m data fl sb checks pc := by
  have hg := (issuer_split h.issuer).1
  by_cases empty : rs = [] ∨ m = 0
  · simp only [State.vsendWith, State.sendRun, if_pos empty, State.modGroup_of_get? _ hg]
    exact h.done_setGroup (by exact ⟨rfl, rfl, rfl, rfl, rfl⟩) (by rfl) (by rfl)
  · have hn : s.newId.2.groups.get? i.gid = some i.g := hg
    simp only [State.vsendWith, State.sendRun, if_neg empty, State.modGroup_of_get? _ hn, h.outs, List.map_nil, List.foldl_nil,
      List.nil_append]
    exact h.done_setGroup (by exact ⟨rfl, rfl, rfl, rfl, rfl⟩) (by rfl) (by rfl)

/-- As `Calm.vsendWith_done` for lanes of one register, which a result for `z` does not have. -/
theorem Calm.vsend_done (h : Calm s i) (r : Nat) (m : Mask) (vals : List (Nat × Word)) (fl : BitVec 6) (sb : Option Nat) :
    (s.vsend i.gid i.sid (dests [r]) m ((dests [r]).flatMap (fun k => laneData k vals)) fl sb).done i =
      s.sendOn i r m vals fl sb := by
  rw [State.vsend, h.vsendWith_done, State.sendOn]
  by_cases hz : r = zReg
  · simp [dests, hz, State.sendRun]
  · simp [dests, hz, laneData]

end

end Sys2Proof.Machine

/-! ## Writes of the slices and drains of the write buffer (R46, R50, R56)

Where no storage holds a parity error, a drain changes cores and dies alone: the entry goes, its bytes reach the scratchpad, and the
`wmon` that they wake are answered. -/

namespace Sys2Proof.Machine

/-- `t` is `s` with cores and dies changed and nothing else. -/
def OnDie (s t : State) : Prop := ∃ cs ds, t = { s with cores := cs, dies := ds }

namespace OnDie
variable {s t u : State}

theorem refl (s : State) : OnDie s s := ⟨s.cores, s.dies, rfl⟩

theorem trans (h : OnDie s t) (h' : OnDie t u) : OnDie s u := by
  obtain ⟨_, _, rfl⟩ := h
  obtain ⟨_, _, rfl⟩ := h'
  exact ⟨_, _, rfl⟩

theorem parity (h : OnDie s t) : t.parity = s.parity := by obtain ⟨_, _, rfl⟩ := h; rfl
theorem groups (h : OnDie s t) : t.groups = s.groups := by obtain ⟨_, _, rfl⟩ := h; rfl
theorem main (h : OnDie s t) : t.main = s.main := by obtain ⟨_, _, rfl⟩ := h; rfl

theorem modCore (s : State) (k : Nat) (f : Core → Core) : OnDie s (s.modCore k f) := ⟨_, s.dies, rfl⟩

/-- A fold of such changes is one; each may assume that no storage holds a parity error. -/
theorem foldl {α : Type} {f : State → α → State} {l : List α} (hf : ∀ v a, v.parity = [] → OnDie v (f v a))
    (hp : s.parity = []) : OnDie s (l.foldl f s) := by
  induction l generalizing s with
  | nil => exact refl s
  | cons a l ih =>
    have first := hf s a hp
    exact first.trans (ih (first.parity.trans hp))

/-- The issuing split stays as it is. -/
theorem calm {i : Issue} (h : OnDie s t) (hc : Calm s i) : Calm t i := by
  obtain ⟨_, _, rfl⟩ := h
  exact ⟨hc.congr rfl rfl rfl rfl rfl, hc.outs, hc.ops⟩

end OnDie

/-- `t` is `s` with replies and monitors changed: cores keep their write buffers, dies their bytes. -/
structure Woken (s t : State) : Prop where
  onDie : OnDie s t
  wbuf : ∀ c, (t.core c).wbuf = (s.core c).wbuf
  scratch : ∀ d, (t.die d).scratch = (s.die d).scratch

namespace Woken
variable {s t u : State}

theorem refl (s : State) : Woken s s := ⟨.refl s, fun _ => rfl, fun _ => rfl⟩

theorem trans (h : Woken s t) (h' : Woken t u) : Woken s u :=
  ⟨h.onDie.trans h'.onDie, fun c => (h'.wbuf c).trans (h.wbuf c), fun d => (h'.scratch d).trans (h.scratch d)⟩

theorem modCore {k : Nat} {f : Core → Core} (hf : ∀ c, (f c).wbuf = c.wbuf) : Woken s (s.modCore k f) := by
  refine ⟨.modCore s k f, fun c => ?_, fun _ => rfl⟩
  by_cases h : c = k
  · subst h; simp [State.modCore, hf]
  · simp [State.modCore, State.core_setCore_ne _ _ h]

theorem modSlice {d k : Nat} {f : Slice → Slice} : Woken s (s.modSlice d k f) := by
  refine ⟨⟨s.cores, _, rfl⟩, fun _ => rfl, fun e => ?_⟩
  by_cases h : e = d
  · subst h; simp [State.modSlice, State.setSlice, State.modDie]
  · simp [State.modSlice, State.setSlice, State.modDie, State.die_setDie_ne _ _ h]

theorem replyTo {gid : Nat} {r : Reply} : Woken s (s.replyTo gid r) := by
  unfold State.replyTo
  split
  · exact refl s
  · exact modCore fun _ => rfl

theorem foldl {α : Type} {f : State → α → State} {l : List α} (hf : ∀ v a, v.parity = [] → Woken v (f v a))
    (hp : s.parity = []) : Woken s (l.foldl f s) := by
  induction l generalizing s with
  | nil => exact refl s
  | cons a l ih =>
    have first := hf s a hp
    exact first.trans (ih (first.onDie.parity.trans hp))

end Woken

section
variable {s : State}

theorem parityClear_nil (h : s.parity = []) (kind core holder unit lo n : Nat) : s.parityClear kind core holder unit lo n = s := by
  unfold State.parityClear
  rw [h, List.filter_nil, ← h]

theorem parityHit_nil (h : s.parity = []) (kind core holder unit lo n : Nat) : s.parityHit kind core holder unit lo n = none := by
  simp [State.parityHit, h, minBy]

/-- Bytes written to the slices reach the scratchpad; beside that only armed words are woken (R50). -/
theorem slicePut_woken (h : s.parity = []) (d lin : Nat) (bs : List Byte) :
    Woken (s.modDie d (fun x => { x with scratch := x.scratch.writeBytes lin bs })) (s.slicePut d lin bs) := by
  refine Woken.foldl (fun u k hu => ?_) h
  simp only [parityClear_nil hu]
  split
  · exact .refl u
  · exact Woken.modSlice.trans (.foldl (fun _ _ _ => .replyTo) hu)

theorem slicePut_onDie (h : s.parity = []) (d lin : Nat) (bs : List Byte) : OnDie s (s.slicePut d lin bs) :=
  OnDie.trans ⟨s.cores, _, rfl⟩ (slicePut_woken h d lin bs).onDie

theorem slicePut_wbuf (h : s.parity = []) (d lin : Nat) (bs : List Byte) (c : Nat) :
    ((s.slicePut d lin bs).core c).wbuf = (s.core c).wbuf := (slicePut_woken h d lin bs).wbuf c

theorem slicePut_scratch (h : s.parity = []) (d lin : Nat) (bs : List Byte) :
    ((s.slicePut d lin bs).die d).scratch = (s.die d).scratch.writeBytes lin bs := by
  rw [(slicePut_woken h d lin bs).scratch d, State.modDie, State.die_setDie_same]

/-- The bytes of a drained entry, one after the other. -/
def State.slicePuts (s : State) (d : Nat) (cells : List (Nat × Byte)) : State :=
  cells.foldl (fun u b => u.slicePut d b.1 [b.2]) s

theorem slicePuts_onDie (h : s.parity = []) (d : Nat) (cells : List (Nat × Byte)) : OnDie s (s.slicePuts d cells) :=
  OnDie.foldl (fun _ b hv => slicePut_onDie hv d b.1 [b.2]) h

theorem slicePuts_wbuf (h : s.parity = []) (d : Nat) (cells : List (Nat × Byte)) (c : Nat) :
    ((s.slicePuts d cells).core c).wbuf = (s.core c).wbuf := by
  induction cells generalizing s with
  | nil => rfl
  | cons b cells ih =>
    exact (ih ((slicePut_onDie h d b.1 [b.2]).parity.trans h)).trans (slicePut_wbuf h d b.1 [b.2] c)

/-- Each byte is written in its place. -/
theorem slicePuts_scratch (h : s.parity = []) (d : Nat) (cells : List (Nat × Byte)) :
    ((s.slicePuts d cells).die d).scratch = cells.foldl (fun m b => m.write b.1 b.2) (s.die d).scratch := by
  induction cells generalizing s with
  | nil => rfl
  | cons b cells ih =>
    refine (ih ((slicePut_onDie h d b.1 [b.2]).parity.trans h)).trans ?_
    rw [slicePut_scratch h]
    rfl

theorem dropAt_eq_eraseIdx {α : Type} (k : Nat) (l : List α) : dropAt k l = l.eraseIdx k := by
  induction l generalizing k with
  | nil => cases k <;> rfl
  | cons a l ih =>
    cases k with
    | zero => rfl
    | succ k => simp [dropAt, ih]

/-- A drain takes the entry from the buffer and writes its bytes (R46). -/
theorem wbDrain_eq (h : s.parity = []) {c k : Nat} {e : WbEntry} (he : (s.core c).wbuf[k]? = some e) :
    s.wbDrain c k =
      (s.modCore c (fun x => { x with wbuf := x.wbuf.eraseIdx k })).slicePuts (dieOf c) e.cells := by
  simp only [State.wbDrain, he, parityHit_nil h, dropAt_eq_eraseIdx]
  rfl

theorem wbDrain_onDie (h : s.parity = []) (c k : Nat) : OnDie s (s.wbDrain c k) := by
  cases he : (s.core c).wbuf[k]? with
  | none => simp only [State.wbDrain, he]; exact .refl s
  | some e =>
    rw [wbDrain_eq h he]
    exact (OnDie.modCore s c _).trans (slicePuts_onDie (by exact h) _ _)

theorem wbDrainAll_onDie (h : s.parity = []) (c : Nat) : OnDie s (s.wbDrainAll c) :=
  OnDie.foldl (fun _ _ hv => wbDrain_onDie hv c 0) h

theorem promote_onDie (h : s.parity = []) (die scope : Nat) : OnDie s (s.promote die scope) := by
  refine OnDie.foldl (fun v k hv => ?_) h
  split
  · exact .refl v
  · exact wbDrainAll_onDie hv k

/-- What an order does before its access drains write buffers (R113, R117). -/
theorem ordered_onDie (h : s.parity = []) (i : Issue) (order scope : Nat) (rmt : Bool) : OnDie s (s.ordered i order scope rmt) := by
  have own : OnDie s (if 2 ≤ order ∧ 2 ≤ scope then s.wbDrainAll i.g.core else s) := by
    split
    · exact wbDrainAll_onDie h _
    · exact .refl s
  unfold State.ordered
  generalize (if 2 ≤ order ∧ 2 ≤ scope then s.wbDrainAll i.g.core else s) = t at own ⊢
  dsimp only
  split
  · exact own.trans (promote_onDie (own.parity.trans h) _ _)
  · exact own

end

end Sys2Proof.Machine

/-! ## Loads, illegal offsets and spills (O20, O22, O24) -/

namespace Sys2Proof.Machine

section
variable {s : State} {i : Issue}

/-! ### Offsets and their checks (R11, R12) -/

/-- An access with its guarded lanes and their offsets. -/
theorem Calm.laneOffsets (h : Calm s i) (o : MF) :
    Machine.laneOffsets s i o = (lanesOf (i.guard o.p o.pn)).map (fun l => (l, offsetOf i o l)) := by
  simp only [Machine.laneOffsets, h.vread]
  rfl

/-- Inside its space and in no span, an access fails for its alignment alone. -/
theorem check_eq_align {g : Group} {sp : Space} {n : Nat} {a : Int} (low : 0 ≤ a) (high : a + n ≤ s.extent g sp)
    (span : sp = .spd → s.inSpan g.ctx (dieOf g.core) (s.spBase g.ctx (dieOf g.core) + a.toNat) n = false) :
    s.check g sp a n = if a % n ≠ 0 then some .align else none := by
  have inside : ¬ (a < 0 ∨ (s.extent g sp : Int) < a + n) := by omega
  have free : ¬ (sp = .spd ∧ s.inSpan g.ctx (dieOf g.core) (s.spBase g.ctx (dieOf g.core) + a.toNat) n = true) := by
    rintro ⟨hs, hit⟩
    rw [span hs] at hit
    cases hit
  have whole : a.toNat % n = 0 ↔ a % n = 0 := by
    have : ((a.toNat % n : Nat) : Int) = a % n := by rw [Int.natCast_emod, Int.toNat_of_nonneg low]
    rw [← this]
    exact_mod_cast Iff.rfl
  simp only [State.check, if_neg inside, if_neg free, ne_eq, whole]

/-- A legal access passes its checks. -/
theorem check_eq_none {g : Group} {sp : Space} {n : Nat} {a : Int} (h : fits s g sp n a) : s.check g sp a n = none := by
  obtain ⟨low, high, aligned, span⟩ := h
  rw [check_eq_align low high span, aligned]
  rfl

/-- The first failing check of an access, by the lanes of its mask. -/
theorem laneFail_lanes (g : Group) (sp : Space) (n : Nat) (m : Mask) (off : Nat → Int) :
    s.laneFail g sp n ((lanesOf m).map (fun l => (l, off l))) = [Fail.bounds, .span, .align].findSome? (fun f =>
      (((lanesOf m).filter (fun l => s.check g sp (off l) n == some f)).head?).map (fun l =>
        (f, maskList ((lanesOf m).filter (fun l => s.check g sp (off l) n == some f)), BitVec.ofInt 64 (off l)))) := by
  simp [State.laneFail, List.filter_map, Function.comp_def]

/-- No lane fails where every access fits. -/
theorem laneFail_none {g : Group} {sp : Space} {n : Nat} {m : Mask} {off : Nat → Int}
    (h : ∀ l, m.getLsbD l = true → fits s g sp n (off l)) :
    s.laneFail g sp n ((lanesOf m).map (fun l => (l, off l))) = none := by
  have passing : ∀ f : Fail, (lanesOf m).filter (fun l => s.check g sp (off l) n == some f) = [] := by
    intro f
    rw [List.filter_eq_nil_iff]
    intro l hl
    simp [check_eq_none (h l (mem_lanesOf.mp hl))]
  simp [laneFail_lanes, passing]

/-- The lanes outside the space are reported, with the offset of the lowest. -/
theorem laneFail_bounds {g : Group} {sp : Space} {n : Nat} {m bad : Mask} {off : Nat → Int} {l : Nat}
    (lanes : ∀ q, bad.getLsbD q = true ↔ m.getLsbD q = true ∧ s.check g sp (off q) n = some .bounds)
    (hl : bad.getLsbD l = true) (low : ∀ q < l, bad.getLsbD q = false) :
    s.laneFail g sp n ((lanesOf m).map (fun l => (l, off l))) = some (.bounds, bad, BitVec.ofInt 64 (off l)) := by
  have failing : (lanesOf m).filter (fun l => s.check g sp (off l) n == some .bounds) = lanesOf bad :=
    lanesOf_filter fun q => (lanes q).trans (by rw [beq_iff_eq])
  rw [laneFail_lanes, List.findSome?_cons]
  simp only [failing, head?_lanesOf hl low, Option.map_some, maskList_lanesOf]

/-- The misaligned lanes are reported where every lane lies inside the space and in no span. -/
theorem laneFail_align {g : Group} {sp : Space} {n : Nat} {m bad : Mask} {off : Nat → Int} {l : Nat}
    (inside : ∀ q, m.getLsbD q = true → s.check g sp (off q) n ≠ some .bounds ∧ s.check g sp (off q) n ≠ some .span)
    (lanes : ∀ q, bad.getLsbD q = true ↔ m.getLsbD q = true ∧ s.check g sp (off q) n = some .align)
    (hl : bad.getLsbD l = true) (low : ∀ q < l, bad.getLsbD q = false) :
    s.laneFail g sp n ((lanesOf m).map (fun l => (l, off l))) = some (.align, bad, BitVec.ofInt 64 (off l)) := by
  have failing : (lanesOf m).filter (fun l => s.check g sp (off l) n == some .align) = lanesOf bad :=
    lanesOf_filter fun q => (lanes q).trans (by rw [beq_iff_eq])
  have noBounds : (lanesOf m).filter (fun l => s.check g sp (off l) n == some .bounds) = [] :=
    List.filter_eq_nil_iff.mpr fun q hq => by simpa using (inside q (mem_lanesOf.mp hq)).1
  have noSpan : (lanesOf m).filter (fun l => s.check g sp (off l) n == some .span) = [] :=
    List.filter_eq_nil_iff.mpr fun q hq => by simpa using (inside q (mem_lanesOf.mp hq)).2
  rw [laneFail_lanes, List.findSome?_cons, List.findSome?_cons, List.findSome?_cons]
  simp only [failing, noBounds, noSpan, List.head?_nil, Option.map_none, head?_lanesOf hl low, Option.map_some, maskList_lanesOf]

theorem check_eq_bounds {g : Group} {sp : Space} {n : Nat} {a : Int} :
    s.check g sp a n = some .bounds ↔ a < 0 ∨ (s.extent g sp : Int) < a + n := by
  unfold State.check
  split
  · next h => simp [h]
  · next h =>
    simp only [h, iff_false]
    split
    · simp
    · split
      · simp
      · simp

/-! ### Loads (R266, R267, R269) -/

/-- The loads of the all-lanes check. -/
theorem exec_load {x : Instr} {sp : Space} {o : MF} (hx : loadRule x = some (sp, o)) (hg : ∀ o', x ≠ .vgth o') :
    exec x s = onIssue s (issue (loadNeeds o) (loadEffect sp o)) := by
  unfold loadRule at hx
  split at hx
  · cases hx; rfl
  · cases hx; rfl
  · cases hx; rfl
  · exact absurd rfl (hg _)
  · cases hx

/-- A load whose registers are allocated and whose scoreboard slot has room takes effect. -/
theorem Calm.load_issue (h : Calm s i) {o : MF} (eff : State → Issue → State) (hd : i.g.names o.vd = true)
    (ha : i.g.names o.va = true) (room : i.g.room o.sb) :
    onIssue s (Machine.issue (loadNeeds o) eff) = .next (eff s i) := by
  rw [onIssue_of _ h.issuer, h.issue (loadNeeds o) eff (Needs.beyond_none ?_) room (fun hr => by cases hr)]
  intro r hr
  simp only [loadNeeds, List.cons_append, List.nil_append, List.mem_cons, List.not_mem_nil, or_false] at hr
  rcases hr with rfl | rfl
  · exact hd
  · exact ha

/-- No atomic of the group is on its way to a service group, so no access waits behind one. -/
theorem lanesBehind_false (h : s.unperformed i.gid = false) (sp : Space) (n : Nat) (ls : List (Nat × Int)) :
    s.lanesBehind i sp n ls = false := by
  simp only [State.unperformed, Bool.or_eq_false_iff, Bool.not_eq_false', List.isEmpty_iff] at h
  obtain ⟨⟨served, -⟩, -⟩ := h
  simp [State.lanesBehind, State.behindAtomic, served]

theorem laneParity_nil (h : s.parity = []) (g : Group) (sp : Space) (n : Nat) (ls : List (Nat × Int)) :
    s.laneParity g sp n ls = none := by simp [State.laneParity, h]

/-- The values that a load sends, by the lanes of its mask. -/
theorem loadValues_lanes (g : Group) (sp : Space) (n : Nat) (m : Mask) (off : Nat → Int) :
    s.loadValues g sp n ((lanesOf m).map (fun l => (l, off l))) =
      onLanes m (fun l => BitVec.ofNat 64 (leNat (s.spaceRead g sp (off l).toNat n))) := by
  simp only [State.loadValues, List.map_map]
  rfl

/-- Loaded values are sent to the lanes of the mask. -/
theorem Calm.vsend_onLanes (h : Calm s i) (r : Nat) (m : Mask) (f : Nat → Word) (sb : Option Nat) :
    (s.vsend i.gid i.sid (dests [r]) (lanesMask (onLanes m f)) ((dests [r]).flatMap (fun k => laneData k (onLanes m f))) 0 sb).done i =
      s.sendOn i r m (onLanes m f) 0 sb := by
  rw [lanesMask_onLanes, h.vsend_done]

/-- The effect of a load whose lanes are all legal. -/
theorem Calm.loadEffect_legal (h : Calm s i) {sp : Space} {o : MF} (performed : s.unperformed i.gid = false)
    (legal : ∀ l, (i.guard o.p o.pn).getLsbD l = true → fits s i.g sp (2 ^ o.isc) (offsetOf i o l)) :
    let u := s.ordered i o.order o.scope (o.mx % 2 == 1)
    loadEffect sp o s i = u.sendOn i o.vd (i.guard o.p o.pn) (onLanes (i.guard o.p o.pn) (fun l =>
      BitVec.ofNat 64 (leNat (u.spaceRead i.g sp (offsetOf i o l).toNat (2 ^ o.isc))))) 0 o.sb := by
  have drained := (ordered_onDie h.parity i o.order o.scope (o.mx % 2 == 1)).calm h
  simp only [loadEffect, h.laneOffsets, laneFail_none legal, laneParity_nil h.parity, lanesBehind_false performed,
    Bool.false_eq_true, if_false, loadValues_lanes]
  exact drained.vsend_onLanes _ _ _ _

/-- The effect of a gather whose lanes are all legal: a gather has no order. -/
theorem Calm.vgthEffect_legal (h : Calm s i) {o : MF} (performed : s.unperformed i.gid = false)
    (legal : ∀ l, (i.guard o.p o.pn).getLsbD l = true → fits s i.g (gsSpace o) (2 ^ o.isc) (offsetOf i o l)) :
    vgthEffect o s i = s.sendOn i o.vd (i.guard o.p o.pn) (onLanes (i.guard o.p o.pn) (fun l =>
      BitVec.ofNat 64 (leNat (s.spaceRead i.g (gsSpace o) (offsetOf i o l).toNat (2 ^ o.isc))))) 0 o.sb := by
  have pass : ∀ l ∈ lanesOf (i.guard o.p o.pn), s.check i.g (gsSpace o) (offsetOf i o l) (2 ^ o.isc) = none :=
    fun l hl => check_eq_none (legal l (mem_lanesOf.mp hl))
  have good : ∀ ls, ls = (lanesOf (i.guard o.p o.pn)).map (fun l => (l, offsetOf i o l)) →
      s.laneSplit i.g (gsSpace o) (2 ^ o.isc) ls = (ls, []) := by
    rintro _ rfl
    simp only [State.laneSplit, Prod.mk.injEq, List.filter_eq_self, List.filterMap_eq_nil_iff, List.forall_mem_map]
    exact ⟨fun l hl => by simp [pass l hl], fun l hl => by simp [pass l hl]⟩
  simp only [vgthEffect, h.laneOffsets, good _ rfl, laneParity_nil h.parity, lanesBehind_false performed,
    Bool.false_eq_true, if_false, loadValues_lanes]
  exact h.vsend_onLanes _ _ _ _

theorem ordered_relaxed (i : Issue) {order : Nat} (scope : Nat) (h : order < 2) : s.ordered i order scope false = s := by
  simp [State.ordered, show ¬ 2 ≤ order by omega]

end

/-- Settles O20: what an order drains leaves the issuing split as it is, and every load ends in one send. -/
theorem loadsReturnTheBytesAtTheirOffsets : Obligations.LoadsReturnTheBytesAtTheirOffsets := by
  unfold Obligations.LoadsReturnTheBytesAtTheirOffsets
  rintro s _ i x sp o steady hx wf hd ha room performed rfl legal
  have h := (steady_iff.mp steady).toCalm
  by_cases gather : ∃ o', x = .vgth o'
  · obtain ⟨o', rfl⟩ := gather
    obtain ⟨rfl, rfl⟩ : gsSpace o' = sp ∧ o' = o := by simpa [loadRule, gsSpace] using hx
    obtain ⟨order, near⟩ : o'.order = 0 ∧ o'.mx % 2 = 0 := by
      simp only [Instr.wf, Checks.zeroOk, Bool.and_eq_true, decide_eq_true_eq] at wf
      tauto
    have relaxed : s.ordered i o'.order o'.scope (o'.mx % 2 == 1) = s := by
      rw [near]
      exact ordered_relaxed i _ (by omega)
    rw [exec_vgth, execVgth, h.load_issue _ hd ha room, h.vgthEffect_legal performed legal, relaxed]
  · rw [exec_load hx (fun o' hg => gather ⟨o', hg⟩), h.load_issue _ hd ha room, h.loadEffect_legal performed legal]

/-! ### Illegal offsets (R12, R266, R269) -/

section
variable {s : State} {i : Issue}

/-- The stores of the all-lanes check. -/
theorem exec_store {x : Instr} {sp : Space} {o : MF} (hx : storeRule x = some (sp, o)) (hs : ∀ o', x ≠ .vsct o') :
    exec x s = onIssue s (issue (storeNeeds o) (storeEffect sp o)) := by
  unfold storeRule at hx
  split at hx
  · cases hx; rfl
  · cases hx; rfl
  · exact absurd rfl (hs _)
  · cases hx

/-- A store whose registers are allocated takes effect. -/
theorem Calm.store_issue (h : Calm s i) {o : MF} (eff : State → Issue → State) (hd : i.g.names o.vd = true)
    (ha : i.g.names o.va = true) : onIssue s (Machine.issue (storeNeeds o) eff) = .next (eff s i) := by
  rw [onIssue_of _ h.issuer, h.issue (storeNeeds o) eff (Needs.beyond_none ?_) (fun k hk => by cases hk) (fun hr => by cases hr)]
  intro r hr
  simp only [storeNeeds, List.nil_append, List.mem_cons, List.not_mem_nil, or_false] at hr
  rcases hr with rfl | rfl
  · exact hd
  · exact ha

/-- Lanes that fail the check trap before anything happens. -/
theorem loadEffect_fail {sp : Space} {o : MF} {f : Fail} {m : Mask} {w : Word}
    (hf : s.laneFail i.g sp (2 ^ o.isc) (laneOffsets s i o) = some (f, m, w)) :
    loadEffect sp o s i = s.trapLanes i f.cause m w := by simp only [loadEffect, hf]

theorem storeEffect_fail {sp : Space} {o : MF} {f : Fail} {m : Mask} {w : Word}
    (hf : s.laneFail i.g sp (2 ^ o.isc) (laneOffsets s i o) = some (f, m, w)) :
    storeEffect sp o s i = s.trapLanes i f.cause m w := by simp only [storeEffect, hf]

end

/-- Settles O22: the first failing check is that of the bounds, or of the alignment, and its lanes and lowest offset are trapped. -/
theorem illegalOffsetsTrapBeforeAnyEffect : Obligations.IllegalOffsetsTrapBeforeAnyEffect := by
  unfold Obligations.IllegalOffsetsTrapBeforeAnyEffect
  intro s i x sp o bad m l c steady hx _ plain traps hd ha room cause lanes hl low
  have h := steady_iff.mp steady
  obtain ⟨vector, outside⟩ : (s.ctxReg i.g.ctx 0x161).getLsbD 63 = true ∧ i.sp.trap.hnd = false := by
    simpa [Machine.traps] using traps
  have cast : ((2 ^ o.isc : Nat) : Int) = 2 ^ o.isc := by push_cast; rfl
  obtain ⟨f, hc, fails⟩ : ∃ f : Fail, f.cause = c ∧
      s.laneFail i.g sp (2 ^ o.isc) (laneOffsets s i o) = some (f, m, BitVec.ofInt 64 (offsetOf i o l)) := by
    rw [h.laneOffsets]
    rcases cause with ⟨rfl, rfl⟩ | ⟨rfl, rfl, legal⟩
    · refine ⟨.bounds, rfl, laneFail_bounds (fun q => (lanes q).trans (and_congr_right fun _ => ?_)) hl low⟩
      rw [check_eq_bounds, cast]
    · have aligned : ∀ q, (i.guard o.p o.pn).getLsbD q = true → s.check i.g sp (offsetOf i o q) (2 ^ o.isc) =
          if offsetOf i o q % 2 ^ o.isc ≠ 0 then some .align else none := by
        intro q hq
        obtain ⟨start, stop, span⟩ := legal q hq
        rw [check_eq_align start (by rw [cast]; exact stop) span, cast]
      refine ⟨.align, rfl, laneFail_align (fun q hq => ?_) (fun q => (lanes q).trans (and_congr_right fun hq => ?_)) hl low⟩
      · rw [aligned q hq]
        split
        · exact ⟨by simp, by simp⟩
        · exact ⟨by simp, by simp⟩
      · rw [aligned q hq]
        simp
  have enters : s.trapLanes i f.cause m (BitVec.ofInt 64 (offsetOf i o l)) = s.entered i c m (BitVec.ofInt 64 (offsetOf i o l)) := by
    rw [h.trapLanes _ _ _ (by cases f <;> decide) vector outside, hc]
  rcases hx with hx | hx
  · rw [exec_load hx (fun o' => (plain o').1), h.load_issue _ hd ha (room hx), loadEffect_fail fails, enters]
  · rw [exec_store hx (fun o' => (plain o').2), h.store_issue _ hd ha, storeEffect_fail fails, enters]

/-! ### The spill stack (R14, R268) -/

/-- Lane values written to register key `r`, read back lane by lane. -/
theorem getD_setLanes {α : Type} (m : Sparse α) (r k j : Nat) (f : Nat → α) (d : α) (ls : List Nat) (hls : ∀ l ∈ ls, l < 32)
    (hj : j < 32) : (ls.foldl (fun a l => Sparse.set a (vkey r l) (f l)) m).getD (vkey k j) d =
      if k = r ∧ j ∈ ls then f j else m.getD (vkey k j) d := by
  induction ls generalizing m with
  | nil => simp
  | cons l ls ih =>
    have hl := hls l List.mem_cons_self
    rw [List.foldl_cons, ih _ (fun x hx => hls x (List.mem_cons_of_mem _ hx))]
    by_cases later : k = r ∧ j ∈ ls
    · simp [later]
    · rw [if_neg later]
      by_cases same : k = r ∧ j = l
      · obtain ⟨rfl, rfl⟩ := same
        simp
      · have key : vkey k j ≠ vkey r l := by
          intro e
          simp only [vkey] at e
          exact same ⟨by omega, by omega⟩
        rw [Sparse.getD_set_ne _ _ _ key, if_neg (by simp only [List.mem_cons]; tauto)]

/-- Settles O24: the lanes of the register are written to the slot and read back from it, whatever the lane mask. -/
theorem spillSlotsHoldWholeRegisters : Obligations.SpillSlotsHoldWholeRegisters := by
  unfold Obligations.SpillSlotsHoldWholeRegisters
  intro s i o steady hd
  have h := steady_iff.mp steady
  have spill : exec (.vspill o) s = .next (vspillEffect o s i) := by
    rw [exec_vspill, execVspill, onIssue_of _ h.issuer, h.issue _ _ (Needs.beyond_none (by simpa using hd)) (fun k hk => by cases hk)
      (fun hr => by cases hr)]
  have fill : i.g.room o.sb → exec (.vfill o) s = .next (vfillEffect o s i) := fun room => by
    rw [exec_vfill, execVfill, onIssue_of _ h.issuer,
      h.issue (fun _ => { wr := [o.vd], sb := o.sb }) (vfillEffect o) (Needs.beyond_none (by simpa using hd)) room
        (fun hr => by cases hr)]
  refine ⟨fun held => ?spilled, fun held room => ?filled, fun lacks traps => ?lacking⟩
  case spilled =>
    refine ⟨(List.range 32).foldl (fun m l => Sparse.set m (vkey o.va l) (i.g.v? o.vd l)) i.g.spill, ?_, fun k l hl => ?_⟩
    · rw [spill]
      simp only [vspillEffect, if_neg (not_le.mpr held), h.vread, State.spillClear, State.setGroup_parity, h.parity, List.isEmpty_nil,
        if_true]
      rw [h.done_setGroup (by exact ⟨rfl, rfl, rfl, rfl, rfl⟩) (by rfl) (by rfl)]
    · simp only [Group.spillGet, getD_setLanes _ _ _ _ _ _ _ (fun x hx => List.mem_range.mp hx) hl, List.mem_range, hl, and_true]
  case filled =>
    rw [fill room]
    simp only [vfillEffect, if_neg (not_le.mpr held), State.spillHit, h.parity, List.isEmpty_nil, if_true]
    rw [← h.vsend_done]
    simp only [laneData, List.map_map]
    rfl
  case lacking =>
    obtain ⟨vector, outside⟩ : (s.ctxReg i.g.ctx 0x161).getLsbD 63 = true ∧ i.sp.trap.hnd = false := by
      simpa [Machine.traps] using traps
    have enters := h.trapAt 4 (w64 o.va) (by decide) vector outside
    refine ⟨fun room => ?_, ?_⟩
    · rw [fill room, vfillEffect, if_pos lacks, enters]; rfl
    · rw [spill, vspillEffect, if_pos lacks, enters]; rfl

end Sys2Proof.Machine

/-! ## Schedulers, results, replies and drains (O49) -/

namespace Sys2Proof.Machine

/-- What a sparse array reads is listed. -/
theorem mem_of_get? {α : Type} {m : Sparse α} {k : Nat} {v : α} (h : m.get? k = some v) : (k, v) ∈ m := by
  induction m with
  | nil => cases h
  | cons a t ih =>
    obtain ⟨j, w⟩ := a
    by_cases hj : j = k
    · subst hj
      simp only [Sparse.get?, if_true, Option.some.injEq] at h
      subst h
      exact List.mem_cons_self
    · simp only [Sparse.get?, if_neg hj] at h
      exact List.mem_cons_of_mem _ (ih h)

section
variable {s : State} {gid sid : Nat} {g : Group} {sp : Split}

theorem split?_eq_some : s.split? gid sid = some (g, sp) ↔ s.groups.get? gid = some g ∧ g.splits.get? sid = some sp := by
  unfold State.split?
  split
  · next hg => simp [hg]
  · next h hg =>
    rw [hg, Option.map_eq_some_iff]
    constructor
    · rintro ⟨_, hs, e⟩
      cases e
      exact ⟨rfl, hs⟩
    · rintro ⟨e, hs⟩
      cases e
      exact ⟨_, hs, rfl⟩

theorem modSplit_eq (h : s.split? gid sid = some (g, sp)) (f : Split → Split) :
    s.modSplit gid sid f = s.withSplit gid sid g (f sp) := by
  obtain ⟨hg, hs⟩ := split?_eq_some.mp h
  simp only [State.modSplit, State.modGroup_of_get? _ hg, hs, State.withSplit]

/-! ### Groups at rest -/

/-- Of each split of a group at rest nothing is due. -/
theorem atRest_split (rest : atRest s g) (hs : g.splits.get? sid = some sp) : sp.haltReq = false ∧ sp.watchdog = none ∧
    sp.pendTrap = none ∧ sp.restartPend = false ∧ sp.parked = false ∧ sp.stepping = false := by
  obtain ⟨-, -, -, -, splits, -⟩ := rest
  exact splits _ (mem_of_get? hs)

/-- A group at rest, its splits changed so that no halt or watchdog is due, has nothing to settle. -/
theorem settle_atRest (rest : atRest s g) {h : Group} {u : State} (hr : h.recs = g.recs) (hd : h.deferred = g.deferred)
    (hst : h.status = g.status) (hb : h.bid = g.bid) (hsp : ∀ e ∈ h.splits, e.2.haltReq = false ∧ e.2.watchdog = none)
    (ub : u.blocks = s.blocks) (up : u.parity = s.parity) : (u.setGroup gid h).settle gid = u.setGroup gid h := by
  obtain ⟨recs, deferred, status, parity, -, block⟩ := rest
  refine settle_setGroup u gid h (hr.trans recs) (hd.trans deferred) ?_ hsp (fun b hb' => block b ?_) (up.trans parity)
  · rw [hst, status]; decide
  · rw [← hb, ← ub]; exact hb'

/-- One split of a group at rest is replaced. -/
theorem settle_withSplit (rest : atRest s g) {x : Split} (hh : x.haltReq = false) (hw : x.watchdog = none) {u : State}
    (ub : u.blocks = s.blocks) (up : u.parity = s.parity) : (u.withSplit gid sid g x).settle gid = u.withSplit gid sid g x := by
  refine settle_atRest rest rfl rfl rfl rfl (fun e he => ?_) ub up
  obtain ⟨-, -, -, -, splits, -⟩ := rest
  rcases Sparse.mem_set he with rfl | he
  · exact ⟨hh, hw⟩
  · obtain ⟨halt, dog, -⟩ := splits e he
    exact ⟨halt, dog⟩

/-- A logged poison of main memory changes package registers alone (R58). -/
theorem poisonLog_pkg (s : State) (c : Nat) (x : Word) : ∃ pkg, s.poisonLog c x = { s with pkg := pkg } := ⟨_, rfl⟩

/-- A trap of a split without results enters the handler at once, one of cause 0x07 too where its block keeps no checkpoint
(R343, R361). -/
theorem takeTrap_atRest (split : s.split? gid sid = some (g, sp)) (rest : atRest s g) (outs : g.outs = []) (wait : sp.wait = .none)
    (vector : traps s ⟨gid, sid, g, sp⟩ = true) (cause : Nat) (m : Mask) (x : Word) :
    s.takeTrap gid sid ⟨cause, sp.pc, m, x⟩ = s.entered ⟨gid, sid, g, sp⟩ cause m x := by
  obtain ⟨hg, hs⟩ := split?_eq_some.mp split
  obtain ⟨halt, -, pend, restart, -, step⟩ := atRest_split rest hs
  obtain ⟨-, -, -, -, -, block⟩ := rest
  obtain ⟨enabled, outside⟩ : (s.ctxReg g.ctx 0x161).getLsbD 63 = true ∧ sp.trap.hnd = false := by
    simpa [Machine.traps] using vector
  have flush : s.flush gid sid = s := by simp [State.flush, hg, hs, outs]
  have enters : s.withSplit gid sid g
      (Split.enter { sp.record g sid ⟨cause, sp.pc, m, x⟩ with pendTrap := none } (s.ctxReg g.ctx 0x161)) =
      s.entered ⟨gid, sid, g, sp⟩ cause m x := by
    simp only [Split.record, Split.enter, Split.jump, Split.save, Split.get, State.entered, State.withSplit, wait]
  have now : s.enterTrap gid sid ⟨cause, sp.pc, m, x⟩ = s.entered ⟨gid, sid, g, sp⟩ cause m x := by
    have hnd : (sp.record g sid ⟨cause, sp.pc, m, x⟩).trap.hnd = false := outside
    simp only [State.enterTrap, split, hnd, enabled, Bool.false_eq_true, if_false, if_true, ← enters, State.withSplit]
    split
    · next b hb => simp only [(block b hb).2, ite_self]
    · rfl
  unfold State.takeTrap
  simp only [flush, split, restart, pend, State.trapNow, halt, step, Group.outstanding, hs, outs, List.any_nil, Option.getD_none,
    Bool.or_self, Bool.false_eq_true, if_false, now]

theorem trapAt_atRest (split : s.split? gid sid = some (g, sp)) (rest : atRest s g) (outs : g.outs = []) (wait : sp.wait = .none)
    (vector : traps s ⟨gid, sid, g, sp⟩ = true) (cause : Nat) (x : Word) :
    s.trapAt ⟨gid, sid, g, sp⟩ cause x =
      (if isPoisonX cause x then s.poisonLog g.core x else s).entered ⟨gid, sid, g, sp⟩ cause sp.mask x := by
  obtain ⟨pkg, logged⟩ : ∃ pkg, (if isPoisonX cause x then s.poisonLog g.core x else s) = { s with pkg := pkg } := by
    split
    · exact poisonLog_pkg s g.core x
    · exact ⟨s.pkg, rfl⟩
  obtain ⟨-, hs⟩ := split?_eq_some.mp split
  obtain ⟨halt, dog, -⟩ := atRest_split rest hs
  have taken := takeTrap_atRest (s := { s with pkg := pkg }) (by exact split) (by exact rest) outs wait (by exact vector)
    cause sp.mask x
  unfold State.trapAt
  dsimp only
  rw [logged, taken]
  exact settle_withSplit rest (by exact halt) (by exact dog) rfl rfl

/-! ### The pick (R165) -/

theorem minBy_le {α : Type} {key : α → Nat} {l : List α} {a : α} (h : minBy key l = some a) : ∀ b ∈ l, key a ≤ key b := by
  induction l generalizing a with
  | nil => cases h
  | cons c l ih =>
    unfold minBy at h
    split at h
    · next hl =>
      cases h
      intro b hb
      rcases List.mem_cons.mp hb with rfl | hb
      · exact le_rfl
      · cases l with
        | nil => cases hb
        | cons d l =>
          unfold minBy at hl
          split at hl
          · cases hl
          · split at hl <;> cases hl
    · next m hm =>
      intro b hb
      split at h
      · next less =>
        cases h
        rcases List.mem_cons.mp hb with rfl | hb
        · exact less.le
        · exact ih hm b hb
      · next less =>
        cases h
        rcases List.mem_cons.mp hb with rfl | hb
        · exact le_rfl
        · exact (not_lt.mp less).trans (ih hm b hb)

theorem le_foldl_max {α : Type} (f : α → Nat) (l : List α) (m : Nat) :
    m ≤ l.foldl (fun m e => max m (f e)) m ∧ ∀ e ∈ l, f e ≤ l.foldl (fun m e => max m (f e)) m := by
  induction l generalizing m with
  | nil => simp
  | cons a l ih =>
    obtain ⟨start, rest⟩ := ih (max m (f a))
    refine ⟨(le_max_left _ _).trans start, fun e he => ?_⟩
    rcases List.mem_cons.mp he with rfl | he
    · exact (le_max_right _ _).trans start
    · exact rest e he

/-- The split picked of a group is one of its ready splits. -/
theorem pickSplit_ready {p : Nat × Split} (h : s.pickSplit g = some p) : s.ready g p.2 = true := by
  unfold State.pickSplit at h
  split at h
  · split at h
    · next e _ ready => cases h; exact ready
    · cases h
  · exact (List.mem_filter.mp (minBy_mem h)).2

/-- The groups of a scheduler with a ready split, each with the split it offers (R165). -/
def State.candidates (s : State) (n : Nat) : List (Nat × Group × Nat × Split) :=
  s.groups.filterMap (fun e => if e.2.schedNo = n then (s.pickSplit e.2).map (fun p => (e.1, e.2, p)) else none)

theorem mem_candidates {n : Nat} {c : Nat × Group × Nat × Split} :
    c ∈ s.candidates n ↔ (c.1, c.2.1) ∈ s.groups ∧ c.2.1.schedNo = n ∧ s.pickSplit c.2.1 = some c.2.2 := by
  obtain ⟨k, h, p⟩ := c
  simp only [State.candidates, List.mem_filterMap]
  constructor
  · rintro ⟨e, he, hc⟩
    split at hc
    · next hn =>
      obtain ⟨q, hq, e'⟩ := Option.map_eq_some_iff.mp hc
      cases e'
      exact ⟨he, hn, hq⟩
    · cases hc
  · rintro ⟨he, hn, hp⟩
    exact ⟨(k, h), he, by simp [hn, hp]⟩

/-- The candidates among which the ready time decides: the aged ones, else those of the highest priority (R165). -/
def State.pool (s : State) (n : Nat) : List (Nat × Group × Nat × Split) :=
  let aged := (s.candidates n).filter (fun e => decide (64 ≤ s.time - e.2.1.readySince))
  if aged.isEmpty then
    (s.candidates n).filter (fun e => e.2.1.pri == (s.candidates n).foldl (fun m e => max m e.2.1.pri) 0)
  else aged

theorem pick_eq (s : State) (n : Nat) : s.pick n =
    (minBy (fun e => e.2.1.readySince * 4096 + e.2.1.order) (s.pool n)).map (fun e => (e.1, e.2.2.1)) := rfl

theorem pool_aged {n : Nat} {a : Nat × Group × Nat × Split} (ha : a ∈ s.candidates n) (old : 64 ≤ s.time - a.2.1.readySince)
    {c : Nat × Group × Nat × Split} : c ∈ s.pool n ↔ c ∈ s.candidates n ∧ 64 ≤ s.time - c.2.1.readySince := by
  have some_aged : ¬ ((s.candidates n).filter (fun e => decide (64 ≤ s.time - e.2.1.readySince))).isEmpty = true := by
    intro none_aged
    have := List.filter_eq_nil_iff.mp (List.isEmpty_iff.mp none_aged) a ha
    simp [old] at this
  simp only [State.pool, if_neg some_aged, List.mem_filter, decide_eq_true_eq]

theorem pool_young {n : Nat} (young : ∀ a ∈ s.candidates n, ¬ 64 ≤ s.time - a.2.1.readySince)
    {c : Nat × Group × Nat × Split} : c ∈ s.pool n ↔
      c ∈ s.candidates n ∧ c.2.1.pri = (s.candidates n).foldl (fun m e => max m e.2.1.pri) 0 := by
  have none_aged : ((s.candidates n).filter (fun e => decide (64 ≤ s.time - e.2.1.readySince))).isEmpty = true :=
    List.isEmpty_iff.mpr (List.filter_eq_nil_iff.mpr fun a ha => by simpa using young a ha)
  simp only [State.pool, if_pos none_aged, List.mem_filter, beq_iff_eq]

theorem pool_subset {n : Nat} {c : Nat × Group × Nat × Split} (h : c ∈ s.pool n) : c ∈ s.candidates n := by
  unfold State.pool at h
  dsimp only at h
  split at h
  · exact List.mem_of_mem_filter h
  · exact List.mem_of_mem_filter h

/-- The pick of a scheduler (R165): the earliest of the aged groups, where there are any, else of those of the highest priority. -/
theorem pick_spec {n : Nat} (h : s.pick n = some (gid, sid)) : ∃ e ∈ s.groups, e.1 = gid ∧ e.2.schedNo = n ∧
    (∃ p, s.pickSplit e.2 = some p ∧ p.1 = sid ∧ s.ready e.2 p.2 = true) ∧
    let rival := fun f : Nat × Group => f ∈ s.groups ∧ f.2.schedNo = n ∧ (s.pickSplit f.2).isSome = true
    let aged := fun f : Nat × Group => 64 ≤ s.time - f.2.readySince
    let key := fun f : Nat × Group => f.2.readySince * 4096 + f.2.order
    ((∃ f, rival f ∧ aged f) → aged e ∧ ∀ f, rival f → aged f → key e ≤ key f) ∧
    ((∀ f, rival f → ¬ aged f) → ∀ f, rival f → f.2.pri ≤ e.2.pri ∧ (f.2.pri = e.2.pri → key e ≤ key f)) := by
  rw [pick_eq, Option.map_eq_some_iff] at h
  obtain ⟨⟨k, g, p⟩, least, e⟩ := h
  cases e
  have chosen := minBy_mem least
  obtain ⟨live, sched, offer⟩ := mem_candidates.mp (pool_subset chosen)
  refine ⟨(k, g), live, rfl, sched, ⟨p, offer, rfl, pickSplit_ready offer⟩, ?_⟩
  intro rival aged key
  have candidate : ∀ f, rival f → ∃ q, (f.1, f.2, q) ∈ s.candidates n := by
    rintro f ⟨hf, hn, hq⟩
    obtain ⟨q, hq⟩ := Option.isSome_iff_exists.mp hq
    exact ⟨q, mem_candidates.mpr ⟨hf, hn, hq⟩⟩
  have rivalOf : ∀ c ∈ s.candidates n, rival (c.1, c.2.1) := by
    intro c hc
    obtain ⟨hf, hn, hq⟩ := mem_candidates.mp hc
    exact ⟨hf, hn, by rw [hq]; rfl⟩
  have first : ∀ c ∈ s.pool n, key (k, g) ≤ key (c.1, c.2.1) := minBy_le least
  constructor
  · rintro ⟨f, hf, old⟩
    obtain ⟨q, hq⟩ := candidate f hf
    refine ⟨((pool_aged hq old).mp chosen).2, fun ⟨k', g'⟩ hf' old' => ?_⟩
    obtain ⟨q', hq'⟩ := candidate _ hf'
    exact first (k', g', q') ((pool_aged hq old).mpr ⟨hq', old'⟩)
  · rintro young ⟨k', g'⟩ hf
    have pool := @pool_young s n (fun c hc => young _ (rivalOf c hc))
    obtain ⟨q, hq⟩ := candidate _ hf
    obtain ⟨-, highest⟩ := pool.mp chosen
    refine ⟨?_, fun same => first (k', g', q) (pool.mpr ⟨hq, same.trans highest⟩)⟩
    exact ((le_foldl_max (fun c : Nat × Group × Nat × Split => c.2.1.pri) (s.candidates n) 0).2 _ hq).trans highest.ge

/-! ### The clause entered (R26, R178) -/

/-- Where no split issues on the scheduler, the pick is made. -/
theorem groupPick_none {core q : Nat} (free : s.sched.get? (core * 4 + q) = none) (idle : s.pick (core * 4 + q) = none) :
    s.groupPick core q = { s with turn := core * 4 + q, sched := s.sched.erase (core * 4 + q) } := by
  simp only [State.groupPick, free, idle, Bool.false_eq_true, if_false]

/-- The scheduler's turn, with the picked split on it. -/
def State.turned (s : State) (n gid sid : Nat) : State := { s with turn := n, sched := s.sched.set n (gid, sid) }

theorem groupPick_some {core q : Nat} (free : s.sched.get? (core * 4 + q) = none)
    (pick : s.pick (core * 4 + q) = some (gid, sid)) (split : s.split? gid sid = some (g, sp)) :
    s.groupPick core q = if sp.code = [] then (s.turned (core * 4 + q) gid sid).enterClause gid sid
      else s.turned (core * 4 + q) gid sid := by
  have turned : (s.turned (core * 4 + q) gid sid).split? gid sid = some (g, sp) := split
  simp only [State.groupPick, free, pick, Bool.false_eq_true, if_false]
  change (match (s.turned (core * 4 + q) gid sid).split? gid sid with | some (_, sp) => _ | none => _) = _
  rw [turned]
  simp only [List.isEmpty_iff]
  rfl

section
variable (split : s.split? gid sid = some (g, sp))
include split

theorem enterClause_fault {e : XErr} (fault : s.fetch g.core g.ctx sp.pc = .error e) :
    s.enterClause gid sid = s.trapAt ⟨gid, sid, g, sp⟩ e.cause e.x := by
  simp only [State.enterClause, split, fault]

theorem enterClause_header {w : Word} {count cls wait : Nat} {ws : List Word} (fetched : s.fetch g.core g.ctx sp.pc = .ok w)
    (header : Decode.header w.toNat = some (count, cls, wait))
    (words : (s.fetchTouch g.core g.ctx sp.pc.toNat (8 * (count + 2))).fetchWords g.core g.ctx (sp.pc + 8) (count + 1) = .ok ws) :
    s.enterClause gid sid = (s.fetchTouch g.core g.ctx sp.pc.toNat (8 * (count + 2))).withSplit gid sid g
      { sp with hdr := sp.pc, pc := sp.pc + 8, code := ws, cls := cls, mid := false } := by
  simp only [State.enterClause, split, fetched, header, words, State.withSplit]

theorem enterClause_noHeader {w : Word} (fetched : s.fetch g.core g.ctx sp.pc = .ok w) (header : Decode.header w.toNat = none)
    (start : sp.mid = false) : s.enterClause gid sid = s.trapAt ⟨gid, sid, g, sp⟩ 1 6 := by
  simp only [State.enterClause, split, fetched, header, start, Bool.not_false, if_true]

end

/-! ### Values written one after the other -/

section
variable {σ β γ : Type} {put : σ → Nat → β → σ} {get : σ → Nat → γ} {val : β → γ}

theorem get_foldl_put_outside (ne : ∀ m k j b, j ≠ k → get (put m k b) j = get m j) {l : List (Nat × β)} {m : σ} {j : Nat}
    (out : ∀ e ∈ l, j ≠ e.1) : get (l.foldl (fun m e => put m e.1 e.2) m) j = get m j := by
  induction l generalizing m with
  | nil => rfl
  | cons a l ih =>
    rw [List.foldl_cons, ih fun e he => out e (List.mem_cons_of_mem _ he)]
    exact ne m a.1 j a.2 (out a List.mem_cons_self)

/-- Of values written to different keys each is read back. -/
theorem get_foldl_put (same : ∀ m k b, get (put m k b) k = val b) (ne : ∀ m k j b, j ≠ k → get (put m k b) j = get m j)
    {l : List (Nat × β)} {m : σ} (apart : (l.map (fun e => e.1)).Nodup) {e : Nat × β} (he : e ∈ l) :
    get (l.foldl (fun m e => put m e.1 e.2) m) e.1 = val e.2 := by
  induction l generalizing m with
  | nil => cases he
  | cons a l ih =>
    obtain ⟨fresh, apart⟩ := List.nodup_cons.mp apart
    rcases List.mem_cons.mp he with rfl | he
    · rw [List.foldl_cons, get_foldl_put_outside ne fun f hf same => fresh (List.mem_map.mpr ⟨f, hf, same.symm⟩)]
      exact same m e.1 e.2
    · exact ih apart he

end

/-! ### Results (R167) -/

theorem vputs_eq (g : Group) (vals : Sparse Word) :
    g.vputs vals = { g with v := vals.foldl (fun m e => Sparse.set m e.1 e.2) g.v } := by
  induction vals generalizing g with
  | nil => rfl
  | cons a vals ih => exact ih _

/-- A result whose lanes are all defined, of a group without engine operations, is written as it is. -/
theorem written_eq {p : Pend} (ops : g.ops = []) (defined : p.undef = 0) : g.written p = { g with
    v := p.data.foldl (fun m e => Sparse.set m e.1 e.2) g.v
    gst := g.gst ||| p.flags
    opDirty := (g.holders p.lanes).foldl (fun d e => dirtied d e.1 p.regs e.2) g.opDirty
    outs := g.outs.filter (fun q => q.id != p.id)
    sb := match p.sb with
      | some k => g.sb.set k (g.sb.getD k 0 - 1)
      | none => g.sb } := by
  have reads : p.regs.any g.engineReg = false := by
    simp [List.any_eq_false, Group.engineReg, ops]
  have unspoilt : (g.vputs p.data).spoil p.regs = g.vputs p.data := by
    simp [Group.spoil, vputs_eq, ops]
  simp only [Group.written, reads, Bool.false_eq_true, if_false, Pend.values, if_pos defined, unspoilt]
  rw [vputs_eq]
  rfl

section
variable (live : s.groups.get? gid = some g) (rest : atRest s g)
include live rest

/-- Without a checkpoint no register has to be kept (R360). -/
theorem keepReg_atRest (r : Nat) : s.keepReg gid r = s := by
  obtain ⟨-, -, -, -, -, block⟩ := rest
  unfold State.keepReg
  simp only [live]
  split
  · rfl
  · next b hb => simp only [(block b hb).2]

/-- A result that no check holds back is written (R56, R262). -/
theorem writeResult_atRest {p : Pend} (checks : p.checks = []) : s.writeResult gid p = s.setGroup gid (g.written p) := by
  have keep : p.regs.foldl (fun u r => u.keepReg gid r) s = s := by
    induction p.regs with
    | nil => rfl
    | cons r rs ih => rw [List.foldl_cons, keepReg_atRest live rest, ih]
  obtain ⟨-, -, -, parity, -, -⟩ := rest
  simp only [State.writeResult, live, checks, List.isEmpty_nil, if_true, Group.lateVerdict, State.putResult, keep, parity,
    State.modGroup_of_get? _ live]

end

/-- A split that waits for nothing goes on as it is. -/
theorem quiet_eq
    (h : ∀ g sp, s.split? gid sid = some (g, sp) → sp.pendTrap = none ∧ sp.restartPend = false ∧ sp.parked = false) :
    s.quiet gid sid = s := by
  unfold State.quiet
  split
  · rfl
  · next g sp hs =>
    obtain ⟨trap, restart, parked⟩ := h g sp hs
    simp only [trap, restart, parked, Bool.false_eq_true, if_false, ite_self]

/-- RESULT_WRITEBACK of a group at rest (R167). -/
theorem writeback_atRest {k : Nat} {p : Pend} (live : s.groups.get? gid = some g) (rest : atRest s g) (ops : g.ops = [])
    (out : g.outs[k]? = some p) (need : p.need = 0) (defined : p.undef = 0) (checks : p.checks = []) :
    (s.writeback gid k).settle gid = s.setGroup gid (g.written p) := by
  have splits : (g.written p).splits = g.splits := by rw [written_eq ops defined]
  have quiet : ∀ l : List Nat, l.foldl (fun t i => State.quiet t gid i) (s.setGroup gid (g.written p)) =
      s.setGroup gid (g.written p) := by
    intro l
    induction l with
    | nil => rfl
    | cons i l ih =>
      rw [List.foldl_cons, quiet_eq, ih]
      intro h sp split
      obtain ⟨hg, hs⟩ := split?_eq_some.mp split
      rw [State.setGroup_groups, Sparse.get?_set_same, Option.some.injEq] at hg
      rw [← hg, splits] at hs
      obtain ⟨-, -, trap, restart, parked, -⟩ := atRest_split rest hs
      exact ⟨trap, restart, parked⟩
  have write : s.writeback gid k = s.setGroup gid (g.written p) := by
    simp only [State.writeback, live, out, need, if_true, writeResult_atRest live rest checks, quiet]
  rw [write]
  refine settle_atRest rest ?_ ?_ ?_ ?_ (fun e he => ?_) rfl rfl
  · rw [written_eq ops defined]
  · rw [written_eq ops defined]
  · rw [written_eq ops defined]
  · rw [written_eq ops defined]
  · rw [splits] at he
    obtain ⟨-, -, -, -, all, -⟩ := rest
    obtain ⟨halt, dog, -⟩ := all e he
    exact ⟨halt, dog⟩

/-! ### Replies (R51) -/

/-- RETURN_SLOT_REPLY takes the reply from its core. -/
theorem execReturnSlotReply_eq {core k : Nat} {r : Reply} (h : (s.core core).replies[k]? = some r) :
    execReturnSlotReply core k s = .next (((s.setCore core { s.core core with
      replies := (s.core core).replies.eraseIdx k }).takeReply r).settle r.group) := by
  simp only [execReturnSlotReply, h, dropAt_eq_eraseIdx, State.modCore]

theorem takeReply_bench {id sd : Nat} {got : Bool} {ws : Option (List Word)} {x : Word} (split : s.split? gid sid = some (g, sp))
    (wait : sp.wait = .bench id got sd none) : s.takeReply (.bench gid sid id ws x) =
      s.withSplit gid sid g { sp with wait := .bench id got sd (some ws), awake := true, readyTime := s.time } := by
  simp only [State.takeReply, modSplit_eq split, wait, if_true]

theorem takeReply_wmon {sd ret : Nat} {b : Bool} (split : s.split? gid sid = some (g, sp)) (wait : sp.wait = .wmon b sd none) :
    s.takeReply (.wmon gid sid ret) =
      s.withSplit gid sid g { sp with wait := .wmon b sd (some ret), awake := true, readyTime := s.time } := by
  simp only [State.takeReply, State.wmonReturn, modSplit_eq split, wait]

/-- The split that a reply reaches has it, and nothing else is due. -/
theorem takeReply_split {core : Nat} {c : Core} {r : Reply} {x : Split} (split : s.split? gid sid = some (g, sp)) (rest : atRest s g)
    (hh : x.haltReq = sp.haltReq) (hw : x.watchdog = sp.watchdog) (goes : r.group = gid)
    (takes : (s.setCore core c).takeReply r = (s.setCore core c).withSplit gid sid g x) :
    ((s.setCore core c).takeReply r).settle r.group = (s.setCore core c).withSplit gid sid g x := by
  obtain ⟨halt, dog, -⟩ := atRest_split rest (split?_eq_some.mp split).2
  rw [takes, goes]
  exact settle_withSplit rest (hh.trans halt) (hw.trans dog) rfl rfl

/-- An atomic's values reach the one result outstanding (R106). -/
theorem takeReply_atomic {core l : Nat} {c : Core} {p : Pend} {w : Word} (live : s.groups.get? gid = some g) (rest : atRest s g)
    (outs : g.outs = [p]) : ((s.setCore core c).takeReply (.atomic gid p.id [(l, w)])).settle gid =
      (s.setCore core c).setGroup gid { g with outs := [{ p with
        data := p.regs.foldl (fun d r => Sparse.set d (vkey r l) w) p.data, need := p.need - 1 }] } := by
  have there : (s.setCore core c).groups.get? gid = some g := live
  simp only [State.takeReply, State.modGroup_of_get? _ there, outs, List.map_cons, List.map_nil, if_true, List.foldl_cons,
    List.foldl_nil]
  refine settle_atRest rest rfl rfl rfl rfl (fun e he => ?_) rfl rfl
  obtain ⟨-, -, -, -, all, -⟩ := rest
  obtain ⟨halt, dog, -⟩ := all e he
  exact ⟨halt, dog⟩

end

/-- Settles O49, event by event: a group at rest has nothing to settle, so each event leaves what it writes. -/
theorem schedulerAndResultEvents : Obligations.SchedulerAndResultEvents := by
  unfold Obligations.SchedulerAndResultEvents
  refine ⟨?pick, ?hold, ?result, ?reply, ?drain⟩
  case pick =>
    rintro s core q n gid sid g sp w rfl free
    refine ⟨fun idle => ?_, fun pick split => ?_, pick_spec⟩
    · rw [exec_groupPick, execGroupPick, groupPick_none free idle]
    · have picks : exec (.groupPick core q) s = .next (if sp.code = [] then (s.turned (core * 4 + q) gid sid).enterClause gid sid
          else s.turned (core * 4 + q) gid sid) := by
        rw [exec_groupPick, execGroupPick, groupPick_some free pick split]
      have turned : (s.turned (core * 4 + q) gid sid).split? gid sid = some (g, sp) := split
      refine ⟨fun inside => ?_, fun e start ⟨rest, outs, wait, vector⟩ fault => ?_, fun start fetched => ⟨?_, ?_⟩⟩
      · rw [picks, if_neg inside]; rfl
      · rw [picks, if_pos start, enterClause_fault turned fault, trapAt_atRest turned (by exact rest) outs wait (by exact vector)]
        rfl
      · intro count cls wait ws header u words
        rw [picks, if_pos start, enterClause_header turned fetched header words]
        rfl
      · rintro header first ⟨rest, outs, wait, vector⟩
        rw [picks, if_pos start, enterClause_noHeader turned fetched header first,
          trapAt_atRest turned (by exact rest) outs wait (by exact vector)]
        rfl
  case hold =>
    intro s gid sid n g sp split held
    rw [exec_holdClear, execHoldClear, modSplit_eq split, held]
  case result =>
    intro s gid k g p live rest ops out need defined checks apart
    refine ⟨s.setGroup gid (g.written p), g.written p, ?_, ?_, rfl, ?_⟩
    · rw [exec_resultWriteback, execResultWriteback, writeback_atRest live rest ops out need defined checks]
    · rw [State.setGroup_groups, Sparse.get?_set_same]
    · rw [written_eq ops defined]
      refine ⟨rfl, rfl, rfl, fun e he => ?_, fun key other => ?_, fun slot => ?_⟩
      · exact get_foldl_put (get := Sparse.get?) (val := some) (fun m k v => m.get?_set_same k v)
          (fun m k j v h => m.get?_set_ne v h) apart he
      · exact get_foldl_put_outside (get := Sparse.get?) (fun m k j v h => m.get?_set_ne v h) fun e he => (other e he).symm
      · cases hp : p.sb with
        | none => simp
        | some m =>
          by_cases same : slot = m
          · subst same; simp
          · simp [Sparse.getD_set_ne _ _ _ same, Ne.symm same]
  case reply =>
    intro s core k gid sid g sp split rest c u
    refine ⟨fun id n got sd ws reply wait => ?_, fun b sd ret reply wait => ?_, fun p l w reply outs => ?_⟩
    · rw [exec_returnSlotReply, execReturnSlotReply_eq reply]
      exact congrArg _ (takeReply_split split rest (by rfl) (by rfl) rfl (takeReply_bench split wait))
    · rw [exec_returnSlotReply, execReturnSlotReply_eq reply]
      exact congrArg _ (takeReply_split split rest (by rfl) (by rfl) rfl (takeReply_wmon split wait))
    · rw [exec_returnSlotReply, execReturnSlotReply_eq reply]
      exact congrArg _ (takeReply_atomic (split?_eq_some.mp split).1 rest outs)
  case drain =>
    intro s core k e parity entry apart
    have drained := wbDrain_eq parity entry
    have clean : (s.modCore core (fun x => { x with wbuf := x.wbuf.eraseIdx k })).parity = [] := parity
    refine ⟨s.wbDrain core k, rfl, ?_, (wbDrain_onDie parity core k).main, ?_⟩
    · rw [drained, slicePuts_wbuf clean, State.core_modCore_same]
    · rw [drained, slicePuts_scratch clean]
      have lines : (e.cells.map (fun b => b.1)).Nodup := by
        have : e.cells.map (fun b => b.1) = (e.bytes.map (fun b => b.1)).map (e.line + ·) := by
          simp [WbEntry.cells, Function.comp_def]
        rw [this]
        exact apart.map (add_right_injective e.line)
      refine ⟨fun b hb => ?_, fun a other => ?_⟩
      · exact get_foldl_put (get := Memory.read) (val := id) Memory.read_write_same (fun m k j v h => m.read_write_ne v h) lines
          (List.mem_map.mpr ⟨b, hb, rfl⟩)
      · refine get_foldl_put_outside (get := Memory.read) (fun m k j v h => m.read_write_ne v h) fun b hb => ?_
        obtain ⟨b', hb', rfl⟩ := List.mem_map.mp hb
        exact other b' hb'

end Sys2Proof.Machine

/-! ## A store under a copy in flight (O21 fails)

R125 leaves the bytes at a copy's destination undefined for every reader until its batch completes, and the model reads them free
(`State.spdOpen`), buffered or not. A copy that was writing when its context was terminated stays queued without its group (R346),
and the premises of `StoresPutTheirBytesAtTheirOffsets` do not exclude one: a store to its destination is not read back. -/

namespace Sys2Proof.Machine

/-- A read of one scratchpad byte that lies under a copy in flight is undefined, whatever the write buffer holds (R125). -/
theorem spdRead_open {t : State} {c lin : Nat} (h : t.spdOpen (dieOf c) lin 1 = true) :
    t.spdRead c lin 1 = [Config.freeByte t.occ (8 * lin + 1)] := by
  have slices : t.sliceRead (dieOf c) lin 1 = [Config.freeByte t.occ (8 * lin + 1)] := by simp [State.sliceRead, h]
  unfold State.spdRead
  simp only [slices]
  split
  · rfl
  · simp [h]

/-- A copy of 8 bytes to scratchpad offset 0 that has begun to write; group 5, which queued it, has gone. -/
def orphanCopy : CopyOp := ⟨9, 5, 0, 1, 0, 0, false, 1, 0, 0, 8, 0, true, true, false, 0, [], [], []⟩

/-- The first bytes of the window of context 1 lie under the orphan copy. -/
theorem orphanCopy_open {t : State} (hc : t.copies = [orphanCopy]) (hg : t.groups.get? 5 = none) (hb : t.spBase 1 0 = 0) :
    t.spdOpen 0 0 1 = true := by
  have out : t.copyOpen orphanCopy = true := by simp [State.copyOpen, orphanCopy, hg]
  have place : t.spBase orphanCopy.ctx 0 = 0 := hb
  simp only [State.spdOpen, State.flightSpd, hc, List.any_cons, List.any_nil, out, place, Bool.or_false, Bool.and_true]
  rfl

/-- A split with lane 0 alone, at an instruction; its scalar 4 is 0. -/
def storingSplit : Split := { Split.blank 0 8 with mask := 1, code := [0], s := [(4, 0)] }

/-- Its group, of context 1 on core 0: lane 0 of `v1` holds 1 or 0, of `v2` 0. -/
def storingGroup (one : Bool) : Group :=
  { Group.start loadBlock 0 0 0 0 0 0 0 allLanes [] with
    v := [(vkey 1 0, if one then 1 else 0), (vkey 2 0, 0)], splits := [(0, storingSplit)] }

/-- That split issues; the window of context 1 on die 0 is the first 128 KiB (R16), the orphan copy on its way. -/
def storingState (one : Bool) : State := { State.reset.setCtxReg 1 0x100 0x20000 with
  sched := [(0, (0, 0))], blocks := [(0, loadBlock)], groups := [(0, storingGroup one)], copies := [orphanCopy] }

def storingIssue (one : Bool) : Issue := ⟨0, 0, storingGroup one, storingSplit⟩

/-- `stx` of the low byte of `v1` at offset `s4 + v2`. -/
def byteStore : MF := ⟨0, 0, 1, 2, 4, 0, 0, 0, 0, 0, 0⟩

/-- Every premise of the statement about one state is met, and lane 0, at offset 0, is the only one that stores. -/
theorem storing_premises : ∀ one, let s := storingState one
    let i := storingIssue one
    steady s i = true ∧ (Instr.stx byteStore).wf = true ∧ quietMem s = true ∧ i.g.names 1 = true ∧ i.g.names 2 = true ∧
    s.blocks.get? i.g.bid = some loadBlock ∧ s.unperformed 0 = false ∧ i.guard 0 0 = 1 ∧
    offsetOf i byteStore 0 = 0 ∧ s.spBase i.g.ctx (dieOf i.g.core) = 0 ∧ (i.g.v? byteStore.vd 0).toNat = one.toNat ∧
    s.spBase 1 0 = 0 ∧ 1 ≤ s.extent i.g .spd ∧
    s.inSpan i.g.ctx (dieOf i.g.core) (s.spBase i.g.ctx (dieOf i.g.core) + (0 : Int).toNat) (2 ^ 0) = false ∧
    s.wbRoom i.g.core ((lanesOf (i.guard byteStore.p byteStore.pn)).map
      (fun l => s.spBase i.g.ctx (dieOf i.g.core) + (offsetOf i byteStore l).toNat)) = true := by decide +kernel

/-- Were the statement true, the undefined byte would be what was stored. -/
theorem stored_eq_free (h : Obligations.StoresPutTheirBytesAtTheirOffsets) (one : Bool) :
    [Config.freeByte 0 1] = leBytes 1 one.toNat := by
  unfold Obligations.StoresPutTheirBytesAtTheirOffsets at h
  obtain ⟨steady, wf, quiet, data, offsets, block, performed, guard, offset, base, value, window, extent, span, room⟩ :=
    storing_premises one
  have lane : ∀ l, ((storingIssue one).guard 0 0).getLsbD l = true ↔ l = 0 := by simp [guard]
  have legal : ∀ l, ((storingIssue one).guard 0 0).getLsbD l = true →
      fits (storingState one) (storingIssue one).g .spd (2 ^ 0) (offsetOf (storingIssue one) byteStore l) := by
    intro l hl
    rw [(lane l).mp hl, offset]
    exact ⟨le_rfl, by exact_mod_cast extent, rfl, fun _ => span⟩
  obtain ⟨-, scratchpad⟩ := h (storingState one) (storingState one) (storingIssue one) (.stx byteStore) .spd byteStore loadBlock
    steady rfl wf quiet data offsets block performed rfl legal
  obtain ⟨buf, t, ht, -, last, -⟩ := scratchpad rfl room
  have stored := last 0 ⟨(lane 0).mpr rfl, fun q hq hm => absurd ((lane q).mp hm) (by omega)⟩
  rw [base, offset, value] at stored
  have here : t.spdOpen 0 0 1 = true := by
    rw [ht]
    split
    · exact orphanCopy_open rfl rfl window
    · exact orphanCopy_open rfl rfl window
  have fresh : t.fresh = 0 := by
    rw [ht]
    split
    · rfl
    · rfl
  have free : t.spdRead 0 0 1 = [Config.freeByte 0 1] := by
    rw [spdRead_open here, State.occ, fresh]
  exact free.symm.trans stored

/-- Refutes O21: two stores that differ in their data would both leave the undefined byte under the copy. -/
theorem not_storesPutTheirBytesAtTheirOffsets : ¬ Obligations.StoresPutTheirBytesAtTheirOffsets := by
  intro h
  exact absurd ((stored_eq_free h true).symm.trans (stored_eq_free h false)) (by decide)

end Sys2Proof.Machine

/-! ## A fill of a slot beyond the 64 of the package (O57 fails)

The package has 64 migration slots (R80), with OLD and NEW at 0x040 and MIGS at 0x080 upward (R377). `MigrationAndInvalidationEvents`
says of every number `k` what a background fill leaves in register 0x080 + k. For slot 0x380 that is register 0x400, the report of
interface coding of channel 0, and a fill whose lines pass channel 0 ends a coding window there, which writes the report (R66). -/

namespace Sys2Proof.Machine

/-- Package registers 0x3C0 and 0x400 read as OLD 0, NEW 1 and a running pull of slot 0x380; the coding window of channel 0 is full. -/
def strayState : State :=
  ((State.reset.setPkgReg 0x3C0 (w64 (2 ^ 32))).setPkgReg 0x400 (w64 (2 * 2 ^ 61))).setChannel 0
    { Channel.init with bursts := 4096 }

theorem strayState_accepting : accepting strayState := by
  intro n
  by_cases hn : n = 0
  · subst hn; rfl
  · have other : strayState.channel n = State.reset.channel n := Sparse.getD_set_ne _ _ _ hn
    rw [other]; rfl

/-- The fill ends the window, whose report takes the place of STATE. -/
theorem strayState_fill : ∃ t, exec (.migBackgroundFill 0x380 .good) strayState = .next t ∧ bits (t.pkgReg 0x400) 61 3 = 0 :=
  ⟨_, rfl, by decide +kernel⟩

/-- A request with nothing to do: the statement is about a fill. -/
def idleRequest : MemReq := ⟨0, .mig 0x380, 0, 0, .scrub, 0, 0, 0, 0, 0, false, [], none⟩

/-- Refutes O57: after a fill of slot 0x380 register 0x400 holds the report of a coding window, and not the running STATE. -/
theorem not_migrationAndInvalidationEvents : ¬ Obligations.MigrationAndInvalidationEvents := by
  unfold Obligations.MigrationAndInvalidationEvents
  rintro ⟨-, traffic, -⟩
  obtain ⟨-, -, -, fills, -⟩ := traffic strayState 0x380 .good idleRequest [] _ _ _ _ _ 0 _ rfl rfl rfl rfl rfl rfl
    (by decide +kernel) (by decide +kernel)
  obtain ⟨t, ht, -, -, -, state⟩ := fills (.inl (by decide +kernel)) strayState_accepting (fun _ h => by cases h)
    (by decide +kernel) (by decide +kernel) rfl List.not_mem_nil (by simp) rfl
  obtain ⟨u, hu, zero⟩ := strayState_fill
  obtain rfl : t = u := by rw [ht] at hu; exact Host.Outcome.next.inj hu
  have running : bits (t.pkgReg 0x400) 61 3 = 2 := state.trans (by decide +kernel)
  rw [zero] at running
  exact absurd running (by decide)

end Sys2Proof.Machine

/-! ## Guards, `p0`, `z` and lane patterns (O6) -/

namespace Sys2Proof.Machine

theorem pputs_p0 (g : Group) (f : Nat → Bool) (ls : List Nat) : g.pputs 0 f ls = g := by
  cases ls with
  | nil => rfl
  | cons l ls => exact if_pos rfl

/-- A write of `p0` leaves the group that is there as it is (R182). -/
theorem pwrite_p0 {s : State} {gid : Nat} {g : Group} (h : s.groups.get? gid = some g) (m : Mask) (f : Nat → Bool) :
    s.pwrite gid 0 m f = s.setGroup gid g := by
  simp [State.pwrite, h, pputs_p0]

theorem getLsbD_guard (i : Issue) (p pn l : Nat) : (i.guard p pn).getLsbD l =
    (decide (l < 32) && i.sp.mask.getLsbD l && (i.g.pget p l ^^ decide (pn = 1))) := by
  rw [Issue.guard, getLsbD_maskOf, Bool.and_assoc]
  rfl

/-- Settles O6: the definitions of guards, predicates, registers and patterns, read lane by lane. -/
theorem guardsPatternsAndHardWiredRegisters : Obligations.GuardsPatternsAndHardWiredRegisters := by
  unfold Obligations.GuardsPatternsAndHardWiredRegisters
  refine ⟨getLsbD_guard, fun g l => ⟨rfl, rfl⟩, fun s gid m f g p l live => ⟨g, ?_, rfl⟩, fun s i vals => if_pos (.inl rfl),
    fun amt l => ⟨rfl, rfl, rfl, rfl, rfl⟩⟩
  rw [pwrite_p0 live]
  exact Sparse.get?_set_same _ _ _

end Sys2Proof.Machine

/-! ## A `fence.op` after a merge (O29 fails)

A result belongs to the split that has its lanes now (R144, R145), and `fence.op` waits for it there (R127). The premise of
`FencesDrainAndPublish` looks at the split that issued it, which may have merged into the one at the fence. -/

namespace Sys2Proof.Machine

/-- A split of lane 0, at an instruction. Lane 0 came to it from split 1 when the two merged (R144). -/
def mergedSplit : Split := { Split.blank 0 8 with mask := 1, code := [0] }

/-- Its group, with a result for lane 0 on its way that split 1 issued. -/
def mergedGroup : Group :=
  { Group.start loadBlock 0 0 0 0 0 0 0 allLanes [] with
    outs := [{ lateResult with sid := 1, checks := [] }], splits := [(0, mergedSplit)] }

/-- That split issues. -/
def mergedState : State := { State.reset with
  sched := [(0, (0, 0))], blocks := [(0, loadBlock)], groups := [(0, mergedGroup)] }

def mergedIssue : Issue := ⟨0, 0, mergedGroup, mergedSplit⟩

/-- The premises of the clause on `fence.op` are met: the one result outstanding names split 1. -/
theorem merged_premises : poised mergedState mergedIssue = true ∧ ∀ p ∈ mergedIssue.g.outs, p.sid ≠ mergedIssue.sid := by
  decide +kernel

/-- The result is that of the split that has its lane, and `fence.op` holds until it is written. -/
theorem merged_fenceOp_holds (o : MF) : ∃ t, exec (.fenceOp o) mergedState = .next t ∧
    t.groups = [(0, { mergedGroup with splits := [(0, { mergedSplit with wait := .hold 0 })] })] :=
  ⟨_, rfl, by decide +kernel⟩

/-- Refutes O29: a split that has merged holds at `fence.op` for a result that the split which left it its lanes issued. -/
theorem not_fencesDrainAndPublish : ¬ Obligations.FencesDrainAndPublish := by
  unfold Obligations.FencesDrainAndPublish
  intro h
  obtain ⟨poised, other⟩ := merged_premises
  obtain ⟨-, publishes⟩ := h mergedState mergedState mergedIssue ⟨0, 0, 0, 0, 0, 0, 0, 0, 0, 0, 0⟩ poised
  obtain ⟨t, holds, stands⟩ := merged_fenceOp_holds ⟨0, 0, 0, 0, 0, 0, 0, 0, 0, 0, 0⟩
  rw [publishes other] at holds
  rw [← Host.Outcome.next.inj holds] at stands
  exact absurd stands (by decide +kernel)

end Sys2Proof.Machine

/-! ## Tile elements by lane (O33) -/

namespace Sys2Proof.Machine

/-! ### Tiles (R54) -/

theorem State.setTile_setTile (s : State) (c k : Nat) (x y : Tile) : (s.setTile c k x).setTile c k y = s.setTile c k y := by
  simp [State.setTile, State.modCore, State.setCore, State.core]

@[simp] theorem State.tileOf_setTile_same (s : State) (c k : Nat) (x : Tile) : (s.setTile c k x).tileOf c k = x := by
  simp [State.setTile, State.modCore, State.tileOf]

/-- The tile after elements are written to it, by number. -/
def Tile.putCells (x : Tile) (cells : List (Nat × Nat)) : Tile :=
  { x with data := cells.foldl (fun m e => Sparse.set m e.1 (BitVec.ofNat 32 e.2)) x.data }

/-- A tile that is not spoilt takes the elements written to it. -/
theorem tilePut_eq {s : State} (h : s.parity = []) {c k : Nat} (good : (s.tileOf c k).spoilt = false) (cells : List (Nat × Nat)) :
    s.tilePut c k cells = s.setTile c k ((s.tileOf c k).putCells cells) := by
  have clean : ∀ x, (s.setTile c k x).parity = [] := fun _ => h
  simp only [State.tilePut, Tile.putCells, good, Bool.false_eq_true, if_false, clean, List.isEmpty_nil, if_true]

section
variable {x : Tile} {cells : List (Nat × Nat)}

theorem Tile.elem_putCells_outside {j : Nat} (out : ∀ e ∈ cells, j ≠ e.1) : (x.putCells cells).elem j = x.elem j := by
  have kept := get_foldl_put_outside (put := fun (m : Sparse (BitVec 32)) k (b : Nat) => m.set k (BitVec.ofNat 32 b))
    (get := fun m k => m.getD k ((Config.freeWord x.seed k).setWidth 32)) (fun m k j b h => Sparse.getD_set_ne m _ _ h)
    (m := x.data) out
  exact congrArg BitVec.toNat kept

theorem Tile.elem_putCells (apart : (cells.map (fun e => e.1)).Nodup) {e : Nat × Nat} (he : e ∈ cells) :
    (x.putCells cells).elem e.1 = e.2 % 2 ^ 32 := by
  have put := get_foldl_put (put := fun (m : Sparse (BitVec 32)) k (b : Nat) => m.set k (BitVec.ofNat 32 b))
    (get := fun m k => m.getD k ((Config.freeWord x.seed k).setWidth 32)) (val := fun b => BitVec.ofNat 32 b)
    (fun m k b => by simp) (fun m k j b h => Sparse.getD_set_ne m _ _ h) (m := x.data) apart he
  exact (congrArg BitVec.toNat put).trans (BitVec.toNat_ofNat _ _)

end

/-! ### Positions (R301) -/

theorem accCell_eq_accPlace (v : Word) (l e : Nat) : accCell v l e = 192 * (accPlace v l e).1 + (accPlace v l e).2 := by
  unfold accCell accPlace bits
  split
  · simp only [pow_zero, Nat.div_one]; omega
  · simp only [pow_zero, Nat.div_one]; omega

/-- No two elements of an access have one place. -/
theorem accCell_inj {v : Word} {l e l' e' : Nat} (he : e < 2) (he' : e' < 2) (same : accCell v l e = accCell v l' e') :
    l = l' ∧ e = e' := by
  unfold accCell at same
  split at same
  · omega
  · omega

/-- What `accwr` writes: the two elements of each guarded lane in their places. -/
def accCells (v : Word) (m : Mask) (f : Nat → Word) : List (Nat × Nat) :=
  (lanesOf m).flatMap (fun l => [(accCell v l 0, bits (f l) 0 32), (accCell v l 1, bits (f l) 32 32)])

theorem mem_accCells {v : Word} {m : Mask} {f : Nat → Word} {c : Nat × Nat} :
    c ∈ accCells v m f ↔ ∃ l e, m.getLsbD l = true ∧ e < 2 ∧ c = (accCell v l e, getE 32 e (f l)) := by
  have two : ∀ e, e < 2 ↔ e = 0 ∨ e = 1 := by omega
  simp only [accCells, List.mem_flatMap, mem_lanesOf, List.mem_cons, List.not_mem_nil, or_false, two, bits, getE]
  constructor
  · rintro ⟨l, hl, rfl | rfl⟩
    · exact ⟨l, 0, hl, .inl rfl, rfl⟩
    · exact ⟨l, 1, hl, .inr rfl, rfl⟩
  · rintro ⟨l, e, hl, rfl | rfl, rfl⟩
    · exact ⟨l, hl, .inl rfl⟩
    · exact ⟨l, hl, .inr rfl⟩

theorem accCells_nodup (v : Word) (m : Mask) (f : Nat → Word) : ((accCells v m f).map (fun c => c.1)).Nodup := by
  rw [accCells, List.map_flatMap, List.nodup_flatMap]
  constructor
  · intro l _
    suffices accCell v l 0 ≠ accCell v l 1 by simpa using this
    intro same
    exact absurd (accCell_inj (by decide) (by decide) same).2 (by decide)
  · refine (List.Nodup.filter _ List.nodup_range).imp fun {l l'} apart => ?_
    have differ : ∀ e e', e < 2 → e' < 2 → accCell v l e ≠ accCell v l' e' := fun e e' he he' same =>
      apart (accCell_inj he he' same).1
    simp [List.disjoint_left, Function.onFun, differ]

/-! ### The instructions -/

section
variable {s : State} {i : Issue} {o : XF} {p : Nat} {k : Block}

theorem accCheck_none (live : s.blocks.get? i.g.bid = some k) (tile : k.tiles[o.f3 / 256]? = none) :
    s.accCheck i o = .error (2, w64 (o.f3 / 256)) := by
  simp [State.accCheck, State.tileNo, XF.atile, live, tile]

theorem accCheck_some (live : s.blocks.get? i.g.bid = some k) (tile : k.tiles[o.f3 / 256]? = some p) :
    s.accCheck i o = if accOk (i.sp.get (o.f3 % 64)) then .ok p else .error (4, i.sp.get (o.f3 % 64)) := by
  simp only [State.accCheck, State.tileNo, XF.atile, XF.sa, live, Option.map_some, Option.bind_some, tile]
  rfl

theorem Calm.accrd_issue (h : Calm s i) (names : i.g.names o.f1 = true) (room : i.g.room o.sb) :
    exec (.accrd o) s = .next (accrdEffect o s i) := by
  rw [exec_accrd, execAccrd, onIssue_of _ h.issuer]
  exact congrArg _ (h.issue _ (accrdEffect o) (Needs.beyond_none (by simpa using names)) room (fun hr => by cases hr))

theorem Calm.accwr_issue (h : Calm s i) (names : i.g.names o.f2 = true) : exec (.accwr o) s = .next (accwrEffect o s i) := by
  rw [exec_accwr, execAccwr, onIssue_of _ h.issuer]
  exact congrArg _ (h.issue _ (accwrEffect o) (Needs.beyond_none (by simpa using names)) (fun k hk => by cases hk)
    (fun hr => by cases hr))

theorem Calm.accrdEffect_ok (h : Calm s i) (check : s.accCheck i o = .ok p) (idle : s.tileInUse i.g.core p = false) :
    accrdEffect o s i = s.sendOn i o.f1 (i.guard o.p o.pn) (onLanes (i.guard o.p o.pn) (fun l =>
      w64 ((s.tileOf i.g.core p).elem (accCell (i.sp.get o.sa) l 0) +
        (s.tileOf i.g.core p).elem (accCell (i.sp.get o.sa) l 1) * 2 ^ 32))) 0 o.sb := by
  simp only [accrdEffect, check, h.parity, List.isEmpty_nil, if_true, idle, Bool.false_eq_true, if_false]
  rw [State.vsend, h.vsendWith_done]
  rfl

theorem Calm.accwrEffect_ok (h : Calm s i) (check : s.accCheck i o = .ok p) (idle : s.tileInUse i.g.core p = false)
    (free : i.g.bd = []) : accwrEffect o s i = State.goOn (if i.guard o.p o.pn = 0 then s else s.setTile i.g.core p
      (Tile.putCells { s.tileOf i.g.core p with spoilt := false }
        (accCells (i.sp.get o.sa) (i.guard o.p o.pn) (fun l => i.g.v? o.f2 l)))) i i.g i.sp := by
  have verdict : ∀ dest ps, i.verdict i.g 1 dest ps = .write ps [] := fun _ _ => by
    simp [Issue.verdict, Group.verdict, free]
  simp only [accwrEffect, check, verdict, List.isEmpty_nil, if_true, idle, Bool.false_eq_true, if_false, h.vread]
  split
  · exact h.done_self
  · rw [tilePut_eq (by exact h.parity) (by rw [State.tileOf_setTile_same]), State.tileOf_setTile_same, State.setTile_setTile]
    rw [h.done (Alike.refl i) (by rfl) (by rfl) (by exact (issuer_split h.issuer).1), List.flatMap_map]
    rfl

end

/-- Settles O33: a legal access reads or writes the elements in their places, which are apart, and the first failing check traps. -/
theorem tilesAreReadAndWrittenByLane : Obligations.TilesAreReadAndWrittenByLane := by
  unfold Obligations.TilesAreReadAndWrittenByLane
  rintro s i o k p _ steady live rfl
  have h := steady_iff.mp steady
  simp only [← accCell_eq_accPlace]
  refine ⟨fun tile ok idle => ⟨fun names room => ?read, fun names free => ?write⟩, fun names room traps => ?readTraps,
    fun names traps => ?writeTraps⟩
  case read =>
    have check : s.accCheck i o = .ok p := by rw [accCheck_some live tile, if_pos ok]
    rw [h.accrd_issue names room, h.accrdEffect_ok check idle]
    rfl
  case write =>
    have check : s.accCheck i o = .ok p := by rw [accCheck_some live tile, if_pos ok]
    rw [h.accwr_issue names, h.accwrEffect_ok check idle free]
    refine ⟨_, rfl, rfl, rfl, fun l e hl he => ?_, fun c out => Tile.elem_putCells_outside fun q hq same => ?_⟩
    · refine (Tile.elem_putCells (accCells_nodup _ _ _) (mem_accCells.mpr ⟨l, e, hl, he, rfl⟩)).trans ?_
      simp [getE]
    · obtain ⟨l, e, hl, he, rfl⟩ := mem_accCells.mp hq
      exact out l e hl he same
  case readTraps =>
    obtain ⟨vector, outside⟩ : (s.ctxReg i.g.ctx 0x161).getLsbD 63 = true ∧ i.sp.trap.hnd = false := by
      simpa [Machine.traps] using traps
    rw [h.accrd_issue names room]
    refine ⟨fun tile => ?_, fun tile bad => ?_⟩
    · simp only [accrdEffect, accCheck_none live tile]
      rw [h.trapAt _ _ (by decide) vector outside]; rfl
    · simp only [accrdEffect, accCheck_some live tile, bad, Bool.false_eq_true, if_false]
      rw [h.trapAt _ _ (by decide) vector outside]
  case writeTraps =>
    obtain ⟨vector, outside⟩ : (s.ctxReg i.g.ctx 0x161).getLsbD 63 = true ∧ i.sp.trap.hnd = false := by
      simpa [Machine.traps] using traps
    rw [h.accwr_issue names]
    refine ⟨fun tile => ?_, fun tile bad => ?_⟩
    · simp only [accwrEffect, accCheck_none live tile]
      rw [h.trapAt _ _ (by decide) vector outside]; rfl
    · simp only [accwrEffect, accCheck_some live tile, bad, Bool.false_eq_true, if_false]
      rw [h.trapAt _ _ (by decide) vector outside]

end Sys2Proof.Machine

/-! ## Operand slots (O32) -/

namespace Sys2Proof.Machine

theorem Poised.issue_scalar {s : State} {i : Issue} (h : Poised s i) (eff : State → Issue → State) :
    Machine.issue (fun _ => {}) eff s i = eff s i := by
  simp [Machine.issue, Needs.beyond, Needs.regs, Needs.holds, Needs.locked, Needs.parity, h.parity]

/-! ### Operand slots (R53) -/

@[simp] theorem State.slotOf_setSlot_same (s : State) (c k : Nat) (x : Slot) : (s.setSlot c k x).slotOf c k = x := by
  simp [State.setSlot, State.modCore, State.slotOf]

theorem State.slotOf_setSlot_ne (s : State) (c : Nat) {k m : Nat} (x : Slot) (h : m ≠ k) :
    (s.setSlot c k x).slotOf c m = s.slotOf c m := by
  simp [State.setSlot, State.modCore, State.slotOf, Sparse.getD_set_ne _ _ _ h]

theorem mayName_not_free {s : State} {gid c k : Nat} (h : s.mayName gid c k = true) : (s.slotOf c k).st ≠ .free := by
  simp only [State.mayName, Bool.and_eq_true, decide_eq_true_eq] at h
  exact h.1.1

section
variable {s : State} {c gid n : Nat}

theorem claimOf_free (h : (s.slotOf c n).st = .free) : s.claimOf c gid n false = some (n, true) := by
  simp [State.claimOf, h]

theorem claimOf_own (h : s.mayName gid c n = true) : s.claimOf c gid n false = some (n, false) := by
  simp [State.claimOf, h, mayName_not_free h]

theorem claimOf_refused (taken : (s.slotOf c n).st ≠ .free) (other : s.mayName gid c n = false) :
    s.claimOf c gid n false = none := by
  simp [State.claimOf, taken, other]

theorem claimOf_any {k : Nat} (hk : k < 16) (free : (s.slotOf c k).st = .free) (low : ∀ m < k, (s.slotOf c m).st ≠ .free) :
    s.claimOf c gid n true = some (k, true) := by
  have first : (List.range 16).find? (fun k => (s.slotOf c k).st == .free) = some k := by
    rw [List.find?_range_eq_some]
    exact ⟨by simp [free], List.mem_range.mpr hk, fun m hm => by simpa using low m hm⟩
  simp [State.claimOf, first]

theorem claimOf_any_none (h : ∀ m < 16, (s.slotOf c m).st ≠ .free) : s.claimOf c gid n true = none := by
  simp only [State.claimOf, if_true, Option.map_eq_none_iff, List.find?_eq_none, List.mem_range, beq_iff_eq]
  exact h

end

/-! ### The instructions (R289, R290) -/

section
variable {s : State} {i : Issue} {o : YF}

theorem Poised.oclaim (h : Poised s i) : exec (.oclaim o) s = .next (oclaimEffect o false s i) := by
  rw [exec_oclaim, execOclaim, onIssue_of _ h.issuer, h.issue_scalar]

theorem Poised.oclaimAny (h : Poised s i) : exec (.oclaimAny o) s = .next (oclaimEffect o true s i) := by
  rw [exec_oclaimAny, execOclaimAny, onIssue_of _ h.issuer, h.issue_scalar]

theorem Poised.orel (h : Poised s i) : exec (.orel o) s = .next (orelEffect o s i) := by
  rw [exec_orel, execOrel, onIssue_of _ h.issuer, h.issue_scalar]

theorem Poised.oclaimEffect_none (h : Poised s i) {any : Bool} (claim : s.claimOf i.g.core i.gid (o.code % 16) any = none) :
    oclaimEffect o any s i = s.goOn i i.g (i.sp.put o.sd (BitVec.allOnes 64)) := by
  simp only [oclaimEffect, claim, h.putScalar]
  rfl

theorem Poised.oclaimEffect_own (h : Poised s i) {any : Bool} {k : Nat}
    (claim : s.claimOf i.g.core i.gid (o.code % 16) any = some (k, false)) :
    oclaimEffect o any s i = s.goOn i i.g (i.sp.put o.sd (w64 k)) := by
  simp only [oclaimEffect, claim, Bool.false_eq_true, if_false, h.putScalar]

theorem Poised.oclaimEffect_new (h : Poised s i) {any : Bool} {k : Nat}
    (claim : s.claimOf i.g.core i.gid (o.code % 16) any = some (k, true)) :
    oclaimEffect o any s i = (s.claimSlot i.g.core k i.gid).goOn i i.g (i.sp.put o.sd (w64 k)) := by
  have claimed : Poised (s.claimSlot i.g.core k i.gid) i := h.congr rfl rfl rfl rfl rfl
  simp only [oclaimEffect, claim, if_true, claimed.putScalar]

theorem Poised.orelEffect_own (h : Poised s i) (own : s.mayName i.gid i.g.core (o.code % 16) = true) :
    orelEffect o s i = (s.setSlot i.g.core (o.code % 16) (s.slotOf i.g.core (o.code % 16)).release).goOn i i.g i.sp := by
  simp only [orelEffect, own, if_true]
  exact h.done (Alike.refl i) (by rfl) (by rfl) (by exact (issuer_split h.issuer).1)

end

/-- What a claim leaves: the slot is the group's, Claimed and undefined, and every other slot is as it was (R53). -/
theorem claimSlot_spec (s : State) (c k gid : Nat) : let t := s.claimSlot c k gid
    t.groups = s.groups ∧ t.main = s.main ∧ (t.slotOf c k).st = .claimed ∧ (t.slotOf c k).owner = gid ∧
      (t.slotOf c k).readers = 0 ∧ (t.slotOf c k).rel = false ∧ (t.slotOf c k).mem.cells = [] ∧
      (t.slotOf c k).mem.seed.isSome = true ∧ ∀ m, m ≠ k → t.slotOf c m = s.slotOf c m := by
  intro t
  have slot : t.slotOf c k = ⟨.claimed, gid, 0, false, ⟨some s.newSeed.1, []⟩, []⟩ :=
    State.slotOf_setSlot_same s.newSeed.2 _ _ _
  rw [slot]
  exact ⟨rfl, rfl, rfl, rfl, rfl, rfl, rfl, rfl, fun m hm => State.slotOf_setSlot_ne s.newSeed.2 c _ hm⟩

/-- Settles O32: a claim is granted as the slots stand, and a release looks at the readers. -/
theorem slotsAreClaimedAndReleased : Obligations.SlotsAreClaimedAndReleased := by
  unfold Obligations.SlotsAreClaimedAndReleased
  rintro s i o _ poised rfl c claims
  have h := poised_iff.mp poised
  have granted : ∀ {any k}, s.claimOf c i.gid (o.code % 16) any = some (k, true) → ∀ {x}, exec x s = .next (oclaimEffect o any s i) →
      claims x k := fun claim _ hx => ⟨s.claimSlot c _ i.gid, by rw [hx, h.oclaimEffect_new claim]; rfl, claimSlot_spec s c _ i.gid⟩
  refine ⟨fun free => granted (claimOf_free free) h.oclaim, fun own => ?_, fun taken other => ?_,
    fun k hk free low => granted (claimOf_any hk free low) h.oclaimAny, fun taken => ?_, fun own => ?_, fun other steady traps => ?_⟩
  · rw [h.oclaim, h.oclaimEffect_own (claimOf_own own)]; rfl
  · rw [h.oclaim, h.oclaimEffect_none (claimOf_refused taken other)]
  · rw [h.oclaimAny, h.oclaimEffect_none (claimOf_any_none taken)]
  · rw [h.orel, h.orelEffect_own own]; rfl
  · obtain ⟨vector, outside⟩ : (s.ctxReg i.g.ctx 0x161).getLsbD 63 = true ∧ i.sp.trap.hnd = false := by
      simpa [Machine.traps] using traps
    rw [h.orel, orelEffect, if_neg (by rw [other]; decide), (steady_iff.mp steady).trapAt _ _ (by decide) vector outside]
    rfl

end Sys2Proof.Machine

/-! ## What a drain leaves alone (R46) -/

namespace Sys2Proof.Machine

/-- `t` is `s` with cores and dies changed, where the requests of the slices and the words that the cores watch stay. -/
structure Drained (s t : State) : Prop where
  onDie : OnDie s t
  queue : ∀ d k, (t.slice d k).queue = (s.slice d k).queue
  net : ∀ d k, (t.slice d k).net = (s.slice d k).net
  monitors : ∀ c, (t.core c).monitors = (s.core c).monitors

theorem State.slice_modSlice_ne (s : State) {d k e m : Nat} (f : Slice → Slice) (h : ¬ (e = d ∧ m = k)) :
    (s.modSlice d k f).slice e m = s.slice e m := by
  by_cases hd : e = d
  · subst hd
    simp [State.modSlice, State.setSlice, State.modDie, State.slice, Sparse.getD_set_ne _ _ _ (show m ≠ k by tauto)]
  · simp [State.modSlice, State.setSlice, State.modDie, State.slice, State.die_setDie_ne _ _ hd]

@[simp] theorem State.setGroup_slice (s : State) (gid : Nat) (g : Group) (d k : Nat) :
    (s.setGroup gid g).slice d k = s.slice d k := rfl
@[simp] theorem State.setGroup_core (s : State) (gid : Nat) (g : Group) (k : Nat) : (s.setGroup gid g).core k = s.core k := rfl

namespace Drained
variable {s t u : State}

theorem refl (s : State) : Drained s s := ⟨.refl s, fun _ _ => rfl, fun _ _ => rfl, fun _ => rfl⟩

theorem trans (h : Drained s t) (h' : Drained t u) : Drained s u :=
  ⟨h.onDie.trans h'.onDie, fun d k => (h'.queue d k).trans (h.queue d k), fun d k => (h'.net d k).trans (h.net d k),
    fun c => (h'.monitors c).trans (h.monitors c)⟩

theorem all (h : Drained s t) (d k : Nat) : (t.slice d k).all = (s.slice d k).all := by
  simp only [Slice.all, h.queue, h.net]

theorem modCore {k : Nat} {f : Core → Core} (hf : ∀ c, (f c).monitors = c.monitors) : Drained s (s.modCore k f) := by
  refine ⟨.modCore s k f, fun _ _ => rfl, fun _ _ => rfl, fun c => ?_⟩
  by_cases h : c = k
  · subst h; simp [hf]
  · simp [State.modCore, State.core_setCore_ne _ _ h]

theorem modSlice {d k : Nat} {f : Slice → Slice} (hq : ∀ x, (f x).queue = x.queue) (hn : ∀ x, (f x).net = x.net) :
    Drained s (s.modSlice d k f) := by
  have slice : ∀ e m, ((s.modSlice d k f).slice e m).queue = (s.slice e m).queue ∧
      ((s.modSlice d k f).slice e m).net = (s.slice e m).net := by
    intro e m
    by_cases h : e = d ∧ m = k
    · obtain ⟨rfl, rfl⟩ := h; simp [hq, hn]
    · simp [State.slice_modSlice_ne _ _ h]
  exact ⟨⟨s.cores, _, rfl⟩, fun e m => (slice e m).1, fun e m => (slice e m).2, fun _ => rfl⟩

theorem replyTo {gid : Nat} {r : Reply} : Drained s (s.replyTo gid r) := by
  unfold State.replyTo
  split
  · exact refl s
  · exact modCore fun _ => rfl

/-- Bytes of the scratchpad change none of it. -/
theorem scratch {d : Nat} {f : Memory → Memory} : Drained s (s.modDie d (fun x => { x with scratch := f x.scratch })) := by
  have slices : ∀ e, ((s.modDie d (fun x => { x with scratch := f x.scratch })).die e).slices = (s.die e).slices := by
    intro e
    by_cases h : e = d
    · subst h; simp [State.modDie]
    · simp [State.modDie, State.die_setDie_ne _ _ h]
  exact ⟨⟨s.cores, _, rfl⟩, fun e m => by simp only [State.slice, slices], fun e m => by simp only [State.slice, slices],
    fun _ => rfl⟩

theorem foldl {α : Type} {f : State → α → State} {l : List α} (hf : ∀ v a, v.parity = [] → Drained v (f v a))
    (hp : s.parity = []) : Drained s (l.foldl f s) := by
  induction l generalizing s with
  | nil => exact refl s
  | cons a l ih =>
    have first := hf s a hp
    exact first.trans (ih (first.onDie.parity.trans hp))

end Drained

section
variable {s : State}

theorem slicePut_drained (h : s.parity = []) (d lin : Nat) (bs : List Byte) : Drained s (s.slicePut d lin bs) := by
  have woken : Drained (s.modDie d (fun x => { x with scratch := x.scratch.writeBytes lin bs })) (s.slicePut d lin bs) := by
    refine Drained.foldl (fun u k hu => ?_) h
    simp only [parityClear_nil hu]
    split
    · exact .refl u
    · refine Drained.trans ?_ (.foldl (fun _ _ _ => .replyTo) (by exact hu))
      exact .modSlice (fun _ => rfl) (fun _ => rfl)
  refine Drained.trans ?_ woken
  exact .scratch (f := fun m => m.writeBytes lin bs)

theorem wbDrain_drained (h : s.parity = []) (c k : Nat) : Drained s (s.wbDrain c k) := by
  cases he : (s.core c).wbuf[k]? with
  | none => simp only [State.wbDrain, he]; exact .refl s
  | some e =>
    rw [wbDrain_eq h he]
    refine Drained.trans ?_ (.foldl (fun _ b hv => slicePut_drained hv (dieOf c) b.1 [b.2]) (by exact h))
    exact .modCore fun _ => rfl

theorem wbDrainLine_drained (h : s.parity = []) (c l : Nat) : Drained s (s.wbDrainLine c l) := by
  unfold State.wbDrainLine
  split
  · exact .refl s
  · exact wbDrain_drained h c _

theorem wbDrainAll_drained (h : s.parity = []) (c : Nat) : Drained s (s.wbDrainAll c) :=
  .foldl (fun _ _ hv => wbDrain_drained hv c 0) h

theorem ordered_drained (h : s.parity = []) (i : Issue) (order scope : Nat) (rmt : Bool) :
    Drained s (s.ordered i order scope rmt) := by
  have own : Drained s (if 2 ≤ order ∧ 2 ≤ scope then s.wbDrainAll i.g.core else s) := by
    split
    · exact wbDrainAll_drained h _
    · exact .refl s
  unfold State.ordered
  generalize (if 2 ≤ order ∧ 2 ≤ scope then s.wbDrainAll i.g.core else s) = t at own ⊢
  dsimp only
  split
  · refine own.trans (.foldl (fun v k hv => ?_) (own.onDie.parity.trans h))
    split
    · exact .refl v
    · exact wbDrainAll_drained hv k
  · exact own

end

end Sys2Proof.Machine

/-! ## `wmon` (O28) -/

namespace Sys2Proof.Machine

section
variable {s : State} {i : Issue} {o : YF}

/-- A `wmon` that has returned completes (R276). -/
theorem Calm.wmon_returned (h : Calm s i) {b : Bool} {sd r : Nat} (wait : i.sp.wait = .wmon b sd (some r)) :
    exec (.wmon o) s = .next (s.goOn i i.g (i.sp.put sd (w64 r))) := by
  rw [exec_wmon, execWmon, onIssue_of _ h.issuer]
  simp only [wmonEffect, wait, State.wmonDone, h.putScalar]

/-- A `wmon` that issues for the first time makes its check; on the scratchpad it needs a return slot (R51). -/
theorem Calm.wmon_first (h : Calm s i) (wait : i.sp.wait = .none) (ret : o.code % 4 = 1 → s.retSlots i.g.core < 128) :
    exec (.wmon o) s = .next (wmonFirst o s i) := by
  rw [exec_wmon, execWmon, onIssue_of _ h.issuer]
  simp only [wmonEffect, wait]
  exact congrArg _ (h.issue _ (wmonFirst o) (Needs.beyond_none (by simp)) (fun k hk => by cases hk) (by simpa using ret))

theorem spaceParity_nil (h : s.parity = []) (g : Group) (sp : Space) (o n : Nat) : s.spaceParity g sp o n = none := by
  cases sp <;> simp [State.spaceParity, State.shmHit, State.spdParity, parityHit_nil h, h]

/-- The issuing split is left in a wait. -/
theorem Poised.wait_settle (h : Poised s i) {u : State} (hg : u.groups = s.groups) (hb : u.blocks = s.blocks)
    (hp : u.parity = s.parity) (w : Wait) :
    (u.modSplit i.gid i.sid (fun x => { x with wait := w, awake := false })).settle i.gid =
      u.setGroup i.gid { i.g with splits := i.g.splits.set i.sid { i.sp with wait := w, awake := false } } := by
  have split : u.split? i.gid i.sid = some (i.g, i.sp) := split?_eq_some.mpr (hg ▸ issuer_split h.issuer)
  rw [modSplit_eq split]
  exact h.settle (Alike.refl i) (sp := { i.sp with wait := w, awake := false }) h.haltReq h.watchdog hb hp

/-- A non-negative word read as signed is the word read as a number. -/
theorem toNat_of_toInt {v : Word} {a : Nat} (h : (a : Int) = v.toInt) : v.toNat = a := by
  have := BitVec.toInt_eq_toNat_cond v
  have := v.isLt
  split at * <;> omega

theorem homeSlice_eq (lin : Nat) : homeSlice lin = lin / 0x300000 := rfl

/-- The bytes of the word that a `wmon` checks (R276). -/
def wmonSize (o : YF) : Nat := if o.code / 4 % 2 = 1 then 8 else 4

/-- The bits that a `wmon` expects (R276). -/
def wmonExpect (o : YF) (i : Issue) : Nat := (i.sp.get (o.code / 2 ^ 8 % 64)).toNat % 2 ^ (8 * wmonSize o)

section
variable {a : Nat} (h : Calm s i) (addr : (a : Int) = (i.sp.get o.sa).toInt)
include h addr

/-- A legal check of a word of shared memory (R43): it differs, finds no room, or is armed. -/
theorem Calm.wmonFirst_shm (space : o.code % 4 = 0) (legal : fits s i.g .shm (wmonSize o) a) : wmonFirst o s i =
    if leNat (s.shmRead i.g.bid a (wmonSize o)) ≠ wmonExpect o i then s.goOn i i.g (i.sp.put o.sd 0)
    else if 64 ≤ (s.core i.g.core).monitors.length then s.goOn i i.g (i.sp.put o.sd 2)
    else (s.modCore i.g.core (fun c => { c with
      monitors := c.monitors ++ [⟨a, wmonSize o, i.g.bid, i.gid, i.sid⟩] })).setGroup i.gid { i.g with
        splits := i.g.splits.set i.sid { i.sp with wait := .wmon false o.sd none, awake := false } } := by
  have check := check_eq_none legal
  rw [addr] at check
  have expect : bits (i.sp.get (o.code / 2 ^ 8 % 64)) 0 (8 * wmonSize o) = wmonExpect o i := by simp [bits, wmonExpect]
  unfold wmonFirst
  simp only [show ¬ o.code % 4 = 2 by omega, show ¬ o.code % 4 = 1 by omega, if_false, if_true, ← wmonSize.eq_def, check,
    spaceParity_nil h.parity, toNat_of_toInt addr, expect]
  split
  · exact h.putScalar _ _
  · split
    · exact h.putScalar _ _
    · exact h.wait_settle (by rfl) (by rfl) (by rfl) _

/-- A legal check of a word of the scratchpad goes to the slice at its address, after the line has drained (R46, R50). -/
theorem Calm.wmonFirst_spd (space : o.code % 4 = 1) (legal : fits s i.g .spd (wmonSize o) a) :
    let lin := s.spBase i.g.ctx (dieOf i.g.core) + a
    wmonFirst o s i = ((s.wbDrainLine i.g.core (lin / 64 * 64)).modSlice (dieOf i.g.core) (homeSlice lin) (fun x =>
      x.send (.wmon i.gid i.sid lin (wmonSize o) (w64 (wmonExpect o i))))).setGroup i.gid { i.g with
        splits := i.g.splits.set i.sid { i.sp with wait := .wmon true o.sd none, awake := false } } := by
  intro lin
  have check := check_eq_none legal
  rw [addr] at check
  have expect : bits (i.sp.get (o.code / 2 ^ 8 % 64)) 0 (8 * wmonSize o) = wmonExpect o i := by simp [bits, wmonExpect]
  have drained := (wbDrainLine_drained h.parity i.g.core (lin / 64 * 64)).onDie
  unfold wmonFirst
  simp only [space, show ¬ (1 : Nat) = 2 by decide, reduceCtorEq, if_false, if_true, ← wmonSize.eq_def, check,
    spaceParity_nil h.parity, toNat_of_toInt addr, expect]
  obtain ⟨cs, ds, onDie⟩ := drained
  have there : s.wbDrainLine i.g.core ((s.origin i.g .spd + a) / 64 * 64) = { s with cores := cs, dies := ds } := onDie
  change _ = (State.modSlice (s.wbDrainLine i.g.core ((s.origin i.g .spd + a) / 64 * 64)) _ _ _).setGroup _ _
  rw [there]
  exact h.wait_settle (by rfl) (by rfl) (by rfl) _

end

/-- Main memory has no `wmon` (R276). -/
theorem Steady.wmonFirst_main (h : Steady s i) (space : o.code % 4 = 2) (traps : traps s i = true) :
    wmonFirst o s i = s.entered i 4 i.sp.mask (i.sp.get o.sa) := by
  obtain ⟨vector, outside⟩ : (s.ctxReg i.g.ctx 0x161).getLsbD 63 = true ∧ i.sp.trap.hnd = false := by
    simpa [Machine.traps] using traps
  rw [wmonFirst, if_pos space, h.trapAt _ _ (by decide) vector outside]

end

/-- Settles O28: a first issue makes its check, and the issue after its return writes the value. -/
theorem monitorsCheckArmAndReturn : Obligations.MonitorsCheckArmAndReturn := by
  unfold Obligations.MonitorsCheckArmAndReturn
  rintro s i o a _ calm rfl
  have h := calm_iff.mp calm
  refine ⟨fun b sd r wait => h.wmon_returned wait, fun wait addr => ?_⟩
  simp only [← wmonSize.eq_def, ← wmonExpect.eq_def o i]
  refine ⟨fun space legal => ?shm, fun space legal ret => ?spd, fun space traps => ?main⟩
  case shm =>
    rw [h.wmon_first wait (fun hr => by omega), h.wmonFirst_shm addr space legal]
    refine ⟨fun differs => by rw [if_pos differs], fun equal full => ?_, fun equal room => ?_⟩
    · rw [if_neg (not_not.mpr equal), if_pos full]
    · rw [if_neg (not_not.mpr equal), if_neg (not_le.mpr room)]; rfl
  case spd =>
    have drained := wbDrainLine_drained h.parity i.g.core ((s.spBase i.g.ctx (dieOf i.g.core) + a) / 64 * 64)
    rw [h.wmon_first wait (fun _ => ret), h.wmonFirst_spd addr space legal]
    generalize s.wbDrainLine _ _ = u at drained ⊢
    refine ⟨_, rfl, ?_, ?_⟩
    · rw [← drained.onDie.groups]; rfl
    · rw [← drained.all, ← homeSlice_eq]
      simp only [State.setGroup_slice, State.slice_modSlice_same, Slice.send_all]
      rfl
  case main =>
    rw [h.wmon_first wait (fun hr => by omega), (Steady.mk h wait).wmonFirst_main space traps]

end Sys2Proof.Machine

/-! ## Element operations of atomics (R41, R72, R211, R270) -/

namespace Sys2Proof.Machine

/-! ### Lists: order, duplicates and groups -/

theorem insertBy_perm {α : Type} (le : α → α → Bool) (a : α) (l : List α) : (insertBy le a l).Perm (a :: l) := by
  induction l with
  | nil => exact .refl _
  | cons b l ih =>
    unfold insertBy
    split
    · exact (ih.cons b).trans (.swap a b l)
    · exact .refl _

/-- A sorted list has the elements of the list. -/
theorem sortBy_perm {α : Type} (le : α → α → Bool) (l : List α) : (sortBy le l).Perm l := by
  have step : ∀ acc, (l.foldl (fun acc a => insertBy le a acc) acc).Perm (l ++ acc) := by
    induction l with
    | nil => exact fun acc => .refl _
    | cons a l ih =>
      intro acc
      exact (ih _).trans (((insertBy_perm le a acc).append_left l).trans List.perm_middle)
  simpa [sortBy] using step []

theorem nodup_eraseDups {α : Type} [DecidableEq α] (l : List α) : l.eraseDups.Nodup := by
  match l with
  | [] => exact List.nodup_nil
  | a :: l =>
    rw [List.eraseDups_cons, List.nodup_cons]
    exact ⟨by simp [List.mem_eraseDups], nodup_eraseDups _⟩
termination_by l.length
decreasing_by exact Nat.lt_succ_of_le (List.length_filter_le _ _)

/-- The keys of a list in ascending order, each once. -/
def keysOf {α : Type} (key : α → Nat) (l : List α) : List Nat :=
  sortBy (fun a b => decide (a ≤ b)) ((l.map key).eraseDups)

section
variable {α : Type} {key : α → Nat} {l : List α}

theorem mem_keysOf {a : Nat} : a ∈ keysOf key l ↔ ∃ x ∈ l, key x = a := by
  rw [keysOf, (sortBy_perm _ _).mem_iff, List.mem_eraseDups, List.mem_map]

theorem keysOf_nodup : (keysOf key l).Nodup := (sortBy_perm _ _).nodup_iff.mpr (nodup_eraseDups _)

/-- The groups of a list by key, one after the other, have its elements. -/
theorem flatMap_keysOf_perm (apart : l.Nodup) : ((keysOf key l).flatMap (fun a => l.filter (fun x => key x == a))).Perm l := by
  rw [List.perm_ext_iff_of_nodup ?_ apart]
  · intro x
    simp only [List.mem_flatMap, List.mem_filter, beq_iff_eq, mem_keysOf]
    constructor
    · rintro ⟨_, -, hx, -⟩
      exact hx
    · exact fun hx => ⟨key x, ⟨x, hx, rfl⟩, hx, rfl⟩
  · rw [List.nodup_flatMap]
    refine ⟨fun a _ => apart.filter _, keysOf_nodup.imp fun {a b} ne => ?_⟩
    simp only [Function.onFun, List.disjoint_left, List.mem_filter, beq_iff_eq, not_and]
    rintro x ⟨-, rfl⟩ -
    exact ne

end

/-! ### Values handed from lane to lane (R41, R211) -/

section
variable {σ : Type} (f : σ → Nat → σ) (p : Nat → Bool) (m : σ)

/-- The value that the chosen lanes below `n` leave, one after the other. -/
def handOn (n : Nat) : σ := ((List.range n).filter p).foldl f m

theorem handOn_succ (n : Nat) : handOn f p m (n + 1) = if p n then f (handOn f p m n) n else handOn f p m n := by
  rw [handOn, List.range_succ, List.filter_append, List.foldl_append]
  by_cases h : p n = true
  · simp [h, handOn]
  · simp [h, handOn]

/-- Noting the value before each lane leaves the value, and the notes. -/
theorem foldl_noting (n : Nat) :
    ((List.range n).filter p).foldl (fun acc l => (f acc.1 l, acc.2 ++ [(l, acc.1)])) (m, []) =
      (handOn f p m n, ((List.range n).filter p).map (fun l => (l, handOn f p m l))) := by
  induction n with
  | zero => rfl
  | succ n ih =>
    rw [handOn_succ, List.range_succ, List.filter_append, List.foldl_append, ih, List.map_append]
    by_cases h : p n = true
    · simp [h]
    · simp [h]

/-- Above the last chosen lane nothing changes. -/
theorem handOn_last {l n : Nat} (hl : p l = true) (last : ∀ q, l < q → p q = false) (h : l < n) :
    handOn f p m n = f (handOn f p m l) l := by
  induction n with
  | zero => cases h
  | succ n ih =>
    rw [handOn_succ]
    rcases Nat.lt_succ_iff_lt_or_eq.mp h with below | rfl
    · rw [last n below, if_neg (by decide), ih below]
    · rw [if_pos hl]

end

/-! ### Element operations (R72, R270) -/

/-- The operation compares before it writes. -/
def AtomOp.isCas : AtomOp → Bool
  | .cas _ => true
  | _ => false

/-- The operation of an atomic instruction (R270). -/
def AtomOp.issued : AtomOp → Bool
  | .fadd _ => true
  | .fmin _ => false
  | .fmax _ => false
  | .add w => w == 32 || w == 64
  | .min w _ => w == 32 || w == 64
  | .max w _ => w == 32 || w == 64
  | .and w => w == 32 || w == 64
  | .or w => w == 32 || w == 64
  | .xchg w => w == 32 || w == 64
  | .cas w => w == 32 || w == 64

/-- An atomic instruction issues its operation on the bytes of its elements. -/
theorem exec_atom {x : Instr} {o : MF} {n : Nat} {op : AtomOp} (h : atomRule x = some (o, n, op)) (s : State) :
    exec x s = onIssue s (issue (atomNeeds o op.isCas) (atomEffect o op)) ∧ n = op.size ∧ op.issued = true := by
  have width : ∀ o, (iscWidth o == 32 || iscWidth o == 64) = true := by
    intro o
    unfold iscWidth
    split
    · rfl
    · rfl
  unfold atomRule at h
  split at h
  · cases h; exact ⟨rfl, rfl, width o⟩
  · cases h; exact ⟨rfl, rfl, rfl⟩
  · cases h; exact ⟨rfl, rfl, width o⟩
  · cases h; exact ⟨rfl, rfl, width o⟩
  · cases h; exact ⟨rfl, rfl, width o⟩
  · cases h; exact ⟨rfl, rfl, width o⟩
  · cases h; exact ⟨rfl, rfl, width o⟩
  · cases h; exact ⟨rfl, rfl, width o⟩
  · cases h

/-- The bits of an element of the operation. -/
def AtomOp.width (op : AtomOp) : Nat := 8 * op.size

section
variable {w : Nat} (h : (w == 32 || w == 64) = true)
include h

theorem div_eight_pos : 0 < w / 8 := by
  simp only [Bool.or_eq_true, beq_iff_eq] at h
  omega

theorem mul_div_eight : 8 * (w / 8) = w := by
  simp only [Bool.or_eq_true, beq_iff_eq] at h
  omega

end

theorem AtomOp.size_pos {op : AtomOp} (h : op.issued = true) : 0 < op.size := by
  cases op with
  | fadd t => cases t <;> decide
  | fmin t | fmax t => cases h
  | add w | min w sgn | max w sgn | and w | or w | xchg w | cas w => exact div_eight_pos h

/-! ### Bounds of rounded values (R202) -/

theorem signed_lt {f : Fmt} {x : Nat} (neg : Bool) (h : x < f.signBit) : f.signed neg x < 2 ^ f.width := by
  have double : 2 ^ f.width = f.signBit + f.signBit := by rw [Fmt.width, pow_succ, Fmt.signBit]; omega
  unfold Fmt.signed
  split
  · omega
  · omega

/-- The special patterns of a format lie below its sign bit. -/
def Fmt.tidy (f : Fmt) : Bool :=
  decide (f.maxFin < f.signBit) && decide (f.nanBits < f.signBit) && f.inf.all (fun x => decide (x < f.signBit))

theorem tyFmt_tidy (t : FloatTy) : (tyFmt t).tidy = true := by cases t <;> decide

section
variable {f : Fmt} (tidy : f.tidy = true)
include tidy

theorem overflow_lt (sat : Bool) (mode : Nat) (neg ofInf : Bool) : f.overflow sat mode neg ofInf < 2 ^ f.width := by
  simp only [Fmt.tidy, Bool.and_eq_true, decide_eq_true_eq] at tidy
  obtain ⟨⟨top, nan⟩, inf⟩ := tidy
  unfold Fmt.overflow
  dsimp only
  split
  · exact signed_lt neg top
  · split
    · next x hx =>
      rw [hx] at inf
      exact signed_lt neg (by simpa using inf)
    · exact signed_lt false nan

/-- A magnitude that fits, or the overflow value. -/
theorem fitted_lt (sat : Bool) (mode : Nat) (neg : Bool) (mag : Nat) (a b : Flags) :
    (if f.maxFin < mag then (f.overflow sat mode neg false, a) else (f.signed neg mag, b)).1 < 2 ^ f.width := by
  have patterns := tidy
  simp only [Fmt.tidy, Bool.and_eq_true, decide_eq_true_eq] at patterns
  obtain ⟨⟨top, -⟩, -⟩ := patterns
  split
  · exact overflow_lt tidy _ _ _ _
  · next h => exact signed_lt _ (lt_of_le_of_lt (not_lt.mp h) top)

/-- A rounded value is a pattern of its format. -/
theorem round_lt (sat : Bool) (mode : Nat) (v : FVal) (nv : Bool) : (f.round sat mode v nv).1 < 2 ^ f.width := by
  have patterns := tidy
  simp only [Fmt.tidy, Bool.and_eq_true, decide_eq_true_eq] at patterns
  obtain ⟨⟨top, nan⟩, -⟩ := patterns
  unfold Fmt.round
  split
  · exact signed_lt false nan
  · exact overflow_lt tidy _ _ _ _
  · exact signed_lt _ (lt_of_le_of_lt (Nat.zero_le _) top)
  · exact fitted_lt tidy sat mode _ _ _ _

end

theorem faddBits_lt (t : FloatTy) (mode a b : Nat) : (faddBits (tyFmt t) mode a b).1 < 2 ^ (tyFmt t).width :=
  round_lt (tyFmt_tidy t) _ _ _ _

/-! ### Elements (R72) -/

/-- The rule of an element operation is what the model applies. -/
theorem apply_eq_atomVal (op : AtomOp) (m b c : Nat) : op.apply m b c = atomVal op m b c := by
  cases op with
  | min w sgn => cases sgn <;> rfl
  | max w sgn => cases sgn <;> rfl
  | _ => rfl

/-- An element operation of an instruction gives an element again. -/
theorem atomVal_lt {op : AtomOp} (h : op.issued = true) {m b : Nat} (c : Nat) (hm : m < 2 ^ op.width) (hb : b < 2 ^ op.width) :
    atomVal op m b c < 2 ^ op.width := by
  cases op with
  | add w =>
    have bits : (AtomOp.add w).width = w := mul_div_eight h
    rw [bits]
    exact Nat.mod_lt _ (by positivity)
  | fadd t =>
    have bits : (AtomOp.fadd t).width = (tyFmt t).width := by cases t <;> rfl
    rw [bits]
    exact faddBits_lt t 0 m b
  | fmin t => cases h
  | fmax t => cases h
  | min w sgn =>
    simp only [atomVal]
    split
    · split
      · exact hm
      · exact hb
    · exact lt_of_le_of_lt (min_le_left _ _) hm
  | max w sgn =>
    simp only [atomVal]
    split
    · split
      · exact hb
      · exact hm
    · exact max_lt hm hb
  | and w => exact lt_of_le_of_lt Nat.and_le_left hm
  | or w => exact Nat.or_lt_two_pow hm hb
  | xchg w => exact hb
  | cas w =>
    simp only [atomVal]
    split
    · exact hb
    · exact hm

end Sys2Proof.Machine

/-! ## Lanes combined by element (R41, R211) -/

namespace Sys2Proof.Machine

/-! ### Combining lanes (R41, R211) -/

/-- All operations but a float add are applied to the elements one after the other. -/
theorem combine_eq_foldl {op : AtomOp} (h : ∀ t, op ≠ .fadd t) (m : Nat) (es : List Elem) : combine op m es =
    es.foldl (fun acc e => (op.apply acc.1 (e.b.toNat % 2 ^ op.width) (e.cmp.toNat % 2 ^ op.width), acc.2 ++ [(e.lane, acc.1)]))
      (m, []) := by
  cases op with
  | fadd t => exact absurd rfl (h t)
  | _ => rfl

/-- The lanes of an atomic as elements: address, operand and compare value by lane. -/
def elemOf (addr : Nat → Nat) (b c : Nat → Word) (l : Nat) : Elem := ⟨l, addr l, b l, c l⟩

/-- An element after the contribution of a lane. -/
def laneVal (op : AtomOp) (b c : Nat → Word) (v l : Nat) : Nat :=
  atomVal op v ((b l).toNat % 2 ^ op.width) ((c l).toNat % 2 ^ op.width)

section
variable {op : AtomOp} {addr : Nat → Nat} {b c : Nat → Word} {p : Nat → Bool}

/-- Lanes of one element combine in ascending order, and each returns the value before its own; of a float add, one lane. -/
theorem combine_lanes (single : ∀ t, op = .fadd t → ∀ l q, p l = true → p q = true → q = l) (v n : Nat) :
    combine op v (((List.range n).filter p).map (elemOf addr b c)) =
      (handOn (laneVal op b c) p v n, ((List.range n).filter p).map (fun l => (l, handOn (laneVal op b c) p v l))) := by
  rw [← foldl_noting]
  by_cases add : ∃ t, op = .fadd t
  · obtain ⟨t, rfl⟩ := add
    have chosen : ∀ l ∈ (List.range n).filter p, p l = true := fun l hl => (List.mem_filter.mp hl).2
    have apart : ((List.range n).filter p).Nodup := List.nodup_range.filter _
    generalize (List.range n).filter p = ls at chosen apart
    match ls with
    | [] => rfl
    | [l] => rfl
    | l :: q :: ls =>
      have same := single t rfl l q (chosen l (by simp)) (chosen q (by simp))
      simp [same] at apart
  · rw [combine_eq_foldl (fun t h => add ⟨t, h⟩), List.foldl_map]
    simp only [elemOf, apply_eq_atomVal, laneVal]

/-- Lanes handed from one to the next hold an element. -/
theorem handOn_lt (issued : op.issued = true) {v : Nat} (hv : v < 2 ^ op.width) (n : Nat) :
    handOn (laneVal op b c) p v n < 2 ^ op.width := by
  induction n with
  | zero => exact hv
  | succ n ih =>
    rw [handOn_succ]
    split
    · exact atomVal_lt issued _ ih (Nat.mod_lt _ (by positivity))
    · exact ih

end

section
variable {op : AtomOp} (addr : Nat → Nat) (b c : Nat → Word) (m : Mask) (read : Nat → List Byte)

/-- The lanes of a mask that target the element at `a`. -/
def target (addr : Nat → Nat) (m : Mask) (a q : Nat) : Bool := m.getLsbD q && addr q == a

/-- The value of the element at `a` before lane `l` of a mask. -/
def valueBefore (op : AtomOp) (addr : Nat → Nat) (b c : Nat → Word) (m : Mask) (read : Nat → List Byte) (a l : Nat) : Nat :=
  handOn (laneVal op b c) (target addr m a) (leNat (read a)) l

theorem filter_target (a : Nat) : ((lanesOf m).map (elemOf addr b c)).filter (fun e => e.addr == a) =
    ((List.range 32).filter (target addr m a)).map (elemOf addr b c) := by
  rw [List.filter_map, lanesOf, List.filter_filter]
  refine congrArg _ (List.filter_congr fun q _ => ?_)
  exact Bool.and_comm _ _

/-- What the lanes of a mask write and return: each element its last value, each lane the value before its own (R41). -/
theorem applyElems_lanes (single : ∀ t, op = .fadd t → ∀ l q, m.getLsbD l = true → m.getLsbD q = true → addr q = addr l → q = l) :
    applyElems op read ((lanesOf m).map (elemOf addr b c)) =
      ((keysOf addr (lanesOf m)).map (fun a => (a, leBytes op.size (valueBefore op addr b c m read a 32))),
        (keysOf addr (lanesOf m)).flatMap (fun a => ((lanesOf m).filter (fun l => addr l == a)).map (fun l =>
          (l, w64 (valueBefore op addr b c m read (addr l) l))))) := by
  have groups : byAddress ((lanesOf m).map (elemOf addr b c)) = (keysOf addr (lanesOf m)).map (fun a =>
      (a, ((List.range 32).filter (target addr m a)).map (elemOf addr b c))) := by
    simp only [byAddress, filter_target, List.map_map]
    rfl
  have one : ∀ a t, op = .fadd t → ∀ l q, target addr m a l = true → target addr m a q = true → q = l := by
    intro a t ht l q hl hq
    simp only [target, Bool.and_eq_true, beq_iff_eq] at hl hq
    exact single t ht l q hl.1 hq.1 (hq.2.trans hl.2.symm)
  have lanes : ∀ a, (List.range 32).filter (target addr m a) = (lanesOf m).filter (fun l => addr l == a) := by
    intro a
    rw [lanesOf, List.filter_filter]
    exact List.filter_congr fun q _ => Bool.and_comm _ _
  simp only [applyElems, groups, List.map_map, List.flatMap_map, Function.comp_def, combine_lanes (one _), Prod.mk.injEq]
  refine ⟨rfl, List.flatMap_congr fun a _ => ?_⟩
  rw [lanes]
  refine List.map_congr_left fun l hl => ?_
  obtain rfl : addr l = a := by simpa using (List.mem_filter.mp hl).2
  rfl

/-- The values returned are those of the lanes, in some order. -/
theorem returned_perm (f : Nat → Word) :
    ((keysOf addr (lanesOf m)).flatMap (fun a => ((lanesOf m).filter (fun l => addr l == a)).map (fun l => (l, f l)))).Perm
      (onLanes m f) := by
  rw [← List.map_flatMap]
  exact (flatMap_keysOf_perm (List.nodup_range.filter _)).map _

end

/-! ### Elements of a memory -/

/-- `n`-byte elements are written at aligned addresses. -/
def Memory.putElems (mem : Memory) (n : Nat) (ws : List (Nat × Nat)) : Memory :=
  ws.foldl (fun m w => m.writeN w.1 n w.2) mem

theorem Memory.readBytes_writeBytes_apart (m : Memory) {a k n : Nat} {bs : List Byte} (h : a + n ≤ k ∨ k + bs.length ≤ a) :
    (m.writeBytes k bs).readBytes a n = m.readBytes a n := by
  induction n generalizing a with
  | zero => rfl
  | succ n ih =>
    rw [Memory.readBytes, Memory.readBytes, Memory.read_writeBytes_outside _ _ _ (by omega), ih (by omega)]

section
variable {mem : Memory} {n : Nat} {ws : List (Nat × Nat)}

/-- Bytes of no element keep their values. -/
theorem Memory.read_putElems_outside {j : Nat} (out : ∀ w ∈ ws, j < w.1 ∨ w.1 + n ≤ j) : (mem.putElems n ws).read j = mem.read j := by
  induction ws generalizing mem with
  | nil => rfl
  | cons w ws ih =>
    refine (ih fun v hv => out v (List.mem_cons_of_mem _ hv)).trans (Memory.read_writeBytes_outside _ _ _ ?_)
    rw [leBytes_length]
    exact out w List.mem_cons_self

/-- Of elements at different aligned addresses each is read back. -/
theorem Memory.readN_putElems (aligned : ∀ w ∈ ws, w.1 % n = 0) (apart : (ws.map (fun w => w.1)).Nodup) {w : Nat × Nat}
    (hw : w ∈ ws) (fits : w.2 < 256 ^ n) : (mem.putElems n ws).readN w.1 n = w.2 := by
  have places : ws = (ws.map (fun w => (w.1 / n, w.2))).map (fun w => (n * w.1, w.2)) := by
    rw [List.map_map]
    refine (List.map_id ws).symm.trans (List.map_congr_left fun w hw => ?_)
    exact Prod.ext (Nat.mul_div_cancel' (Nat.dvd_of_mod_eq_zero (aligned w hw))).symm rfl
  have put : mem.putElems n ws = (ws.map (fun w => (w.1 / n, w.2))).foldl (fun m w => m.writeN (n * w.1) n w.2) mem := by
    conv_lhs => rw [places]
    rw [Memory.putElems, List.foldl_map]
  have keys : ((ws.map (fun w => (w.1 / n, w.2))).map (fun w => w.1)).Nodup := by
    rw [places, List.map_map] at apart
    exact List.Nodup.of_map (fun k => n * k) (by rw [List.map_map]; exact apart)
  have back := get_foldl_put (put := fun (m : Memory) k v => m.writeN (n * k) n v) (get := fun m k => m.readBytes (n * k) n)
    (val := leBytes n) (fun m k v => by
      have := m.readBytes_writeBytes (n * k) (leBytes n v)
      rwa [leBytes_length] at this)
    (fun m k j v ne => m.readBytes_writeBytes_apart (by
      rw [leBytes_length]
      rcases Nat.lt_or_gt_of_ne ne with h | h
      · exact .inl (Nat.mul_le_mul_left n h)
      · exact .inr (Nat.mul_le_mul_left n h)))
    (m := mem) keys (List.mem_map.mpr ⟨w, hw, rfl⟩)
  have whole : n * (w.1 / n) = w.1 := Nat.mul_div_cancel' (Nat.dvd_of_mod_eq_zero (aligned w hw))
  simp only [whole] at back
  rw [Memory.readN, put, back, leNat_leBytes, Nat.mod_eq_of_lt fits]

end

end Sys2Proof.Machine

/-! ## Atomics on shared memory (O25) -/

namespace Sys2Proof.Machine

/-! ### Shared memory where nothing watches it (R40) -/

/-- A block whose shared memory no checkpoint keeps, no engine uses, no copy writes and no `wmon` watches. -/
structure Unwatched (u : State) (bid : Nat) (k : Block) : Prop where
  parity : u.parity = []
  live : u.blocks.get? bid = some k
  checkpoint : k.checkpoint = none
  ops : ∀ e ∈ u.groups, e.2.ops = []
  monitors : (u.core k.core).monitors = []
  copies : u.copies = []

namespace Unwatched
variable {u : State} {bid : Nat} {k : Block}

theorem attnUses (h : Unwatched u bid k) (space key lo n : Nat) : u.attnUses space key lo n = false := by
  rw [State.attnUses, List.any_eq_false]
  intro e he
  simp [h.ops e he]

theorem shmRead (h : Unwatched u bid k) (a n : Nat) : u.shmRead bid a n = k.shm.readBytes a n := by
  simp [State.shmRead, h.live, State.shmOpen, State.flightShm, h.copies, h.attnUses]

theorem withoutReductions (h : Unwatched u bid k) : u.withoutReductions = u := by
  rw [State.withoutReductions, h.copies, List.filter_nil, ← h.copies]

theorem setShm (h : Unwatched u bid k) (mem : Memory) : Unwatched (u.setBlock bid { k with shm := mem }) bid { k with shm := mem } :=
  ⟨h.parity, Sparse.get?_set_same _ _ _, h.checkpoint, h.ops, h.monitors, h.copies⟩

/-- A store to it changes its bytes alone. -/
theorem shmStore (h : Unwatched u bid k) (a : Nat) {bs : List Byte} (some_bytes : bs ≠ []) :
    u.shmStore bid a bs = u.setBlock bid { k with shm := k.shm.writeBytes a bs } := by
  have keep : u.keepLines bid a bs.length = u := by simp only [State.keepLines, h.live, h.checkpoint]
  have spoil : u.spoilUses 0 bid a bs.length = u := by simp only [State.spoilUses, h.attnUses, Bool.false_eq_true, if_false]
  have clear : ∀ b, (u.setBlock bid b).shmClear k a bs.length = u.setBlock bid b := fun b => by
    simp only [State.shmClear, State.setBlock_parity, h.parity, List.isEmpty_nil, if_true]
  have monitors : ∀ b, ((u.setBlock bid b).core k.core).monitors = [] := fun _ => h.monitors
  simp only [State.shmStore, List.isEmpty_iff, some_bytes, if_false, keep, State.shmWrite, spoil, State.shmPut, h.live, clear, monitors,
    List.filter_nil, if_true]

/-- Elements stored one after the other. -/
theorem foldl_shmStore (h : Unwatched u bid k) {n : Nat} (hn : 0 < n) (ws : List (Nat × Nat)) :
    ws.foldl (fun v w => v.shmStore bid w.1 (leBytes n w.2)) u =
      if ws = [] then u else u.setBlock bid { k with shm := k.shm.putElems n ws } := by
  induction ws generalizing u k with
  | nil => rfl
  | cons w ws ih =>
    have bytes : leBytes n w.2 ≠ [] := by
      intro none
      have := leBytes_length n w.2
      rw [none, List.length_nil] at this
      omega
    rw [List.foldl_cons, h.shmStore _ bytes, ih (h.setShm _), if_neg (List.cons_ne_nil _ _)]
    split
    · next last => rw [last]; rfl
    · rw [State.setBlock_setBlock]; rfl

end Unwatched

theorem leNat_lt (bs : List Byte) : leNat bs < 256 ^ bs.length := by
  induction bs with
  | nil => exact Nat.one_pos
  | cons b bs ih =>
    have := b.isLt
    rw [leNat, List.length_cons, pow_succ]
    omega

/-! ### The atomic (R271) -/

theorem lanesOf_eq_nil {m : Mask} : lanesOf m = [] ↔ m = 0 := by
  constructor
  · intro none
    rw [← maskList_lanesOf m, none]
    rfl
  · rintro rfl
    exact List.filter_eq_nil_iff.mpr fun l _ => by simp [lane]

theorem keysOf_eq_nil {α : Type} {key : α → Nat} {l : List α} : keysOf key l = [] ↔ l = [] := by
  constructor
  · intro none
    rw [List.eq_nil_iff_forall_not_mem]
    intro x hx
    have := (mem_keysOf (key := key) (a := key x)).mpr ⟨x, hx, rfl⟩
    rw [none] at this
    cases this
  · rintro rfl
    rfl

/-- The element address, operand and compare value of a lane of an atomic (R270). -/
def atomAddr (i : Issue) (o : MF) (l : Nat) : Nat := (i.g.v? o.va l).toNat
def atomB (i : Issue) (op : AtomOp) (o : MF) (l : Nat) : Word := i.g.v? (if op.isCas then o.vd + 1 else o.va + 1) l
def atomC (i : Issue) (op : AtomOp) (o : MF) (l : Nat) : Word := if op.isCas then i.g.v? o.vd l else 0

theorem laneVal_atomArgs (i : Issue) (op : AtomOp) (o : MF) (v l : Nat) : laneVal op (atomB i op o) (atomC i op o) v l =
    atomVal op v (atomArgs i op o op.size l).1 (atomArgs i op o op.size l).2 := by
  cases op with
  | cas w => rfl
  | _ => simp [laneVal, atomArgs, atomB, atomC, AtomOp.isCas, AtomOp.width]

section
variable {s : State} {i : Issue} {o : MF} {op : AtomOp}

/-- An atomic whose registers are allocated, with room for its result, takes effect. -/
theorem Calm.atom_issue (h : Calm s i) (eff : State → Issue → State) (room : i.g.room o.sb) (slot : s.retSlots i.g.core < 128)
    (hd : i.g.names o.vd = true) (ha : o.va + 1 < i.g.nregs) (hc : ∀ w, op = .cas w → o.vd + 1 < i.g.nregs) :
    onIssue s (Machine.issue (atomNeeds o op.isCas) eff) = .next (eff s i) := by
  rw [onIssue_of _ h.issuer, h.issue (atomNeeds o op.isCas) eff (Needs.beyond_none ?_) room (fun _ => slot)]
  have allocated : ∀ r, r < i.g.nregs → i.g.names r = true := fun r hr => by simp [Group.names, hr]
  have run : op.isCas = true → i.g.names (o.vd + 1) = true := by
    cases op with
    | cas w => exact fun _ => allocated _ (hc w rfl)
    | _ => rintro ⟨⟩
  intro r hr
  simp only [atomNeeds, List.mem_append, List.mem_cons, List.not_mem_nil, or_false] at hr
  rcases hr with rfl | hr | rfl | rfl
  · exact hd
  · split at hr
    · next cas =>
      simp only [List.mem_cons, List.not_mem_nil, or_false] at hr
      rcases hr with rfl | rfl
      · exact hd
      · exact run cas
    · cases hr
  · exact allocated _ (by omega)
  · exact allocated _ ha

theorem Calm.atomLanes (h : Calm s i) : atomLanes s i o op.isCas =
    (lanesOf (i.guard o.p o.pn)).map (fun l => (l, i.g.v? o.va l, atomB i op o l, atomC i op o l)) := by
  simp only [Machine.atomLanes, h.vread, atomB, atomC]
  refine List.map_congr_left fun l _ => ?_
  split
  · rfl
  · rfl

/-- No release waits, so the atomic goes to its space. -/
theorem Calm.atomEffect_eq (h : Calm s i) (performed : s.unperformed i.gid = false) {ls : List (Nat × Word × Word × Word)}
    (lanes : ls = (lanesOf (i.guard o.p o.pn)).map (fun l => (l, i.g.v? o.va l, atomB i op o l, atomC i op o l))) :
    atomEffect o op s i = if atomSpace o = 0 then atomShm o op ls s i
      else if atomSpace o = 1 then atomSpd o op ls s i else atomMem o op ls s i := by
  rw [lanes, ← h.atomLanes]
  unfold atomEffect
  rw [performed, if_neg (by simp)]
  rfl

/-- The result that an atomic awaits (R51, R272). -/
def atomPend (s : State) (i : Issue) (o : MF) (m : Mask) (need : Nat) : Pend :=
  ⟨s.nextId, i.sid, dests [o.vd], m, [], need, o.sb, o.vd != zReg, 0, 0, [], 0⟩

/-- The group that awaits a result, counted in its scoreboard slot. -/
def awaiting (i : Issue) (o : MF) (p : Pend) : Group := { i.g with
  outs := [p]
  sb := match o.sb with
    | some k => i.g.sb.set k (i.g.sb.getD k 0 + 1)
    | none => i.g.sb }

theorem Calm.awaitReply_some (h : Calm s i) {m : Mask} (need : Nat) (awaits : ¬ ((o.vd = zReg ∧ o.order % 2 = 0) ∨ m = 0)) :
    s.awaitReply i o m need = (State.setGroup { s with nextId := s.nextId + 1 } i.gid (awaiting i o (atomPend s i o m need)),
      some s.nextId) := by
  have live : s.newId.2.groups.get? i.gid = some i.g := (issuer_split h.issuer).1
  simp only [State.awaitReply, if_neg awaits, State.modGroup_of_get? _ live, h.outs, List.map_nil, List.foldl_nil, List.nil_append]
  rfl

/-- A result for `z` or for no lane is not awaited. -/
theorem sendOn_nothing {r : Nat} {m : Mask} (h : r = zReg ∨ m = 0) (vals : List (Nat × Word)) (sb : Option Nat) :
    s.sendOn i r m vals 0 sb = s.goOn i i.g i.sp := by
  have zero : i.g.gst ||| 0 = i.g.gst := BitVec.or_zero
  have empty : (if r = zReg then [] else [r]) = [] ∨ m = 0 := h.imp_left fun hr => if_pos hr
  simp only [State.sendOn, State.sendRun, if_pos empty, zero]

theorem sendOn_result {r : Nat} {m : Mask} (hr : r ≠ zReg) (hm : m ≠ 0) (vals : List (Nat × Word)) :
    s.sendOn i r m vals 0 o.sb = State.goOn { s with nextId := s.nextId + 1 } i
      (awaiting i o ⟨s.nextId, i.sid, [r], m, laneData r vals, 0, o.sb, false, 0, 0, [], 0⟩) i.sp := by
  simp only [State.sendOn, State.sendRun, if_neg hr, List.cons_ne_nil, hm, or_self, if_false]
  rfl

/-- The result of an atomic on shared memory is on its way in a return slot. -/
theorem Calm.atomShm_send (h : Calm s i) (m : Mask) (olds : List (Nat × Word)) :
    (if o.vd = zReg then s.done i
      else State.done (State.modGroup (s.awaitReply i o m 0).1 i.gid (fun g => { g with outs := g.outs.map (fun p =>
        if some p.id = (s.awaitReply i o m 0).2 then { p with data := laneData o.vd olds } else p) })) i) =
    if o.vd = zReg ∨ m = 0 then s.sendOn i o.vd m olds 0 o.sb
    else (s.sendOn i o.vd m olds 0 o.sb).modGroup i.gid (fun g => { g with outs := g.outs.map (fun p => { p with ret := true }) }) := by
  by_cases hz : o.vd = zReg
  · rw [if_pos hz, if_pos (.inl hz), sendOn_nothing (.inl hz), h.done_self]
  · rw [if_neg hz]
    by_cases hm : m = 0
    · have none_awaited : s.awaitReply i o m 0 = (s, none) := by rw [State.awaitReply, if_pos (.inr hm)]
      rw [none_awaited, if_pos (.inr hm), sendOn_nothing (.inr hm), State.modGroup_of_get? _ (issuer_split h.issuer).1, h.outs,
        List.map_nil, ← h.outs]
      exact h.done_setGroup (by exact ⟨rfl, rfl, rfl, rfl, rfl⟩) (by rfl) (by rfl)
    · have regs : dests [o.vd] = [o.vd] := by simp [dests, hz]
      have ret : (o.vd != zReg) = true := by simp [hz]
      rw [if_neg (by tauto), h.awaitReply_some 0 (by tauto), sendOn_result hz hm, State.modGroup_setGroup, State.goOn,
        State.modGroup_setGroup, h.done_setGroup (by exact ⟨rfl, rfl, rfl, rfl, rfl⟩) (by rfl) (by rfl), State.goOn]
      simp only [awaiting, atomPend, regs, ret, List.map_cons, List.map_nil, if_true]

end

section
variable (op : AtomOp) (addr : Nat → Nat) (b c : Nat → Word) (m : Mask) (shm : Memory)

/-- What the lanes of an atomic write: by element address, the value that the last lane leaves. -/
def elemWrites : List (Nat × Nat) := (keysOf addr (lanesOf m)).map (fun a =>
  (a, valueBefore op addr b c m (fun a => shm.readBytes a op.size) a 32))

/-- What they return: by lane, the value before it. -/
def elemOlds : List (Nat × Word) := (keysOf addr (lanesOf m)).flatMap (fun a =>
  ((lanesOf m).filter (fun l => addr l == a)).map (fun l =>
    (l, w64 (valueBefore op addr b c m (fun a => shm.readBytes a op.size) (addr l) l))))

end

section
variable {op : AtomOp} {addr : Nat → Nat} {b c : Nat → Word} {m : Mask}

theorem Unwatched.shmAtomic {u : State} {bid : Nat} {k : Block} (h : Unwatched u bid k) (issued : op.issued = true)
    (single : ∀ t, op = .fadd t → ∀ l q, m.getLsbD l = true → m.getLsbD q = true → addr q = addr l → q = l) :
    u.shmAtomic bid op ((lanesOf m).map (elemOf addr b c)) =
      (if m = 0 then u else u.setBlock bid { k with shm := k.shm.putElems op.size (elemWrites op addr b c m k.shm) },
        elemOlds op addr b c m k.shm) := by
  have none : elemWrites op addr b c m k.shm = [] ↔ m = 0 := by rw [elemWrites, List.map_eq_nil_iff, keysOf_eq_nil, lanesOf_eq_nil]
  simp only [State.shmAtomic, State.combined, h.withoutReductions, h.shmRead, applyElems_lanes addr b c m _ single, List.foldl_map]
  refine Prod.ext ?_ rfl
  have stores := h.foldl_shmStore (AtomOp.size_pos issued) (elemWrites op addr b c m k.shm)
  simp only [none] at stores
  rw [← stores, elemWrites, List.foldl_map]

/-- The element of a lane holds what its last lane leaves, given that the elements are aligned. -/
theorem readN_elemWrites {shm : Memory} (issued : op.issued = true) (aligned : ∀ l, m.getLsbD l = true → addr l % op.size = 0)
    {l : Nat} (hl : m.getLsbD l = true) (last : ∀ q, l < q → target addr m (addr l) q = false) :
    (shm.putElems op.size (elemWrites op addr b c m shm)).readN (addr l) op.size =
      laneVal op b c (valueBefore op addr b c m (fun a => shm.readBytes a op.size) (addr l) l) l := by
  have lane_aligned : ∀ w ∈ elemWrites op addr b c m shm, w.1 % op.size = 0 := by
    intro w hw
    obtain ⟨a, ha, rfl⟩ := List.mem_map.mp hw
    obtain ⟨q, hq, rfl⟩ := mem_keysOf.mp ha
    exact aligned q (mem_lanesOf.mp hq)
  have apart : ((elemWrites op addr b c m shm).map (fun w => w.1)).Nodup := by
    rw [elemWrites, List.map_map]
    exact (List.map_id _).symm ▸ keysOf_nodup
  have here : (addr l, valueBefore op addr b c m (fun a => shm.readBytes a op.size) (addr l) 32) ∈ elemWrites op addr b c m shm :=
    List.mem_map.mpr ⟨addr l, mem_keysOf.mpr ⟨l, mem_lanesOf.mpr hl, rfl⟩, rfl⟩
  have start : leNat (shm.readBytes (addr l) op.size) < 2 ^ op.width := by
    have := leNat_lt (shm.readBytes (addr l) op.size)
    rwa [Memory.readBytes_length, show 256 = 2 ^ 8 from rfl, ← pow_mul] at this
  have fits : valueBefore op addr b c m (fun a => shm.readBytes a op.size) (addr l) 32 < 256 ^ op.size :=
    (handOn_lt issued start 32).trans_eq (by rw [AtomOp.width, pow_mul]; rfl)
  refine (Memory.readN_putElems lane_aligned apart here fits).trans ?_
  exact handOn_last _ _ _ (by simp [target, hl]) last (BitVec.lt_of_getLsbD hl)

theorem read_elemWrites_outside {shm : Memory} {a : Nat} (out : ∀ l, m.getLsbD l = true → a < addr l ∨ addr l + op.size ≤ a) :
    (shm.putElems op.size (elemWrites op addr b c m shm)).read a = shm.read a := by
  refine Memory.read_putElems_outside fun w hw => ?_
  obtain ⟨k, hk, rfl⟩ := List.mem_map.mp hw
  obtain ⟨q, hq, rfl⟩ := mem_keysOf.mp hk
  exact out q (mem_lanesOf.mp hq)

end

section
variable {s : State} {i : Issue} {o : MF} {op : AtomOp}

/-- A block of a steady split, where no monitor is armed and no engine works, is unwatched. -/
theorem Poised.unwatched (h : Poised s i) {k : Block} (live : s.blocks.get? i.g.bid = some k) (quiet : quietMem s = true)
    (copies : s.copies = []) : Unwatched s i.g.bid k := by
  simp only [quietMem, Bool.and_eq_true, List.all_eq_true, List.isEmpty_iff] at quiet
  obtain ⟨⟨ops, monitors⟩, -⟩ := quiet
  refine ⟨h.parity, live, (h.block k live).2, ops, ?_, copies⟩
  cases hc : s.cores.get? k.core with
  | none => simp [State.core, Sparse.getD, hc, Core.init]
  | some c => simpa [State.core, Sparse.getD, hc] using monitors _ (mem_of_get? hc)

theorem Unwatched.drained {u : State} {bid : Nat} {k : Block} (h : Unwatched s bid k) (d : Drained s u) : Unwatched u bid k := by
  obtain ⟨⟨cs, ds, rfl⟩, -, -, monitors⟩ := d
  exact ⟨h.parity, h.live, h.checkpoint, h.ops, (monitors _).trans h.monitors, h.copies⟩

/-- New bytes of the shared memory of its block leave a split as calm as it was. -/
theorem Calm.setShm (h : Calm s i) {bid : Nat} {k : Block} (live : s.blocks.get? bid = some k) (mem : Memory) :
    Calm (s.setBlock bid { k with shm := mem }) i := by
  refine { h with issuer := h.issuer, parity := h.parity, block := fun b hb => ?_ }
  by_cases same : i.g.bid = bid
  · subst same
    obtain rfl : { k with shm := mem } = b := by simpa using hb
    exact h.block k live
  · rw [State.setBlock_blocks, Sparse.get?_set_ne _ _ same] at hb
    exact h.block b hb

/-- The effect of an atomic on shared memory whose lanes are all legal. -/
theorem Calm.atomShm_legal (h : Calm s i) {k : Block} (clear : Unwatched s i.g.bid k) (issued : op.issued = true)
    (legal : ∀ l, (i.guard o.p o.pn).getLsbD l = true → fits s i.g .shm op.size (i.g.v? o.va l).toInt)
    (single : ∀ t, op = .fadd t → ∀ l q, (i.guard o.p o.pn).getLsbD l = true → (i.guard o.p o.pn).getLsbD q = true →
      atomAddr i o q = atomAddr i o l → q = l)
    {ls : List (Nat × Word × Word × Word)}
    (lanes : ls = (lanesOf (i.guard o.p o.pn)).map (fun l => (l, i.g.v? o.va l, atomB i op o l, atomC i op o l))) :
    let m := i.guard o.p o.pn
    let u := s.ordered i o.order o.scope (atomRmt o)
    let v := if m = 0 then u else u.setBlock i.g.bid { k with
      shm := k.shm.putElems op.size (elemWrites op (atomAddr i o) (atomB i op o) (atomC i op o) m k.shm) }
    let olds := elemOlds op (atomAddr i o) (atomB i op o) (atomC i op o) m k.shm
    atomShm o op ls s i = if o.vd = zReg ∨ m = 0 then v.sendOn i o.vd m olds 0 o.sb
      else (v.sendOn i o.vd m olds 0 o.sb).modGroup i.gid (fun g => { g with
        outs := g.outs.map (fun p => { p with ret := true }) }) := by
  intro m u v olds
  have drained := ordered_drained h.parity i o.order o.scope (atomRmt o)
  have calm : Calm v i := by
    have before : Calm u i := drained.onDie.calm h
    unfold v
    split
    · exact before
    · exact before.setShm (clear.drained drained).live _
  have offsets : ls.map (fun e => (e.1, e.2.1.toInt)) = (lanesOf m).map (fun l => (l, (i.g.v? o.va l).toInt)) := by
    rw [lanes, List.map_map]; rfl
  have mask : maskList (ls.map (fun e => e.1)) = m := by
    rw [lanes, List.map_map]
    exact (congrArg maskList (List.map_id _)).trans (maskList_lanesOf m)
  have elems : ls.map (fun e => (⟨e.1, e.2.1.toNat, e.2.2.1, e.2.2.2⟩ : Elem)) =
      (lanesOf m).map (elemOf (atomAddr i o) (atomB i op o) (atomC i op o)) := by
    rw [lanes, List.map_map]; rfl
  have fail : s.laneFail i.g .shm op.size ((lanesOf m).map (fun l => (l, (i.g.v? o.va l).toInt))) = none := laneFail_none legal
  have atomic : (s.ordered i o.order o.scope (atomRmt o)).shmAtomic i.g.bid op
      ((lanesOf m).map (elemOf (atomAddr i o) (atomB i op o) (atomC i op o))) = (v, olds) :=
    (clear.drained drained).shmAtomic issued single
  rw [← calm.atomShm_send]
  simp only [atomShm, offsets, fail, laneParity_nil h.parity, mask, elems, atomic]

end

/-- Settles O25: the lanes of each element hand its value on in ascending order, and elements are apart as they are aligned. -/
theorem sharedMemoryAtomicsApplyInLaneOrder : Obligations.SharedMemoryAtomicsApplyInLaneOrder := by
  unfold Obligations.SharedMemoryAtomicsApplyInLaneOrder
  rintro s _ i x o _ op k steady hx - space quiet copies live performed room slot hd ha hc rfl m addr same legal single old
  have h := (steady_iff.mp steady).toCalm
  obtain ⟨exec, rfl, issued⟩ := exec_atom hx s
  have space : atomSpace o = 0 := space
  have alone : ∀ t, op = .fadd t → ∀ l q, m.getLsbD l = true → m.getLsbD q = true → atomAddr i o q = atomAddr i o l → q = l :=
    fun t ht l q hl hq ha => single t ht l q hl ⟨hq, ha⟩
  have step : laneVal op (atomB i op o) (atomC i op o) =
      fun v q => atomVal op v (atomArgs i op o op.size q).1 (atomArgs i op o op.size q).2 := by
    funext v q
    exact laneVal_atomArgs i op o v q
  have before : ∀ l, valueBefore op (atomAddr i o) (atomB i op o) (atomC i op o) m (fun a => k.shm.readBytes a op.size)
      (atomAddr i o l) l = old l := by
    intro l
    rw [valueBefore, step]
    rfl
  have aligned : ∀ l, m.getLsbD l = true → atomAddr i o l % op.size = 0 := by
    intro l hl
    obtain ⟨low, -, aligned, -⟩ := legal l hl
    have word : ((atomAddr i o l : Nat) : Int) = (i.g.v? o.va l).toInt := (BitVec.toInt_eq_toNat_of_msb (by
      simpa [BitVec.msb_eq_toInt] using low)).symm
    rw [← word] at aligned
    exact_mod_cast aligned
  refine ⟨k.shm.putElems op.size (elemWrites op (atomAddr i o) (atomB i op o) (atomC i op o) m k.shm),
    elemOlds op (atomAddr i o) (atomB i op o) (atomC i op o) m k.shm, _, rfl, ?_, ?_, fun l hl last => ?_, fun a out => ?_⟩
  · refine (returned_perm (atomAddr i o) m _).trans (.of_eq ?_)
    simp only [before]
    rfl
  · rw [exec, h.atom_issue _ room slot hd ha hc, h.atomEffect_eq performed rfl, if_pos space,
      h.atomShm_legal (h.unwatched live quiet copies) issued legal alone rfl]
    rfl
  · refine (readN_elemWrites issued aligned hl fun q hq => ?_).trans ?_
    · rw [Bool.eq_false_iff, ne_eq, target, Bool.and_eq_true, beq_iff_eq]
      exact last q hq
    · rw [before, step]
  · exact read_elemWrites_outside out

end Sys2Proof.Machine

/-! ## What reads and requests of main memory leave alone (R60, R64, R74, R81) -/

namespace Sys2Proof.Machine

/-- `t` is `s` after the memory system has served reads of the device's own: cores, schedulers, base dies and package registers have
changed, and units that were read have been corrected (R64, R66, R74). -/
def Served (s t : State) : Prop :=
  ∃ cs es p ch bd, es.Sublist s.unitErrs ∧
    t = { s with cores := cs, unitErrs := es, pkg := p, channels := ch, baseDies := bd }

namespace Served
variable {s t u : State}

theorem refl (s : State) : Served s s := ⟨_, _, _, _, _, List.Sublist.refl _, rfl⟩

theorem trans (h : Served s t) (h' : Served t u) : Served s u := by
  obtain ⟨_, _, _, _, _, fewer, rfl⟩ := h
  obtain ⟨_, _, _, _, _, fewer', rfl⟩ := h'
  exact ⟨_, _, _, _, _, fewer'.trans fewer, rfl⟩

theorem foldl {α : Type} {f : State → α → State} (hf : ∀ v a, Served v (f v a)) (l : List α) (s : State) :
    Served s (l.foldl f s) := by
  induction l generalizing s with
  | nil => exact refl s
  | cons a l ih => exact (hf s a).trans (ih _)

theorem modCore (s : State) (k : Nat) (f : Core → Core) : Served s (s.modCore k f) := ⟨_, _, _, _, _, List.Sublist.refl _, rfl⟩
theorem setChannel (s : State) (k : Nat) (c : Channel) : Served s (s.setChannel k c) := ⟨_, _, _, _, _, List.Sublist.refl _, rfl⟩
theorem setBaseDie (s : State) (k : Nat) (b : BaseDie) : Served s (s.setBaseDie k b) := ⟨_, _, _, _, _, List.Sublist.refl _, rfl⟩
theorem setPkgReg (s : State) (k : Nat) (v : Word) : Served s (s.setPkgReg k v) := ⟨_, _, _, _, _, List.Sublist.refl _, rfl⟩

theorem main (h : Served s t) : t.main = s.main := by obtain ⟨_, _, _, _, _, -, rfl⟩ := h; rfl
theorem blocks (h : Served s t) : t.blocks = s.blocks := by obtain ⟨_, _, _, _, _, -, rfl⟩ := h; rfl
theorem parity (h : Served s t) : t.parity = s.parity := by obtain ⟨_, _, _, _, _, -, rfl⟩ := h; rfl

/-- The issuing split stays as it is. -/
theorem calm {i : Issue} (h : Served s t) (hc : Calm s i) : Calm t i := by
  obtain ⟨_, _, _, _, _, -, rfl⟩ := h
  exact ⟨hc.congr rfl rfl rfl rfl rfl, hc.outs, hc.ops⟩

/-- Bytes without an error stay without one. -/
theorem unitError {pa n : Nat} (h : Served s t) (none : s.unitError pa n = none) : t.unitError pa n = .none := by
  obtain ⟨_, _, _, _, _, fewer, rfl⟩ := h
  rw [State.unitError, List.findSome?_eq_none_iff] at none ⊢
  exact fun e he => none e ((fewer.filter _).subset he)

end Served

theorem refreshFirst_served (s : State) (k : Nat) : Served s (s.refreshFirst k) := by
  unfold State.refreshFirst
  dsimp only
  split
  · exact .setBaseDie _ _ _
  · exact .refl s

theorem closeWindow_served (s : State) (k : Nat) : Served s (s.closeWindow k) := by
  unfold State.closeWindow
  split
  · exact (Served.setPkgReg _ _ _).trans (.setChannel _ _ _)
  · exact .refl s

theorem bursts_served (s : State) (pa n : Nat) : Served s (s.bursts pa n) := by
  unfold State.bursts
  split
  · exact .refl s
  · exact .foldl (fun v p => (closeWindow_served v _).trans (.setChannel _ _ _)) _ s

theorem pickOne_served (s : State) (cls pa : Nat) : Served s (s.pickOne cls pa) := by
  unfold State.pickOne
  refine Served.trans ?_ (.setChannel _ _ _)
  split
  · exact refreshFirst_served s _
  · exact .refl s

theorem serve_served (s : State) (cls pa n : Nat) : Served s (s.serve cls pa n) :=
  .foldl (fun v _ => (pickOne_served v cls _).trans (bursts_served _ _ _)) _ s

theorem correct_served (s : State) (pa n : Nat) : Served s (s.correct pa n) := by
  unfold State.correct
  dsimp only
  split
  · exact .refl s
  · refine Served.trans ?_ (.foldl (fun v _ => .setBaseDie v _ _) _ _)
    exact ⟨_, _, _, _, _, List.filter_sublist, rfl⟩

theorem serveRead_served (s : State) (cls pa n : Nat) : Served s (s.serveRead cls pa n) :=
  (correct_served s pa n).trans (serve_served _ _ _ _)

/-- The walk of a translation unit, and what the unit keeps of it (R24). -/
theorem keep_served (s : State) (c ctx cls va : Nat) (r : Except XErr Xl) : Served s (s.keep c ctx cls va r) := by
  have walk : Served s (if (s.kept? c ctx va).isSome then s
      else (s.rootPas ctx va).foldl (fun t a => State.serveRead t cls a 8) s) := by
    split
    · exact .refl s
    · exact .foldl (fun v _ => serveRead_served v _ _ _) _ s
  unfold State.keep
  cases r with
  | error e => exact walk
  | ok x => exact walk.trans (.modCore _ _ _)

/-! ### Requests on their way to memory (R60, R62, R81) -/

/-- A request waits for the schedulers or in the queue of a migration slot. -/
def State.waiting (s : State) (r : MemReq) : Prop := r ∈ s.requests ∨ ∃ k, r ∈ (s.mig k).queue

theorem State.waiting.inFlight {s : State} {r : MemReq} (h : s.waiting r) : r ∈ s.inFlight := by
  simp only [State.inFlight, List.mem_append, List.mem_flatMap]
  rcases h with h | ⟨k, h⟩
  · exact .inl (.inl h)
  · refine .inl (.inr ?_)
    rw [State.mig, Sparse.getD] at h
    cases live : Sparse.get? s.migs k with
    | none => simp [live, Mig.init] at h
    | some m => exact ⟨(k, m), mem_of_get? live, by simpa [live] using h⟩

/-- `t` is `s` with more requests on their way. -/
structure Sent (s t : State) : Prop where
  frame : ∃ rs ms n, t = { s with requests := rs, migs := ms, nextId := n }
  waiting : ∀ r, s.waiting r → t.waiting r

namespace Sent
variable {s t u : State}

theorem refl (s : State) : Sent s s := ⟨⟨_, _, _, rfl⟩, fun _ h => h⟩

theorem trans (h : Sent s t) (h' : Sent t u) : Sent s u := by
  refine ⟨?_, fun r hr => h'.waiting r (h.waiting r hr)⟩
  obtain ⟨_, _, _, rfl⟩ := h.frame
  obtain ⟨_, _, _, rfl⟩ := h'.frame
  exact ⟨_, _, _, rfl⟩

theorem groups (h : Sent s t) : t.groups = s.groups := by obtain ⟨_, _, _, rfl⟩ := h.frame; rfl
theorem blocks (h : Sent s t) : t.blocks = s.blocks := by obtain ⟨_, _, _, rfl⟩ := h.frame; rfl
theorem parity (h : Sent s t) : t.parity = s.parity := by obtain ⟨_, _, _, rfl⟩ := h.frame; rfl

/-- Requests do not change where others go (R81). -/
theorem routeOf (h : Sent s t) (x : Xl) (write : Bool) : t.routeOf x write = s.routeOf x write := by
  obtain ⟨_, _, _, rfl⟩ := h.frame; rfl

section
variable {α : Type} {f : State → α → State} (hf : ∀ v a, Sent v (f v a))
include hf

theorem foldl (l : List α) (s : State) : Sent s (l.foldl f s) := by
  induction l generalizing s with
  | nil => exact refl s
  | cons a l ih => exact (hf s a).trans (ih _)

/-- The state at one of the requests of a list. -/
theorem foldl_at {l : List α} {a : α} (ha : a ∈ l) (s : State) : ∃ v, Sent s v ∧ Sent (f v a) (l.foldl f s) := by
  obtain ⟨before, after, rfl⟩ := List.append_of_mem ha
  refine ⟨before.foldl f s, foldl hf before s, ?_⟩
  rw [List.foldl_append, List.foldl_cons]
  exact foldl hf after _

end

end Sent

section
variable (s : State)

/-- A request for the schedulers joins them, and the others stay. -/
theorem State.requests_sent (r : MemReq) (n : Nat) : Sent s { s with requests := s.requests ++ [r], nextId := n } ∧
    State.waiting { s with requests := s.requests ++ [r], nextId := n } r :=
  ⟨⟨⟨_, _, _, rfl⟩, fun _ h => h.imp_left (List.mem_append_left _)⟩, .inl (List.mem_append_right _ (List.mem_singleton_self r))⟩

/-- A request for a migration slot joins its queue, and the others stay. -/
theorem State.setMig_sent (k : Nat) (r : MemReq) (n : Nat) {u : State}
    (hu : u = State.setMig { s with nextId := n } k { s.mig k with queue := (s.mig k).queue ++ [r] }) : Sent s u ∧ u.waiting r := by
  subst hu
  have queue : ∀ j q, q ∈ (s.mig j).queue ∨ j = k ∧ q = r →
      State.waiting (State.setMig { s with nextId := n } k { s.mig k with queue := (s.mig k).queue ++ [r] }) q := by
    intro j q hq
    refine .inr ⟨j, ?_⟩
    by_cases here : j = k
    · subst here
      simp only [State.mig, State.setMig, Sparse.getD_set_same, List.mem_append, List.mem_singleton]
      exact hq.imp_right And.right
    · simp only [State.mig, State.setMig, Sparse.getD_set_ne _ _ _ here]
      exact hq.resolve_right (fun h => here h.1)
  exact ⟨⟨⟨_, _, _, rfl⟩, fun q hq => hq.elim .inl (fun ⟨j, h⟩ => queue j q (.inl h))⟩, queue k r (.inr ⟨rfl, rfl⟩)⟩

variable (route : Route) (pa va : Nat) (op : MemOp) (core ctx cls : Nat) (leaves : List (Nat × Nat))

/-- A request that is sent waits, and the others do. -/
theorem State.memSend_sent : Sent s (s.memSend route pa va op core ctx cls leaves) ∧
    ∃ r, (s.memSend route pa va op core ctx cls leaves).waiting r ∧ r.op = op ∧ r.core = core ∧ r.ctx = ctx ∧ r.pa = pa := by
  have joins : ∃ r, (Sent s (s.memSend route pa va op core ctx cls leaves) ∧
      (s.memSend route pa va op core ctx cls leaves).waiting r) ∧ r.op = op ∧ r.core = core ∧ r.ctx = ctx ∧ r.pa = pa := by
    cases route with
    | mig k =>
      exact ⟨⟨s.nextId, .mig k, pa, va, op, core, ctx, cls, s.stamp ctx cls, s.time, false, leaves, none⟩,
        s.setMig_sent k _ _ rfl, rfl, rfl, rfl, rfl⟩
    | port p =>
      exact ⟨⟨s.nextId, .port p, pa, va, op, core, ctx, cls, s.stamp ctx cls, s.time, false, leaves, none⟩,
        s.requests_sent _ _, rfl, rfl, rfl, rfl⟩
    | channel c =>
      exact ⟨⟨s.nextId, .channel c, pa, va, op, core, ctx, cls, s.stamp ctx cls, s.time, false, leaves, none⟩,
        s.requests_sent _ _, rfl, rfl, rfl, rfl⟩
  obtain ⟨r, ⟨sent, waits⟩, fields⟩ := joins
  exact ⟨sent, r, waits, fields⟩

end

end Sys2Proof.Machine

/-! ## Atomics sent to their homes (O26) -/

namespace Sys2Proof.Machine

theorem OnDie.blocks {s t : State} (h : OnDie s t) : t.blocks = s.blocks := by obtain ⟨_, _, rfl⟩ := h; rfl

/-! ### The end of an atomic that is performed elsewhere (R51, R114) -/

section
variable {s : State} {i : Issue} {o : MF}

/-- A group that differs from the issuing one in what it awaits alone. -/
structure Awaiting (i : Issue) (g : Group) : Prop extends Alike i g where
  v : g.v = i.g.v
  p : g.p = i.g.p

/-- Awaiting a reply takes a number and changes the group alone. -/
theorem Calm.awaitReply_group (h : Calm s i) (m : Mask) (need : Nat) : ∃ id n gs g,
    s.awaitReply i o m need = ({ s with nextId := n, groups := gs }, id) ∧ Sparse.get? gs i.gid = some g ∧ Awaiting i g := by
  by_cases awaits : (o.vd = zReg ∧ o.order % 2 = 0) ∨ m = 0
  · exact ⟨none, s.nextId, s.groups, i.g, if_pos awaits, (issuer_split h.issuer).1, Alike.refl i, rfl, rfl⟩
  · exact ⟨some s.nextId, s.nextId + 1, _, awaiting i o (atomPend s i o m need), h.awaitReply_some need awaits,
      Sparse.get?_set_same _ _ _, ⟨rfl, rfl, rfl, rfl, rfl⟩, rfl, rfl⟩

/-- The issuing split after an atomic that it may have to wait for (R114). -/
def atomSplit (i : Issue) (o : MF) (m : Mask) : Split :=
  { i.sp with parked := i.sp.parked || decide (o.order % 2 = 1 ∧ m ≠ 0) }

/-- The split goes on, parked where the atomic is an acquire. -/
theorem Poised.done_acquireWait (h : Poised s i) {u : State} {g : Group} (hg : u.groups.get? i.gid = some g) (ha : Alike i g)
    (hb : u.blocks = s.blocks) (hp : u.parity = s.parity) (m : Mask) :
    (u.done i).acquireWait i o m = u.goOn i g (atomSplit i o m) := by
  rw [h.done ha hb hp hg, State.acquireWait]
  split
  · next waits =>
    simp only [State.goOn, State.modSplit, State.modGroup_setGroup, Sparse.get?_set_same, Sparse.set_set, atomSplit, waits,
      decide_true, Bool.or_true, ne_eq, not_false_eq_true, and_self]
  · next waits =>
    simp only [atomSplit, waits, decide_false, Bool.or_false]

/-- What an atomic that is performed elsewhere leaves of its group: the split is past it, parked where it is an acquire, and no
register has changed. -/
def WentOn (i : Issue) (o : MF) (m : Mask) (t : State) : Prop :=
  ∃ g sp, t.groups.get? i.gid = some g ∧ g.splits.get? i.sid = some sp ∧ g.v = i.g.v ∧ g.p = i.g.p ∧
    sp.pc = i.sp.pc + 8 ∧ sp.s = i.sp.s ∧ sp.cc = i.sp.cc ∧ (sp.parked = true ↔ o.order % 2 = 1 ∧ m ≠ 0 ∨ i.sp.parked = true)

theorem goOn_wentOn {u : State} {g : Group} (ha : Awaiting i g) (m : Mask) : WentOn i o m (u.goOn i g (atomSplit i o m)) := by
  refine ⟨_, _, Sparse.get?_set_same _ _ _, Sparse.get?_set_same _ _ _, ha.v, ha.p, rfl, rfl, rfl, ?_⟩
  simp only [atomSplit, Bool.or_eq_true, decide_eq_true_eq]
  exact or_comm

end

/-! ### The scratchpad: a request to each home slice (R45, R49) -/

/-- Of slices that each take one request, each has it at the end of its requests. -/
theorem foldl_send_all {s : State} {d : Nat} {q : Nat → SvcReq} {ks : List Nat} (apart : ks.Nodup) (h : Nat) :
    ((ks.foldl (fun u k => u.modSlice d k (fun x => x.send (q k))) s).slice d h).all =
      (s.slice d h).all ++ if h ∈ ks then [q h] else [] := by
  induction ks generalizing s with
  | nil => simp
  | cons k ks ih =>
    obtain ⟨fresh, apart⟩ := List.nodup_cons.mp apart
    rw [List.foldl_cons, ih apart]
    by_cases here : h = k
    · subst here
      rw [State.slice_modSlice_same, Slice.send_all]
      simp [fresh]
    · rw [State.slice_modSlice_ne _ _ (by tauto)]
      simp [here]

theorem foldl_modSlice_onDie (s : State) (d : Nat) (f : Nat → Slice → Slice) (ks : List Nat) :
    OnDie s (ks.foldl (fun u k => u.modSlice d k (f k)) s) := by
  induction ks generalizing s with
  | nil => exact .refl s
  | cons k ks ih => exact OnDie.trans ⟨s.cores, _, rfl⟩ (ih _)

section
variable {s : State} {i : Issue} {o : MF} {op : AtomOp}

/-- The scratchpad atomic of a calm split: where its requests have been sent, it goes on. -/
theorem Calm.atomSpd_legal (h : Calm s i)
    (legal : ∀ l, (i.guard o.p o.pn).getLsbD l = true → fits s i.g .spd op.size (i.g.v? o.va l).toInt)
    {ls : List (Nat × Word × Word × Word)}
    (lanes : ls = (lanesOf (i.guard o.p o.pn)).map (fun l => (l, i.g.v? o.va l, atomB i op o l, atomC i op o l))) :
    let m := i.guard o.p o.pn
    let addr := fun l => s.spBase i.g.ctx (dieOf i.g.core) + atomAddr i o l
    ∃ u n gs g id, Drained s u ∧ Sparse.get? gs i.gid = some g ∧ Awaiting i g ∧
      atomSpd o op ls s i = State.goOn ((keysOf (fun l => homeSlice (addr l)) (lanesOf m)).foldl (fun u k =>
        u.modSlice (dieOf i.g.core) k (fun x => x.send (.atomic i.g.core i.gid i.sid i.sp.pc id op
          (((lanesOf m).map (elemOf addr (atomB i op o) (atomC i op o))).filter (fun e => homeSlice e.addr == k)))))
        { u with nextId := n, groups := gs }) i g (atomSplit i o m) := by
  intro m addr
  have offsets : ls.map (fun e => (e.1, e.2.1.toInt)) = (lanesOf m).map (fun l => (l, (i.g.v? o.va l).toInt)) := by
    rw [lanes, List.map_map]; rfl
  have mask : maskList (ls.map (fun e => e.1)) = m := by
    rw [lanes, List.map_map]
    exact (congrArg maskList (List.map_id _)).trans (maskList_lanesOf m)
  have fail : s.laneFail i.g .spd op.size ((lanesOf m).map (fun l => (l, (i.g.v? o.va l).toInt))) = none := laneFail_none legal
  have ordered := ordered_drained h.parity i o.order o.scope (atomRmt o)
  have origin : (s.ordered i o.order o.scope (atomRmt o)).origin i.g .spd = s.spBase i.g.ctx (dieOf i.g.core) := by
    obtain ⟨⟨cs, ds, hu⟩, -⟩ := ordered
    rw [hu]; rfl
  have elems : ls.map (fun e => (⟨e.1, (s.ordered i o.order o.scope (atomRmt o)).origin i.g .spd + e.2.1.toNat, e.2.2.1, e.2.2.2⟩ :
      Elem)) = (lanesOf m).map (elemOf addr (atomB i op o) (atomC i op o)) := by
    rw [lanes, List.map_map, origin]; rfl
  have homes : sortBy (fun a b => decide (a ≤ b)) ((((lanesOf m).map (elemOf addr (atomB i op o) (atomC i op o))).map
      (fun e => homeSlice e.addr)).eraseDups) = keysOf (fun l => homeSlice (addr l)) (lanesOf m) := by
    rw [List.map_map]; rfl
  have drained : Drained s (((lanesOf m).map (elemOf addr (atomB i op o) (atomC i op o))).foldl (fun u e =>
      State.wbDrainLine u i.g.core (e.addr / 64 * 64)) (s.ordered i o.order o.scope (atomRmt o))) :=
    ordered.trans (.foldl (fun _ _ hv => wbDrainLine_drained hv _ _) (ordered.onDie.parity.trans h.parity))
  obtain ⟨id, n, gs, g, await, live, awaiting⟩ := (drained.onDie.calm h).awaitReply_group (o := o) m
    (keysOf (fun l => homeSlice (addr l)) (lanesOf m)).length
  refine ⟨_, n, gs, g, id, drained, live, awaiting, ?_⟩
  simp only [atomSpd, offsets, fail, laneParity_nil h.parity, mask, elems, homes, await]
  refine h.done_acquireWait ?_ awaiting.toAlike ?_ ?_ m
  · exact (congrArg (Sparse.get? · i.gid) (foldl_modSlice_onDie _ _ _ _).groups).trans live
  · exact (foldl_modSlice_onDie _ _ _ _).blocks.trans drained.onDie.blocks
  · exact (foldl_modSlice_onDie _ _ _ _).parity.trans drained.onDie.parity

/-- The lanes of the atomic that are at home in slice `k` of its die. -/
def homeLanes (s : State) (i : Issue) (o : MF) (k : Nat) : List Nat :=
  (lanesOf (i.guard o.p o.pn)).filter (fun l => homeSlice (s.spBase i.g.ctx (dieOf i.g.core) + atomAddr i o l) == k)

/-- A scratchpad atomic of a calm split goes on, and each slice has one request with the lanes at home there. -/
theorem Calm.atomSpd_sent (h : Calm s i)
    (legal : ∀ l, (i.guard o.p o.pn).getLsbD l = true → fits s i.g .spd op.size (i.g.v? o.va l).toInt)
    {ls : List (Nat × Word × Word × Word)}
    (lanes : ls = (lanesOf (i.guard o.p o.pn)).map (fun l => (l, i.g.v? o.va l, atomB i op o l, atomC i op o l))) :
    (atomSpd o op ls s i).blocks = s.blocks ∧ WentOn i o (i.guard o.p o.pn) (atomSpd o op ls s i) ∧
    ∃ id, ∀ k, ((atomSpd o op ls s i).slice (dieOf i.g.core) k).all = (s.slice (dieOf i.g.core) k).all ++
      if homeLanes s i o k = [] then [] else [.atomic i.g.core i.gid i.sid i.sp.pc id op ((homeLanes s i o k).map
        (elemOf (fun l => s.spBase i.g.ctx (dieOf i.g.core) + atomAddr i o l) (atomB i op o) (atomC i op o)))] := by
  obtain ⟨u, n, gs, g, id, drained, live, awaiting, sent⟩ := h.atomSpd_legal legal lanes
  rw [sent]
  refine ⟨(foldl_modSlice_onDie _ _ _ _).blocks.trans drained.onDie.blocks, goOn_wentOn awaiting _, id, fun k => ?_⟩
  have elems : ((lanesOf (i.guard o.p o.pn)).map (elemOf (fun l => s.spBase i.g.ctx (dieOf i.g.core) + atomAddr i o l)
      (atomB i op o) (atomC i op o))).filter (fun e => homeSlice e.addr == k) = (homeLanes s i o k).map
        (elemOf (fun l => s.spBase i.g.ctx (dieOf i.g.core) + atomAddr i o l) (atomB i op o) (atomC i op o)) := by
    rw [List.filter_map]; rfl
  have home : k ∈ keysOf (fun l => homeSlice (s.spBase i.g.ctx (dieOf i.g.core) + atomAddr i o l)) (lanesOf (i.guard o.p o.pn)) ↔
      homeLanes s i o k ≠ [] := by
    rw [mem_keysOf, homeLanes, ne_eq, List.filter_eq_nil_iff]
    simp
  rw [State.goOn, State.setGroup_slice, foldl_send_all keysOf_nodup, elems]
  refine congrArg₂ (· ++ ·) (drained.all (dieOf i.g.core) k) ?_
  simp only [home, ne_eq, ite_not]

end

/-! ### Main memory: a request for each part of 256 bytes (R60, R271) -/

section
variable {s : State} {i : Issue} {o : MF} {op : AtomOp} {pa : Nat → Xl}

/-- The request for a part of memory, with the elements of the lanes that meet it. -/
def atomPart (i : Issue) (o : MF) (op : AtomOp) (pa : Nat → Xl) (cls : Nat) (pend : Option Nat) (u : State) (p : Nat × Route) : State :=
  let mine := (lanesOf (i.guard o.p o.pn)).filter (fun l => decide ((pa l).pa / 256 = p.1) && u.routeOf (pa l) true == p.2)
  u.memSend p.2 (p.1 * 256) i.sp.pc.toNat
    (.atomic i.gid pend i.sid op (mine.map (elemOf (fun l => (pa l).pa) (atomB i op o) (atomC i op o)))) i.g.core i.g.ctx cls
    (mine.map (fun l => ((i.g.v? o.va l).toNat / 65536, (pa l).level)))

/-- The parts of memory that the lanes meet, each with its route. -/
def partsMet (i : Issue) (o : MF) (pa : Nat → Xl) (u : State) : List (Nat × Route) :=
  ((lanesOf (i.guard o.p o.pn)).map (fun l => ((pa l).pa / 256, u.routeOf (pa l) true))).eraseDups

/-- An atomic whose lanes have been translated: its order, its number and its requests. -/
def atomSendAll (i : Issue) (o : MF) (op : AtomOp) (pa : Nat → Xl) (cls : Nat) (u : State) : State :=
  let v := u.ordered i o.order o.scope (atomRmt o)
  let e := v.awaitReply i o (i.guard o.p o.pn) (partsMet i o pa v).length
  (((partsMet i o pa v).foldl (atomPart i o op pa cls e.2) e.1).done i).acquireWait i o (i.guard o.p o.pn)

/-- A lane of an atomic on main memory is legal, and goes to `pa l` (R26, R74, R271). -/
def LegalMem (s : State) (i : Issue) (o : MF) (op : AtomOp) (pa : Nat → Xl) (l : Nat) : Prop :=
  atomAddr i o l < 2 ^ 52 ∧ atomAddr i o l % op.size = 0 ∧ s.unitError (pa l).pa op.size = none ∧
    s.walkReady i.g.core i.g.ctx (atomAddr i o l) = true ∧
    s.translateRouted i.g.core i.g.ctx .atomic [.q, .w, .a, .hbm] true (atomAddr i o l) = .ok (pa l)

/-- Where every lane is legal, the requests are sent. -/
theorem atomMem_translated (legal : ∀ l, (i.guard o.p o.pn).getLsbD l = true → LegalMem s i o op pa l)
    {ls : List (Nat × Word × Word × Word)}
    (lanes : ls = (lanesOf (i.guard o.p o.pn)).map (fun l => (l, i.g.v? o.va l, atomB i op o l, atomC i op o l))) :
    ∃ u, Served s u ∧ atomMem o op ls s i = atomSendAll i o op pa (s.defaultClass i.g.ctx) u := by
  have lane : ∀ e ∈ ls, ∃ l, LegalMem s i o op pa l ∧ e = (l, i.g.v? o.va l, atomB i op o l, atomC i op o l) := by
    intro e he
    rw [lanes, List.mem_map] at he
    obtain ⟨l, hl, rfl⟩ := he
    exact ⟨l, legal l (mem_lanesOf.mp hl), rfl⟩
  have wide : ls.filter (fun e => decide (e.2.1.toNat / 2 ^ 52 ≠ 0)) = [] := by
    refine List.filter_eq_nil_iff.mpr fun e he => ?_
    obtain ⟨l, ⟨low, -⟩, rfl⟩ := lane e he
    simpa [atomAddr] using low
  have odd : ls.filter (fun e => decide (e.2.1.toNat % op.size ≠ 0)) = [] := by
    refine List.filter_eq_nil_iff.mpr fun e he => ?_
    obtain ⟨l, ⟨-, even, -⟩, rfl⟩ := lane e he
    simpa [atomAddr] using even
  have ready : ls.all (fun e => s.walkReady i.g.core i.g.ctx e.2.1.toNat) = true := by
    refine List.all_eq_true.mpr fun e he => ?_
    obtain ⟨l, ⟨-, -, -, walk, -⟩, rfl⟩ := lane e he
    exact walk
  have found : ls.map (fun e => (e, s.translateRouted i.g.core i.g.ctx .atomic atomNeed true e.2.1.toNat)) =
      ls.map (fun e => (e, .ok (pa e.1))) := by
    refine List.map_congr_left fun e he => ?_
    obtain ⟨l, ⟨-, -, -, -, there⟩, rfl⟩ := lane e he
    exact congrArg _ there
  have served : Served s ((ls.map (fun e => ((e, .ok (pa e.1)) : (Nat × Word × Word × Word) × Except XErr Xl))).foldl
      (fun u e => State.keep u i.g.core i.g.ctx (s.defaultClass i.g.ctx) e.1.2.1.toNat e.2) s) :=
    .foldl (fun v _ => keep_served v _ _ _ _ _) _ s
  have noFault : ls.filterMap (fun _ => (none : Option (Nat × XErr))) = [] := by simp
  have placed : ls.filterMap (fun e => some (e, pa e.1)) =
      (lanesOf (i.guard o.p o.pn)).map (fun l => ((l, i.g.v? o.va l, atomB i op o l, atomC i op o l), pa l)) := by
    rw [lanes, List.filterMap_map, ← List.filterMap_eq_map]; rfl
  have mask : maskList (ls.map (fun e => e.1)) = i.guard o.p o.pn := by
    rw [lanes, List.map_map]
    exact (congrArg maskList (List.map_id _)).trans (maskList_lanesOf _)
  refine ⟨_, served, ?_⟩
  unfold atomMem
  simp only [wide, odd, ready, found, List.filterMap_map, Function.comp_def, noFault, placed, mask]
  generalize (ls.map (fun e => ((e, .ok (pa e.1)) : (Nat × Word × Word × Word) × Except XErr Xl))).foldl
      (fun u e => State.keep u i.g.core i.g.ctx (s.defaultClass i.g.ctx) e.1.2.1.toNat e.2) s = u at served ⊢
  have clean : ∀ pas : List Nat, (∀ a ∈ pas, s.unitError a op.size = none) → u.atomPoison pas op.size = none := by
    intro pas hpas
    have : pas.filterMap (fun a => u.unitError a op.size) = [] :=
      List.filterMap_eq_nil_iff.mpr fun a ha => served.unitError (hpas a ha)
    rw [State.atomPoison, this]; rfl
  have clear : ∀ a ∈ (((lanesOf (i.guard o.p o.pn)).map (fun l => ((l, i.g.v? o.va l, atomB i op o l, atomC i op o l), pa l))).filter
      (fun e => !e.2.routesWrite)).map (fun e => e.2.pa), s.unitError a op.size = none := by
    intro a ha
    obtain ⟨e, he, rfl⟩ := List.mem_map.mp ha
    obtain ⟨l, hl, rfl⟩ := List.mem_map.mp (List.mem_of_mem_filter he)
    obtain ⟨-, -, error, -⟩ := legal l (mem_lanesOf.mp hl)
    exact error
  rw [clean _ clear]
  simp only [List.filter_map, List.map_map]
  rfl

theorem atomPart_sent (cls : Nat) (pend : Option Nat) (u : State) (p : Nat × Route) : Sent u (atomPart i o op pa cls pend u p) :=
  (State.memSend_sent _ _ _ _ _ _ _ _ _).1

/-- Once its requests are sent, the split goes on, and the element of each lane is in the request for its part of memory. -/
theorem Calm.atomSendAll_sent (h : Calm s i) (cls : Nat) :
    (atomSendAll i o op pa cls s).blocks = s.blocks ∧ WentOn i o (i.guard o.p o.pn) (atomSendAll i o op pa cls s) ∧
    ∃ id, ∀ l, (i.guard o.p o.pn).getLsbD l = true → ∃ r ∈ (atomSendAll i o op pa cls s).inFlight, ∃ es,
      r.op = .atomic i.gid id i.sid op es ∧ r.core = i.g.core ∧ r.ctx = i.g.ctx ∧ r.pa = (pa l).pa / 256 * 256 ∧
      elemOf (fun l => (pa l).pa) (atomB i op o) (atomC i op o) l ∈ es := by
  have drained := ordered_drained h.parity i o.order o.scope (atomRmt o)
  obtain ⟨id, n, gs, g, await, live, awaiting⟩ := (drained.onDie.calm h).awaitReply_group (o := o) (i.guard o.p o.pn)
    (partsMet i o pa (s.ordered i o.order o.scope (atomRmt o))).length
  have sent := Sent.foldl (atomPart_sent (i := i) (o := o) (op := op) (pa := pa) cls id)
    (partsMet i o pa (s.ordered i o.order o.scope (atomRmt o)))
    { s.ordered i o.order o.scope (atomRmt o) with nextId := n, groups := gs }
  have ends : atomSendAll i o op pa cls s = State.goOn ((partsMet i o pa (s.ordered i o.order o.scope (atomRmt o))).foldl
      (atomPart i o op pa cls id) { s.ordered i o.order o.scope (atomRmt o) with nextId := n, groups := gs }) i g
      (atomSplit i o (i.guard o.p o.pn)) := by
    simp only [atomSendAll, await]
    refine h.done_acquireWait ?_ awaiting.toAlike ?_ ?_ _
    · rw [sent.groups]; exact live
    · rw [sent.blocks]; exact drained.onDie.blocks
    · rw [sent.parity]; exact drained.onDie.parity
  rw [ends]
  refine ⟨sent.blocks.trans drained.onDie.blocks, goOn_wentOn awaiting _, id, fun l hl => ?_⟩
  have part : ((pa l).pa / 256, (s.ordered i o.order o.scope (atomRmt o)).routeOf (pa l) true) ∈
      partsMet i o pa (s.ordered i o.order o.scope (atomRmt o)) :=
    List.mem_eraseDups.mpr (List.mem_map.mpr ⟨l, mem_lanesOf.mpr hl, rfl⟩)
  obtain ⟨v, before, after⟩ := Sent.foldl_at (atomPart_sent (i := i) (o := o) (op := op) (pa := pa) cls id) part
    { s.ordered i o.order o.scope (atomRmt o) with nextId := n, groups := gs }
  obtain ⟨-, r, waits, isOp, isCore, isCtx, isPa⟩ := State.memSend_sent v
    ((s.ordered i o.order o.scope (atomRmt o)).routeOf (pa l) true) ((pa l).pa / 256 * 256) i.sp.pc.toNat _ i.g.core i.g.ctx cls _
  refine ⟨r, (after.waiting r waits).inFlight, _, isOp, isCore, isCtx, isPa, List.mem_map.mpr ⟨l, List.mem_filter.mpr ?_, rfl⟩⟩
  have route : v.routeOf (pa l) true = (s.ordered i o.order o.scope (atomRmt o)).routeOf (pa l) true := before.routeOf _ _
  exact ⟨mem_lanesOf.mpr hl, by simp [route]⟩

end

/-- Settles O26: the elements go to the home slices or to the parts of memory, and the issuing group awaits the reply alone. -/
theorem distantAtomicsAreSentToTheirHomes : Obligations.DistantAtomicsAreSentToTheirHomes := by
  unfold Obligations.DistantAtomicsAreSentToTheirHomes
  intro s i x o n op hs rule _ performed room slot hd ha hc
  have h : Calm s i := (steady_iff.mp hs).toCalm
  obtain ⟨ex, rfl, -⟩ := exec_atom rule s
  have effect : exec x s = .next (atomEffect o op s i) := ex.trans (h.atom_issue _ room slot hd ha hc)
  have main : (atomEffect o op s i).main = s.main := atomEffect_main
  have eff := h.atomEffect_eq (o := o) (op := op) performed rfl
  refine ⟨fun space legal => ?_, fun space pa legal => ?_⟩
  · have spd : atomSpace o = 1 := space
    rw [if_neg (by omega), if_pos spd] at eff
    obtain ⟨blocks, wentOn, id, queues⟩ := h.atomSpd_sent legal rfl
    rw [← eff] at blocks wentOn queues
    refine ⟨_, id, ⟨effect, main, blocks, wentOn⟩, fun k => (queues k).trans (congrArg _ ?_)⟩
    simp only [List.map_eq_nil_iff, List.map_map]
    cases op with
    | cas w => rfl
    | _ => rfl
  · have far : atomSpace o = 2 := space
    rw [if_neg (by omega), if_neg (by omega)] at eff
    obtain ⟨u, served, sent⟩ := atomMem_translated (op := op) legal rfl
    obtain ⟨blocks, wentOn, id, requests⟩ := (served.calm h).atomSendAll_sent (o := o) (op := op) (pa := pa) (s.defaultClass i.g.ctx)
    rw [← sent, ← eff] at blocks wentOn requests
    refine ⟨_, id, ⟨effect, main, blocks.trans served.blocks, wentOn⟩, fun l hl => ?_⟩
    obtain ⟨r, flies, es, isOp, isCore, isCtx, isPa, elem⟩ := requests l hl
    refine ⟨r, flies, es, isOp, isCore, isCtx, isPa, ?_⟩
    cases op with
    | cas w => exact elem
    | _ => exact elem

end Sys2Proof.Machine

/-! ## A take that wakes a group (O52 fails)

A take that frees a place wakes a parked deposit (R331). Where that is the last return of a frame cache that a change of cache
context waits for, the split that waits goes on (R103), which the clause on BENCH_SERVE does not allow for. -/

namespace Sys2Proof.Machine

/-- A group of two splits: split 0 has sent a take, and split 1 waits for the last return of the former frame cache context (R103). -/
def takingGroup : Group :=
  { Group.start loadBlock 0 0 0 0 0 0 0 allLanes [] with
    splits := [(0, { Split.blank 0 0 with mask := 1, wait := .bench 1 true 0 none }),
      (1, { Split.blank 0 0 with mask := 2, wait := .frames none })] }

/-- A take of the tuple with tag 0. -/
def tagTake : BenchReq := ⟨1, .tak, 1, 0, 0, 0, [], false, none, .split 0 0⟩

/-- A return of the frame cache of core 0. -/
def frameReturn : BenchReq := ⟨0, .dep, 1, 0, 0xFFFF0002, 0, [], false, none, .frameCache 0⟩

/-- A slice whose region holds its 1008 tuples (R327), with the take at the head of its queue and the return parked. -/
def fullSlice : Slice := { Slice.init with
  queue := [.bench tagTake], parked := [frameReturn], tuples := (List.range 1008).map (fun n => ⟨1, 0, n, [], n⟩), counter := 1008 }

/-- The machine of both, in which that return is the only one of core 0 that has not been accepted. -/
def fullState : State := { State.reset with
  ctxs := [(1, { Context.init with regs := [(0x110, BitVec.ofNat 64 (2 ^ 63 + 2 ^ 24 + 2 ^ 8))] })],
  cores := [(0, { Core.init with frames := ⟨none, [], none, false, [], 1⟩ })],
  dies := [(0, { Die.init with slices := [(0, fullSlice)] })], blocks := [(0, loadBlock)], groups := [(0, takingGroup)] }

/-- The take frees a place, the return is accepted there (R331), and the split that waited for it wakes (R103). -/
theorem fullState_wakes : ∃ t, exec (.benchServe 0 0) fullState = .next t ∧
    (t.split? 0 1).map (fun e => e.2.awake) ≠ (fullState.split? 0 1).map (fun e => e.2.awake) :=
  ⟨_, rfl, by decide +kernel⟩

/-- Refutes O52: a take that makes room for a parked return of a frame cache wakes a split of a group. -/
theorem not_serviceGroupEvents : ¬ Obligations.ServiceGroupEvents := by
  unfold Obligations.ServiceGroupEvents
  intro h
  obtain ⟨-, serves, -⟩ := h
  obtain ⟨t, served, groups, -⟩ := serves fullState 0 0 0 0 takingGroup tagTake [] fullSlice _ rfl rfl rfl rfl rfl
  obtain ⟨u, stands, wakes⟩ := fullState_wakes
  obtain rfl : t = u := Host.Outcome.next.inj (served.symm.trans stands)
  exact wakes (by simp only [State.split?, groups])

end Sys2Proof.Machine

/-! ## A core with too many registers free (O51 fails)

The distributor orders cores by the registers that they have free of 8192. A state whose blocks lie past the registers of a core has
more free, and there the order is that of the core numbers alone (R162). -/

namespace Sys2Proof.Machine

/-- A grid whose next block takes one group slot of 64 registers. -/
def placedGrid : Grid := ⟨1, 0, 1, none, 0, 1, 1, 1, BitVec.ofNat 64 (2 ^ 27), [], .pending, 0, 0, 0, none, [], none⟩

/-- A block of a core whose one group slot holds an empty run that begins at register `base`. -/
def runBlock (core base : Nat) : Block :=
  { loadBlock with core := core, rows := [], nregs := 0, bases := [base], tiles := [] }

/-- Cores 0 and 1, to which the context is confined (R380), each with more registers free than a core has: a run in quadrant 0
begins past its last register. -/
def overfreeState : State := { State.reset with
  ctxs := [(1, { Context.init with regs := [(0x169, 3), (0x16A, 0)] })], grids := [(0, placedGrid)],
  blocks := [(1, runBlock 0 9000), (2, runBlock 1 9001)] }

/-- The distributor ranks cores by the registers that they have free of 8192 at most, and so prefers core 0 ... -/
theorem overfree_placeNext : overfreeState.placeNext 0 = some (0, placedGrid, 0, [(0, 0)]) := by
  decide +kernel

/-- ... although core 1 takes the block too and has one more free. -/
theorem overfree_core1 : overfreeState.coreOpen 0 placedGrid 1 = true ∧ (overfreeState.fits 1 (shapeOf placedGrid.config)).isSome = true ∧
    overfreeState.freeRegs 0 < overfreeState.freeRegs 1 := by
  decide +kernel

/-- Refutes O51: of two cores with more than 8192 registers free the distributor takes the lower, not the one with more. -/
theorem not_placementAndTaskGraphEvents : ¬ Obligations.PlacementAndTaskGraphEvents := by
  unfold Obligations.PlacementAndTaskGraphEvents
  intro h
  obtain ⟨places, -⟩ := h
  obtain ⟨-, place⟩ := places overfreeState 0 0 0 placedGrid [(0, 0)]
  obtain ⟨_, _, _, -, -, -, -, -, -, -, -, -, -, -, -, -, -, -, -, -, -, most, -⟩ := place overfree_placeNext rfl
  obtain ⟨isOpen, fits, more⟩ := overfree_core1
  exact absurd (most 1 (by decide) isOpen fits) (Nat.not_le.mpr more)

end Sys2Proof.Machine

/-! ## Coding windows, rates and refresh of the channels (O56) -/

namespace Sys2Proof.Machine

/-! ### Fields of words (R4) -/

/-- A bit of a word as its field of one bit. -/
theorem getLsbD_eq_bits (w : Word) (n : Nat) : w.getLsbD n = decide (bits w n 1 = 1) := by
  rw [bits, pow_one, ← BitVec.testBit_toNat, Nat.testBit_eq_decide_div_mod_eq]

/-- Bit 63 of a word whose highest two bits are set. -/
theorem setBits_high_getLsbD (w : Word) : (setBits w 62 2 3).getLsbD 63 = true := by
  have := w.isLt
  rw [getLsbD_eq_bits]
  simp only [setBits, bits, BitVec.toNat_ofNat]
  refine decide_eq_true ?_
  omega

section
variable (s : State)

/-! ### Channels and base dies read back -/

@[simp] theorem State.channel_setChannel_same (n : Nat) (c : Channel) : (s.setChannel n c).channel n = c := by simp [State.channel]
theorem State.channel_setChannel_ne {n m : Nat} (c : Channel) (h : m ≠ n) : (s.setChannel n c).channel m = s.channel m := by
  simp [State.channel, Sparse.getD_set_ne _ _ _ h]
@[simp] theorem State.setChannel_setChannel (n : Nat) (c d : Channel) : (s.setChannel n c).setChannel n d = s.setChannel n d := by
  simp [State.setChannel]
@[simp] theorem State.baseDie_setBaseDie_same (n : Nat) (b : BaseDie) : (s.setBaseDie n b).baseDie n = b := by simp [State.baseDie]
theorem State.baseDie_setBaseDie_ne {n m : Nat} (b : BaseDie) (h : m ≠ n) : (s.setBaseDie n b).baseDie m = s.baseDie m := by
  simp [State.baseDie, Sparse.getD_set_ne _ _ _ h]

@[simp] theorem State.channel_setPkgReg (n m : Nat) (v : Word) : (s.setPkgReg n v).channel m = s.channel m := rfl
@[simp] theorem State.channel_setBaseDie (n m : Nat) (b : BaseDie) : (s.setBaseDie n b).channel m = s.channel m := rfl
@[simp] theorem State.baseDie_setChannel (n m : Nat) (c : Channel) : (s.setChannel n c).baseDie m = s.baseDie m := rfl
@[simp] theorem State.baseDie_setPkgReg (n m : Nat) (v : Word) : (s.setPkgReg n v).baseDie m = s.baseDie m := rfl
@[simp] theorem State.pkgReg_setChannel (n m : Nat) (c : Channel) : (s.setChannel n c).pkgReg m = s.pkgReg m := rfl
@[simp] theorem State.pkgReg_setBaseDie (n m : Nat) (b : BaseDie) : (s.setBaseDie n b).pkgReg m = s.pkgReg m := rfl

/-! ### Coding windows (R66) -/

/-- The mode of the coding window after the one that ends. -/
def State.nextMode (s : State) (ch : Nat) : Nat :=
  let cfg := s.pkgReg (0x010 + ch / 32)
  let c := s.channel ch
  if c.ones * bits cfg 0 8 < c.trans * bits cfg 8 8 then 1
  else if c.trans * bits cfg 8 8 < c.ones * bits cfg 0 8 then 0
  else bits (s.pkgReg (0x400 + ch)) 63 1

theorem State.nextMode_lt (ch : Nat) : s.nextMode ch < 2 := by
  unfold State.nextMode
  dsimp only
  split
  · decide
  · split
    · decide
    · exact Nat.mod_lt _ (by decide)

/-- What a coding window reports at its end. -/
def State.windowReport (s : State) (ch : Nat) : Word :=
  w64 (s.nextMode ch * 2 ^ 63 + (s.channel ch).trans % 2 ^ 22 * 2 ^ 32 + (s.channel ch).ones % 2 ^ 22)

theorem State.windowEnd_eq (ch : Nat) :
    s.windowEnd ch = (s.setPkgReg (0x400 + ch) (s.windowReport ch)).setChannel ch (s.channel ch).restart := rfl

theorem State.windowReport_fields (ch : Nat) : bits (s.windowReport ch) 0 22 = (s.channel ch).ones % 2 ^ 22 ∧
    bits (s.windowReport ch) 32 22 = (s.channel ch).trans % 2 ^ 22 ∧ bits (s.windowReport ch) 63 1 = s.nextMode ch := by
  have mode := s.nextMode_lt ch
  simp only [State.windowReport, w64, bits, BitVec.toNat_ofNat]
  omega

theorem State.closeWindow_open {ch : Nat} (h : (s.channel ch).bursts < 4096) : s.closeWindow ch = s := if_neg (by omega)
theorem State.closeWindow_full {ch : Nat} (h : 4096 ≤ (s.channel ch).bursts) : s.closeWindow ch = s.windowEnd ch := if_pos h

/-- Channels and package registers are all that differs. -/
def OnChannels (s t : State) : Prop := ∃ p cs, t = { s with pkg := p, channels := cs }

theorem OnChannels.trans {s t u : State} (h : OnChannels s t) (h' : OnChannels t u) : OnChannels s u := by
  obtain ⟨_, _, rfl⟩ := h
  obtain ⟨_, _, rfl⟩ := h'
  exact ⟨_, _, rfl⟩

/-- Groups, memory and base dies are as they were. -/
theorem OnChannels.frame {s t : State} (h : OnChannels s t) :
    t.main = s.main ∧ t.groups = s.groups ∧ ∀ k, t.baseDie k = s.baseDie k := by
  obtain ⟨_, _, rfl⟩ := h
  exact ⟨rfl, rfl, fun _ => rfl⟩

theorem State.closeWindow_onChannels (ch : Nat) : OnChannels s (s.closeWindow ch) := by
  unfold State.closeWindow
  split
  · exact ⟨_, _, rfl⟩
  · exact ⟨_, _, rfl⟩

/-- The end of its window starts the counters of a channel again, if it is over. -/
theorem State.closeWindow_channel (ch : Nat) :
    (s.closeWindow ch).channel ch = if 4096 ≤ (s.channel ch).bursts then (s.channel ch).restart else s.channel ch := by
  unfold State.closeWindow
  split
  · rw [State.windowEnd_eq, State.channel_setChannel_same]
  · rfl

theorem State.closeWindow_channel_ne {ch m : Nat} (h : m ≠ ch) : (s.closeWindow ch).channel m = s.channel m := by
  unfold State.closeWindow
  split
  · rw [State.windowEnd_eq, State.channel_setChannel_ne _ _ h, State.channel_setPkgReg]
  · rfl

/-! ### Rates (R67 to R69) -/

theorem rateOf_max (t cap : Nat) : rateOf (max t cap) = rateFor t cap := by
  unfold rateFor
  generalize max t cap = n
  match n with
  | 0 => rfl
  | 1 => rfl
  | n + 2 => rfl

/-- One step up from a rate. -/
theorem rateOf_steps_pred (r : Rate) : rateOf (r.steps - 1) = if r = .low then .mid else .full := by cases r <;> rfl

/-- A channel that switches has its window ended first, which does not show in it. -/
theorem State.switchRate_eq (ch : Nat) (r : Rate) :
    s.switchRate ch r = (s.closeWindow ch).setChannel ch ((s.channel ch).switchTo r s.time) := by
  have counters : ((s.closeWindow ch).channel ch).restart = (s.channel ch).restart := by
    rw [State.closeWindow_channel]
    split <;> rfl
  have time : (s.closeWindow ch).time = s.time := by
    obtain ⟨_, _, h⟩ := s.closeWindow_onChannels ch
    rw [h]
  simp only [State.switchRate, counters, time]
  rfl

/-- The thermal state that a channel in state `n` acts on: thresholds out of order count as state 3 (R67). -/
def State.actingOn (s : State) (n : Nat) : Nat :=
  if s.threshold 1 ≤ s.threshold 2 ∧ s.threshold 2 ≤ s.threshold 3 then n else 3

theorem State.thermalOf_eq (ch : Nat) : s.thermalOf ch = s.actingOn (s.channel ch).thermal := by
  simp only [State.thermalOf, State.thermOk, State.actingOn, Bool.and_eq_true, decide_eq_true_eq]

/-- The cap on the rate of every channel (R68). -/
def State.rateCap (s : State) : Nat := bits (s.pkgReg 1) 32 2

theorem State.targetRate_eq (ch : Nat) : s.targetRate ch = rateFor (s.actingOn (s.channel ch).thermal) s.rateCap := by
  rw [State.targetRate, rateOf_max, State.thermalOf_eq]; rfl

/-- A channel that comes to act on thermal state `th` is reported (R68). -/
abbrev Channel.tells (c : Channel) (th : Nat) : Prop := c.switching = false ∧ th = 3 ∧ c.acted ≠ 3

/-- A channel comes to act on its thermal state (R68). -/
theorem State.actThermal_spec (ch : Nat) (still : (s.channel ch).switching = false) :
    let th := s.actingOn (s.channel ch).thermal
    ∃ cs, Sparse.getD cs ch Channel.init = { s.channel ch with acted := th } ∧
      s.actThermal ch = { s with
        channels := cs
        foreman := s.foreman ++ if (s.channel ch).tells th then [.thermal ch] else []
        msix := s.msix ++ if (s.channel ch).tells th then [⟨3, 0⟩] else [] } := by
  intro th
  unfold State.actThermal
  rw [s.thermalOf_eq]
  dsimp only
  split
  · next same =>
    have silent : ¬ (s.channel ch).tells th := fun ⟨_, three, acted⟩ => acted (same.symm.trans three)
    exact ⟨s.channels, by rw [show th = _ from same]; rfl, by simp only [if_neg silent, List.append_nil]⟩
  · next new =>
    refine ⟨s.channels.set ch { s.channel ch with acted := th }, Sparse.getD_set_same _ _ _ _, ?_⟩
    split
    · next three =>
      have told : (s.channel ch).tells th := ⟨still, three, fun acted => new (three.trans acted.symm)⟩
      simp only [if_pos told]
      rfl
    · next low =>
      have silent : ¬ (s.channel ch).tells th := fun ⟨_, three, _⟩ => low three
      simp only [if_neg silent, List.append_nil]
      rfl

/-- A channel looks at its thermal state and its target: it is then as it acts on them, and state 3 is reported once (R68). -/
theorem State.evalRate_spec (ch : Nat) :
    let th := s.actingOn (s.channel ch).thermal
    ∃ p cs, Sparse.getD cs ch Channel.init = (s.channel ch).lookedAt th s.rateCap s.time ∧
      s.evalRate ch = { s with
        pkg := p, channels := cs
        foreman := s.foreman ++ if (s.channel ch).tells th then [.thermal ch] else []
        msix := s.msix ++ if (s.channel ch).tells th then [⟨3, 0⟩] else [] } := by
  intro th
  unfold State.evalRate
  split
  · next moving =>
    have silent : ¬ (s.channel ch).tells th := fun ⟨still, _⟩ => by rw [moving] at still; cases still
    exact ⟨s.pkg, s.channels, (if_pos moving).symm, by simp only [if_neg silent, List.append_nil]⟩
  · next idle =>
    have still : (s.channel ch).switching = false := by simpa using idle
    obtain ⟨cs, here, acts⟩ := s.actThermal_spec ch still
    generalize s.actThermal ch = t at acts
    have channel : t.channel ch = { s.channel ch with acted := th } := by rw [acts]; exact here
    have target : t.targetRate ch = rateFor th s.rateCap := by
      rw [t.targetRate_eq, channel, acts]; rfl
    dsimp only
    rw [channel, target]
    split
    · next slower =>
      obtain ⟨p, cs', ended⟩ := t.closeWindow_onChannels ch
      refine ⟨p, Sparse.set cs' ch ({ s.channel ch with acted := th }.switchTo (rateFor th s.rateCap) s.time), ?_, ?_⟩
      · rw [Sparse.getD_set_same, Channel.lookedAt, if_neg idle, if_pos slower]
      · rw [t.switchRate_eq, channel, ended, acts]; rfl
    · next reached =>
      refine ⟨s.pkg, cs, ?_, acts⟩
      rw [here, Channel.lookedAt, if_neg idle, if_neg reached]

end

/-- `t` is `s` after channel `ch`, as `c`, has looked at its thermal state and its target (R68). -/
structure Looked (s t : State) (ch : Nat) (c : Channel) : Prop where
  channel : t.channel ch = c.lookedAt (s.actingOn c.thermal) s.rateCap s.time
  groups : t.groups = s.groups
  main : t.main = s.main
  requests : t.requests = s.requests
  msix : t.msix = s.msix ++ if c.tells (s.actingOn c.thermal) then [⟨3, 0⟩] else []
  foreman : t.foreman = s.foreman ++ if c.tells (s.actingOn c.thermal) then [.thermal ch] else []

/-- MTHERM is what a look depends on beside the channel. -/
theorem evalRate_looked {s u : State} {ch : Nat} {c : Channel} (frame : ∃ p cs bd, u = { s with pkg := p, channels := cs, baseDies := bd })
    (mtherm : u.pkgReg 1 = s.pkgReg 1) (channel : u.channel ch = c) :
    Looked s (u.evalRate ch) ch c ∧ (u.evalRate ch).baseDies = u.baseDies := by
  have acting : u.actingOn c.thermal = s.actingOn c.thermal := by
    have threshold : ∀ k, u.threshold k = s.threshold k := fun k => by rw [State.threshold, mtherm]; rfl
    rw [State.actingOn, threshold, threshold, threshold]; rfl
  have cap : u.rateCap = s.rateCap := by rw [State.rateCap, mtherm]; rfl
  obtain ⟨p, cs, here, looks⟩ := u.evalRate_spec ch
  rw [channel, acting] at looks
  rw [channel, acting, cap] at here
  obtain ⟨_, _, _, rfl⟩ := frame
  rw [looks]
  exact ⟨⟨here, rfl, rfl, rfl, rfl, rfl⟩, rfl⟩

theorem State.reportHeat_mtherm (s : State) : s.reportHeat.pkgReg 1 = s.pkgReg 1 := State.pkgReg_setPkgReg_ne _ _ (by decide)

/-- A channel whose temperature or thermal state is new looks at it. -/
theorem reportHeat_looked (s : State) (ch : Nat) (c : Channel) : Looked s ((s.setChannel ch c).reportHeat.evalRate ch) ch c :=
  (evalRate_looked (s := s) ⟨_, _, _, rfl⟩ (s.setChannel ch c).reportHeat_mtherm (s.channel_setChannel_same ch c)).1

/-- The largest of a number and those of a list is one of them. -/
theorem foldl_max_mem (l : List Nat) (m : Nat) : l.foldl max m = m ∨ l.foldl max m ∈ l := by
  induction l generalizing m with
  | nil => exact .inl rfl
  | cons a l ih =>
    rw [List.foldl_cons]
    rcases ih (max m a) with same | inside
    · rw [same]
      rcases max_choice m a with left | right
      · exact .inl left
      · rw [right]; exact .inr List.mem_cons_self
    · exact .inr (List.mem_cons_of_mem _ inside)

/-- The thermal state of a channel in state `n` at a temperature: the highest whose threshold it reaches, and no lower (R67). -/
def State.risen (s : State) (temp n : Nat) : Nat := ([1, 2, 3].filter (fun k => decide (s.threshold k ≤ temp))).foldl max n

theorem State.risen_spec (s : State) (temp n : Nat) : n ≤ s.risen temp n ∧
    (∀ k, 1 ≤ k → k ≤ 3 → s.threshold k ≤ temp → k ≤ s.risen temp n) ∧
    (s.risen temp n = n ∨ (1 ≤ s.risen temp n ∧ s.risen temp n ≤ 3 ∧ s.threshold (s.risen temp n) ≤ temp)) := by
  have level : ∀ k, k ∈ [1, 2, 3] ↔ 1 ≤ k ∧ k ≤ 3 := fun k => by simp only [List.mem_cons, List.not_mem_nil, or_false]; omega
  obtain ⟨start, reached⟩ := le_foldl_max (fun k : Nat => k) ([1, 2, 3].filter (fun k => decide (s.threshold k ≤ temp))) n
  refine ⟨start, fun k low high hot => reached k ?_, ?_⟩
  · exact List.mem_filter.mpr ⟨(level k).mpr ⟨low, high⟩, decide_eq_true hot⟩
  · refine (foldl_max_mem _ n).imp_right fun inside => ?_
    obtain ⟨mem, hot⟩ := List.mem_filter.mp inside
    obtain ⟨low, high⟩ := (level _).mp mem
    exact ⟨low, high, of_decide_eq_true hot⟩

/-- The cycles since which a temperature has stayed below a level, with level `k` noted at time `now`. -/
def noteBelow (cold : Nat → Prop) [DecidablePred cold] (now : Nat) (m : Sparse Nat) (k : Nat) : Sparse Nat :=
  if cold k then (if (m.get? k).isSome then m else m.set k now) else m.erase k

section
variable (cold : Nat → Prop) [DecidablePred cold] (now : Nat) (m : Sparse Nat)

theorem noteBelow_same (k : Nat) : (noteBelow cold now m k).get? k = if cold k then some ((m.get? k).getD now) else none := by
  unfold noteBelow
  split
  · split
    · next known =>
      obtain ⟨t, ht⟩ := Option.isSome_iff_exists.mp known
      rw [ht]; rfl
    · next unknown => simp [Option.not_isSome_iff_eq_none.mp unknown]
  · exact Sparse.get?_erase_same m k

theorem noteBelow_ne {j k : Nat} (h : j ≠ k) : (noteBelow cold now m k).get? j = m.get? j := by
  unfold noteBelow
  split
  · split
    · rfl
    · exact m.get?_set_ne _ h
  · exact m.get?_erase_ne h

/-- After each of three levels has been noted. -/
theorem noteBelow_levels {k : Nat} (low : 1 ≤ k) (high : k ≤ 3) :
    Sparse.get? ([1, 2, 3].foldl (noteBelow cold now) m) k = if cold k then some ((m.get? k).getD now) else none := by
  have level : k = 1 ∨ k = 2 ∨ k = 3 := by omega
  rcases level with rfl | rfl | rfl
  · simp [noteBelow_same, noteBelow_ne]
  · simp [noteBelow_same, noteBelow_ne]
  · simp [noteBelow_same, noteBelow_ne]

end

/-- THERMAL_SAMPLE (R67). -/
theorem execThermalSample_eq (s : State) (ch temp : Nat) : execThermalSample ch temp s =
    .next ((s.setChannel ch { s.channel ch with
      temp := temp, thermal := s.risen temp (s.channel ch).thermal
      below := [1, 2, 3].foldl (noteBelow (fun k => temp + s.hysteresis < s.threshold k) s.time) (s.channel ch).below
      }).reportHeat.evalRate ch) := rfl

section
variable {s : State} {ch : Nat}

/-- A thermal state falls 1 ms after the temperature has fallen below its level (R67). -/
theorem fallDue_iff : s.fallDue ch = true ↔ 0 < (s.channel ch).thermal ∧
    ∃ since, (s.channel ch).below.get? (s.channel ch).thermal = some since ∧ Config.msCycles ≤ s.time - since := by
  unfold State.fallDue
  dsimp only
  split
  · next since h => simp [h]
  · next h => simp [h]

/-- A rate rises 1 ms after the last switch (R68). -/
theorem riseDue_iff : s.riseDue ch = true ↔ (s.channel ch).switching = false ∧
    (rateFor (s.actingOn (s.channel ch).thermal) s.rateCap).steps < (s.channel ch).rate.steps ∧
    Config.msCycles ≤ s.time - (s.channel ch).lastSwitch := by
  simp only [State.riseDue, State.targetRate_eq, Bool.and_eq_true, Bool.not_eq_true', decide_eq_true_eq, and_assoc]

/-! ### Refresh of a stack (R69 to R71) -/

variable {stack : Nat}

theorem stackStalls_eq_false : s.stackStalls stack = false ↔ ∀ k < 32, (s.channel (stack * 32 + k)).switching = false := by
  simp [State.stackStalls, List.any_eq_false]

/-- A fallback sequencer that nothing stalls issues what has been postponed. -/
theorem catchUp_issues (owner : s.fallback stack = true) (still : s.stackStalls stack = false) :
    s.catchUp stack = s.setBaseDie stack { s.baseDie stack with
      issued := (s.baseDie stack).issued + (s.baseDie stack).postponed, postponed := 0 } := by
  simp only [State.catchUp, owner, still, Bool.not_false, Bool.and_self, if_true]

theorem catchUp_waits (h : s.fallback stack = false ∨ s.stackStalls stack = true) : s.catchUp stack = s := by
  rcases h with h | h
  · simp only [State.catchUp, h, Bool.false_and, Bool.false_eq_true, if_false]
  · simp only [State.catchUp, h, Bool.not_true, Bool.and_false, Bool.false_eq_true, if_false]

theorem catchUp_frame (s : State) (stack : Nat) : ∃ bd, s.catchUp stack = { s with baseDies := bd } := by
  unfold State.catchUp
  dsimp only
  split
  · exact ⟨_, rfl⟩
  · exact ⟨_, rfl⟩

theorem catchUp_baseDie_ne {k : Nat} (h : k ≠ stack) : (s.catchUp stack).baseDie k = s.baseDie k := by
  unfold State.catchUp
  dsimp only
  split
  · exact s.baseDie_setBaseDie_ne _ h
  · rfl

end

/-! ### Reset of a base die (R68) -/

/-- A channel after a reset of its base die. -/
def Channel.atReset (c : Channel) : Channel :=
  let d := if 4096 ≤ c.bursts then c.restart else c
  { (if d.rate = .full then d else d.restart) with rate := .full, switching := false }

theorem Channel.atReset_fields (c : Channel) :
    c.atReset.rate = .full ∧ c.atReset.switching = false ∧ (c.rate ≠ .full → c.atReset.bursts = 0) := by
  refine ⟨rfl, rfl, fun slow => ?_⟩
  have slow' : (if 4096 ≤ c.bursts then c.restart else c).rate ≠ .full := by
    split
    · exact slow
    · exact slow
  simp only [Channel.atReset, if_neg slow']
  rfl

/-- `s` after its first `n` channels of a stack are reset. -/
def State.channelsReset (s : State) (stack n : Nat) : State :=
  (List.range n).foldl (fun t k => State.channelReset t (stack * 32 + k)) s

section
variable (s : State) (stack n : Nat)

theorem channelReset_onChannels (ch : Nat) : OnChannels s (s.channelReset ch) := by
  obtain ⟨_, _, h⟩ := s.closeWindow_onChannels ch
  unfold State.channelReset
  rw [h]
  exact ⟨_, _, rfl⟩

theorem channelReset_channel (ch m : Nat) :
    (s.channelReset ch).channel m = if m = ch then (s.channel ch).atReset else s.channel m := by
  unfold State.channelReset
  split
  · next same => rw [same, State.channel_setChannel_same, s.closeWindow_channel]; rfl
  · next other => rw [State.channel_setChannel_ne _ _ other, s.closeWindow_channel_ne other]

theorem channelsReset_succ : s.channelsReset stack (n + 1) = (s.channelsReset stack n).channelReset (stack * 32 + n) := by
  rw [State.channelsReset, List.range_succ, List.foldl_append]; rfl

theorem channelsReset_onChannels : OnChannels s (s.channelsReset stack n) := by
  induction n with
  | zero => exact ⟨_, _, rfl⟩
  | succ n ih =>
    rw [channelsReset_succ]
    exact ih.trans (channelReset_onChannels _ _)

theorem channelsReset_channel (m : Nat) : (s.channelsReset stack n).channel m =
    if stack * 32 ≤ m ∧ m < stack * 32 + n then (s.channel m).atReset else s.channel m := by
  induction n with
  | zero => rw [if_neg (by omega)]; rfl
  | succ n ih =>
    rw [channelsReset_succ, channelReset_channel]
    split
    · next last =>
      subst last
      have fresh : (s.channelsReset stack n).channel (stack * 32 + n) = s.channel (stack * 32 + n) := by
        rw [ih, if_neg (by omega)]
      rw [fresh, if_pos (by omega)]
    · next other => rw [ih]; exact if_congr (by omega) rfl rfl

/-- Where no window is over, none is reported. -/
theorem channelsReset_pkg (short : ∀ k < n, (s.channel (stack * 32 + k)).bursts < 4096) :
    (s.channelsReset stack n).pkg = s.pkg := by
  induction n with
  | zero => rfl
  | succ n ih =>
    have fresh : (s.channelsReset stack n).channel (stack * 32 + n) = s.channel (stack * 32 + n) := by
      rw [channelsReset_channel, if_neg (by omega)]
    rw [channelsReset_succ, State.channelReset, State.closeWindow_open _ (by rw [fresh]; exact short n (by omega))]
    exact ih fun k hk => short k (by omega)

end

/-! ### The events -/

/-- DBI_WINDOW_END (R66). -/
theorem execDbiWindowEnd_end {s : State} {ch : Nat} (full : 4096 ≤ (s.channel ch).bursts) :
    execDbiWindowEnd ch (s.channel ch).ones (s.channel ch).trans s = .next (s.windowEnd ch) := by
  simp only [execDbiWindowEnd, full, and_self, if_true]

theorem execDbiWindowEnd_other {s : State} {ch ones toggles : Nat}
    (h : (s.channel ch).bursts < 4096 ∨ ones ≠ (s.channel ch).ones ∨ toggles ≠ (s.channel ch).trans) :
    execDbiWindowEnd ch ones toggles s = .next s := by
  refine congrArg _ (if_neg ?_)
  rintro ⟨full, sameOnes, sameTrans⟩
  rcases h with short | other | other
  · omega
  · exact other sameOnes.symm
  · exact other sameTrans.symm

section
variable {s : State} {ch : Nat}

theorem execThermalStateFall_due (due : s.fallDue ch = true) : execThermalStateFall ch s =
    .next ((s.setChannel ch { s.channel ch with thermal := (s.channel ch).thermal - 1 }).reportHeat.evalRate ch) :=
  congrArg _ (if_pos due)

theorem execThermalStateFall_early (early : ¬ s.fallDue ch = true) : execThermalStateFall ch s = .next s :=
  congrArg _ (if_neg early)

/-- RATE_RISE_TIMER (R68): one step up. -/
theorem execRateRiseTimer_due (due : s.riseDue ch = true) : execRateRiseTimer ch s = .next ((s.closeWindow ch).setChannel ch
    ((s.channel ch).switchTo (if (s.channel ch).rate = .low then .mid else .full) s.time)) := by
  rw [execRateRiseTimer, if_pos due, s.switchRate_eq, rateOf_steps_pred]

theorem execRateRiseTimer_early (early : ¬ s.riseDue ch = true) : execRateRiseTimer ch s = .next s :=
  congrArg _ (if_neg early)

/-- `s` at the end of a switch of channel `ch`, before the channel looks at what has changed (R69). -/
def State.switchOver (s : State) (ch : Nat) : State :=
  (s.setChannel ch { s.channel ch with switching := false }).catchUp (ch / 32)

/-- RATE_SWITCH_END (R69): the channel looks at what has changed meanwhile. -/
theorem switchOver_looked (s : State) (ch : Nat) :
    Looked s ((s.switchOver ch).evalRate ch) ch { s.channel ch with switching := false } ∧
      ((s.switchOver ch).evalRate ch).baseDies = (s.switchOver ch).baseDies := by
  obtain ⟨bd, h⟩ := catchUp_frame (s.setChannel ch { s.channel ch with switching := false }) (ch / 32)
  have ends : s.switchOver ch = { s.setChannel ch { s.channel ch with switching := false } with baseDies := bd } := h
  refine evalRate_looked ⟨_, _, _, ends⟩ ?_ ?_
  · rw [ends]; rfl
  · rw [ends]; exact s.channel_setChannel_same ch _

/-- A fallback sequencer then issues what the stall has postponed, unless another channel stalls (R70). -/
theorem switchOver_issues (owner : s.fallback (ch / 32) = true)
    (still : ∀ k < 32, ch / 32 * 32 + k ≠ ch → (s.channel (ch / 32 * 32 + k)).switching = false) :
    (s.switchOver ch).baseDie (ch / 32) = { s.baseDie (ch / 32) with
      issued := (s.baseDie (ch / 32)).issued + (s.baseDie (ch / 32)).postponed, postponed := 0 } := by
  rw [State.switchOver, catchUp_issues (by exact owner) (stackStalls_eq_false.mpr fun k hk => ?_), State.baseDie_setBaseDie_same]
  · rfl
  · by_cases here : ch / 32 * 32 + k = ch
    · rw [here, State.channel_setChannel_same]
    · rw [State.channel_setChannel_ne _ _ here]; exact still k hk here

theorem switchOver_waits (core : s.fallback (ch / 32) = false) : (s.switchOver ch).baseDie (ch / 32) = s.baseDie (ch / 32) := by
  rw [State.switchOver, catchUp_waits (.inl (by exact core))]; rfl

end

/-- `s` with a base die as it is after its reset (R68). -/
def State.freshBaseDie (s : State) (stack : Nat) : State :=
  s.setBaseDie stack { BaseDie.init with scrubbed := (s.baseDie stack).scrubbed }

/-- BASE_DIE_RESET (R68). -/
theorem execBaseDieReset_eq (s : State) (stack : Nat) :
    execBaseDieReset stack s = .next ((s.freshBaseDie stack).channelsReset stack 32) := rfl

section
variable {s : State} {n : Nat}

theorem boundary_iff : s.boundary n = true ↔ Config.trefiCycles ≤ s.time - (s.baseDie n).lastBoundary := decide_eq_true_iff

theorem handbackDue_iff : s.handbackDue n = true ↔
    s.fallback n = true ∧ (s.pkgReg (bdstat n)).getLsbD 61 = true ∧ (s.baseDie n).beatSeen = true := by
  simp only [State.handbackDue, Bool.and_eq_true, and_assoc]

theorem execRefreshHandback_due (due : s.boundary n = true) (back : s.handbackDue n = true) :
    execRefreshHandback n s = .next (s.handback n) := by
  simp only [execRefreshHandback, due, back, Bool.and_self, if_true]

theorem execRefreshHandback_not (h : ¬ (s.boundary n = true ∧ s.handbackDue n = true)) : execRefreshHandback n s = .next s :=
  congrArg _ (if_neg (by rwa [Bool.and_eq_true]))

/-- Whoever owns the refresh of a stack issues it, with what has been postponed (R70). -/
theorem BaseDie.refresh_issues {b : BaseDie} {fb stall : Bool} (still : stall = false) (owner : fb = true ∨ b.beatSeen = true) (m : Nat) :
    b.refresh fb stall m = { b with issued := b.issued + b.postponed + m, postponed := 0 } := by
  refine if_pos ?_
  simpa [still] using owner

/-- Refresh is postponed while a channel switches, or while nobody owns it (R69, R70). -/
theorem BaseDie.refresh_postpones {b : BaseDie} {fb stall : Bool} (h : stall = true ∨ (fb = false ∧ b.beatSeen = false)) (m : Nat) :
    b.refresh fb stall m = { b with postponed := b.postponed + m } := by
  refine if_neg ?_
  rcases h with stalls | ⟨core, silent⟩
  · simp [stalls]
  · simp [core, silent]

/-- The base die of a stack at the end of a refresh interval, its refreshes counted in `b` (R70). -/
def BaseDie.nextInterval (b : BaseDie) (now : Nat) : BaseDie :=
  { b with missed := if b.beatSeen then 0 else b.missed + 1, beatSeen := false, lastBoundary := now }

/-- REFRESH_DUE (R70, R71). -/
theorem execRefreshDue_due (due : s.boundary n = true) {b : BaseDie}
    (refreshed : (s.baseDie n).refresh (s.fallback n) (s.stackStalls n) (s.refreshPer n) = b) : execRefreshDue n s =
      .next ((if s.fallback n = true ∧ (s.pkgReg (bdstat n)).getLsbD 61 = true ∧ (s.baseDie n).beatSeen = true then s.handback n
        else s).setBaseDie n (b.nextInterval s.time)) := by
  have late : ¬ (!s.boundary n) = true := by rw [due]; decide
  rw [execRefreshDue, if_neg late, refreshed]
  simp only [handbackDue_iff]
  rfl

theorem execRefreshDue_early (early : ¬ s.boundary n = true) : execRefreshDue n s = .next s :=
  congrArg _ (if_pos (by simpa using early))

/-- `s` with refresh of a stack in the hands of its fallback sequencer, which has issued what it could (R70). -/
def State.takenOver (s : State) (n : Nat) : State := (s.setPkgReg (bdstat n) (setBits (s.pkgReg (bdstat n)) 62 2 3)).catchUp n

theorem execFallbackTakeover_due (core : s.fallback n = false) (silent : 2 ≤ (s.baseDie n).missed) : execFallbackTakeover n s =
    .next { s.takenOver n with
      foreman := (s.takenOver n).foreman ++ [.takeover n], msix := (s.takenOver n).msix ++ [⟨3, 0⟩] } := by
  rw [execFallbackTakeover, core, if_pos (by simpa using silent)]; rfl

theorem execFallbackTakeover_not (h : s.fallback n = true ∨ (s.baseDie n).missed < 2) : execFallbackTakeover n s = .next s := by
  refine congrArg _ (if_neg ?_)
  rcases h with owned | beats
  · simp [owned]
  · simp [beats]

theorem takenOver_frame (s : State) (n : Nat) : ∃ bd, s.takenOver n =
    { s.setPkgReg (bdstat n) (setBits (s.pkgReg (bdstat n)) 62 2 3) with baseDies := bd } := catchUp_frame _ _

theorem takenOver_baseDie_ne {k : Nat} (h : k ≠ n) : (s.takenOver n).baseDie k = s.baseDie k := catchUp_baseDie_ne h

theorem takenOver_issues (still : s.stackStalls n = false) : (s.takenOver n).baseDie n = { s.baseDie n with
    issued := (s.baseDie n).issued + (s.baseDie n).postponed, postponed := 0 } := by
  have owner : (s.setPkgReg (bdstat n) (setBits (s.pkgReg (bdstat n)) 62 2 3)).fallback n = true := by
    rw [State.fallback]
    exact (congrArg (BitVec.getLsbD · 63) (s.pkgReg_setPkgReg_same _ _)).trans (setBits_high_getLsbD _)
  rw [State.takenOver, catchUp_issues owner (by exact still), State.baseDie_setBaseDie_same]
  rfl

theorem takenOver_waits (stalls : s.stackStalls n = true) : (s.takenOver n).baseDie n = s.baseDie n := by
  rw [State.takenOver, catchUp_waits (.inr (by exact stalls))]; rfl

end

/-- Settles O56, event by event: what changes in a channel is what it acts on when it looks. -/
theorem channelAndRefreshEvents : Obligations.ChannelAndRefreshEvents := by
  unfold Obligations.ChannelAndRefreshEvents
  refine ⟨?window, ?channel, ?reset, ?refresh⟩
  case window =>
    rintro s ch ones toggles c rfl
    refine ⟨execDbiWindowEnd_other, fun full => ⟨s.windowReport ch, execDbiWindowEnd_end full, ?_⟩⟩
    obtain ⟨ones, trans, mode⟩ := s.windowReport_fields ch
    refine ⟨ones, trans, ?_⟩
    intro cfg ac dc
    rw [getLsbD_eq_bits, mode, getLsbD_eq_bits]
    have next : s.nextMode ch = if dc < ac then 1 else if ac < dc then 0 else bits (s.pkgReg (0x400 + ch)) 63 1 := rfl
    refine ⟨fun less => ?_, fun more => ?_, fun same => ?_⟩
    · rw [next, if_pos less]; rfl
    · rw [next, if_neg (by omega), if_pos more]; rfl
    · rw [next, if_neg (by omega), if_neg (by omega)]
  case channel =>
    rintro s ch temp cap c rfl rfl
    intro th hys acts want told
    refine ⟨?sample, ?fall, ?keep, ?rise, ?stay, ?switched⟩
    case sample =>
      obtain ⟨start, hot, level⟩ := s.risen_spec temp (s.channel ch).thermal
      have looked := reportHeat_looked s ch { s.channel ch with
        temp := temp, thermal := s.risen temp (s.channel ch).thermal
        below := [1, 2, 3].foldl (noteBelow (fun k => temp + s.hysteresis < s.threshold k) s.time) (s.channel ch).below }
      exact ⟨_, s.risen temp (s.channel ch).thermal, _, execThermalSample_eq s ch temp, looked.groups, looked.main, start, hot, level,
        looked.channel, fun k low high => noteBelow_levels _ _ _ low high, looked.msix, looked.foreman⟩
    case fall =>
      intro since warm noted
      refine ⟨fun early => execThermalStateFall_early fun h => ?_, fun due => ?_⟩
      · obtain ⟨-, t, there, late⟩ := fallDue_iff.mp h
        rw [noted, Option.some.injEq] at there
        omega
      · have looked := reportHeat_looked s ch { s.channel ch with thermal := (s.channel ch).thermal - 1 }
        exact ⟨_, execThermalStateFall_due (fallDue_iff.mpr ⟨warm, since, noted, due⟩), looked.main, looked.channel⟩
    case keep =>
      refine fun h => execThermalStateFall_early fun due => ?_
      obtain ⟨warm, since, noted, -⟩ := fallDue_iff.mp due
      rcases h with cold | unnoted
      · omega
      · rw [unnoted] at noted; cases noted
    case rise =>
      intro still slower late risen
      have rises := execRateRiseTimer_due (riseDue_iff.mpr ⟨still, slower, late⟩)
      refine ⟨fun short => ?_, fun full => ⟨_, rises, State.channel_setChannel_same _ _ _, State.closeWindow_main, ?_⟩⟩
      · rw [s.closeWindow_open short] at rises; exact rises
      · obtain ⟨ones, trans, -⟩ := s.windowReport_fields ch
        rw [State.pkgReg_setChannel, s.closeWindow_full full, s.windowEnd_eq, State.pkgReg_setChannel, State.pkgReg_setPkgReg_same]
        exact ⟨ones, trans⟩
    case stay =>
      refine fun h => execRateRiseTimer_early fun due => ?_
      obtain ⟨still, slower, late⟩ := riseDue_iff.mp due
      rcases h with moving | reached | early
      · rw [still] at moving; cases moving
      · exact absurd slower (not_lt.mpr reached)
      · omega
    case switched =>
      obtain ⟨looked, baseDies⟩ := switchOver_looked s ch
      have baseDie : ((s.switchOver ch).evalRate ch).baseDie (ch / 32) = (s.switchOver ch).baseDie (ch / 32) := by
        rw [State.baseDie, baseDies]; rfl
      refine ⟨(s.switchOver ch).evalRate ch, rfl, looked.main, looked.groups, looked.requests, looked.channel, ?_, ?_⟩
      · rw [looked.msix]
        simp only [Channel.tells, true_and]
        rfl
      · intro b
        rw [baseDie]
        exact ⟨switchOver_issues, switchOver_waits⟩
  case reset =>
    intro s stack
    have start : ∀ m, (s.freshBaseDie stack).channel m = s.channel m := fun m => rfl
    have channel := channelsReset_channel (s.freshBaseDie stack) stack 32
    obtain ⟨main, groups, baseDie⟩ := (channelsReset_onChannels (s.freshBaseDie stack) stack 32).frame
    refine ⟨_, execBaseDieReset_eq s stack, main, groups, fun short => ?_, fun k hk => ?_, fun k out => ?_, fun k other => ?_⟩
    · exact channelsReset_pkg (s.freshBaseDie stack) stack 32 short
    · rw [channel, if_pos (by omega), start]
      exact Channel.atReset_fields _
    · rw [channel, if_neg (by omega), start]
    · rw [baseDie]
      exact s.baseDie_setBaseDie_ne _ other
  case refresh =>
    rintro s n w b rfl rfl
    intro due still count handed after
    have stalls : ¬ still → s.stackStalls n = true := fun h => by
      rw [← Bool.not_eq_false]
      exact fun idle => h (stackStalls_eq_false.mp idle)
    refine ⟨?handback, ?keep, fun early => execRefreshDue_early (boundary_iff.not.mpr early), ?issued, ?postponed, ?takeover, ?beats, rfl⟩
    case handback =>
      exact fun late owner rel beat => execRefreshHandback_due (boundary_iff.mpr late) (handbackDue_iff.mpr ⟨owner, rel, beat⟩)
    case keep =>
      refine fun h => execRefreshHandback_not fun ⟨late, back⟩ => ?_
      obtain ⟨owner, rel, beat⟩ := handbackDue_iff.mp back
      rcases h with early | core | unreleased | silent
      · exact early (boundary_iff.mp late)
      · exact absurd owner (by rw [State.fallback, core]; decide)
      · exact absurd rel (by rw [bdstat, unreleased]; decide)
      · exact absurd beat (by rw [silent]; decide)
    case issued =>
      intro late idle owner
      exact execRefreshDue_due (boundary_iff.mpr late) (BaseDie.refresh_issues (stackStalls_eq_false.mpr idle) owner _)
    case postponed =>
      intro late h
      exact execRefreshDue_due (boundary_iff.mpr late) (BaseDie.refresh_postpones (h.imp_left stalls) _)
    case takeover =>
      intro core silent
      obtain ⟨bd, taken⟩ := takenOver_frame s n
      refine ⟨_, execFallbackTakeover_due core silent, ?_, by rw [taken]; rfl, by rw [taken]; rfl, by rw [taken]; rfl,
        fun k other => takenOver_baseDie_ne other, fun idle => takenOver_issues (stackStalls_eq_false.mpr idle),
        fun h => takenOver_waits (stalls h)⟩
      rw [taken]
      exact s.pkgReg_setPkgReg_same _ _
    case beats =>
      exact execFallbackTakeover_not

end Sys2Proof.Machine

/-! ## Reset (O48) -/

namespace Sys2Proof.Machine

/-- The model's reset values of the registers of a context are those of the table. -/
theorem ctxReset_eq (n : Nat) : ctxReset n = resetTable false n := by
  unfold ctxReset resetTable
  split
  · rfl
  · rfl
  · next qos jto => simp only [Bool.false_eq_true, if_false, if_neg qos, if_neg jto]

/-- So are those of the package registers; the table lists the two link timeouts as a range. -/
theorem pkgReset_eq (n : Nat) : pkgReset n = resetTable true n := by
  have timeouts : (n = 0x030 ∨ n = 0x031) = (0x030 ≤ n ∧ n ≤ 0x031) := propext (by omega)
  simp only [pkgReset, resetTable, timeouts, if_true]

/-- A host bench port that no request has used shows DONE (R379). -/
theorem HostPort.init_done : HostPort.init.reply.getLsbD 63 = true := by decide

/-- Settles O48: the registers are the table's, and the rest the reset state says outright. -/
theorem resetLeavesTheStatedValues : Obligations.ResetLeavesTheStatedValues := by
  unfold Obligations.ResetLeavesTheStatedValues
  refine ⟨rfl, ?context, ?package, rfl, rfl, rfl, rfl, rfl, ?ports, ?memory, rfl⟩
  case context => exact fun _ n => ctxReset_eq n
  case package => exact pkgReset_eq
  case ports => exact fun _ _ => HostPort.init_done
  case memory => exact fun _ => rfl

end Sys2Proof.Machine

/-! ## A denied copy-reduction whose group ends its context (O55 fails)

The completion of a part of a copy is said to leave the copy with one part less to wait for. Where the part is the last one of a
copy-reduction, its end settles the group that issued it (R120), and a group may be about to end its whole context (R346). -/

namespace Sys2Proof.Machine

/-- Copy 9, a reduction of group 0 that has written its last part. -/
def lastPartCopy : CopyOp :=
  { id := 9, gid := 0, sid := 0, ctx := loadBlock.ctx, core := 0, bid := 0, reduce := true, code := 0x24, dst := 0, src := 64, len := 8,
    bar := 0, begun := true, wrote := true, finished := false, waiting := 1, failedLines := [], srcX := [], dstX := [] }

/-- The completion of that part: a write, since the part was denied its page (R26). -/
def lastPartCompletion : Completion :=
  { req := { id := 5, route := .channel 0, pa := 0, va := 0, op := .write lastPartCopy.id 0 [0] [], core := 0, ctx := loadBlock.ctx,
             cls := 0, stamp := 0, sent := 0, lost := false, leaves := [], spoilt := none }
    status := .good, data := [], bad := [], free := [], old := [], x := 0, missed := false }

/-- Group 0 has been too long at a barrier (R348), and its context has no trap vector. -/
def lastPartState : State := { State.reset with
  copies := [lastPartCopy], completions := [lastPartCompletion], blocks := [(0, loadBlock)],
  groups := [(0, { loadGroup 0 0 with splits := [(0, { Split.blank 0 8 with watchdog := some 0 })] })] }

/-- The completion ends the copy, and the trap of its group ends the context and every copy of it. -/
theorem lastPart_ends_context : ∃ t, exec (.memCompletion 5) lastPartState = .next t ∧ t.copies = [] :=
  ⟨_, rfl, by decide +kernel⟩

/-- Refutes O55: a copy does not outlive a completion that ends its context. -/
theorem not_mainMemoryRequestEvents : ¬ Obligations.MainMemoryRequestEvents := by
  unfold Obligations.MainMemoryRequestEvents
  intro h
  obtain ⟨-, completes, -⟩ := h
  obtain ⟨-, written, -⟩ := completes lastPartState lastPartCompletion rfl rfl
  obtain ⟨t, done, -, -, kept, -⟩ := written 0 [0] lastPartCopy rfl rfl rfl rfl rfl (by decide) (by decide)
  obtain ⟨u, ends, gone⟩ := lastPart_ends_context
  obtain rfl : t = u := Host.Outcome.next.inj (done.symm.trans ends)
  exact List.cons_ne_nil _ _ (kept.symm.trans gone)

end Sys2Proof.Machine

/-! ## Attention operations at issue (O36) -/

namespace Sys2Proof.Machine

/-! ### Instructions that look at KVPOOL first (R85) -/

section
variable {s : State} {i : Issue}

/-- A trap of a steady split under a valid TRAPVEC. -/
theorem Steady.trapAt_entered (h : Steady s i) (ht : traps s i = true) {cause : Nat} (x : Word) (hc : cause ≠ 7) :
    s.trapAt i cause x = s.entered i cause i.sp.mask x := by
  obtain ⟨vector, outside⟩ : (s.ctxReg i.g.ctx 0x161).getLsbD 63 = true ∧ i.sp.trap.hnd = false := by
    simpa [Machine.traps] using ht
  exact h.trapAt cause x hc vector outside

/-- With the cache off such an instruction traps before it looks at anything else. -/
theorem Steady.kvIssue_off (h : Steady s i) (ht : traps s i = true) (off : s.kvOn i.g.ctx = false) (n : Issue → Needs)
    (eff : State → Issue → State) : kvIssue n eff s i = s.entered i 6 i.sp.mask 0 := by
  rw [kvIssue, off]
  exact h.trapAt_entered ht 0 (by decide)

/-- With the cache on it has its effect, where it names scalars alone. -/
theorem Calm.kvIssue_on (h : Calm s i) (on : s.kvOn i.g.ctx = true) {n : Issue → Needs} (eff : State → Issue → State)
    (scalars : ∃ ks, n i = { scal := ks }) : kvIssue n eff s i = eff s i := by
  obtain ⟨ks, hn⟩ := scalars
  rw [kvIssue, on]
  exact h.issue_scalar n eff (by rw [hn]) (by rw [hn]) (by rw [hn]) (by rw [hn])

end

/-! ### Operations that are spoilt (R308) -/

/-- A change of the values of a sparse array, key by key. -/
theorem get?_map_of_keys {α : Type} {m : Sparse α} {f : Nat × α → Nat × α} (hf : ∀ e, (f e).1 = e.1) {k : Nat} {v : α}
    (h : Sparse.get? m k = some v) : Sparse.get? (m.map f) k = some (f (k, v)).2 := by
  induction m with
  | nil => cases h
  | cons e m ih =>
    obtain ⟨j, w⟩ := e
    have key : (f (j, w)).1 = j := hf (j, w)
    rw [List.map_cons, ← Prod.mk.eta (p := f (j, w)), key]
    by_cases hj : j = k
    · subst hj
      simp only [Sparse.get?, if_true] at h ⊢
      rw [Option.some.inj h]
    · simp only [Sparse.get?, if_neg hj] at h ⊢
      exact ih h

/-- `t` is `s` after operations have been marked as spoilt and tiles have changed: a group without operations is as it was. -/
structure Marked (s t : State) : Prop where
  main : t.main = s.main
  blocks : t.blocks = s.blocks
  parity : t.parity = s.parity
  nextId : t.nextId = s.nextId
  slots : ∀ c, (t.core c).slots = (s.core c).slots
  attnQ : ∀ c, (t.core c).attnQ = (s.core c).attnQ
  idle : ∀ {gid g}, s.groups.get? gid = some g → g.ops = [] → t.groups.get? gid = some g

namespace Marked
variable {s t u : State}

theorem refl (s : State) : Marked s s := ⟨rfl, rfl, rfl, rfl, fun _ => rfl, fun _ => rfl, fun h _ => h⟩

theorem trans (h : Marked s t) (h' : Marked t u) : Marked s u where
  main := h'.main.trans h.main
  blocks := h'.blocks.trans h.blocks
  parity := h'.parity.trans h.parity
  nextId := h'.nextId.trans h.nextId
  slots c := (h'.slots c).trans (h.slots c)
  attnQ c := (h'.attnQ c).trans (h.attnQ c)
  idle live ops := h'.idle (h.idle live ops) ops

theorem foldl {α : Type} {f : State → α → State} (hf : ∀ v a, Marked v (f v a)) (l : List α) (s : State) :
    Marked s (l.foldl f s) := by
  induction l generalizing s with
  | nil => exact refl s
  | cons a l ih => exact (hf s a).trans (ih _)

/-- Operations marked in every group that has some. -/
theorem mapGroups {f : Nat × Group → Nat × Group} (hf : ∀ e, (f e).1 = e.1) (ho : ∀ e, e.2.ops = [] → (f e).2 = e.2) :
    Marked s { s with groups := s.groups.map f } :=
  { refl s with
    idle := fun {gid g} live ops => by rw [get?_map_of_keys hf live, ho (gid, g) ops] }

theorem setTile (s : State) (c k : Nat) (x : Tile) : Marked s (s.setTile c k x) := by
  have core : ∀ d, ((s.setTile c k x).core d).slots = (s.core d).slots ∧ ((s.setTile c k x).core d).attnQ = (s.core d).attnQ := by
    intro d
    by_cases here : d = c
    · subst here; simp [State.setTile]
    · simp [State.setTile, State.modCore, State.core_setCore_ne _ _ here]
  exact ⟨rfl, rfl, rfl, rfl, fun d => (core d).1, fun d => (core d).2, fun h _ => h⟩

end Marked

/-- A change of the operations of a group that has none. -/
theorem Group.map_no_ops {g : Group} (h : g.ops = []) (f : OpRec → OpRec) : { g with ops := g.ops.map f } = g := by
  rw [h, List.map_nil, ← h]

theorem spoilUses_marked (s : State) (space key lo n : Nat) : Marked s (s.spoilUses space key lo n) := by
  unfold State.spoilUses
  split
  · refine .mapGroups (fun e => ?_) (fun e ops => ?_)
    · split <;> rfl
    · split
      · exact Group.map_no_ops ops _
      · rfl
  · exact .refl s

theorem spoilTile_marked (s : State) (core k : Nat) : Marked s (s.spoilTile core k) := by
  unfold State.spoilTile
  split
  · exact .mapGroups (fun _ => rfl) (fun e ops => Group.map_no_ops ops _)
  · exact .refl s

theorem tileUndef_marked (s : State) (core k : Nat) : Marked s (s.tileUndef core k) :=
  Marked.trans (t := s.newSeed.2) ⟨rfl, rfl, rfl, rfl, fun _ => rfl, fun _ => rfl, fun h _ => h⟩ (.setTile _ _ _ _)

theorem useTile_marked (s : State) (core k : Nat) (attn : Bool) : Marked s (s.useTile core k attn) := by
  unfold State.useTile
  refine Marked.trans ?_ (.setTile _ _ _ _)
  split
  · exact (spoilTile_marked s core k).trans (tileUndef_marked _ _ _)
  · exact .refl s

/-! ### The operation queued (R306, R308) -/

section
variable {s : State} {i : Issue} {o : YF}

/-- The operation that `attn.brim` queues, by its number. -/
def attnOp (s : State) (i : Issue) (o : YF) (res : Bool) (id : Nat) : AttnOp where
  id := id
  gid := i.gid
  core := i.g.core
  bid := i.g.bid
  ctx := i.g.ctx
  tile := (s.tileNo i.g.bid (o.code % 8)).getD 0
  slotQ := attnQslot o
  desc := (i.sp.get o.sa).toNat
  work := i.sp.get (attnSb o)
  resume := res
  tier := []

/-- `s` after the bytes that an attention operation uses have been spoilt for others (R308). -/
def attnSpoils (s : State) (i : Issue) (o : YF) : State :=
  let d := descOf (s.windowRead i.g (i.sp.get o.sa) 64)
  (attnUsed (i.sp.get (attnSb o)).toNat (pagesIn d.len d.wstart) (s.origin i.g .spd + (i.sp.get o.sa).toNat)).foldl
    (fun u e => State.spoilUses u e.1 (if e.1 = 0 then i.g.bid else i.die) e.2.1 e.2.2) s

theorem attnSpoils_marked : Marked s (attnSpoils s i o) := .foldl (fun _ _ => spoilUses_marked _ _ _ _ _) _ s

/-- `s` after the query slot of an attention operation is engaged and its tile taken (R53, R128). -/
def attnTakes (s : State) (i : Issue) (o : YF) (tile : Nat) : State :=
  (s.setSlot i.g.core (attnQslot o) (s.slotOf i.g.core (attnQslot o)).addReader).useTile i.g.core tile true

theorem attnQueue_eq (res : Bool) : ∃ (uses : List (Nat × Nat × Nat)) (clash : Bool), s.attnQueue i o res =
    let id := (attnSpoils s i o).nextId
    let tile := (s.tileNo i.g.bid (o.code % 8)).getD 0
    ((attnTakes (attnSpoils s i o).newId.2 i o tile).modCore i.g.core
      (fun c => { c with attnQ := c.attnQ ++ [attnOp s i o res id] })).modGroup i.gid
        (fun g => { g with ops := g.ops ++ [⟨id, 2, 0, false, [(i.g.core, tile)], [], uses, clash⟩] }) :=
  ⟨_, _, rfl⟩

theorem attnTakes_marked (tile : Nat) : Marked
    (s.setSlot i.g.core (attnQslot o) (s.slotOf i.g.core (attnQslot o)).addReader) (attnTakes s i o tile) := useTile_marked _ _ _ _

/-- What queueing leaves: the operation is the last of the core's queue and the only one of its group, and its query slot has one more
reader. -/
theorem Calm.attnQueue_spec (h : Calm s i) (res : Bool) : ∃ r : OpRec, r.id = s.nextId ∧ r.cls = 2 ∧ r.batch = 0 ∧ r.done = false ∧
    (s.attnQueue i o res).groups.get? i.gid = some { i.g with ops := [r] } ∧ (s.attnQueue i o res).main = s.main ∧
    (s.attnQueue i o res).blocks = s.blocks ∧ (s.attnQueue i o res).parity = s.parity ∧
    ((s.attnQueue i o res).core i.g.core).attnQ = (s.core i.g.core).attnQ ++ [attnOp s i o res s.nextId] ∧
    (s.attnQueue i o res).slotOf i.g.core (attnQslot o) = (s.slotOf i.g.core (attnQslot o)).addReader := by
  obtain ⟨uses, clash, queue⟩ := attnQueue_eq (s := s) (i := i) (o := o) res
  have spoilt : Marked s (attnSpoils s i o) := attnSpoils_marked
  have takes := attnTakes_marked (s := (attnSpoils s i o).newId.2) (i := i) (o := o) ((s.tileNo i.g.bid (o.code % 8)).getD 0)
  simp only [spoilt.nextId] at queue
  generalize attnTakes (attnSpoils s i o).newId.2 i o ((s.tileNo i.g.bid (o.code % 8)).getD 0) = t at queue takes
  have live : t.groups.get? i.gid = some i.g := takes.idle (spoilt.idle (issuer_split h.issuer).1 h.ops) h.ops
  rw [queue, State.modGroup_of_get? _ (by exact live), h.ops, List.nil_append]
  have slotOf : (attnSpoils s i o).slotOf i.g.core (attnQslot o) = s.slotOf i.g.core (attnQslot o) := by
    rw [State.slotOf, spoilt.slots, State.slotOf]
  have slots : t.slotOf i.g.core (attnQslot o) = (s.slotOf i.g.core (attnQslot o)).addReader := by
    rw [State.slotOf, takes.slots, ← State.slotOf, State.slotOf_setSlot_same]
    exact congrArg Slot.addReader slotOf
  have attnQ : (t.core i.g.core).attnQ = (s.core i.g.core).attnQ := by
    rw [takes.attnQ, ← spoilt.attnQ, State.setSlot, State.core_modCore_same]
    rfl
  refine ⟨_, rfl, rfl, rfl, rfl, Sparse.get?_set_same _ _ _, takes.main.trans spoilt.main, takes.blocks.trans spoilt.blocks,
    takes.parity.trans spoilt.parity, ?_, ?_⟩
  · rw [State.setGroup_core, State.core_modCore_same, attnQ]
  · rw [State.slotOf, State.setGroup_core, State.core_modCore_same, ← slots, State.slotOf]

/-! ### The checks (R307) -/

/-- Past the checks, in a core with room, the operation is queued. -/
theorem attnEffect_queued (check : s.attnCheck i o = none) (room : s.attnFull i.g.core = false)
    (performed : s.unperformed i.gid = false) (res : Bool) : attnEffect o res s i = (s.attnQueue i o res).done i := by
  simp only [attnEffect, check, room, performed, Bool.or_self, Bool.false_eq_true, if_false]

/-- The first check that fails traps. -/
theorem attnEffect_trap {c : Nat} {x : Word} (check : s.attnCheck i o = some (c, x)) (res : Bool) :
    attnEffect o res s i = s.trapAt i c x := by
  simp only [attnEffect, check]

/-- The two instructions of attention differ in what they resume. -/
theorem Calm.attn_exec (h : Calm s i) {x : Instr} {res : Bool}
    (hx : (x = .attnBrim o ∧ res = false) ∨ (x = .attnBrimRes o ∧ res = true)) :
    exec x s = .next (kvIssue (fun _ => { scal := [o.sa, attnSb o] }) (attnEffect o res) s i) := by
  rcases hx with ⟨rfl, rfl⟩ | ⟨rfl, rfl⟩
  · rw [exec_attnBrim, execAttnBrim, onIssue_of _ h.issuer]
  · rw [exec_attnBrimRes, execAttnBrimRes, onIssue_of _ h.issuer]

theorem descCheck_cause {g : Group} {off : Word} {c : Nat} (h : s.descCheck g off = some c) : c ≠ 7 := by
  unfold State.descCheck at h
  split at h
  · cases h; decide
  · split at h
    · cases h; decide
    · split at h
      · cases h; decide
      · cases h

section
variable {k : Block} (live : s.blocks.get? i.g.bid = some k)
include live

theorem attnCheck_tile (tile : k.tiles[o.code % 8]? = none) : s.attnCheck i o = some (2, w64 (o.code % 8)) := by
  simp [State.attnCheck, State.tileNo, live, tile]

variable {p : Nat} (tile : k.tiles[o.code % 8]? = some p)
include tile

theorem attnCheck_slot (other : ¬ s.mayName i.gid i.g.core (attnQslot o) = true) :
    s.attnCheck i o = some (6, w64 (attnQslot o)) := by
  simp [State.attnCheck, State.tileNo, live, tile, other]

variable (slot : s.mayName i.gid i.g.core (attnQslot o) = true)
include slot

theorem attnCheck_desc {c : Nat} (desc : s.descCheck i.g (i.sp.get o.sa) = some c) :
    s.attnCheck i o = some (c, i.sp.get o.sa) := by
  simp [State.attnCheck, State.tileNo, live, tile, slot, desc]

theorem attnCheck_work (desc : s.descCheck i.g (i.sp.get o.sa) = none) :
    s.attnCheck i o = if (i.sp.get (attnSb o)).toNat % 8 ≠ 0 then some (3, i.sp.get (attnSb o)) else none := by
  simp [State.attnCheck, State.tileNo, live, tile, slot, desc]

end

end

/-- Settles O36: the checks are those of R307 in their order, and past them the operation is queued. -/
theorem attentionOperationsAreQueued : Obligations.AttentionOperationsAreQueued := by
  unfold Obligations.AttentionOperationsAreQueued
  rintro s i x o res k q p work steady hx live rfl rfl on has slot trap
  have h := steady_iff.mp steady
  have exec_on : s.kvOn i.g.ctx = true → exec x s = .next (attnEffect o res s i) := fun hon => by
    rw [h.toCalm.attn_exec hx, h.toCalm.kvIssue_on hon _ ⟨_, rfl⟩]
  have traps_at : ∀ {c v}, s.kvOn i.g.ctx = true → s.attnCheck i o = some (c, v) → c ≠ 7 → trap c v := fun hon check hc ht => by
    rw [exec_on hon, attnEffect_trap check, h.trapAt_entered ht _ hc]
  refine ⟨fun hon hhas hslot desc aligned room performed => ?queued, fun off ht => ?off,
    fun hon lacks => traps_at hon (attnCheck_tile live lacks) (by decide),
    fun hon hhas hslot => traps_at hon (attnCheck_slot live hhas hslot) (by decide),
    fun hon hhas hslot c desc => traps_at hon (attnCheck_desc live hhas hslot desc) (descCheck_cause desc),
    fun hon hhas hslot desc odd => traps_at hon ((attnCheck_work live hhas hslot desc).trans (if_pos odd)) (by decide)⟩
  case queued =>
    have passed := (attnCheck_work live hhas hslot desc).trans (if_neg (not_not.mpr aligned))
    obtain ⟨r, id, cls, batch, done, group, main, blocks, parity, attnQ, engaged⟩ := h.toCalm.attnQueue_spec (o := o) res
    rw [exec_on hon, attnEffect_queued passed room performed,
      h.done (g := { i.g with ops := [r] }) (by exact ⟨rfl, rfl, rfl, rfl, rfl⟩) blocks parity group]
    refine ⟨_, attnOp s i o res s.nextId, _, _, r, rfl, attnQ, rfl, rfl, rfl, rfl, rfl, ?_, rfl, rfl, rfl, rfl, ?_, ?_, main, blocks,
      Sparse.get?_set_same _ _ _, rfl, id, cls, batch, done, rfl, Sparse.get?_set_same _ _ _, rfl, rfl⟩
    · have tile : k.tiles[o.code % 8]? = some p := hhas
      simp [attnOp, State.tileNo, live, tile]
    · exact congrArg Slot.st engaged
    · exact congrArg Slot.readers engaged
  case off =>
    rw [h.toCalm.attn_exec hx, h.kvIssue_off ht (Bool.eq_false_iff.mpr off)]

end Sys2Proof.Machine

/-! ## What accesses to main memory leave alone (R25, R60, R74, R82) -/

namespace Sys2Proof.Machine

/-! ### A service: bursts, picks and corrections (R64, R66, R74) -/

/-- As `Served`, and no core has changed and no register below the reports of the coding windows, which the registers of the migration
slots are. -/
def Quiet (s t : State) : Prop :=
  (∃ es p ch bd, t = { s with unitErrs := es, pkg := p, channels := ch, baseDies := bd }) ∧ ∀ n < 0x400, t.pkgReg n = s.pkgReg n

namespace Quiet
variable {s t u : State}

theorem refl (s : State) : Quiet s s := ⟨⟨_, _, _, _, rfl⟩, fun _ _ => rfl⟩

theorem trans (h : Quiet s t) (h' : Quiet t u) : Quiet s u := by
  refine ⟨?_, fun n hn => (h'.2 n hn).trans (h.2 n hn)⟩
  obtain ⟨_, _, _, _, rfl⟩ := h.1
  obtain ⟨_, _, _, _, rfl⟩ := h'.1
  exact ⟨_, _, _, _, rfl⟩

theorem foldl {α : Type} {f : State → α → State} (hf : ∀ v a, Quiet v (f v a)) (l : List α) (s : State) :
    Quiet s (l.foldl f s) := by
  induction l generalizing s with
  | nil => exact refl s
  | cons a l ih => exact (hf s a).trans (ih _)

theorem setChannel (s : State) (k : Nat) (c : Channel) : Quiet s (s.setChannel k c) := ⟨⟨_, _, _, _, rfl⟩, fun _ _ => rfl⟩
theorem setBaseDie (s : State) (k : Nat) (b : BaseDie) : Quiet s (s.setBaseDie k b) := ⟨⟨_, _, _, _, rfl⟩, fun _ _ => rfl⟩

theorem setReport (s : State) (ch : Nat) (v : Word) : Quiet s (s.setPkgReg (0x400 + ch) v) :=
  ⟨⟨_, _, _, _, rfl⟩, fun _ hn => s.pkgReg_setPkgReg_ne v (by omega)⟩

theorem main (h : Quiet s t) : t.main = s.main := by obtain ⟨_, _, _, _, rfl⟩ := h.1; rfl

end Quiet

theorem refreshFirst_quiet (s : State) (k : Nat) : Quiet s (s.refreshFirst k) := by
  unfold State.refreshFirst
  dsimp only
  split
  · exact .setBaseDie _ _ _
  · exact .refl s

theorem closeWindow_quiet (s : State) (k : Nat) : Quiet s (s.closeWindow k) := by
  unfold State.closeWindow
  split
  · exact (Quiet.setReport _ _ _).trans (.setChannel _ _ _)
  · exact .refl s

theorem bursts_quiet (s : State) (pa n : Nat) : Quiet s (s.bursts pa n) := by
  unfold State.bursts
  split
  · exact .refl s
  · exact .foldl (fun v p => (closeWindow_quiet v _).trans (.setChannel _ _ _)) _ s

theorem pickOne_quiet (s : State) (cls pa : Nat) : Quiet s (s.pickOne cls pa) := by
  unfold State.pickOne
  refine Quiet.trans ?_ (.setChannel _ _ _)
  split
  · exact refreshFirst_quiet s _
  · exact .refl s

theorem serve_quiet (s : State) (cls pa n : Nat) : Quiet s (s.serve cls pa n) :=
  .foldl (fun v _ => (pickOne_quiet v cls _).trans (bursts_quiet _ _ _)) _ s

theorem correct_quiet (s : State) (pa n : Nat) : Quiet s (s.correct pa n) := by
  unfold State.correct
  dsimp only
  split
  · exact .refl s
  · exact Quiet.trans ⟨⟨_, _, _, _, rfl⟩, fun _ _ => rfl⟩ (.foldl (fun v _ => .setBaseDie v _ _) _ _)

theorem serveRead_quiet (s : State) (cls pa n : Nat) : Quiet s (s.serveRead cls pa n) :=
  (correct_quiet s pa n).trans (serve_quiet _ _ _ _)

theorem walk_quiet (s : State) (c ctx cls va : Nat) : Quiet s (if (s.kept? c ctx va).isSome then s
    else (s.rootPas ctx va).foldl (fun t a => State.serveRead t cls a 8) s) := by
  split
  · exact .refl s
  · exact .foldl (fun v _ => serveRead_quiet v _ _ _) _ s

/-! ### Accesses (R24, R80 to R84) -/

/-- `t` is `s` after accesses to main memory: beside what a service changes these are main memory, the migration slots, and what
translation units keep. -/
structure Accessed (s t : State) : Prop where
  frame : ∃ m es p cs ch bd mg,
    t = { s with main := m, unitErrs := es, pkg := p, cores := cs, channels := ch, baseDies := bd, migs := mg }
  frames : ∀ k, (t.core k).frames = (s.core k).frames

namespace Accessed
variable {s t u : State}

theorem refl (s : State) : Accessed s s := ⟨⟨_, _, _, _, _, _, _, rfl⟩, fun _ => rfl⟩

theorem trans (h : Accessed s t) (h' : Accessed t u) : Accessed s u := by
  refine ⟨?_, fun k => (h'.frames k).trans (h.frames k)⟩
  obtain ⟨_, _, _, _, _, _, _, rfl⟩ := h.frame
  obtain ⟨_, _, _, _, _, _, _, rfl⟩ := h'.frame
  exact ⟨_, _, _, _, _, _, _, rfl⟩

theorem foldl {α : Type} {f : State → α → State} (hf : ∀ v a, Accessed v (f v a)) (l : List α) (s : State) :
    Accessed s (l.foldl f s) := by
  induction l generalizing s with
  | nil => exact refl s
  | cons a l ih => exact (hf s a).trans (ih _)

theorem ite {c : Prop} [Decidable c] (h : Accessed s t) (h' : Accessed s u) : Accessed s (if c then t else u) := by
  split
  · exact h
  · exact h'

theorem ofQuiet (h : Quiet s t) : Accessed s t := by
  obtain ⟨⟨_, _, _, _, rfl⟩, -⟩ := h
  exact ⟨⟨_, _, _, _, _, _, _, rfl⟩, fun _ => rfl⟩

theorem stored (s : State) (m : Memory) (es : Sparse UnitErr) : Accessed s { s with main := m, unitErrs := es } :=
  ⟨⟨_, _, _, _, _, _, _, rfl⟩, fun _ => rfl⟩

theorem setMig (s : State) (k : Nat) (m : Mig) : Accessed s (s.setMig k m) := ⟨⟨_, _, _, _, _, _, _, rfl⟩, fun _ => rfl⟩
theorem setPkgReg (s : State) (k : Nat) (v : Word) : Accessed s (s.setPkgReg k v) := ⟨⟨_, _, _, _, _, _, _, rfl⟩, fun _ => rfl⟩

theorem groups (h : Accessed s t) : t.groups = s.groups := by obtain ⟨_, _, _, _, _, _, _, rfl⟩ := h.frame; rfl

/-- The issuing split stays as it is. -/
theorem poised {i : Issue} (h : Accessed s t) (hp : Poised s i) : Poised t i := by
  obtain ⟨_, _, _, _, _, _, _, rfl⟩ := h.frame
  exact hp.congr rfl rfl rfl rfl rfl

theorem calm {i : Issue} (h : Accessed s t) (hc : Calm s i) : Calm t i := ⟨h.poised hc.toPoised, hc.outs, hc.ops⟩

end Accessed

theorem keep_accessed (s : State) (c ctx cls va : Nat) (r : Except XErr Xl) : Accessed s (s.keep c ctx cls va r) := by
  have walk := Accessed.ofQuiet (walk_quiet s c ctx cls va)
  unfold State.keep
  cases r with
  | error e => exact walk
  | ok x =>
    refine walk.trans ⟨⟨_, _, _, _, _, _, _, rfl⟩, fun k => ?_⟩
    by_cases here : k = c
    · subst here; rw [State.core_modCore_same]
    · exact congrArg Core.frames (State.core_setCore_ne _ _ here)

theorem writeUnit_accessed (s : State) (pa : Nat) (bs : List Byte) : Accessed s (s.writeUnit pa bs) := by
  unfold State.writeUnit
  refine .ite (.stored _ _ _) (.ite (.refl s) ?_)
  exact (Accessed.ofQuiet (correct_quiet s _ _)).trans (.stored _ _ _)

theorem writePa_accessed (s : State) (pa : Nat) (bs : List Byte) : Accessed s (s.writePa pa bs) :=
  .ite (.stored _ _ _) (.foldl (fun v _ => writeUnit_accessed v _ _) _ s)

theorem migFail_accessed (s : State) (k line : Nat) : Accessed s (s.migFail k line) :=
  (Accessed.setMig s k _).trans (.setPkgReg _ _ _)

theorem migMark_accessed (s : State) (k line : Nat) : Accessed s (s.migMark k line) := by
  have marked : ∀ m v, Accessed s ((s.setMig k m).setPkgReg (0x080 + k) v) := fun m v =>
    (Accessed.setMig s k m).trans (.setPkgReg _ _ _)
  unfold State.migMark
  refine .ite (.refl s) (.ite ?_ (marked _ _))
  exact ((marked _ _).trans (.setPkgReg _ _ _)).trans (.setPkgReg _ _ _)

theorem copyLine_accessed (s : State) (src dst : Nat) (bs : List Byte) : Accessed s (s.copyLine src dst bs) :=
  (writePa_accessed s dst bs).trans (.stored _ _ _)

theorem migCopy_accessed (s : State) (k line cls : Nat) : Accessed s (s.migCopy k line cls) := by
  unfold State.migCopy
  dsimp only
  refine .ite (migFail_accessed s _ _) ?_
  have read : Accessed s (s.serveRead cls (s.migOld k + line * 256) 256) := .ofQuiet (serveRead_quiet _ _ _ _)
  exact ((read.trans (copyLine_accessed _ _ _ _)).trans (.ofQuiet (serve_quiet _ _ _ _))).trans (migMark_accessed _ _ _)

theorem migPull_accessed (s : State) (k line cls : Nat) : Accessed s (s.migPull k line cls) :=
  .ite (.refl s) (migCopy_accessed s _ _ _)

theorem readTouch_accessed (s : State) (cls : Nat) (x : Xl) (n : Nat) (lost : List Nat) :
    Accessed s (s.readTouch cls x n lost) := by
  have read : ∀ (v : State) (a m : Nat), Accessed v (v.serveRead cls a m) := fun v a m => .ofQuiet (serveRead_quiet v cls a m)
  refine .foldl (fun v l => ?_) _ s
  dsimp only
  split
  · refine .ite (.ite (migFail_accessed _ _ _) ?_) (.ite (.refl v) (read _ _ _))
    exact .ite (migPull_accessed _ _ _ _) ((migPull_accessed _ _ _ _).trans (read _ _ _))
  · exact .ite (.refl v) (read _ _ _)

theorem pullFor_accessed (s : State) (cls : Nat) (x : Xl) (n : Nat) : Accessed s (s.pullFor cls x n) := by
  refine .foldl (fun v l => ?_) _ s
  split
  · exact .ite (migPull_accessed _ _ _ _) (.refl v)
  · exact .refl v

theorem putPa_accessed (s : State) (cls pa : Nat) (bs : List Byte) : Accessed s (s.putPa cls pa bs) :=
  .ite (writePa_accessed _ _ _) ((writePa_accessed _ _ _).trans (.ofQuiet (serve_quiet _ _ _ _)))

theorem migWrite_accessed (s : State) (k off cls : Nat) (bs : List Byte) : Accessed s (s.migWrite k off cls bs) := by
  unfold State.migWrite
  dsimp only
  generalize (decide (off % 256 = 0) && decide (bs.length = 256)) = whole
  have pulled : Accessed s (if s.pullDue k off whole then s.migPull k (off / 256) cls else s) :=
    .ite (migPull_accessed _ _ _ _) (.refl s)
  generalize (if s.pullDue k off whole then s.migPull k (off / 256) cls else s) = t at pulled ⊢
  have put := pulled.trans (.foldl (fun v a => putPa_accessed v cls a bs) (t.slotTargets k off true) t)
  exact .ite (.ite pulled (pulled.trans (writePa_accessed _ _ _))) (.ite (put.trans (migMark_accessed _ _ _)) put)

theorem writeXl_accessed {s t : State} {a : Agent} {cls va : Nat} {x : Xl} {bs : List Byte}
    (h : s.writeXl a cls va x bs = .ok t) : Accessed s t := by
  unfold State.writeXl at h
  split at h
  · cases h
  · cases h
    refine .foldl (fun v l => ?_) _ s
    dsimp only
    split
    · exact migWrite_accessed _ _ _ _ _
    · exact putPa_accessed _ _ _ _

/-! ### Reads and writes of the cache instructions (R25, R94) -/

theorem kvTouch_accessed (s : State) (core ctx : Nat) (a : Agent) (fails reads : List (Nat × Nat)) :
    Accessed s (s.kvTouch core ctx a fails reads) := by
  refine .foldl (fun v r => .foldl (fun w pg => ?_) _ v) _ s
  dsimp only
  split
  · exact (keep_accessed _ _ _ _ _ _).trans (readTouch_accessed _ _ _ _ _)
  · exact keep_accessed _ _ _ _ _ _

theorem kvWrite_accessed {s t : State} {core ctx va : Nat} {fails : List (Nat × Nat)} {bs : List Byte}
    (h : s.kvWrite core ctx fails va bs = .ok t) : Accessed s t := by
  refine foldl_ok (P := Accessed s) (fun acc pg v hv => ?_) h (fun u hu => by cases hu; exact .refl s)
  cases acc with
  | error e => cases hv
  | ok u =>
    refine ⟨u, rfl, fun hu => hu.trans ?_⟩
    dsimp only at hv
    split at hv
    · cases hv
    · split at hv
      · cases hv
      · split at hv
        · cases hv
        · split at hv
          · cases hv
          · next put =>
            cases hv
            exact ((keep_accessed _ _ _ _ _ _).trans (pullFor_accessed _ _ _ _)).trans (writeXl_accessed put)

theorem kvWrites_accessed {s t : State} {core ctx : Nat} {fails : List (Nat × Nat)} {ws : List (Nat × List Byte)}
    (h : s.kvWrites core ctx fails ws = .ok t) : Accessed s t := by
  induction ws generalizing s with
  | nil => cases h; exact .refl _
  | cons w ws ih =>
    rw [State.kvWrites] at h
    split at h
    · cases h
    · next v hv => exact (kvWrite_accessed hv).trans (ih h)

/-! ### Reads while no slot pulls (R82) -/

/-- No slot is running, which a pull needs. -/
def NoPull (s : State) : Prop := ∀ k < 64, s.migState k ≠ 2

/-- `t` holds the bytes of `s`, and its migration slots are in the states of those of `s`. -/
structure Still (s t : State) : Prop where
  main : t.main = s.main
  slots : ∀ k < 64, t.migState k = s.migState k

namespace Still
variable {s t u : State}

theorem refl (s : State) : Still s s := ⟨rfl, fun _ _ => rfl⟩

theorem trans (h : Still s t) (h' : Still t u) : Still s u :=
  ⟨h'.main.trans h.main, fun k hk => (h'.slots k hk).trans (h.slots k hk)⟩

theorem ofQuiet (h : Quiet s t) : Still s t :=
  ⟨h.main, fun k hk => congrArg (bits · 61 3) (h.2 (0x080 + k) (by omega))⟩

theorem noPull (h : Still s t) (hs : NoPull s) : NoPull t := fun k hk => by rw [h.slots k hk]; exact hs k hk

theorem foldl {α : Type} {f : State → α → State} (hf : ∀ v a, NoPull v → Still v (f v a)) (l : List α) {s : State}
    (hs : NoPull s) : Still s (l.foldl f s) := by
  induction l generalizing s with
  | nil => exact refl s
  | cons a l ih => exact (hf s a hs).trans (ih ((hf s a hs).noPull hs))

end Still

theorem keep_still (s : State) (c ctx cls va : Nat) (r : Except XErr Xl) : Still s (s.keep c ctx cls va r) := by
  have walk := Still.ofQuiet (walk_quiet s c ctx cls va)
  unfold State.keep
  cases r with
  | error e => exact walk
  | ok x => exact walk.trans ⟨rfl, fun _ _ => rfl⟩

/-- A line belongs to one of the 64 slots of the package. -/
theorem lineSlot_lt {s : State} {routed : Bool} {pa k off : Nat} (h : s.lineSlot routed pa = some (k, off)) : k < 64 := by
  unfold State.lineSlot at h
  split at h
  · obtain ⟨j, hj, found⟩ := List.exists_of_findSome?_eq_some h
    have same : j = k := by
      revert found
      dsimp only
      repeat' split
      all_goals intro found; cases found
      all_goals rfl
    exact same ▸ List.mem_range.mp hj
  · cases h

theorem NoPull.pullDue {s : State} (hs : NoPull s) {k : Nat} (hk : k < 64) (off : Nat) (whole : Bool) :
    s.pullDue k off whole = false := by
  simp [State.pullDue, hs k hk]

theorem readTouch_still {s : State} (hs : NoPull s) (cls : Nat) (x : Xl) (n : Nat) (lost : List Nat) :
    Still s (s.readTouch cls x n lost) := by
  have read : ∀ (v : State) (gone : Bool) (a m : Nat), Still v (if gone then v else v.serveRead cls a m) := by
    intro v gone a m
    split
    · exact .refl v
    · exact .ofQuiet (serveRead_quiet v cls a m)
  refine Still.foldl (fun v l hv => ?_) _ hs
  dsimp only
  split
  · next k off slot =>
    rw [NoPull.pullDue hv (lineSlot_lt slot)]
    exact read v _ _ _
  · exact read v _ _ _

/-- Where no slot pulls, the reads of a cache instruction leave main memory alone. -/
theorem kvTouch_still {s : State} (hs : NoPull s) (core ctx : Nat) (a : Agent) (fails reads : List (Nat × Nat)) :
    Still s (s.kvTouch core ctx a fails reads) := by
  refine Still.foldl (fun v r hv => Still.foldl (fun w pg hw => ?_) _ hv) _ hs
  have kept := keep_still w core ctx (w.defaultClass ctx) (pg.1 / 65536 * 65536) (w.translate core ctx a [.q] (pg.1 / 65536 * 65536))
  dsimp only
  split
  · exact kept.trans (readTouch_still (kept.noPull hw) _ _ _ _)
  · exact kept

end Sys2Proof.Machine

/-! ## The frame cache and lookups of the map (O37) -/

namespace Sys2Proof.Machine

/-! ### The frame cache (R103, R104) -/

section
variable {s t u : State} {core ctx : Nat}

/-- `t` is `s` after the frame cache of a core has sent requests to its mailbox: what it holds and awaits is as it was. -/
structure Posted (core : Nat) (s t : State) : Prop where
  frame : ∃ cs ds n, t = { s with cores := cs, dies := ds, nextId := n }
  refill : (t.core core).frames.refill = (s.core core).frames.refill
  frames : (t.core core).frames.frames = (s.core core).frames.frames

theorem Posted.refl (s : State) : Posted core s s := ⟨⟨_, _, _, rfl⟩, rfl, rfl⟩

theorem Posted.trans (h : Posted core s t) (h' : Posted core t u) : Posted core s u := by
  refine ⟨?_, h'.refill.trans h.refill, h'.frames.trans h.frames⟩
  obtain ⟨_, _, _, rfl⟩ := h.frame
  obtain ⟨_, _, _, rfl⟩ := h'.frame
  exact ⟨_, _, _, rfl⟩

theorem mailSend_posted (s : State) (core ctx tag : Nat) (fields : List Word) : Posted core s (s.mailSend core ctx tag fields) := by
  unfold State.mailSend
  split
  · refine ⟨⟨_, _, _, rfl⟩, ?_, ?_⟩
    · rw [benchSend_core, State.core_modCore_same]; rfl
    · rw [benchSend_core, State.core_modCore_same]; rfl
  · exact .refl s

theorem grantTake_posted (s : State) (core ctx : Nat) : Posted core s (s.grantTake core ctx) := by
  unfold State.grantTake
  split
  · refine ⟨⟨_, _, _, rfl⟩, ?_, ?_⟩
    · rw [benchSend_core, State.core_modCore_same]; rfl
    · rw [benchSend_core, State.core_modCore_same]; rfl
  · exact .refl s

/-- A refill is pending after it has been asked for, and the cache holds what it held. -/
theorem postRefill_spec (s : State) (core ctx : Nat) :
    (∃ cs ds n, s.postRefill core ctx = { s with cores := cs, dies := ds, nextId := n }) ∧
    ((s.postRefill core ctx).core core).frames.refill.isSome = true ∧
    ((s.postRefill core ctx).core core).frames.frames = (s.core core).frames.frames := by
  unfold State.postRefill
  dsimp only
  split
  · next pending => exact ⟨⟨_, _, _, rfl⟩, pending, rfl⟩
  · have posted := (mailSend_posted (s.modCore core (fun c => { c with frames := { c.frames with refill := some ctx } })) core ctx
      0xFFFF0001 [w64 core, w64 (32 - (s.core core).frames.frames.length)]).trans (grantTake_posted _ core ctx)
    refine ⟨?_, ?_, ?_⟩
    · obtain ⟨_, _, _, frame⟩ := posted.frame
      exact ⟨_, _, _, frame⟩
    · rw [posted.refill, State.core_modCore_same]; rfl
    · rw [posted.frames, State.core_modCore_same]

/-- A cache of the context at hand serves it at once (R103). -/
theorem cacheFor_own (own : (s.core core).frames.ctx = some ctx) : s.cacheFor core ctx = (s, true) := if_pos own

end

/-- The issuing split does not depend on a core. -/
theorem Poised.setCore {s : State} {i : Issue} (h : Poised s i) (k : Nat) (c : Core) : Poised (s.setCore k c) i :=
  h.congr rfl rfl rfl rfl rfl

section
variable {s : State} {i : Issue} {o : YF} (h : Steady s i) (on : s.kvOn i.g.ctx = true)
include h on

theorem Steady.pgget_exec : exec (.pgget o) s = .next (pggetEffect o s i) := by
  rw [exec_pgget, execPgget, onIssue_of _ h.issuer, h.toCalm.kvIssue_on on _ ⟨[], rfl⟩]

theorem Steady.pgput_exec : exec (.pgput o) s = .next (pgputEffect o s i) := by
  rw [exec_pgput, execPgput, onIssue_of _ h.issuer, h.toCalm.kvIssue_on on _ ⟨[o.sa], rfl⟩]

omit on
variable (own : (s.core i.g.core).frames.ctx = some i.g.ctx)
include own

theorem Steady.pggetEffect_frame {fs : List Nat} {f : Nat} (held : (s.core i.g.core).frames.frames = fs ++ [f]) :
    pggetEffect o s i = State.goOn (s.setCore i.g.core { s.core i.g.core with
      frames := { (s.core i.g.core).frames with frames := fs } }) i i.g (i.sp.put o.sd (w64 f)) := by
  simp only [pggetEffect, cacheFor_own own, Bool.not_true, Bool.false_eq_true, if_false, held, List.getLast?_concat,
    List.dropLast_concat]
  exact (h.setCore _ _).putScalar o.sd (w64 f)

theorem Steady.pggetEffect_empty (empty : (s.core i.g.core).frames.frames = []) :
    pggetEffect o s i = (s.postRefill i.g.core i.g.ctx).goOn i i.g (i.sp.put o.sd allOnes) := by
  simp only [pggetEffect, cacheFor_own own, Bool.not_true, Bool.false_eq_true, if_false, empty, List.getLast?_nil]
  obtain ⟨_, _, _, posted⟩ := (postRefill_spec s i.g.core i.g.ctx).1
  rw [posted]
  exact (h.toPoised.congr (by rfl) (by rfl) (by rfl) (by rfl) (by rfl)).putScalar o.sd allOnes

theorem Steady.pgputEffect_room (named : (i.sp.get o.sa).toNat < noFrame) (room : (s.core i.g.core).frames.frames.length < 32) :
    pgputEffect o s i = State.goOn (s.setCore i.g.core { s.core i.g.core with frames := { (s.core i.g.core).frames with
      frames := (s.core i.g.core).frames.frames ++ [(i.sp.get o.sa).toNat] } }) i i.g i.sp := by
  have fit : s.insertFrames i.g.core i.g.ctx [(i.sp.get o.sa).toNat] = _ := insertFrames_fit (by simpa using room)
  simp only [pgputEffect, if_neg (Nat.not_le.mpr named), cacheFor_own own, Bool.not_true, Bool.false_eq_true, if_false, fit]
  exact h.done (Alike.refl i) (by rfl) (by rfl) (by exact (issuer_split h.issuer).1)

end

theorem pgputEffect_unnamed {s : State} {i : Issue} {o : YF} (unnamed : noFrame ≤ (i.sp.get o.sa).toNat) :
    pgputEffect o s i = s.trapAt i 4 (i.sp.get o.sa) := if_pos unnamed

/-! ### Accesses that are served at once (R69, R78, R81) -/

section
variable {s : State} {i : Issue}

/-- No line of the tier that failed meets a range. -/
@[simp] theorem lineErr_nil (va n : Nat) : lineErr va n [] = none := rfl

/-- A cache instruction whose accesses can be served goes on, and no line of it has failed. -/
theorem kvWait_served (wait : i.sp.wait = .none) (performed : s.unperformed i.gid = false) {a : KvAct}
    (served : kvServed s i a.reads a.writes = true) : s.kvWait i (s.actReady i.g a) (s.actTier i.g a) = .inr [] := by
  simp only [kvServed, Bool.and_eq_true, List.all_eq_true, List.isEmpty_iff] at served
  obtain ⟨reads, writes⟩ := served
  have ready : s.actReady i.g a = true := by
    simp only [State.actReady, Bool.and_eq_true, List.all_eq_true]
    exact ⟨fun r hr => (reads r hr).1, fun r hr => (writes r hr).1⟩
  have tier : s.actTier i.g a = [] := by
    simp only [State.actTier, List.append_eq_nil_iff, List.flatMap_eq_nil_iff]
    exact ⟨fun r hr => (reads r hr).2, fun r hr => (writes r hr).2⟩
  simp only [State.kvWait, performed, ready, tier, wait]
  rfl

theorem descParity_nil (h : s.parity = []) (g : Group) (off : Word) (map : Bool) : s.descParity g off map = none := by
  simp [State.descParity, spaceParity_nil h]

end

/-! ### Lookups (R318) -/

section
variable {s : State} {i : Issue} {o : XF} {d : Desc}

/-- The position that a lane looks up. -/
def mapPos (i : Issue) (o : XF) (l : Nat) : Nat := (i.g.v? o.f2 l).toNat % 2 ^ 32

/-- The entries that the guarded lanes of a lookup read. -/
def mapReads (i : Issue) (o : XF) (d : Desc) : List (Nat × Nat) :=
  (((lanesOf (i.guard o.p o.pn)).filter (fun l => decide (mapPos i o l < d.len) && decide (d.wstart ≤ mapPos i o l))).map
    (fun l => (d.mapb + 4 * (mapPos i o l / 64), 4))).eraseDups

theorem Calm.kvmap_exec (h : Calm s i) (on : s.kvOn i.g.ctx = true) (dest : i.g.names o.f1 = true) (src : i.g.names o.f2 = true)
    (room : i.g.room o.sb) : exec (.kvmap o) s = .next (kvmapEffect o s i) := by
  rw [exec_kvmap, execKvmap, onIssue_of _ h.issuer, kvIssue, on]
  exact congrArg _ (h.issue _ (kvmapEffect o) (Needs.beyond_none (by simp [kvmapNeeds, dest, src])) room (fun hr => by cases hr))

section
variable {g : Group} {p : Nat}

theorem kvmapLane_past (past : d.len ≤ p) : s.kvmapLane g d p [] = w64 (7 * 2 ^ 28) := if_pos past

theorem kvmapLane_before (here : p < d.len) (before : p < d.wstart) : s.kvmapLane g d p [] = w64 (3 * 2 ^ 28) :=
  (if_neg (Nat.not_le.mpr here)).trans (if_pos before)

variable (here : p < d.len) (inside : d.wstart ≤ p)
include here inside

theorem kvmapLane_read {bs : List Byte} (read : s.kvRead g.core g.ctx .copy (d.mapb + 4 * (p / 64)) 4 = .ok bs) :
    s.kvmapLane g d p [] = w64 (leNat bs) := by
  simp only [State.kvmapLane, if_neg (Nat.not_le.mpr here), if_neg (Nat.not_lt.mpr inside), lineErr_nil, read]

theorem kvmapLane_fault {e : XErr} (read : s.kvRead g.core g.ctx .copy (d.mapb + 4 * (p / 64)) 4 = .error e) :
    s.kvmapLane g d p [] = w64 (2 ^ 63 + e.cause) := by
  simp only [State.kvmapLane, if_neg (Nat.not_le.mpr here), if_neg (Nat.not_lt.mpr inside), lineErr_nil, read]

end

/-- A lookup without a guarded lane reads nothing. -/
theorem mapReads_nil (idle : i.guard o.p o.pn = 0) : mapReads i o d = [] := by
  simp [mapReads, idle, lanesOf_eq_nil.mpr]

/-- Each guarded lane of a lookup is answered alone, the entries having been read. -/
theorem Steady.kvmapEffect_served (h : Steady s i) (ready : kvReady s i (i.sp.get o.sa) d)
    (served : kvServed s i (mapReads i o d) [] = true) :
    kvmapEffect o s i = (s.kvTouch i.g.core i.g.ctx .copy [] (mapReads i o d)).sendOn i o.f1 (i.guard o.p o.pn)
      (onLanes (i.guard o.p o.pn) (fun l => s.kvmapLane i.g d (mapPos i o l) [])) 0 o.sb := by
  obtain ⟨-, desc, performed, rfl⟩ := ready
  have pos : ∀ l, bits (s.vread i.g o.f2 l) 0 32 = mapPos i o l := fun l => by
    rw [h.toCalm.vread, bits, mapPos, pow_zero, Nat.div_one]
  have wait := kvWait_served h.wait performed (a := ⟨mapReads i o (descOf (s.windowRead i.g (i.sp.get o.sa) 64)), .code 0⟩) served
  have reads : (((lanesOf (i.guard o.p o.pn)).filter (fun l => (descOf (s.windowRead i.g (i.sp.get o.sa) 64)).reads (mapPos i o l))).map
      (fun l => ((descOf (s.windowRead i.g (i.sp.get o.sa) 64)).mapb + 4 * (mapPos i o l / 64), 4))).eraseDups =
    mapReads i o (descOf (s.windowRead i.g (i.sp.get o.sa) 64)) := rfl
  simp only [kvmapEffect, desc, pos, reads]
  split
  · next idle =>
    rw [mapReads_nil idle, idle, State.vsend, h.toCalm.vsendWith_done]
    rfl
  · simp only [descParity_nil h.parity]
    simp only [wait]
    have touched := kvTouch_accessed s i.g.core i.g.ctx .copy [] (mapReads i o (descOf (s.windowRead i.g (i.sp.get o.sa) 64)))
    exact (touched.calm h.toCalm).vsendWith_done _ _ _ _ _ _ _

end

/-- Settles O37: a cache of its own context serves at once, and a lane of a lookup reads its entry alone. -/
theorem frameCachesAndMapLookups : Obligations.FrameCachesAndMapLookups := by
  unfold Obligations.FrameCachesAndMapLookups
  refine ⟨fun s i o steady on own => ?cache, fun s i o d reads steady ready dest src room hreads served => ?map⟩
  case cache =>
    have h := steady_iff.mp steady
    have get := h.pgget_exec (o := o) on
    have put := h.pgput_exec (o := o) on
    refine ⟨fun fs f held => ?_, fun empty => ?_, fun named fits => ?_, fun unnamed ht => ?_⟩
    · exact get.trans (congrArg _ (h.pggetEffect_frame own held))
    · obtain ⟨frame, pending, frames⟩ := postRefill_spec s i.g.core i.g.ctx
      refine ⟨_, get.trans (congrArg _ (h.pggetEffect_empty own empty)), pending, frames.trans empty, ?_⟩
      obtain ⟨_, _, _, posted⟩ := frame
      rw [posted]
    · exact put.trans (congrArg _ (h.pgputEffect_room own named fits))
    · rw [put, pgputEffect_unnamed unnamed, h.trapAt_entered ht _ (by decide)]
  case map =>
    have h := steady_iff.mp steady
    subst hreads
    have touched := kvTouch_accessed s i.g.core i.g.ctx .copy [] (mapReads i o d)
    refine ⟨_, fun l => s.kvmapLane i.g d (mapPos i o l) [], rfl, ?_, touched.groups,
      fun still => (kvTouch_still still _ _ _ _ _).main, fun l _ => ?_⟩
    · rw [h.toCalm.kvmap_exec ready.1 dest src room, h.kvmapEffect_served ready served]
      rfl
    · exact ⟨fun past => kvmapLane_past past, fun here before => kvmapLane_before here before,
        fun here inside bs read => kvmapLane_read here inside read, fun here inside e read => kvmapLane_fault here inside read⟩

end Sys2Proof.Machine

/-! ## Cache instructions (O38) -/

namespace Sys2Proof.Machine

/-! ### Reads of an act (R86, R90) -/

/-- An act after one more read. -/
def KvAct.after (a : KvAct) (r : Nat × Nat) : KvAct := { a with reads := r :: a.reads }

@[simp] theorem KvAct.after_mk (rs : List (Nat × Nat)) (e : KvEnd) (r : Nat × Nat) :
    KvAct.after ⟨rs, e⟩ r = ⟨r :: rs, e⟩ := rfl

/-- The range of the map entry of page `k` (R86). -/
def Desc.entryAt (d : Desc) (k : Nat) : Nat × Nat := (d.mapb + 4 * k, 4)

/-- The range of the header of frame `f` (R85). -/
def State.headerAt (s : State) (ctx f : Nat) : Nat × Nat := (s.headerVa ctx f, 1024)

/-- The map entry of page `k` reads as `e`. -/
def Entry (s : State) (g : Group) (d : Desc) (k e : Nat) : Prop :=
  ∃ bs, s.kvRead g.core g.ctx .copy (d.mapb + 4 * k) 4 = .ok bs ∧ e = leNat bs

/-- The header of frame `f` reads as `h`. -/
def Headed (s : State) (g : Group) (f : Nat) (h : PageHdr) : Prop :=
  ∃ hb, s.kvRead g.core g.ctx .copy (s.headerVa g.ctx f) 1024 = .ok hb ∧ h = hdrOf hb

section
variable {s : State} {g : Group} {d : Desc} {k e f : Nat} {h : PageHdr}

theorem kvGet_ok {va n : Nat} {bs : List Byte} (read : s.kvRead g.core g.ctx .copy va n = .ok bs) (act : List Byte → KvAct) :
    s.kvGet g va n act = (act bs).after (va, n) := by
  simp only [State.kvGet, read, KvAct.after]

theorem Entry.withEntry (entry : Entry s g d k e) (act : Nat → KvAct) :
    s.withEntry g d k act = (act e).after (d.entryAt k) := by
  obtain ⟨bs, read, rfl⟩ := entry
  exact kvGet_ok read _

theorem Headed.withHdr (headed : Headed s g f h) (act : PageHdr → KvAct) :
    s.withHdr g f act = (act h).after (s.headerAt g.ctx f) := by
  obtain ⟨hb, read, rfl⟩ := headed
  exact kvGet_ok read _

/-- Reads of several ranges that all succeed. -/
theorem kvGets_ok {n : Nat} {va : Nat → Nat} {key : Nat → List Byte} {slots : List Nat}
    (read : ∀ j ∈ slots, s.kvRead g.core g.ctx .copy (va j) n = .ok (key j)) {act : List (List Byte) → KvAct} {rs : List (Nat × Nat)}
    {fin : KvEnd} (done : act (slots.map key) = ⟨rs, fin⟩) :
    s.kvGets g n (slots.map va) act = ⟨slots.map (fun j => (va j, n)) ++ rs, fin⟩ := by
  induction slots generalizing act with
  | nil => exact done
  | cons j slots ih =>
    rw [List.map_cons, State.kvGets, kvGet_ok (read j List.mem_cons_self),
      ih (fun q hq => read q (List.mem_cons_of_mem j hq)) done]
    rfl

end

/-! ### The checks, and how an act ends (R319) -/

/-- A cache instruction performs this act where all its accesses can be served. -/
def Performs (s : State) (i : Issue) (x : Instr) (sd : Nat) (a : KvAct) : Prop :=
  kvServed s i a.reads a.writes = true → exec x s = .next (s.kvFinish i sd [] a)

section
variable {s : State} {i : Issue} {d : Desc}

/-- Operands in range and a staging range that passes its check leave the descriptor. -/
theorem kvPre_ok {off : Word} (clean : s.parity = []) (ready : kvReady s i off d) (range : d.inRange = true)
    {vals : List (Word × Nat)} (bounds : ∀ v ∈ vals, v.1.toNat < v.2) {stage : Option (Word × Nat)}
    (staged : ∀ r ∈ stage, s.stagingCheck i.g r.1 r.2 = none) : s.kvPre i off vals stage = .ok d := by
  obtain ⟨on, desc, -, rfl⟩ := ready
  have on : s.kvOn i.g.ctx = true := on
  have inside : vals.find? (fun v => decide (v.2 ≤ v.1.toNat)) = none := by
    simpa [List.find?_eq_none] using bounds
  cases stage with
  | none =>
    simp only [State.kvPre, on, Bool.not_true, Bool.false_eq_true, if_false, desc, descParity_nil clean, range, inside]
  | some r =>
    have staged := staged r rfl
    simp only [State.kvPre, on, Bool.not_true, Bool.false_eq_true, if_false, desc, descParity_nil clean, range, inside, staged,
      spaceParity_nil clean]

/-- Where no line of the tier has failed an act is performed as it stands. -/
theorem failing_nil (a : KvAct) : a.failing [] = a := by
  have all : a.reads.takeWhile (fun r => (lineErr r.1 r.2 []).isNone) = a.reads :=
    List.takeWhile_eq_self_iff.mpr fun _ _ => rfl
  simp only [KvAct.failing, all, List.drop_length]

theorem kvOp_performs {x : Instr} {o : YF} {needs : Issue → Needs} {vals : Issue → List (Word × Nat)}
    {stage : Issue → Option (Word × Nat)} {act : State → Issue → Desc → KvAct} (h : Steady s i)
    (instr : exec x s = onIssue s (kvIssue needs (kvOp o vals stage act))) (scalars : ∃ ks, needs i = { scal := ks })
    (ready : kvReady s i (i.sp.get o.sa) d) (range : d.inRange = true) (bounds : ∀ v ∈ vals i, v.1.toNat < v.2)
    (staged : ∀ r ∈ stage i, s.stagingCheck i.g r.1 r.2 = none) : Performs s i x o.sd (act s i d) := by
  intro served
  rw [instr, onIssue_of _ h.issuer, h.toCalm.kvIssue_on ready.1 _ scalars, kvOp, kvPre_ok h.parity ready range bounds staged]
  simp only [kvWait_served h.wait ready.2.2.1 served, failing_nil]

theorem Performs.codes {x : Instr} {sd n : Nat} {a : KvAct} (run : Performs s i x sd a) (h : Calm s i) {reads : List (Nat × Nat)}
    (act : a = ⟨reads, .code n⟩) : kvCodes s i x sd reads n := by
  subst act
  intro served
  have touched := kvTouch_accessed s i.g.core i.g.ctx .copy [] reads
  refine ⟨_, rfl, ?_, touched.groups, fun still => (kvTouch_still still _ _ _ _ _).main⟩
  exact (run served).trans (congrArg _ ((touched.poised h.toPoised).putScalar sd _))

theorem Performs.does {x : Instr} {sd n : Nat} {a : KvAct} (run : Performs s i x sd a) (h : Calm s i) {reads : List (Nat × Nat)}
    {ws : List (Nat × List Byte)} (act : a = ⟨reads, .write ws n⟩) : kvDoes s i x sd reads ws n := by
  subst act
  intro served t written
  have reached := (kvTouch_accessed s i.g.core i.g.ctx .copy [] reads).trans (kvWrites_accessed written)
  rw [run served, State.kvFinish]
  simp only [written]
  exact congrArg _ ((reached.poised h.toPoised).putScalar sd _)

end

/-! ### `kvapp` (R322) -/

section
variable {s : State} {g : Group} {d : Desc} {p spare : Nat} {rec : List Byte}

theorem kvapp_before (before : p < d.wstart) : s.kvapp g d p spare rec = ⟨[], .code 8⟩ := if_pos before

variable (inside : d.wstart ≤ p)
include inside

theorem kvapp_badRecord (bad : badRecord rec = true) : s.kvapp g d p spare rec = ⟨[], .code 5⟩ :=
  (if_neg (Nat.not_lt.mpr inside)).trans (if_pos bad)

variable (good : badRecord rec = false) {e : Nat} (entry : Entry s g d (p / 64) e)
include good entry

theorem kvapp_absent (absent : entStatus e = 3 ∨ entStatus e = 4 ∨ entStatus e = 5 ∨ 8 ≤ entStatus e) :
    s.kvapp g d p spare rec = ⟨[d.entryAt (p / 64)], .code 3⟩ := by
  have owned : ¬ (entStatus e = 0 ∨ entStatus e = 1) := by omega
  have shared : entStatus e ≠ 6 := by omega
  have fresh : ¬ (entStatus e = 2 ∨ entStatus e = 7) := by omega
  simp [State.kvapp, inside.not_gt, good, entry.withEntry, owned, shared, fresh, KvAct.code]

section
variable {h : PageHdr} (headed : Headed s g (entFrame e) h)
include headed

theorem kvapp_malformed (named : entStatus e ≤ 1 ∨ entStatus e = 6) (bad : h.malformed (p / 64) = true) :
    s.kvapp g d p spare rec = ⟨[d.entryAt (p / 64), s.headerAt g.ctx (entFrame e)], .code 9⟩ := by
  rcases named with owned | shared
  · have owned := Nat.le_one_iff_eq_zero_or_eq_one.mp owned
    simp [State.kvapp, inside.not_gt, good, entry.withEntry, owned, headed.withHdr, bad, KvAct.code]
  · simp [State.kvapp, inside.not_gt, good, entry.withEntry, shared, headed.withHdr, bad, KvAct.code]

variable (sound : h.malformed (p / 64) = false)
include sound

section
variable (owned : entStatus e ≤ 1)
include owned

theorem kvapp_gap (gap : h.valid < p % 64) :
    s.kvapp g d p spare rec = ⟨[d.entryAt (p / 64), s.headerAt g.ctx (entFrame e)], .code 4⟩ := by
  have owned := Nat.le_one_iff_eq_zero_or_eq_one.mp owned
  simp [State.kvapp, inside.not_gt, good, entry.withEntry, owned, headed.withHdr, sound, gap, KvAct.code]

theorem kvapp_rewrite (held : p % 64 < h.valid) {key : List Byte}
    (read : s.kvRead g.core g.ctx .copy (s.frameVa g.ctx (entFrame e) + 128 * (p % 64)) 128 = .ok key) :
    s.kvapp g d p spare rec = ⟨[d.entryAt (p / 64), s.headerAt g.ctx (entFrame e),
        (s.frameVa g.ctx (entFrame e) + 128 * (p % 64), 128)],
      if badKey key h.ks (p % 64) then .code 5 else .write (s.rewriteWrites g.ctx (entFrame e) h [(p % 64, key, rec)]) 0⟩ := by
  have owned := Nat.le_one_iff_eq_zero_or_eq_one.mp owned
  simp only [State.kvapp, if_neg inside.not_gt, good, Bool.false_eq_true, if_false, entry.withEntry, if_pos owned, headed.withHdr,
    sound, if_neg held.not_gt, if_pos held, kvGet_ok read]
  split <;> rfl

theorem kvapp_append (next : h.valid = p % 64) :
    s.kvapp g d p spare rec = ⟨[d.entryAt (p / 64), s.headerAt g.ctx (entFrame e)],
      .write (s.appendWrites g.ctx (entFrame e) (p / 64) (p % 64) h.pairs rec) (if entFrame e = spare then 1 else 0)⟩ := by
  have owned := Nat.le_one_iff_eq_zero_or_eq_one.mp owned
  simp [State.kvapp, inside.not_gt, good, entry.withEntry, owned, headed.withHdr, sound, next, KvAct.write]

end

section
variable (shared : entStatus e = 6)
include shared

theorem kvapp_shared_gap (gap : p % 64 ≠ min h.valid (d.len - 64 * (p / 64))) :
    s.kvapp g d p spare rec = ⟨[d.entryAt (p / 64), s.headerAt g.ctx (entFrame e)], .code 4⟩ := by
  simp [State.kvapp, inside.not_gt, good, entry.withEntry, shared, headed.withHdr, sound, gap, KvAct.code]

variable {v : Nat} (next : p % 64 = v) (hv : v = min h.valid (d.len - 64 * (p / 64))) {ks : List Byte}
  (keys : s.kvRead g.core g.ctx .copy (s.frameVa g.ctx (entFrame e)) (128 * v) = .ok ks)
include next hv keys

theorem kvapp_shared_badKeys (bad : badKeys ks h.ks v = true) :
    s.kvapp g d p spare rec = ⟨[d.entryAt (p / 64), s.headerAt g.ctx (entFrame e),
      (s.frameVa g.ctx (entFrame e), 128 * v)], .code 5⟩ := by
  simp [State.kvapp, inside.not_gt, good, entry.withEntry, shared, headed.withHdr, sound, ← hv, next, kvGet_ok keys, bad, KvAct.code]

theorem kvapp_shared_noSpare (sane : badKeys ks h.ks v = false) (lacks : spare = noFrame) :
    s.kvapp g d p spare rec = ⟨[d.entryAt (p / 64), s.headerAt g.ctx (entFrame e),
      (s.frameVa g.ctx (entFrame e), 128 * v)], .code 2⟩ := by
  simp [State.kvapp, inside.not_gt, good, entry.withEntry, shared, headed.withHdr, sound, ← hv, next, kvGet_ok keys, sane, lacks,
    KvAct.code]

theorem kvapp_shared_copy (sane : badKeys ks h.ks v = false) (has : spare ≠ noFrame) {vs : List Byte}
    (vals : s.kvRead g.core g.ctx .copy (s.frameVa g.ctx (entFrame e) + 0x2000) (128 * v) = .ok vs) :
    s.kvapp g d p spare rec = ⟨[d.entryAt (p / 64), s.headerAt g.ctx (entFrame e),
        (s.frameVa g.ctx (entFrame e), 128 * v), (s.frameVa g.ctx (entFrame e) + 0x2000, 128 * v)],
      .write (s.shareWrites g.ctx spare (p / 64) v d h ks vs ++ s.appendWrites g.ctx spare (p / 64) v
        (shownPairs (exactBox ks h.ks v) (pageWord v (p / 64))) rec) 1⟩ := by
  simp [State.kvapp, inside.not_gt, good, entry.withEntry, shared, headed.withHdr, sound, ← hv, next, kvGet_ok keys, sane, has,
    kvGet_ok vals, KvAct.write]

end

end

/-- The writes of the first slot of a page in a frame made for it (R99). -/
def State.firstWrites (s : State) (ctx n k : Nat) (d : Desc) (rec : List Byte) : List (Nat × List Byte) :=
  s.freshWrites ctx n k d ++ s.appendWrites ctx n k 0 (shownPairs (List.replicate 128 (0, 0)) (pageWord 0 k)) rec

theorem kvapp_empty_kept (kept : entStatus e = 7) (first : p % 64 = 0) (named : entFrame e ≠ noFrame) :
    s.kvapp g d p spare rec = ⟨[d.entryAt (p / 64)], .write (s.firstWrites g.ctx (entFrame e) (p / 64) d rec) 0⟩ := by
  simp [State.kvapp, inside.not_gt, good, entry.withEntry, kept, named, first, KvAct.write, State.firstWrites]

section
variable (empty : entStatus e = 2 ∨ entStatus e = 7)
include empty

theorem kvapp_empty_gap (gap : p % 64 ≠ 0) : s.kvapp g d p spare rec = ⟨[d.entryAt (p / 64)], .code 4⟩ := by
  have owned : ¬ (entStatus e = 0 ∨ entStatus e = 1) := by omega
  have shared : entStatus e ≠ 6 := by omega
  simp [State.kvapp, inside.not_gt, good, entry.withEntry, owned, shared, empty, gap, KvAct.code]

variable (first : p % 64 = 0)
include first

variable (unkept : ¬ (entStatus e = 7 ∧ entFrame e ≠ noFrame))
include unkept

theorem kvapp_empty_noSpare (lacks : spare = noFrame) :
    s.kvapp g d p spare rec = ⟨[d.entryAt (p / 64)], .code 2⟩ := by
  have owned : ¬ (entStatus e = 0 ∨ entStatus e = 1) := by omega
  have shared : entStatus e ≠ 6 := by omega
  simp only [State.kvapp, if_neg inside.not_gt, good, Bool.false_eq_true, if_false, entry.withEntry, if_neg owned, if_neg shared,
    if_pos empty, first, ne_eq, not_true_eq_false, if_neg unkept, if_pos lacks]
  rfl

theorem kvapp_empty_spare (has : spare ≠ noFrame) :
    s.kvapp g d p spare rec = ⟨[d.entryAt (p / 64)], .write (s.firstWrites g.ctx spare (p / 64) d rec) 1⟩ := by
  have owned : ¬ (entStatus e = 0 ∨ entStatus e = 1) := by omega
  have shared : entStatus e ≠ 6 := by omega
  simp only [State.kvapp, if_neg inside.not_gt, good, Bool.false_eq_true, if_false, entry.withEntry, if_neg owned, if_neg shared,
    if_pos empty, first, ne_eq, not_true_eq_false, if_neg unkept, if_neg has]
  rfl

end

end

/-! ### `kvreq`, `kvsum` (R321) -/

section
variable {s : State} {g : Group} {d : Desc} {k e : Nat} (entry : Entry s g d k e)
include entry

theorem kvreq_status (foreign : 1 < entStatus e) (slots : List Nat) (recs : List (List Byte)) :
    s.kvreq g d k slots recs = ⟨[d.entryAt k], .code 3⟩ := by
  simp [State.kvreq, entry.withEntry, foreign, KvAct.code]

theorem kvsum_status (foreign : 1 < entStatus e) : s.kvsum g d k = ⟨[d.entryAt k], .code 3⟩ := by
  simp [State.kvsum, entry.withEntry, foreign, KvAct.code]

variable (owned : entStatus e ≤ 1) {h : PageHdr} (headed : Headed s g (entFrame e) h)
include owned headed

theorem kvreq_malformed (bad : h.malformed k = true) (slots : List Nat) (recs : List (List Byte)) :
    s.kvreq g d k slots recs = ⟨[d.entryAt k, s.headerAt g.ctx (entFrame e)], .code 9⟩ := by
  simp [State.kvreq, entry.withEntry, owned.not_gt, headed.withHdr, bad, KvAct.code]

theorem kvsum_malformed (bad : h.malformed k = true) :
    s.kvsum g d k = ⟨[d.entryAt k, s.headerAt g.ctx (entFrame e)], .code 9⟩ := by
  simp [State.kvsum, entry.withEntry, owned.not_gt, headed.withHdr, bad, KvAct.code]

variable (sound : h.malformed k = false)
include sound

theorem kvsum_keys {ks : List Byte} (keys : s.kvRead g.core g.ctx .copy (s.frameVa g.ctx (entFrame e)) (128 * h.valid) = .ok ks) :
    s.kvsum g d k = ⟨[d.entryAt k, s.headerAt g.ctx (entFrame e), (s.frameVa g.ctx (entFrame e), 128 * h.valid)],
      if badKeys ks h.ks h.valid then .code 5
      else .write [(s.headerVa g.ctx (entFrame e), summaryBytes (exactBox ks h.ks h.valid) h.order)] 0⟩ := by
  simp only [State.kvsum, entry.withEntry, if_neg owned.not_gt, headed.withHdr, sound, Bool.false_eq_true, if_false, kvGet_ok keys]
  split <;> rfl

theorem kvreq_empty (recs : List (List Byte)) :
    s.kvreq g d k [] recs = ⟨[d.entryAt k, s.headerAt g.ctx (entFrame e)], .code 0⟩ := by
  simp [State.kvreq, entry.withEntry, owned.not_gt, headed.withHdr, sound, KvAct.code]

variable {slots : List Nat} {recs : List (List Byte)}

theorem kvreq_beyond (beyond : ∃ j ∈ slots, h.valid ≤ j) :
    s.kvreq g d k slots recs = ⟨[d.entryAt k, s.headerAt g.ctx (entFrame e)], .code 6⟩ := by
  obtain ⟨j, hj, past⟩ := beyond
  have nonempty : slots.isEmpty = false := List.isEmpty_eq_false_iff.mpr (List.ne_nil_of_mem hj)
  have any : slots.any (fun t => decide (h.valid ≤ t)) = true := List.any_eq_true.mpr ⟨j, hj, by simpa using past⟩
  simp only [State.kvreq, entry.withEntry, if_neg owned.not_gt, headed.withHdr, sound, Bool.false_eq_true, if_false, nonempty, any,
    if_true]
  rfl

variable (nonempty : slots ≠ []) (held : ∀ j ∈ slots, j < h.valid)
include nonempty held

theorem kvreq_badRecord (bad : recs.any badRecord = true) :
    s.kvreq g d k slots recs = ⟨[d.entryAt k, s.headerAt g.ctx (entFrame e)], .code 5⟩ := by
  have any : slots.any (fun t => decide (h.valid ≤ t)) = false := by simpa using held
  simp only [State.kvreq, entry.withEntry, if_neg owned.not_gt, headed.withHdr, sound, Bool.false_eq_true, if_false,
    List.isEmpty_eq_false_iff.mpr nonempty, any, bad, if_true]
  rfl

theorem kvreq_keys (good : recs.any badRecord = false) {key : Nat → List Byte}
    (keys : ∀ j ∈ slots, s.kvRead g.core g.ctx .copy (s.frameVa g.ctx (entFrame e) + 128 * j) 128 = .ok (key j)) :
    s.kvreq g d k slots recs = ⟨[d.entryAt k, s.headerAt g.ctx (entFrame e)] ++
        slots.map (fun j => (s.frameVa g.ctx (entFrame e) + 128 * j, 128)),
      if slots.any (fun j => badKey (key j) h.ks j) then .code 5
      else .write (s.rewriteWrites g.ctx (entFrame e) h (slots.zip ((slots.map key).zip recs))) 0⟩ := by
  have any : slots.any (fun t => decide (h.valid ≤ t)) = false := by simpa using held
  have paired : (slots.zip (slots.map key)).any (fun e => badKey e.2 h.ks e.1) = slots.any (fun j => badKey (key j) h.ks j) := by
    rw [← List.map_prod_left_eq_zip, List.any_map]
    rfl
  simp only [State.kvreq, entry.withEntry, if_neg owned.not_gt, headed.withHdr, sound, Bool.false_eq_true, if_false,
    List.isEmpty_eq_false_iff.mpr nonempty, any, good]
  rw [kvGets_ok keys (rs := []) (fin := if slots.any (fun j => badKey (key j) h.ks j) then .code 5
    else .write (s.rewriteWrites g.ctx (entFrame e) h (slots.zip ((slots.map key).zip recs))) 0)]
  · simp
  · rw [paired]
    split <;> rfl

end

/-! ### `kvlink` (R323) -/

/-- `kvlink` of page `k` to a status, with the frame it is given. -/
def State.kvlink (s : State) (g : Group) (d : Desc) (k new operand : Nat) : KvAct :=
  s.withEntry g d k (fun e =>
    match linkEntry d k e new operand with
    | .error c => .code c
    | .ok x => .write [(d.mapb + 4 * k, leBytes 4 x)] 0)

section
variable {s : State} {g : Group} {d : Desc} {k e new operand : Nat} (entry : Entry s g d k e)

section
include entry

theorem kvlink_refused {c : Nat} (refused : linkEntry d k e new operand = .error c) :
    s.kvlink g d k new operand = ⟨[d.entryAt k], .code c⟩ := by
  simp [State.kvlink, entry.withEntry, refused, KvAct.code]

theorem kvlink_linked {x : Nat} (linked : linkEntry d k e new operand = .ok x) :
    s.kvlink g d k new operand = ⟨[d.entryAt k], .write [(d.mapb + 4 * k, leBytes 4 x)] 0⟩ := by
  simp [State.kvlink, entry.withEntry, linked, KvAct.write]

end

theorem linkEntry_unlisted (unlisted : linkListed (entStatus e) new = false) : linkEntry d k e new operand = .error 7 := by
  simp [linkEntry, unlisted]

variable (listed : linkListed (entStatus e) new = true)
include listed

/-- A listed transition with its frame: cleared, given, or the one that the entry has, which the operand must then name. -/
theorem linkEntry_listed : linkEntry d k e new operand =
    if ¬ (new = 2 ∨ new = 3) ∧ ¬ (entStatus e = 4 ∨ entStatus e = 5 ∨ new = 6) ∧ operand ≠ entFrame e then .error 7
    else if new = 7 ∧ 64 * k < d.len then .error 8
    else .ok (new * 2 ^ 28 +
      if new = 2 ∨ new = 3 then 0 else if entStatus e = 4 ∨ entStatus e = 5 ∨ new = 6 then operand else entFrame e) := by
  simp only [linkEntry, listed, Bool.not_true, Bool.false_eq_true, if_false, Bool.or_eq_true, beq_iff_eq, or_assoc, not_or, ne_eq,
    and_assoc, Bool.not_eq_true', Bool.or_eq_false_iff, beq_eq_false_iff_ne]

theorem linkEntry_other (zero : ¬ (new = 2 ∨ new = 3)) (given : ¬ (entStatus e = 4 ∨ entStatus e = 5 ∨ new = 6))
    (other : operand ≠ entFrame e) : linkEntry d k e new operand = .error 7 :=
  (linkEntry_listed listed).trans (if_pos ⟨zero, given, other⟩)

variable (named : (new = 2 ∨ new = 3) ∨ (entStatus e = 4 ∨ entStatus e = 5 ∨ new = 6) ∨ operand = entFrame e)
include named

theorem linkEntry_early (aside : new = 7) (early : 64 * k < d.len) : linkEntry d k e new operand = .error 8 := by
  rw [linkEntry_listed listed, if_neg (by tauto), if_pos ⟨aside, early⟩]

theorem linkEntry_linked (due : ¬ (new = 7 ∧ 64 * k < d.len)) {f : Nat} (zero : new = 2 ∨ new = 3 → f = 0)
    (given : ¬ (new = 2 ∨ new = 3) → entStatus e = 4 ∨ entStatus e = 5 ∨ new = 6 → f = operand)
    (kept : ¬ (new = 2 ∨ new = 3) → ¬ (entStatus e = 4 ∨ entStatus e = 5 ∨ new = 6) → f = entFrame e) :
    linkEntry d k e new operand = .ok (new * 2 ^ 28 + f) := by
  rw [linkEntry_listed listed, if_neg (by tauto), if_neg due]
  by_cases hz : new = 2 ∨ new = 3
  · rw [if_pos hz, zero hz]
  · rw [if_neg hz]
    by_cases hg : entStatus e = 4 ∨ entStatus e = 5 ∨ new = 6
    · rw [if_pos hg, given hz hg]
    · rw [if_neg hg, kept hz hg]

end

/-! ### `kvtrim` (R324) -/

section
variable {s : State} {g : Group} {d : Desc} {k e : Nat} {ret : Bool} (entry : Entry s g d k e)
include entry

theorem kvtrim_inside (inside : d.wstart < 64 * k + 64) : s.kvtrim g d k ret = ⟨[d.entryAt k], .code 8⟩ := by
  simp [State.kvtrim, entry.withEntry, inside, KvAct.code]

variable (outside : 64 * k + 64 ≤ d.wstart)
include outside

theorem kvtrim_trimmed (trimmed : entStatus e = 3) : s.kvtrim g d k ret = ⟨[d.entryAt k], .code 0⟩ := by
  simp [State.kvtrim, entry.withEntry, outside.not_gt, trimmed, KvAct.code]

theorem kvtrim_other (other : entStatus e = 2 ∨ entStatus e = 4 ∨ entStatus e = 5 ∨ 7 ≤ entStatus e) :
    s.kvtrim g d k ret = ⟨[d.entryAt k], .code 3⟩ := by
  have named : ¬ (entStatus e = 0 ∨ entStatus e = 1 ∨ entStatus e = 6) := by omega
  have untrimmed : entStatus e ≠ 3 := by omega
  simp [State.kvtrim, entry.withEntry, outside.not_gt, named, untrimmed, KvAct.code]

theorem kvtrim_named (named : entStatus e ≤ 1 ∨ entStatus e = 6) : s.kvtrim g d k ret = ⟨[d.entryAt k],
    .write [(d.mapb + 4 * k, leBytes 4 (3 * 2 ^ 28))] (if ret && decide (entStatus e ≠ 6) then 1 else 0)⟩ := by
  have named : entStatus e = 0 ∨ entStatus e = 1 ∨ entStatus e = 6 := by omega
  simp only [State.kvtrim, entry.withEntry, if_neg outside.not_gt, if_pos named]
  rfl

/-- The frame of a sharer stays where it is, and so does one that is not asked for. -/
theorem kvtrim_plain (plain : entStatus e = 6 ∨ (entStatus e ≤ 1 ∧ ret = false)) :
    s.kvtrim g d k ret = ⟨[d.entryAt k], .write [(d.mapb + 4 * k, leBytes 4 (3 * 2 ^ 28))] 0⟩ := by
  rw [kvtrim_named entry outside (by omega), if_neg]
  rcases plain with shared | ⟨-, unasked⟩
  · simp [shared]
  · simp [unasked]

theorem kvtrim_returned (owned : entStatus e ≤ 1) (asked : ret = true) :
    s.kvtrim g d k ret = ⟨[d.entryAt k], .write [(d.mapb + 4 * k, leBytes 4 (3 * 2 ^ 28))] 1⟩ := by
  have own : entStatus e ≠ 6 := by omega
  rw [kvtrim_named entry outside (.inl owned), if_pos (by simp [asked, own])]

end

/-! ### The instructions (R319, R320) -/

section
variable {s : State} {i : Issue} {o : YF}

theorem Steady.kvtrim_exec (h : Steady s i) (on : s.kvOn i.g.ctx = true) : exec (.kvtrim o) s = .next (kvtrimFirst o s i) := by
  rw [exec_kvtrim, execKvtrim, onIssue_of _ h.issuer, h.toCalm.kvIssue_on on _ ⟨_, rfl⟩, kvtrimEffect, h.wait]

/-- A frame that is given back goes into a cache of the context that has room (R103). -/
theorem Poised.trimInsert_room (h : Poised s i) (own : (s.core i.g.core).frames.ctx = some i.g.ctx)
    (room : (s.core i.g.core).frames.frames.length < 32) (sd f : Nat) : s.trimInsert i sd f =
      State.goOn (s.modCore i.g.core (fun c => { c with frames := { c.frames with frames := c.frames.frames ++ [f] } })) i i.g
        (i.sp.put sd 1) := by
  have fit : s.insertFrames i.g.core i.g.ctx [f] = _ := insertFrames_fit (by simpa using room)
  simp only [State.trimInsert, cacheFor_own own, Bool.not_true, Bool.false_eq_true, if_false, fit]
  exact (h.setCore _ _).putScalar sd 1

end

section
variable {s : State} {i : Issue} {o : YF} {d : Desc} (h : Steady s i) (ready : kvReady s i (i.sp.get o.sa) d) (range : d.inRange = true)
include h ready range

theorem Steady.kvapp_performs (pos : (i.sp.get (o.sa + 1)).toNat < 2 ^ 24) (spare : (i.sp.get (o.sa + 3)).toNat < 2 ^ 28)
    (staged : s.stagingCheck i.g (i.sp.get (o.sa + 2)) 264 = none) : Performs s i (.kvapp o) o.sd (s.kvapp i.g d
      (i.sp.get (o.sa + 1)).toNat (i.sp.get (o.sa + 3)).toNat (s.windowRead i.g (i.sp.get (o.sa + 2)) 264)) :=
  kvOp_performs (act := fun t j d => t.kvapp j.g d (j.sp.get (o.sa + 1)).toNat (j.sp.get (o.sa + 3)).toNat
      (t.windowRead j.g (j.sp.get (o.sa + 2)) 264)) h rfl ⟨_, rfl⟩ ready range
    (by simpa using ⟨pos, spare⟩) (by simpa using staged)

variable (page : (i.sp.get (o.sa + 1)).toNat < 2 ^ 18)
include page

theorem Steady.kvreq_performs {slots : List Nat} (hs : slots = maskSlots (i.sp.get (o.sa + 3)))
    (staged : s.stagingCheck i.g (i.sp.get (o.sa + 2)) (264 * slots.length) = none) : Performs s i (.kvreq o) o.sd (s.kvreq i.g d
      (i.sp.get (o.sa + 1)).toNat slots ((List.range slots.length).map (fun n =>
        s.windowRead i.g (i.sp.get (o.sa + 2) + w64 (264 * n)) 264))) := by
  subst hs
  exact kvOp_performs (act := fun t j d => t.kvreq j.g d (j.sp.get (o.sa + 1)).toNat (maskSlots (j.sp.get (o.sa + 3)))
      ((List.range (maskSlots (j.sp.get (o.sa + 3))).length).map (fun n =>
        t.windowRead j.g (j.sp.get (o.sa + 2) + w64 (264 * n)) 264))) h rfl ⟨_, rfl⟩ ready range
    (by simpa using page) (by simpa using staged)

theorem Steady.kvsum_performs : Performs s i (.kvsum o) o.sd (s.kvsum i.g d (i.sp.get (o.sa + 1)).toNat) :=
  kvOp_performs (act := fun t j d => t.kvsum j.g d (j.sp.get (o.sa + 1)).toNat) h rfl ⟨_, rfl⟩ ready range
    (by simpa using page) (by simp)

theorem Steady.kvlink_performs (frame : (i.sp.get (o.sa + 2)).toNat < 2 ^ 28) : Performs s i (.kvlink o) o.sd
    (s.kvlink i.g d (i.sp.get (o.sa + 1)).toNat (o.code % 8) (i.sp.get (o.sa + 2)).toNat) :=
  kvOp_performs (act := fun t j d => t.kvlink j.g d (j.sp.get (o.sa + 1)).toNat (o.code % 8) (j.sp.get (o.sa + 2)).toNat)
    h rfl ⟨_, rfl⟩ ready range (by simpa using ⟨page, frame⟩) (by simp)

/-- A trim that gives no frame back is performed like any other act. -/
theorem Steady.kvtrim_performs (plain : ∀ ws, (s.kvtrim i.g d (i.sp.get (o.sa + 1)).toNat (decide (o.code % 2 = 1))).fin ≠ .write ws 1) :
    Performs s i (.kvtrim o) o.sd (s.kvtrim i.g d (i.sp.get (o.sa + 1)).toNat (decide (o.code % 2 = 1))) := by
  intro served
  have pre := kvPre_ok (vals := [(i.sp.get (o.sa + 1), 2 ^ 18)]) (stage := none) h.parity ready range (by simpa using page) (by simp)
  rw [h.kvtrim_exec ready.1, kvtrimFirst]
  simp only [pre, kvWait_served h.wait ready.2.2.1 served, failing_nil]

/-- A trim that gives its frame back inserts it once the entry is written, at once where the cache is the context's own and has room. -/
theorem Steady.kvtrim_inserts {reads : List (Nat × Nat)} {ws : List (Nat × List Byte)} {e : Nat}
    (act : s.kvtrim i.g d (i.sp.get (o.sa + 1)).toNat (decide (o.code % 2 = 1)) = ⟨reads, .write ws 1⟩)
    (entry : Entry s i.g d (i.sp.get (o.sa + 1)).toNat e)
    (own : (s.core i.g.core).frames.ctx = some i.g.ctx) (room : (s.core i.g.core).frames.frames.length < 32)
    (served : kvServed s i reads (ws.map (fun w => (w.1, w.2.length))) = true) {t : State}
    (written : (s.kvTouch i.g.core i.g.ctx .copy [] reads).kvWrites i.g.core i.g.ctx [] ws = .ok t) :
    exec (.kvtrim o) s = .next (State.goOn (t.modCore i.g.core (fun c =>
      { c with frames := { c.frames with frames := c.frames.frames ++ [entFrame e] } })) i i.g (i.sp.put o.sd 1)) := by
  have pre := kvPre_ok (vals := [(i.sp.get (o.sa + 1), 2 ^ 18)]) (stage := none) h.parity ready range (by simpa using page) (by simp)
  have wait := kvWait_served h.wait ready.2.2.1 (a := ⟨reads, .write ws 1⟩) served
  have reached := (kvTouch_accessed s i.g.core i.g.ctx .copy [] reads).trans (kvWrites_accessed written)
  obtain ⟨bs, read, rfl⟩ := entry
  rw [h.kvtrim_exec ready.1, kvtrimFirst]
  simp only [pre, act, wait, failing_nil, read, written]
  exact congrArg _ ((reached.poised h.toPoised).trimInsert_room (by rw [reached.frames]; exact own) (by rw [reached.frames]; exact room) _ _)

end

/-- With the cache off every cache instruction traps. -/
theorem Steady.cache_off {s : State} {i : Issue} {o : YF} (h : Steady s i) (off : s.kvOn i.g.ctx = false) (ht : traps s i = true)
    {x : Instr} (hx : x ∈ [Instr.kvapp o, .kvreq o, .kvsum o, .kvlink o, .kvtrim o, .pgget o, .pgput o]) :
    exec x s = .next (s.entered i 6 i.sp.mask 0) := by
  have trap : ∀ n eff, onIssue s (kvIssue n eff) = .next (s.entered i 6 i.sp.mask 0) := fun n eff => by
    rw [onIssue_of _ h.issuer, h.kvIssue_off ht off]
  simp only [List.mem_cons, List.not_mem_nil, or_false] at hx
  rcases hx with rfl | rfl | rfl | rfl | rfl | rfl | rfl
  all_goals exact trap _ _

/-- Settles O38: an instruction past its checks performs its act, and the act is that of the first condition met. -/
theorem cacheInstructionsWriteOrReturnACode : Obligations.CacheInstructionsWriteOrReturnACode := by
  unfold Obligations.CacheInstructionsWriteOrReturnACode
  refine ⟨fun s i o steady off ht x hx => (steady_iff.mp steady).cache_off off ht hx, ?_⟩
  rintro s i o d a1 a2 a3 k e bs hb hd steady ready range rfl rfl rfl read rfl st f ctx reads ent hdr keys headed
  have h := steady_iff.mp steady
  have entry : Entry s i.g d k (leNat bs) := ⟨bs, read, rfl⟩
  have header : headed → Headed s i.g (entFrame (leNat bs)) hd := fun hh => ⟨hb, hh⟩
  refine ⟨?append, ?rewrite, ?summary, ?link, ?trim⟩
  case append =>
    rintro pos spare rfl staged rec j v rfl rfl rfl code does
    have run := h.kvapp_performs ready range pos spare staged
    have codes : ∀ {rs n}, _ = (⟨rs, .code n⟩ : KvAct) → code rs n := fun act => run.codes h.toCalm act
    have doing : ∀ {rs ws n}, _ = (⟨rs, .write ws n⟩ : KvAct) → does rs ws n := fun act => run.does h.toCalm act
    refine ⟨fun before => codes (kvapp_before before), fun inside bad => codes (kvapp_badRecord inside bad), fun inside good =>
      ⟨fun absent => codes (kvapp_absent inside good entry absent),
       fun named hh bad => codes (kvapp_malformed inside good entry (header hh) named bad),
       fun owned hh sound => ?owned, fun shared hh sound => ?shared, fun empty => ?empty⟩⟩
    case owned =>
      refine ⟨fun gap => codes (kvapp_gap inside good entry (header hh) sound owned gap), fun held key hkey => ?_,
        fun next => doing (kvapp_append inside good entry (header hh) sound owned next)⟩
      have act := kvapp_rewrite (spare := (i.sp.get (o.sa + 3)).toNat) inside good entry (header hh) sound owned held hkey
      exact ⟨fun bad => codes (act.trans (congrArg _ (if_pos bad))),
        fun sane => doing (act.trans (congrArg _ (if_neg (Bool.eq_false_iff.mp sane))))⟩
    case shared =>
      refine ⟨fun gap => codes (kvapp_shared_gap inside good entry (header hh) sound shared gap), fun next ks vs hks hvs => ?_⟩
      exact ⟨fun bad => codes (kvapp_shared_badKeys inside good entry (header hh) sound shared next rfl hks bad),
        fun sane lacks => codes (kvapp_shared_noSpare inside good entry (header hh) sound shared next rfl hks sane lacks),
        fun sane has => doing (kvapp_shared_copy inside good entry (header hh) sound shared next rfl hks sane has hvs)⟩
    case empty =>
      exact ⟨fun gap => codes (kvapp_empty_gap inside good entry empty gap),
        fun first kept named => doing (kvapp_empty_kept inside good entry kept first named),
        fun first unkept => ⟨fun lacks => codes (kvapp_empty_noSpare inside good entry empty first unkept lacks),
          fun has => doing (kvapp_empty_spare inside good entry empty first unkept has)⟩⟩
  case rewrite =>
    rintro page rfl slots recs hslots rfl staged code
    have run := h.kvreq_performs ready range page hslots staged
    have codes : ∀ {rs n}, _ = (⟨rs, .code n⟩ : KvAct) → code rs n := fun act => run.codes h.toCalm act
    refine ⟨fun foreign => codes (kvreq_status entry foreign _ _), fun owned hh =>
      ⟨fun bad => codes (kvreq_malformed entry owned (header hh) bad _ _), fun sound empty => ?empty,
       fun sound beyond => codes (kvreq_beyond entry owned (header hh) sound beyond), fun sound nonempty held =>
         ⟨fun bad => codes (kvreq_badRecord entry owned (header hh) sound nonempty held bad), fun good key keys => ?keys⟩⟩⟩
    case empty =>
      subst empty
      exact codes (kvreq_empty entry owned (header hh) sound _)
    case keys =>
      have act := kvreq_keys entry owned (header hh) sound nonempty held good keys
      exact ⟨fun bad => codes (act.trans (congrArg _ (if_pos (List.any_eq_true.mpr bad)))),
        fun sane => run.does h.toCalm (act.trans (congrArg _ (if_neg (by simpa using sane))))⟩
  case summary =>
    rintro page rfl code
    have run := h.kvsum_performs ready range page
    have codes : ∀ {rs n}, _ = (⟨rs, .code n⟩ : KvAct) → code rs n := fun act => run.codes h.toCalm act
    refine ⟨fun foreign => codes (kvsum_status entry foreign), fun owned hh =>
      ⟨fun bad => codes (kvsum_malformed entry owned (header hh) bad), fun sound ks hks => ?_⟩⟩
    have act := kvsum_keys entry owned (header hh) sound hks
    exact ⟨fun bad => codes (act.trans (congrArg _ (if_pos bad))),
      fun sane => run.does h.toCalm (act.trans (congrArg _ (if_neg (Bool.eq_false_iff.mp sane))))⟩
  case link =>
    rintro page rfl frame new given zero code
    have run := h.kvlink_performs ready range page frame
    have refused : ∀ {c}, linkEntry d _ _ new _ = .error c → code [ent] c := fun hc => run.codes h.toCalm (kvlink_refused entry hc)
    exact ⟨fun unlisted => refused (linkEntry_unlisted unlisted), fun listed =>
      ⟨fun zero given other => refused (linkEntry_other listed zero given other),
       fun named aside early => refused (linkEntry_early listed named aside early),
       fun named due g hzero hgiven hkept => run.does h.toCalm
         (kvlink_linked entry (linkEntry_linked listed named due hzero hgiven hkept))⟩⟩
  case trim =>
    rintro page rfl code trimmed
    have codes : ∀ {n}, s.kvtrim i.g d _ (decide (o.code % 2 = 1)) = ⟨[ent], .code n⟩ → code [ent] n := fun act =>
      (h.kvtrim_performs ready range page (fun ws => by rw [act]; exact KvEnd.noConfusion)).codes h.toCalm act
    refine ⟨fun inside => codes (kvtrim_inside entry inside), fun outside =>
      ⟨fun trim => codes (kvtrim_trimmed entry outside trim), fun other => codes (kvtrim_other entry outside other),
       fun plain => ?plain, fun owned ret own room served t written => ?ret⟩⟩
    case plain =>
      have act : s.kvtrim i.g d _ (decide (o.code % 2 = 1)) = ⟨[ent], .write trimmed 0⟩ := kvtrim_plain entry outside
        (plain.imp_right (And.imp_right (fun even => by simp [even])))
      exact (h.kvtrim_performs ready range page (fun ws => by rw [act]; exact nofun)).does h.toCalm act
    case ret =>
      exact h.kvtrim_inserts ready range page (kvtrim_returned entry outside owned (decide_eq_true ret)) entry own room served written

end Sys2Proof.Machine

/-! ## Special and control registers (O3) -/

namespace Sys2Proof.Machine

/-! ### Numbers that special registers read -/

/-- The lowest lane of a mask is its lowest set bit. -/
theorem lowestBit_of_low {m : Mask} {l : Nat} (hl : l < 32) (set : m.getLsbD l = true) (low : ∀ k < l, m.getLsbD k = false) :
    lowestBit 32 m.toNat = l := by
  have found : (List.range 32).find? (fun k => m.toNat.testBit k) = some l := by
    rw [List.find?_range_eq_some]
    exact ⟨set, List.mem_range.mpr hl, fun k hk => by rw [BitVec.testBit_toNat, low k hk]; rfl⟩
  rw [lowestBit, found]
  rfl

/-- The mask of the other splits is the sum of their bits. -/
theorem sibs_eq_sum (i : Issue) : i.sibs =
    (((i.g.splits.map (fun e => e.1)).filter (fun k => k != i.sid)).map (fun k => 2 ^ k)).sum := by
  rw [Issue.sibs, Group.liveIds, List.sum_eq_foldl, List.foldl_map]

/-- TRAPC as the sum of its fields (R342). -/
theorem trapc_eq (t : TrapRegs) :
    t.trapc = w64 (t.cause.toNat + (if t.hnd then 2 ^ 8 else 0) + t.pend.toNat * 2 ^ 16) := by
  rw [TrapRegs.trapc]
  congr 1
  cases t.hnd
  · simp only [b2n, Bool.false_eq_true, if_false]; omega
  · simp only [b2n, if_true]; omega

/-- Every special register of the table reads as the rule says. -/
theorem special_specialRule (s : State) (i : Issue) (n : Nat) : specialRule s i n (s.special i n) := by
  unfold specialRule State.special
  dsimp only
  split
  case h_1 => exact fun l hl set low => congrArg w64 (lowestBit_of_low hl set low)
  case h_3 | h_4 | h_5 => exact fun b live => by rw [State.blockOf, live]; rfl
  case h_10 => exact congrArg w64 (sibs_eq_sum i)
  case h_16 => exact trapc_eq _
  case h_22 => trivial
  all_goals rfl

/-! ### What the instructions do -/

section
variable {s : State} {i : Issue} {o : YF}

/-- An instruction that writes a function of the state to a scalar completes with it. -/
theorem Calm.scalarOp (h : Calm s i) (ks : List Nat) (sd : Nat) (f : State → Issue → Word) :
    onIssue s (Machine.scalarOp ks sd f) = .next (s.goOn i i.g (i.sp.put sd (f s i))) := by
  rw [onIssue_of _ h.issuer, Machine.scalarOp, h.issue_scalar _ _ rfl rfl rfl rfl, h.putScalar]

/-- An instruction that needs scalars alone has its effect. -/
theorem Calm.exec_scal (h : Calm s i) (ks : List Nat) (eff : State → Issue → State) :
    onIssue s (Machine.issue (fun _ => { scal := ks }) eff) = .next (eff s i) := by
  rw [onIssue_of _ h.issuer, h.issue_scalar _ _ rfl rfl rfl rfl]

/-- The split goes on with its group changed in what no boundary looks at. -/
theorem Poised.goOn_settle (h : Poised s i) {g : Group} (ha : Alike i g) :
    (s.setGroup i.gid { g with splits := g.splits.set i.sid i.sp.advance }).settle i.gid = s.goOn i g i.sp :=
  h.settle ha (sp := i.sp.advance) h.haltReq h.watchdog rfl rfl

/-- WDLIM is the limit of the group's block (R236). -/
theorem control_limit {b : Block} (live : s.blocks.get? i.g.bid = some b) : s.control i 0x151 = w64 b.limit := by
  simp [State.control, State.blockOf, live]

/-- A value is a legal FMT (R228). -/
theorem fmtValue_iff (v : Word) : Checks.fmtValue v.toNat = true ↔
    v.toNat < 2 ^ 8 ∧ (v.toNat / 16 = 3 ∨ v.toNat / 16 = 4) ∧ v.getLsbD 2 = false := by
  have bit : v.getLsbD 2 = decide (v.toNat / 4 % 2 = 1) := Nat.testBit_eq_decide_div_mod_eq
  simp only [Checks.fmtValue, Bool.and_eq_true, Bool.or_eq_true, decide_eq_true_eq, beq_iff_eq, bit, decide_eq_false_iff_not]
  omega

/-! ### `swr` (R221) -/

theorem swrEffect_fmt (h : Poised s i) (code : o.code = 0x00B) (legal : Checks.fmtValue (i.sp.get o.sa).toNat = true) :
    swrEffect o s i = s.goOn i i.g { i.sp with fmt := (i.sp.get o.sa).setWidth 8 } := by
  simp only [swrEffect, code, legal, if_true]
  exact h.putSplit _ h.haltReq h.watchdog

theorem swrEffect_badFmt (code : o.code = 0x00B) (illegal : Checks.fmtValue (i.sp.get o.sa).toNat = false) :
    swrEffect o s i = s.trapAt i 1 4 := by
  simp [swrEffect, code, illegal]

theorem swrEffect_gst (h : Poised s i) (code : o.code = 0x00C) :
    swrEffect o s i = s.goOn i { i.g with gst := (i.sp.get o.sa).setWidth 6 } i.sp := by
  simp only [swrEffect, code]
  exact h.goOn_settle (g := { i.g with gst := (i.sp.get o.sa).setWidth 6 }) ⟨rfl, rfl, rfl, rfl, rfl⟩

theorem swrEffect_outside (code : o.code = 0x011 ∨ o.code = 0x012) (outside : i.sp.trap.hnd = false) :
    swrEffect o s i = s.trapAt i 6 0 := by
  rcases code with code | code <;> simp [swrEffect, code, outside]

section
variable (h : Poised s i) (inside : i.sp.trap.hnd = true) (aligned : (i.sp.get o.sa).toNat % 8 = 0)
include h inside aligned

theorem swrEffect_trape (code : o.code = 0x011) : swrEffect o s i =
    s.goOn i i.g { i.sp with trap := { i.sp.trap with trape := i.sp.get o.sa } } := by
  simp only [swrEffect]
  rw [if_neg (by omega), if_neg (by omega), if_neg (by simp [inside]), if_neg (by omega), if_pos code]
  exact h.putSplit _ h.haltReq h.watchdog

theorem swrEffect_trapi (code : o.code = 0x012) : swrEffect o s i = s.goOn i i.g { i.sp with
    trap := { i.sp.trap with trapi := i.sp.get o.sa }
    shadow := if i.sp.get o.sa = i.sp.trap.trapi then i.sp.shadow
      else i.sp.shadow.map (fun h => { h with barrier := none }) } := by
  simp only [swrEffect]
  rw [if_neg (by omega), if_neg (by omega), if_neg (by simp [inside]), if_neg (by omega), if_neg (by omega)]
  exact h.putSplit _ h.haltReq h.watchdog

end

/-! ### `csrw` and `wdog` (R237, R238) -/

theorem csrwEffect_config (h : Poised s i) (code : o.code = 0x150) :
    csrwEffect o s i = s.goOn i { i.g with hintOn := (i.sp.get o.sa).getLsbD 0 } i.sp := by
  rw [csrwEffect, if_pos code]
  exact h.goOn_settle (g := { i.g with hintOn := (i.sp.get o.sa).getLsbD 0 }) ⟨rfl, rfl, rfl, rfl, rfl⟩

/-- A new limit of the block leaves the issuing split poised. -/
theorem Poised.setLimit (h : Poised s i) {b : Block} (live : s.blocks.get? i.g.bid = some b) (n : Nat) :
    Poised (s.setBlock i.g.bid { b with limit := n }) i := by
  refine { h with block := fun c hc => ?_ }
  obtain rfl : { b with limit := n } = c := Option.some.inj ((Sparse.get?_set_same _ _ _).symm.trans hc)
  exact h.block b live

theorem wdogEffect_live (h : Poised s i) {b : Block} (live : s.blocks.get? i.g.bid = some b) : wdogEffect o s i =
    State.goOn (s.setBlock i.g.bid { b with limit := wdogLimit (i.sp.get o.sa).toNat }) i i.g (i.sp.put o.sd (w64 b.limit)) := by
  simp only [wdogEffect, State.blockOf, State.modBlock, live, Option.map_some, Option.getD_some]
  exact (h.setLimit live _).putScalar _ _

end

/-- Settles O3: reads and writes go by the number of the register, and a write past its checks touches that register alone. -/
theorem specialRegistersAreReadAndWritten : Obligations.SpecialRegistersAreReadAndWritten := by
  unfold Obligations.SpecialRegistersAreReadAndWritten
  refine ⟨fun s i o steady => ?reads, ?writes, fun s i o steady => ?control⟩
  case reads =>
    have h := (steady_iff.mp steady).toCalm
    refine ⟨⟨_, h.scalarOp _ _ _, special_specialRule s i o.code⟩, _, h.scalarOp _ _ _, fun code => ?_, fun b live code => ?_,
      fun other limit => ?_⟩
    · rw [State.control, if_pos code]; cases i.g.hintOn <;> rfl
    · rw [code, control_limit live]
    · rw [State.control, if_neg other, if_neg limit]
  case writes =>
    rintro s i o _ steady rfl
    have h := steady_iff.mp steady
    have does : exec (.swr o) s = .next (swrEffect o s i) := h.exec_scal _ _
    rw [does]
    refine ⟨fun code narrow kind even => ?_, fun code wrong ht => ?_, fun code => ?_, fun code inside aligned => ?_,
      fun code inside aligned => ?_, fun code ht => ?_⟩
    · rw [swrEffect_fmt h.toPoised code ((fmtValue_iff _).mpr ⟨narrow, kind, even⟩)]
    · have illegal : Checks.fmtValue (i.sp.get o.sa).toNat = false := by
        rw [Bool.eq_false_iff, Ne, fmtValue_iff]
        rintro ⟨narrow, kind, even⟩
        rcases wrong with wide | other | odd
        · omega
        · omega
        · rw [even] at odd; cases odd
      rw [swrEffect_badFmt code illegal, h.trapAt_entered ht _ (by decide)]
    · rw [swrEffect_gst h.toPoised code]
    · rw [swrEffect_trape h.toPoised inside aligned code]
    · rw [swrEffect_trapi h.toPoised inside aligned code]
    · have outside : i.sp.trap.hnd = false := by simp_all [Machine.traps]
      rw [swrEffect_outside code outside, h.trapAt_entered ht _ (by decide)]
  case control =>
    have h := steady_iff.mp steady
    have writes : exec (.csrw o) s = .next (csrwEffect o s i) := h.exec_scal _ _
    refine ⟨fun code => ?_, fun code ht => ?_, fun b live => ⟨?_, ?_⟩⟩
    · rw [writes, csrwEffect_config h.toPoised code]
    · rw [writes, csrwEffect, if_neg code, h.trapAt_entered ht _ (by decide)]; rfl
    · exact (h.exec_scal _ _).trans (congrArg _ (wdogEffect_live h.toPoised live))
    · rw [exec_wdogQ, execWdogQ, h.toCalm.scalarOp, State.blockOf, live]; rfl

end Sys2Proof.Machine

/-! ## `split`, `join` and `exit` (O4) -/

namespace Sys2Proof.Machine

/-! ### Sparse arrays -/

/-- What holds of the values of a sparse array and of a new one holds after the new one is set. -/
theorem forall_mem_set {α : Type} {P : α → Prop} {m : Sparse α} {v : α} (k : Nat) (hm : ∀ e ∈ m, P e.2) (hv : P v) :
    ∀ e ∈ m.set k v, P e.2 := fun e he => (Sparse.mem_set he).elim (fun new => new ▸ hv) (hm e)

theorem isEmpty_set {α : Type} (m : Sparse α) (k : Nat) (v : α) : (m.set k v).isEmpty = false := by
  rw [List.isEmpty_eq_false_iff]
  intro nil
  have held := Sparse.get?_set_same m k v
  rw [nil] at held
  cases held

/-! ### Boundaries at which nothing is due (R145, R351) -/

/-- A split that is not at the join address `join` of a record it has, and of which no boundary asks anything. -/
structure Split.Apart (join : Word) (sp : Split) : Prop where
  haltReq : sp.haltReq = false
  watchdog : sp.watchdog = none
  atRecord : sp.atRecord = false
  away : sp.youngest = none ∨ sp.pc ≠ join

/-- No split arrives that stands apart from the join address of its youngest record. -/
theorem arrive_eq_self {g : Group}
    (apart : ∀ e ∈ g.splits, ∀ d r, e.2.youngest = some d → g.recs.get? d = some r → e.2.pc ≠ r.join) : g.arrive = g := by
  have same : g.arrive.splits = g.splits := by
    refine Eq.trans (List.map_congr_left fun e he => Prod.ext ?key ?split) (List.map_id g.splits)
    case key => rfl
    case split =>
      dsimp only [id_eq]
      split
      · split
        · next d young =>
          split
          · next r rec => exact if_neg (apart e he d r young rec)
          · rfl
        · rfl
      · rfl
  exact congrArg (fun l => { g with splits := l }) same

/-- A record that no split waits at, and whose fall-through part has not started, is not complete. -/
theorem complete_eq_false {g : Group} {d : Nat} {r : DivRec} (waits : ∀ e ∈ g.splits, e.2.atRecord = false)
    (unstarted : r.fallStarted = false) : g.complete d r = false := by
  have nobody : g.splits.filter (fun e => e.2.waitsAt d) = [] :=
    List.filter_eq_nil_iff.mpr fun e he => by simp [Split.waitsAt, waits e he]
  simp [Group.complete, nobody, unstarted]

/-- Without a parity error there is none to clear. -/
theorem copiedClear_nil {s : State} (clean : s.parity = []) (old new : Group) : s.copiedClear old new = s := by
  simp [State.copiedClear, State.splitClear, clean]

section
variable {s : State} {i : Issue}

/-- Nothing follows at a boundary from a group that meets and completes no record, in which no halt, watchdog, eviction or rollback
is due. -/
theorem Poised.settle_quiet (h : Poised s i) {g : Group} (met : g.arrive = g)
    (incomplete : g.recs.find? (fun e => g.complete e.1 e.2) = none) (hd : g.deferred = i.g.deferred) (hs : g.status ≠ .evicting)
    (hb : g.bid = i.g.bid) (hsp : ∀ e ∈ g.splits, e.2.haltReq = false ∧ e.2.watchdog = none) :
    ((s.setGroup i.gid g).copiedClear i.g g).settle i.gid = s.setGroup i.gid g := by
  have halts : g.haltAll = g := if_neg (by simpa using fun k e he => (hsp _ he).1)
  have stays : ∀ n, g.settle s.time (n + 1) = g := fun n => by simp only [Group.settle, met, incomplete]
  have dogs : g.splits.any (fun e => e.2.watchdog.isSome) = false := by
    simpa using fun k e he => (hsp _ he).2
  have group : (if g.recs.isEmpty then g
      else if (s.setGroup i.gid g).unperformed i.gid then g.arrive else g.settle s.time (2 * g.recs.length + 2)) = g := by
    rw [met, stays, ite_self, ite_self]
  have status : (g.status == GroupStatus.evicting || !true) = false := by simp [hs]
  rw [copiedClear_nil (show (s.setGroup i.gid g).parity = [] from h.parity)]
  unfold State.settle
  simp only [State.modGroup_setGroup, State.setGroup_time, group, halts, State.setGroup_parity, h.parity, List.isEmpty_nil, if_true,
    State.setGroup_groups, Sparse.get?_set_same, dogs, hd, h.deferred, status, Bool.false_eq_true, if_false, State.setGroup_blocks]
  split
  · next b live => simp [(h.block b (hb ▸ live)).1, (h.block b (hb ▸ live)).2]
  · rfl

/-- Nothing follows at a boundary from a group whose one record is new, each split being apart from its join address. -/
theorem Poised.settle_divided (h : Poised s i) {r : DivRec} {sps : Sparse Split} {dirty : List (Nat × Nat × Mask)}
    (apart : ∀ e ∈ sps, e.2.Apart r.join) (unstarted : r.fallStarted = false) :
    ((s.setGroup i.gid { i.g with recs := [(0, r)], splits := sps, opDirty := dirty }).copiedClear i.g
        { i.g with recs := [(0, r)], splits := sps, opDirty := dirty }).settle i.gid =
      s.setGroup i.gid { i.g with recs := [(0, r)], splits := sps, opDirty := dirty } := by
  refine h.settle_quiet (arrive_eq_self fun e he d q young rec => ?_) ?_ rfl ?_ rfl
    (fun e he => ⟨(apart e he).haltReq, (apart e he).watchdog⟩)
  · rcases (apart e he).away with unnested | away
    · rw [unnested] at young; cases young
    · obtain ⟨-, rfl⟩ : 0 = d ∧ r = q := by simpa [Sparse.get?] using rec
      exact away
  · have incomplete : Group.complete { i.g with recs := [(0, r)], splits := sps, opDirty := dirty } 0 r = false :=
      complete_eq_false (fun e he => (apart e he).atRecord) unstarted
    simp [incomplete]
  · change i.g.status ≠ _; rw [h.status]; decide

/-! ### `split` (R144, R224) -/

/-- A signed field of words as an offset in bytes. -/
theorem offset_eq (sp : Split) (n v : Nat) : sp.offset n v = sp.pc + wordsOff n v := by
  rw [Split.offset, wordsOff, sextW, Decode.sext, BitVec.ofInt_mul]
  rfl

/-- The taken part of a division, which has its own split. -/
def Split.takenPart (sp : Split) (t : Mask) (target : Word) (fallFirst : Bool) (now : Nat) : Split :=
  { sp.jump target with
    mask := t, youngest := some 0, wait := .none, parked := false
    halted := sp.stepping, stepping := false, haltReq := false
    readyTime := if fallFirst then now + 1 else now, wasReady := true }

/-- The fall-through part of a division. -/
def Split.fallPart (sp : Split) (t : Mask) (fallFirst : Bool) (now : Nat) : Split :=
  { sp.advance with
    mask := sp.mask &&& ~~~ t, youngest := some 0, readyTime := if fallFirst then now else now + 1 }

/-- The record of a division without a free split id: the fall-through part is to run after the taken one (R144). -/
def Split.serialRec (sp : Split) (sid : Nat) (t : Mask) (join : Word) : DivRec :=
  { sp.newRec sid join with serial := true, fallMask := sp.mask &&& ~~~ t, fallPc := sp.pc + 8, entry := sp.part }

section
variable {g : Group} {sid : Nat} {sp : Split} {t : Mask} {target join : Word} {first : Bool} {now : Nat} (recs : g.recs = [])
include recs

theorem freeRec_of_nil : g.freeRec = some 0 := by
  simp only [Group.freeRec, recs, Sparse.get?_nil]
  rfl

theorem divide_parts {id : Nat} (taken : t ≠ 0) (fall : sp.mask &&& ~~~ t ≠ 0) (free : g.freeSplit = some id) :
    g.divide sid sp t target join first now = some { g with
      recs := [(0, sp.newRec sid join)]
      splits := (g.splits.set sid (sp.fallPart t first now)).set id (sp.takenPart t target first now)
      opDirty := moveDirty g.opDirty [sid] t id } := by
  simp only [Group.divide, freeRec_of_nil recs, recs, if_pos (And.intro taken fall), free]
  rfl

theorem divide_serial (taken : t ≠ 0) (fall : sp.mask &&& ~~~ t ≠ 0) (free : g.freeSplit = none) :
    g.divide sid sp t target join first now = some { g with
      recs := [(0, sp.serialRec sid t join)]
      splits := g.splits.set sid { sp.jump target with mask := t, youngest := some 0 }
      opDirty := moveDirty g.opDirty [sid] (sp.mask &&& ~~~ t) (partKey 0) } := by
  simp only [Group.divide, freeRec_of_nil recs, recs, if_pos (And.intro taken fall), free]
  rfl

theorem divide_taken (taken : t ≠ 0) (fall : sp.mask &&& ~~~ t = 0) :
    g.divide sid sp t target join first now = some { g with
      recs := [(0, sp.newRec sid join)], splits := g.splits.set sid { sp.jump target with youngest := some 0 } } := by
  simp only [Group.divide, freeRec_of_nil recs, recs, fall, ne_eq, not_true_eq_false, and_false, if_false, taken, not_false_eq_true,
    if_true]
  rfl

theorem divide_fall (taken : t = 0) :
    g.divide sid sp t target join first now = some { g with
      recs := [(0, sp.newRec sid join)], splits := g.splits.set sid { sp.advance with youngest := some 0 } } := by
  simp only [Group.divide, freeRec_of_nil recs, recs, taken, ne_eq, not_true_eq_false, false_and, if_false]
  rfl

end

/-- The lowest free split id. -/
theorem freeSplit_eq_some {g : Group} {id : Nat} : g.freeSplit = some id ↔
    g.splits.get? id = none ∧ id < 4 ∧ ∀ k < id, g.splits.get? k ≠ none := by
  simp [Group.freeSplit, List.find?_range_eq_some, Option.isSome_iff_ne_none]

/-- Past its join check `split` divides. -/
theorem Calm.split_exec (h : Calm s i) {o : SP} {w : Word} (fetch : s.fetch i.g.core i.g.ctx (i.sp.pc + wordsOff 20 o.join) = .ok w)
    (header : (Decode.header w.toNat).isSome = true) {r : DivRec} {sps : Sparse Split} {dirty : List (Nat × Nat × Mask)}
    (divide : i.g.divide i.sid i.sp (i.guard o.p o.pn) (i.sp.pc + wordsOff 20 o.target) (i.sp.pc + wordsOff 20 o.join)
      (i.g.hintOn && decide (o.u = 1)) s.time = some { i.g with recs := [(0, r)], splits := sps, opDirty := dirty })
    (apart : ∀ e ∈ sps, e.2.Apart r.join) (unstarted : r.fallStarted = false) :
    exec (.split o) s = .next (s.setGroup i.gid { i.g with recs := [(0, r)], splits := sps, opDirty := dirty }) := by
  rw [exec_split, execSplit, onIssue_of _ h.issuer, h.issue_scalar _ _ rfl rfl rfl rfl, splitEffect]
  simp only [offset_eq, fetch, headerWord, header, Bool.not_true, Bool.false_eq_true, if_false, divide]
  rw [h.settle_divided apart unstarted]

/-! ### `exit` (R226) -/

/-- What a split has not written has not moved. -/
theorem moveDirty_of_absent {d : List (Nat × Nat × Mask)} {sid : Nat} (absent : ∀ e ∈ d, e.1 ≠ sid) (m : Mask) (k : Nat) :
    moveDirty d [sid] m k = d := by
  induction d with
  | nil => rfl
  | cons e d ih =>
    have head : e.1 ≠ sid := absent e List.mem_cons_self
    rw [moveDirty, List.flatMap_cons, if_neg (by simp [head])]
    exact congrArg (e :: ·) (ih fun x hx => absent x (List.mem_cons_of_mem _ hx))

section
variable {g : Group} {sid : Nat} {sp : Split} {now : Nat} {m : Mask} (recs : g.recs = []) (shadows : ∀ e ∈ g.splits, e.2.shadow = none)
  (shadow : sp.shadow = none)
include recs shadows shadow

/-- Lanes exit, and others of their split are left. -/
theorem exitLanes_rest (rest : sp.mask &&& ~~~ m ≠ 0) : g.exitLanes now sid sp m = { g with
    opDirty := moveDirty g.opDirty [sid] m goneKey, splits := g.splits.set sid { sp with mask := sp.mask &&& ~~~ m } } := by
  have unshadowed : g.splits.any (fun e => e.2.shadow.isSome) = false := by simpa using fun k e he => shadows _ he
  simp only [Group.exitLanes, Group.leaveRecs, Group.freeRecs, Split.lanesGone, recs, shadow, unshadowed, rest, List.map_nil,
    List.filter_nil, Bool.false_eq_true, if_false, ne_eq, not_false_eq_true, if_true]

/-- The last lanes of a split without a record exit. -/
theorem exitLanes_last (young : sp.youngest = none) (rest : sp.mask &&& ~~~ m = 0) : g.exitLanes now sid sp m = { g with
    opDirty := moveDirty g.opDirty [sid] m goneKey, splits := g.splits.erase sid } := by
  have unshadowed : g.splits.any (fun e => e.2.shadow.isSome) = false := by simpa using fun k e he => shadows _ he
  simp only [Group.exitLanes, Group.leaveRecs, Group.freeRecs, Split.lanesGone, recs, shadow, unshadowed, rest, List.map_nil,
    List.filter_nil, Bool.false_eq_true, if_false, ne_eq, not_true_eq_false, young, Group.pendingSerial]

end

/-- After lanes have exited the group settles: its record of dirty registers and its splits have changed alone, and without a split
it is ending. -/
theorem Calm.exit_exec (h : Calm s i) (young : i.sp.youngest = none) {o : EX} {dirty : List (Nat × Nat × Mask)} {sps : Sparse Split}
    (exits : i.g.exitLanes s.time i.sid i.sp.advance (i.guard o.p o.pn) = { i.g with opDirty := dirty, splits := sps })
    (hsp : ∀ e ∈ sps, e.2.haltReq = false ∧ e.2.watchdog = none) {st : GroupStatus}
    (status : (if sps.isEmpty then .ending else i.g.status) = st) :
    exec (.exit o) s = .next (s.setGroup i.gid { i.g with opDirty := dirty, splits := sps, status := st }) := by
  have starts : i.exitStarts (i.guard o.p o.pn) = false := by simp [Issue.exitStarts, young, Group.pendingSerial]
  have ended : (if (sps.isEmpty && i.g.recs.isEmpty && i.g.status == .running) = true
      then { i.g with opDirty := dirty, splits := sps, status := .ending } else { i.g with opDirty := dirty, splits := sps }) =
      { i.g with opDirty := dirty, splits := sps, status := st } := by
    subst status
    cases sps.isEmpty <;> simp [h.recs, h.status]
  rw [exec_exit, execExit, onIssue_of _ h.issuer, h.issue_scalar _ _ rfl rfl rfl rfl, exitEffect, starts, exits]
  simp only [Bool.false_and, Bool.false_eq_true, if_false, ended]
  refine congrArg _ (h.settle_quiet (arrive_eq_self fun e he d r _ rec => ?_) (by simp [h.recs]) rfl ?_ rfl hsp)
  · rw [show Sparse.get? i.g.recs d = none by rw [h.recs]; rfl] at rec
    cases rec
  · subst status
    change (if sps.isEmpty then GroupStatus.ending else i.g.status) ≠ _
    split
    · decide
    · rw [h.status]; decide

end

/-- Settles O4: the record of a first division stays open, as no part stands at the join address; an exit without a record has its
split's lanes alone to end. -/
theorem divergenceDividesJoinsAndEndsLanes : Obligations.DivergenceDividesJoinsAndEndsLanes := by
  unfold Obligations.DivergenceDividesJoinsAndEndsLanes
  refine ⟨?split, fun s i d r issuer young rec => ?join, ?exit⟩
  case split =>
    rintro s i o w join target t f steady others young unmet rfl rfl fetch header rfl rfl away past
    have h := (steady_iff.mp steady).toCalm
    have live := (issuer_split h.issuer).2
    have old : ∀ e ∈ i.g.splits, e.2.Apart (i.sp.pc + wordsOff 20 o.join) := fun e he =>
      ⟨(h.splits e he).1, (h.splits e he).2, (others e he).2, .inl (others e he).1⟩
    by_cases taken : i.guard o.p o.pn = 0
    · refine ⟨_, _, _, h.split_exec fetch header (divide_fall h.recs taken) ?_ rfl, id, rfl, rfl, rfl, rfl, young,
        fun ht => absurd taken ht, fun ht => absurd taken ht, fun _ =>
          ⟨⟨_, Sparse.get?_set_same _ _ _, rfl, rfl, rfl⟩, fun k hk => Sparse.get?_set_ne _ _ hk⟩⟩
      exact forall_mem_set _ old ⟨h.haltReq, h.watchdog, unmet, .inr past⟩
    by_cases fall : i.sp.mask &&& ~~~ i.guard o.p o.pn = 0
    · refine ⟨_, _, _, h.split_exec fetch header (divide_taken h.recs taken fall) ?_ rfl, id, rfl, rfl, rfl, rfl, young,
        fun _ hf => absurd fall hf, fun _ _ =>
          ⟨⟨_, Sparse.get?_set_same _ _ _, rfl, rfl, rfl⟩, fun k hk => Sparse.get?_set_ne _ _ hk⟩, fun ht => absurd ht taken⟩
      exact forall_mem_set _ old ⟨h.haltReq, h.watchdog, unmet, .inr away⟩
    cases free : i.g.freeSplit with
    | none =>
      refine ⟨_, _, _, h.split_exec fetch header (divide_serial h.recs taken fall free) ?_ rfl, fun clean => by rw [clean]; rfl, rfl, rfl,
        rfl, rfl, young, fun _ _ id hid unused low => ?_, fun _ hf => absurd hf fall, fun ht => absurd ht taken⟩
      · exact forall_mem_set _ old ⟨h.haltReq, h.watchdog, unmet, .inr away⟩
      · rw [freeSplit_eq_some.mpr ⟨unused, hid, low⟩] at free
        cases free
    | some id =>
      refine ⟨_, _, _, h.split_exec fetch header (divide_parts h.recs taken fall free) ?_ rfl, fun clean => by rw [clean]; rfl, rfl, rfl,
        rfl, rfl, young, fun _ _ id' hid unused low => ?_, fun _ hf => absurd hf fall, fun ht => absurd ht taken⟩
      · exact forall_mem_set _ (forall_mem_set _ old ⟨h.haltReq, h.watchdog, unmet, .inr past⟩)
          ⟨rfl, h.watchdog, unmet, .inr away⟩
      · obtain rfl : id' = id := Option.some.inj ((freeSplit_eq_some.mpr ⟨unused, hid, low⟩).symm.trans free)
        have apart : i.sid ≠ id' := fun same => by rw [← same, live] at unused; cases unused
        refine ⟨rfl, ⟨_, _, Sparse.get?_set_same _ _ _, (Sparse.get?_set_ne _ _ apart).trans (Sparse.get?_set_same _ _ _),
          rfl, rfl, rfl, rfl, rfl, rfl, rfl, rfl, rfl, rfl, rfl, rfl, rfl, rfl⟩, fun k hk hs => ?_⟩
        rw [Sparse.get?_set_ne _ _ hk, Sparse.get?_set_ne _ _ hs]
  case join =>
    have needs : Machine.issue (fun _ => {}) joinEffect s i = joinEffect s i := by
      simp [Machine.issue, Needs.beyond, Needs.regs, Needs.holds, Needs.locked, Needs.parity]
    rw [exec_join, execJoin, onIssue_of _ issuer, needs, joinEffect, young, Option.bind_some, rec]
    rfl
  case exit =>
    rintro s i o _ steady young shadows rfl
    have h := (steady_iff.mp steady).toCalm
    have shadow : i.sp.advance.shadow = none := shadows _ (mem_of_get? (issuer_split h.issuer).2)
    have kept : ∀ e ∈ i.g.splits.erase i.sid, e.2.haltReq = false ∧ e.2.watchdog = none := fun e he =>
      h.splits e (List.mem_of_mem_filter he)
    refine ⟨moveDirty i.g.opDirty [i.sid] (i.guard o.p o.pn) goneKey, fun absent => moveDirty_of_absent absent _ _,
      fun rest => ?_, fun rest left => ?_, fun rest last => ?_⟩
    · rw [h.exit_exec young (exitLanes_rest h.recs shadows shadow rest) (h.splits_set (by exact h.haltReq) (by exact h.watchdog))
        (if_neg (by simp [isEmpty_set]))]
      rfl
    · exact h.exit_exec young (exitLanes_last h.recs shadows shadow young rest) kept (if_neg (by simp [left]))
    · rw [h.exit_exec young (exitLanes_last h.recs shadows shadow young rest) kept (if_pos last), List.isEmpty_iff.mp last]

end Sys2Proof.Machine

/-! ## Spawns and child grids (O42) -/

namespace Sys2Proof.Machine

/-! ### `spawn` (R153, R230) -/

section
variable {s : State} {i : Issue} {o : XF}

/-- The items of a `spawn`, whose registers no result is outstanding for. -/
theorem Calm.spawnItems (h : Calm s i) : s.spawnItems o i = ((List.range 32).filter (i.guard o.p o.pn).getLsbD).map (fun l =>
    ⟨i.sp.get o.sa, i.g.v? o.f2 l, i.g.v? (o.f2 + 1) l, i.g.bid, s.time⟩) := by
  simp only [State.spawnItems, h.vread]
  rfl

section
variable (h : Calm s i) (first : i.g.names o.f2 = true) (second : i.g.names (o.f2 + 1) = true)
include h first second

theorem Calm.spawn_exec : exec (.spawn o) s = .next (spawnEffect o s i) := by
  rw [exec_spawn, execSpawn, onIssue_of _ h.issuer]
  exact congrArg _ (h.issue _ (spawnEffect o) (Needs.beyond_none (by simp [spawnNeeds, first, second])) (fun k hk => by cases hk)
    (fun hr => by cases hr))

end

theorem spawnEffect_misaligned (misaligned : (i.sp.get o.sa).toNat % 8 ≠ 0) :
    spawnEffect o s i = s.trapAt i 3 (i.sp.get o.sa) := if_pos misaligned

section
variable (aligned : (i.sp.get o.sa).toNat % 8 = 0) {b : Block} (live : s.blocks.get? i.g.bid = some b)
include aligned live

theorem spawnEffect_noSlots (slots : b.packedSlots = 0) : spawnEffect o s i = s.trapAt i 6 0 := by
  simp [spawnEffect, State.blockOf, aligned, live, slots]

theorem Poised.spawnEffect_room (h : Poised s i) (slots : b.packedSlots ≠ 0)
    (room : (s.core i.g.core).spawned + (s.spawnItems o i).length ≤ 2048) :
    spawnEffect o s i = State.goOn (s.setCore i.g.core
      { s.core i.g.core with spawnQ := (s.core i.g.core).spawnQ ++ s.spawnItems o i }.pack) i i.g i.sp := by
  simp only [spawnEffect, State.blockOf, aligned, live, slots, room, Option.map_some, Option.getD_some, ne_eq, not_true_eq_false,
    if_false, if_true]
  exact h.done (Alike.refl i) (by rfl) (by rfl) (issuer_split h.issuer).1

end

end

/-! ### Grids (R150, R232) -/

/-- With 4,096 live grids no id is free. -/
theorem freeGridId_full {s : State} {ctx : Nat} (full : 4096 ≤ (s.grids.filter (fun e => e.2.ctx == ctx)).length) :
    s.freeGridId ctx = none := if_pos (by rwa [List.length_map])

/-- The lowest id that no grid of the context has: as many grids as the ids below it have them. -/
theorem freeGridId_lowest {s : State} {ctx id : Nat} (room : (s.grids.filter (fun e => e.2.ctx == ctx)).length < 4096)
    (free : ∀ e ∈ s.grids.filter (fun e => e.2.ctx == ctx), e.2.id ≠ id)
    (low : ∀ k < id, ∃ e ∈ s.grids.filter (fun e => e.2.ctx == ctx), e.2.id = k) : s.freeGridId ctx = some id := by
  unfold State.freeGridId
  dsimp only
  generalize s.grids.filter (fun e => e.2.ctx == ctx) = mine at room free low
  have used : List.range id ⊆ mine.map (fun e => e.2.id) := fun k hk => by
    obtain ⟨e, he, rfl⟩ := low k (List.mem_range.mp hk)
    exact List.mem_map_of_mem he
  have bound := (List.nodup_range.subperm used).length_le
  rw [List.length_range] at bound
  rw [if_neg (by rw [List.length_map]; omega), List.find?_range_eq_some]
  refine ⟨?_, List.mem_range.mpr (by omega), fun k hk => ?_⟩
  · simpa using fun a b he => free _ he
  · have := used (List.mem_range.mpr hk)
    simpa using this

/-- A launch makes a Pending grid as its record says, and changes nothing else but the number that the next thing takes. -/
theorem launch_spec (s : State) (ctx id depth : Nat) (parent : Option Nat) (node : Option (Nat × Nat)) (r : List Byte)
    (ps : List Word) : ∃ c : Grid, s.launch ctx id depth parent node r ps =
      { s with nextId := s.nextId + 1, grids := s.grids.set s.nextId c } ∧ c.ctx = ctx ∧ c.id = id ∧ c.depth = depth ∧
      c.parent = parent ∧ c.st = .pending ∧ c.params = ps ∧ c.entry = w64 (leNat ((r.drop 0).take 8)) ∧
      c.gx = leNat ((r.drop 0x10).take 4) ∧ c.gy = leNat ((r.drop 0x14).take 2) ∧ c.gz = leNat ((r.drop 0x16).take 2) ∧
      c.config = w64 (leNat ((r.drop 0x18).take 8)) ∧ c.next = 0 ∧ c.retired = 0 :=
  ⟨_, rfl, rfl, rfl, rfl, rfl, rfl, rfl, rfl, rfl, rfl, rfl, rfl, rfl, rfl⟩

theorem Accessed.grids {s t : State} (h : Accessed s t) : t.grids = s.grids := by
  obtain ⟨_, _, _, _, _, _, _, rfl⟩ := h.frame; rfl

theorem Accessed.nextId {s t : State} (h : Accessed s t) : t.nextId = s.nextId := by
  obtain ⟨_, _, _, _, _, _, _, rfl⟩ := h.frame; rfl

/-! ### `glaunch` (R231) -/

section
variable {s : State} {i : Issue} {o : YF}

/-- Reads that can be served at once are waited for by nothing, and no line of them has failed. -/
theorem kvWait_reads (wait : i.sp.wait = .none) (performed : s.unperformed i.gid = false) {reads : List (Nat × Nat)}
    (served : kvServed s i reads [] = true) :
    s.kvWait i (reads.all (fun r => s.kvReady i.g.core i.g.ctx .copy false r.1 r.2))
      (reads.flatMap (fun r => s.kvTier i.g.core i.g.ctx .copy false r.1 r.2)) = .inr [] := by
  simpa [State.actReady, State.actTier, KvAct.writes] using kvWait_served wait performed (a := ⟨reads, .code 0⟩) served

theorem glaunchEffect_slot (slot : i.g.slot ≠ 0) : glaunchEffect o s i = s.trapAt i 6 0 := if_pos slot

section
variable (slot : i.g.slot = 0)
include slot

theorem glaunchEffect_deep (deep : 10 ≤ s.depthOf i.g) : glaunchEffect o s i = s.trapAt i 0x17 10 :=
  (if_neg (not_not.mpr slot)).trans (if_pos deep)

/-- Past its checks `glaunch` has read its record. -/
theorem Steady.glaunchEffect_read (h : Steady s i) (depth : s.depthOf i.g < 10) (range : (i.sp.get o.sa).toNat < 2 ^ 52)
    (aligned : (i.sp.get o.sa).toNat % 8 = 0) (performed : s.unperformed i.gid = false) {r : List Byte}
    (read : s.kvRead i.g.core i.g.ctx .copy (i.sp.get o.sa).toNat 64 = .ok r) {reads : List (Nat × Nat)}
    (named : reads = [((i.sp.get o.sa).toNat, 64), paramRange r]) (served : kvServed s i reads [] = true) :
    glaunchEffect o s i = glaunchRecord o (s.kvTouch i.g.core i.g.ctx .copy [] reads) i r := by
  have high : bits (i.sp.get o.sa) 52 12 = 0 := by rw [bits, Nat.div_eq_of_lt range, Nat.zero_mod]
  have low : bits (i.sp.get o.sa) 0 3 = 0 := by rw [bits, pow_zero, Nat.div_one]; exact aligned
  have launch : s.launchReads i.g (i.sp.get o.sa).toNat = reads := by rw [State.launchReads, read, named]
  simp only [glaunchEffect, slot, Nat.not_le.mpr depth, high, low, launch, kvWait_reads h.wait performed served, failing_nil, read,
    ne_eq, not_true_eq_false, if_false]

end

section
variable {t : State} {r : List Byte} {ps : List Word} (h : Poised t i) (params : t.launchParams i.g r = .ok ps)
  (valid : recordBad r = none)
include h params valid

/-- A valid record launches nothing while no id is free. -/
theorem Poised.glaunchRecord_full (full : t.freeGridId i.g.ctx = none) :
    glaunchRecord o t i r = t.goOn i i.g (i.sp.put o.sd allOnes) := by
  simp only [glaunchRecord, params, valid, full]
  exact h.putScalar _ _

/-- A valid record launches a grid under the free id. -/
theorem Poised.glaunchRecord_free {id : Nat} (free : t.freeGridId i.g.ctx = some id) : glaunchRecord o t i r =
    (t.launch i.g.ctx id (t.depthOf i.g + 1) (some i.g.grid) none r ps).goOn i i.g (i.sp.put o.sd (w64 id)) := by
  simp only [glaunchRecord, params, valid, free]
  exact (h.congr (by rfl) (by rfl) (by rfl) (by rfl) (by rfl)).putScalar _ _

end

/-! ### `gwait` (R233) -/

/-- An id that names no live child of the group's grid is found by nothing. -/
theorem childOf_eq_none {g : Group} {id : Word}
    (childless : ∀ e ∈ s.grids, ¬ (e.2.ctx = g.ctx ∧ e.2.id = id.toNat ∧ e.2.parent = some g.grid)) : s.childOf g id = none := by
  rw [State.childOf, Option.map_eq_none_iff, List.find?_eq_none]
  simpa [and_assoc] using childless

/-- The child that is found is a live one. -/
theorem childOf_eq_some {g : Group} {id : Word}
    (live : ∃ e ∈ s.grids, e.2.ctx = g.ctx ∧ e.2.id = id.toNat ∧ e.2.parent = some g.grid) :
    ∃ e ∈ s.grids, (e.2.ctx = g.ctx ∧ e.2.id = id.toNat ∧ e.2.parent = some g.grid) ∧ s.childOf g id = some e.1 := by
  obtain ⟨c, hc, child⟩ := live
  have found : (s.grids.find? (fun e => e.2.ctx == g.ctx && e.2.id == id.toNat && e.2.parent == some g.grid)).isSome = true :=
    List.find?_isSome.mpr ⟨c, hc, by simpa [and_assoc] using child⟩
  obtain ⟨e, he⟩ := Option.isSome_iff_exists.mp found
  exact ⟨e, List.mem_of_find?_eq_some he, by simpa [and_assoc] using List.find?_some he, by rw [State.childOf, he]; rfl⟩

theorem Steady.gwait_exec (h : Steady s i) : exec (.gwait o) s = .next (gwaitEffect o s i) := by
  rw [exec_gwait, execGwait, onIssue_of _ h.issuer, gwaitOp, h.wait]
  exact congrArg _ (h.issue_scalar _ _ rfl rfl rfl rfl)

end

/-- Settles O42: a `spawn` past its checks fills the queue of its core, a `glaunch` past its reads launches under the lowest free id,
and a `gwait` looks for a live child. -/
theorem spawnsAndChildGrids : Obligations.SpawnsAndChildGrids := by
  unfold Obligations.SpawnsAndChildGrids
  rintro s i steady
  have h := steady_iff.mp steady
  refine ⟨fun o items first second hitems => ?spawn, fun o va hva => ?glaunch, fun o => ?gwait⟩
  case spawn =>
    obtain rfl : s.spawnItems o i = items := h.spawnItems.trans hitems.symm
    rw [h.spawn_exec first second]
    refine ⟨fun misaligned ht => ?_, fun aligned b live => ⟨fun slots ht => ?_, fun slots room => ?_⟩⟩
    · rw [spawnEffect_misaligned misaligned, h.trapAt_entered ht _ (by decide)]
    · rw [spawnEffect_noSlots aligned live slots, h.trapAt_entered ht _ (by decide)]
    · rw [h.spawnEffect_room aligned live slots room]
  case glaunch =>
    subst hva
    have does : exec (.glaunch o) s = .next (glaunchEffect o s i) := h.exec_scal _ _
    rw [does]
    refine ⟨fun slot ht => ?_, fun slot deep ht => ?_, fun slot depth range aligned performed u r ps reads read named served hu params
      valid => ?_⟩
    · rw [glaunchEffect_slot slot, h.trapAt_entered ht _ (by decide)]
    · rw [glaunchEffect_deep slot deep, h.trapAt_entered ht _ (by decide)]
    · rw [h.glaunchEffect_read slot depth range aligned performed read named served, ← hu]
      have touched : Accessed s u := hu ▸ kvTouch_accessed s i.g.core i.g.ctx .copy [] reads
      have poised : Poised u i := touched.poised h.toPoised
      refine ⟨fun full => ?_, fun id room free low => ?_⟩
      · rw [poised.glaunchRecord_full params valid (freeGridId_full (touched.grids ▸ full))]
        rfl
      · have lowest : u.freeGridId i.g.ctx = some id :=
          freeGridId_lowest (touched.grids ▸ room) (touched.grids ▸ free) (touched.grids ▸ low)
        have deeper : u.depthOf i.g = s.depthOf i.g := by rw [State.depthOf, touched.grids]; rfl
        obtain ⟨c, launched, ctx, same, depth, spec⟩ :=
          launch_spec u i.g.ctx id (u.depthOf i.g + 1) (some i.g.grid) none r ps
        rw [poised.glaunchRecord_free params valid lowest, launched]
        refine ⟨_, c, rfl, touched.groups, fun noPull => ?_, ?_, ctx, same, depth.trans (congrArg (· + 1) deeper), spec⟩
        · exact hu ▸ (kvTouch_still noPull i.g.core i.g.ctx .copy [] reads).main
        · rw [← touched.grids, ← touched.nextId]
  case gwait =>
    dsimp only
    rw [h.gwait_exec]
    refine ⟨fun childless => ?_, fun children => ?_⟩
    · rw [gwaitEffect, childOf_eq_none childless, h.done_self]
    · obtain ⟨e, he, child, found⟩ := childOf_eq_some children
      refine ⟨e, he, child, congrArg _ ?_⟩
      rw [gwaitEffect, found]
      exact h.wait_settle rfl rfl rfl _

end Sys2Proof.Machine

/-! ## Leases and bonds (O35)

A lease and a bond are handed out alike: at most one is active, requests wait in arrival order, and the first becomes active when none
is. The argument is made once, for `Advanced`. -/

namespace Sys2Proof.Machine

/-! ### The queue of an arbiter (R173, R297) -/

/-- `active` and `waiting` are what `held` and `queue` become: nothing was held and the first request is granted, or all stays. -/
inductive Advanced {α β : Type} (grant : β → α) :
    (held : Option α) → (queue : List β) → (active : Option α) → (waiting : List β) → Prop
  | granted (r : β) (rest : List β) : Advanced grant none (r :: rest) (some (grant r)) rest
  | kept (held : Option α) (queue : List β) : Advanced grant held queue held queue

namespace Advanced
variable {α β : Type} {grant : β → α} {held active : Option α} {queue waiting : List β}

theorem mem_queue (h : Advanced grant held queue active waiting) {r : β} (hr : r ∈ waiting) : r ∈ queue := by
  cases h with
  | granted first rest => exact List.mem_cons_of_mem first hr
  | kept => exact hr

theorem active_cases (h : Advanced grant held queue active waiting) {x : α} (hx : active = some x) :
    held = some x ∨ ∃ r ∈ queue, grant r = x := by
  cases h with
  | granted first rest => exact .inr ⟨first, List.mem_cons_self, Option.some.inj hx⟩
  | kept => exact .inl hx

theorem mem_served (h : Advanced grant held queue active waiting) {r : β} (hr : r ∈ queue) :
    r ∈ waiting ∨ active = some (grant r) := by
  cases h with
  | granted first rest => exact (List.mem_cons.mp hr).symm.imp_right fun same => by rw [same]
  | kept => exact .inl hr

end Advanced

/-- The requests of a queue after group `gid` has withdrawn its own and, for `n` operations, made the request `new`. -/
def renewed {β : Type} (owner : β → Nat) (gid n : Nat) (new : β) (queue : List β) : List β :=
  queue.filter (fun r => owner r != gid) ++ if n = 0 then [] else [new]

theorem mem_renewed_own {β : Type} {owner : β → Nat} {gid n : Nat} {new r : β} {queue : List β}
    (hr : r ∈ renewed owner gid n new queue) (own : owner r = gid) : r = new ∧ n ≠ 0 := by
  rcases List.mem_append.mp hr with old | asked
  · simp [own] at old
  · by_cases hn : n = 0
    · simp [hn] at asked
    · exact ⟨by simpa [hn] using asked, hn⟩

theorem new_mem_renewed {β : Type} {owner : β → Nat} {gid n : Nat} {new : β} {queue : List β} (hn : n ≠ 0) :
    new ∈ renewed owner gid n new queue := List.mem_append_right _ (by simp [hn])

section
variable {α β : Type} {grant : β → α} {holder : α → Nat} {owner : β → Nat} {gid n : Nat} {new : β} {held active : Option α}
  {queue waiting : List β}
  (h : Advanced grant (held.filter (fun x => holder x != gid)) (renewed owner gid n new queue) active waiting)
include h

/-- After a withdrawal and a new request, only the new one waits for the group. -/
theorem Advanced.waiting_own {r : β} (hr : r ∈ waiting) (own : owner r = gid) : r = new ∧ n ≠ 0 :=
  mem_renewed_own (h.mem_queue hr) own

/-- After a withdrawal and a new request, only what the new one asks for is active for the group. -/
theorem Advanced.active_own (same : ∀ r, holder (grant r) = owner r) {x : α} (hx : active = some x) (own : holder x = gid) :
    x = grant new ∧ n ≠ 0 := by
  rcases h.active_cases hx with former | ⟨r, hr, rfl⟩
  · simp [Option.filter_eq_some_iff, own] at former
  · obtain ⟨rfl, hn⟩ := mem_renewed_own hr ((same r).symm.trans own)
    exact ⟨rfl, hn⟩

/-- The new request waits or has been granted. -/
theorem Advanced.new_served (hn : n ≠ 0) : new ∈ waiting ∨ active = some (grant new) := h.mem_served (new_mem_renewed hn)

end

/-! ### Leases and bonds of a core -/

/-- The core after a group's lease or request is withdrawn and a lease of `n` operations is asked for (R299). -/
def Core.askLease (c : Core) (gid n : Nat) : Core :=
  { c with lease := c.lease.filter (fun l => l.gid != gid), leaseReqs := renewed Prod.fst gid n (gid, n) c.leaseReqs }

/-- The core after a group's bond or request is withdrawn and the bond `b` is asked for (R297). -/
def Core.askBond (c : Core) (b : Bond) : Core :=
  { c with bond := c.bond.filter (fun a => a.gid != b.gid), bondReqs := renewed Bond.gid b.gid b.count b c.bondReqs }

theorem leaseNext_onDie (s : State) (core : Nat) : OnDie s (s.leaseNext core) := by
  unfold State.leaseNext
  dsimp only
  split
  · exact .modCore s core (fun _ => _)
  · exact .refl s

theorem bondNext_onDie (s : State) (core : Nat) : OnDie s (s.bondNext core) := by
  unfold State.bondNext
  dsimp only
  split
  · exact .modCore s core (fun _ => _)
  · exact .refl s

theorem leaseNext_advanced (s : State) (core : Nat) : Advanced (fun r : Nat × Nat => (⟨r.1, r.2, s.time⟩ : Lease))
    (s.core core).lease (s.core core).leaseReqs ((s.leaseNext core).core core).lease ((s.leaseNext core).core core).leaseReqs := by
  unfold State.leaseNext
  dsimp only
  split
  · next gid n rest free first =>
    rw [State.core_setCore_same, free, first]
    exact .granted (gid, n) rest
  · exact .kept _ _

theorem bondNext_advanced (s : State) (core : Nat) : Advanced id
    (s.core core).bond (s.core core).bondReqs ((s.bondNext core).core core).bond ((s.bondNext core).core core).bondReqs := by
  unfold State.bondNext
  dsimp only
  split
  · next b rest free first =>
    rw [State.core_setCore_same, free, first]
    exact .granted b rest
  · exact .kept _ _

/-! ### The instructions (R297, R299) -/

/-- The split goes on after an instruction that changes cores and dies alone. -/
theorem OnDie.done {s t : State} {i : Issue} (w : OnDie s t) (h : Poised s i) : t.done i = t.goOn i i.g i.sp := by
  obtain ⟨_, _, rfl⟩ := w
  exact h.done (Alike.refl i) rfl rfl (issuer_split h.issuer).1

/-- The bond that `mlease.fol` asks for on the array's tile `p` (R297). -/
def bondOf (o : YF) (i : Issue) (p : Nat) : Bond := ⟨i.gid, i.g.ctx, o.code % 128, p, (i.sp.get o.sa).toNat / 16⟩

/-- What `mlease` leaves before its split goes on. -/
def leased (s : State) (i : Issue) (n : Nat) : State :=
  (s.modCore i.g.core (Core.askLease · i.gid n)).leaseNext i.g.core

/-- What `mlease.fol` past its checks leaves before its split goes on. -/
def bonded (s : State) (i : Issue) (b : Bond) : State :=
  (s.modCore i.g.core (Core.askBond · b)).bondNext i.g.core

section
variable (s : State) (i : Issue)

theorem leased_onDie (n : Nat) : OnDie s (leased s i n) := (OnDie.modCore s _ _).trans (leaseNext_onDie _ _)

theorem bonded_onDie (b : Bond) : OnDie s (bonded s i b) := (OnDie.modCore s _ _).trans (bondNext_onDie _ _)

theorem leased_advanced (n : Nat) : let c := s.core i.g.core; let c' := (leased s i n).core i.g.core
    Advanced (fun r : Nat × Nat => (⟨r.1, r.2, s.time⟩ : Lease)) (c.lease.filter (fun l => l.gid != i.gid))
      (renewed Prod.fst i.gid n (i.gid, n) c.leaseReqs) c'.lease c'.leaseReqs := by
  have h := leaseNext_advanced (s.modCore i.g.core (Core.askLease · i.gid n)) i.g.core
  rwa [State.core_modCore_same] at h

theorem bonded_advanced (b : Bond) : let c := s.core i.g.core; let c' := (bonded s i b).core i.g.core
    Advanced id (c.bond.filter (fun a => a.gid != b.gid)) (renewed Bond.gid b.gid b.count b c.bondReqs) c'.bond c'.bondReqs := by
  have h := bondNext_advanced (s.modCore i.g.core (Core.askBond · b)) i.g.core
  rwa [State.core_modCore_same] at h

end

section
variable {s : State} {i : Issue} {o : YF}

theorem mleaseEffect_eq : mleaseEffect o s i = (leased s i (o.code % 128)).done i := by
  refine congrArg (fun c => ((s.setCore i.g.core c).leaseNext i.g.core).done i) ?_
  dsimp only [Core.askLease, renewed]
  rcases (s.core i.g.core).lease with _ | l
  · rfl
  · by_cases own : l.gid = i.gid <;> simp [Option.filter_some, own]

theorem mleaseFolEffect_even (even : i.g.core % 2 = 0) : mleaseFolEffect o s i = s.trapAt i 6 0 := if_pos even

/-- On an odd core, with a tile and a slot that the group may name, the checks of R297 pass. -/
theorem mleaseFolEffect_odd (odd : i.g.core % 2 = 1) (reserved : (i.sp.get o.sa).toNat / 8 % 2 = 0)
    (short : (i.sp.get o.sa).toNat < 2 ^ 8) {k : Block} {p : Nat} (live : s.blocks.get? i.g.bid = some k)
    (tile : k.tiles[(i.sp.get o.sa).toNat % 8]? = some p) (slot : s.mayName i.gid i.g.core ((i.sp.get o.sa).toNat / 16) = true) :
    mleaseFolEffect o s i = (bonded s i (bondOf o i p)).done i := by
  unfold mleaseFolEffect bondOf
  generalize i.sp.get o.sa = v at *
  have bit3 : bits v 3 1 = 0 := by simpa [bits] using reserved
  have high : bits v 8 56 = 0 := by rw [bits, Nat.div_eq_of_lt short, Nat.zero_mod]
  have named : bits v 4 4 = v.toNat / 16 := Nat.mod_eq_of_lt (by omega)
  have physical : s.tileNo i.g.bid (bits v 0 3) = some p := by simpa [State.tileNo, live, bits] using tile
  simp only [odd, bit3, high, named, physical, slot, one_ne_zero, ne_eq, not_true_eq_false, or_self, Bool.not_true, Bool.false_eq_true,
    if_false]
  refine congrArg (fun c => ((s.setCore i.g.core c).bondNext i.g.core).done i) ?_
  dsimp only [Core.askBond, renewed]
  rcases (s.core i.g.core).bond with _ | b
  · rfl
  · by_cases own : b.gid = i.gid <;> simp [Option.filter_some, own]

section
variable (h : Poised s i)
include h

/-- An instruction that needs scalars alone has its effect also while results or operations of its group are outstanding. -/
theorem Poised.issue_scalars (ks : List Nat) (eff : State → Issue → State) :
    Machine.issue (fun _ => { scal := ks }) eff s i = eff s i := by
  simp [Machine.issue, Needs.beyond, Needs.regs, Needs.holds, Needs.locked, Needs.parity, h.parity]

theorem Poised.mlease : exec (.mlease o) s = .next ((leased s i (o.code % 128)).goOn i i.g i.sp) := by
  rw [exec_mlease, execMlease, onIssue_of _ h.issuer, h.issue_scalar, mleaseEffect_eq, (leased_onDie s i _).done h]

theorem Poised.mleaseFol : exec (.mleaseFol o) s = .next (mleaseFolEffect o s i) := by
  rw [exec_mleaseFol, execMleaseFol, onIssue_of _ h.issuer, h.issue_scalars]

end

end

/-- Settles O35: both instructions drop what the group held, queue what it asks for, and let the first request become active. -/
theorem leasesAndBondsAreReplaced : Obligations.LeasesAndBondsAreReplaced := by
  unfold Obligations.LeasesAndBondsAreReplaced
  rintro s i o _ poised rfl
  have h := poised_iff.mp poised
  refine ⟨?lease, fun even steady ht => ?even, fun k p v odd hv reserved short live tile slot => ?bond⟩
  case lease =>
    have moved := leased_advanced s i (o.code % 128)
    refine ⟨_, h.mlease, (leased_onDie s i _).groups, fun e he own => ?_, fun l hl own => ?_, fun hn => ?_⟩
    · obtain ⟨rfl, hn⟩ := moved.waiting_own he own
      exact ⟨rfl, hn⟩
    · obtain ⟨rfl, hn⟩ := moved.active_own (holder := Lease.gid) (fun _ => rfl) hl own
      exact ⟨rfl, hn⟩
    · exact (moved.new_served hn).imp_right fun active => ⟨_, active, rfl⟩
  case even =>
    rw [h.mleaseFol, mleaseFolEffect_even even, (steady_iff.mp steady).trapAt_entered ht _ (by decide)]
  case bond =>
    subst hv
    have moved := bonded_advanced s i (bondOf o i p)
    have unchanged := bonded_onDie s i (bondOf o i p)
    refine ⟨_, ?_, unchanged.groups, fun b hb own => ?_, fun b hb own => ?_, fun hn => ?_⟩
    · rw [h.mleaseFol, mleaseFolEffect_odd odd reserved short live tile slot, unchanged.done h]
    · exact moved.waiting_own hb own
    · exact moved.active_own (holder := Bond.gid) (fun _ => rfl) hb own
    · exact (moved.new_served hn).imp_right fun active => ⟨_, active, rfl⟩

end Sys2Proof.Machine

/-! ## Formats of instruction words (R180) -/

namespace Sys2Proof.Decode

/-- A field is a number of its bits. -/
theorem fld_lt (w lo n : Nat) : fld w lo n < 2 ^ n := Nat.mod_lt _ (by positivity)

/-! ### Fields that are read fit -/

@[simp] theorem getV3_fits (w : Nat) : (getV3 w).fits = true := by
  simp only [V3.fits, getV3, fld_lt, decide_true, Bool.and_self]

@[simp] theorem getVI_fits (w : Nat) : (getVI w).fits = true := by
  simp only [VI.fits, getVI, fld_lt, decide_true, Bool.and_self]

@[simp] theorem getVS_fits (w : Nat) : (getVS w).fits = true := by
  simp only [VS.fits, getVS, fld_lt, decide_true, Bool.and_self]

@[simp] theorem getMF_fits (w : Nat) : (getMF w).fits = true := by
  simp only [MF.fits, getMF, fld_lt, decide_true, Bool.and_self]

@[simp] theorem getXF_fits (w : Nat) : (getXF w).fits = true := by
  simp only [XF.fits, getXF, fld_lt, decide_true, Bool.and_self]

@[simp] theorem getVL_fits (w : Nat) : (getVL w).fits = true := by
  simp only [VL.fits, getVL, fld_lt, decide_true, Bool.and_self]

@[simp] theorem getSR_fits (w : Nat) : (getSR w).fits = true := by
  simp only [SR.fits, getSR, fld_lt, decide_true, Bool.and_self]

@[simp] theorem getSI_fits (w : Nat) : (getSI w).fits = true := by
  simp only [SI.fits, getSI, fld_lt, decide_true, Bool.and_self]

@[simp] theorem getYF_fits (w : Nat) : (getYF w).fits = true := by
  simp only [YF.fits, getYF, fld_lt, decide_true, Bool.and_self]

@[simp] theorem getBR_fits (w : Nat) : (getBR w).fits = true := by
  simp only [BR.fits, getBR, fld_lt, decide_true, Bool.and_self]

@[simp] theorem getSP_fits (w : Nat) : (getSP w).fits = true := by
  simp only [SP.fits, getSP, fld_lt, decide_true, Bool.and_self]

@[simp] theorem getEX_fits (w : Nat) : (getEX w).fits = true := by
  simp only [EX.fits, getEX, fld_lt, decide_true, Bool.and_self]

/-! ### Fields that fit stay within bits 48:0 and are read back, whatever the bits above -/

theorem getV3_putV3 {o : V3} (h : o.fits = true) (hi : Nat) : putV3 o < 2 ^ 49 ∧ getV3 (hi * 2 ^ 49 + putV3 o) = o := by
  cases o
  simp only [V3.fits, putV3, getV3, fld, V3.mk.injEq, Bool.and_eq_true, decide_eq_true_eq] at h ⊢
  omega

theorem getVI_putVI {o : VI} (h : o.fits = true) (hi : Nat) : putVI o < 2 ^ 49 ∧ getVI (hi * 2 ^ 49 + putVI o) = o := by
  cases o
  simp only [VI.fits, putVI, getVI, fld, VI.mk.injEq, Bool.and_eq_true, decide_eq_true_eq] at h ⊢
  omega

theorem getVS_putVS {o : VS} (h : o.fits = true) (hi : Nat) : putVS o < 2 ^ 49 ∧ getVS (hi * 2 ^ 49 + putVS o) = o := by
  cases o
  simp only [VS.fits, putVS, getVS, fld, VS.mk.injEq, Bool.and_eq_true, decide_eq_true_eq] at h ⊢
  omega

theorem getMF_putMF {o : MF} (h : o.fits = true) (hi : Nat) : putMF o < 2 ^ 49 ∧ getMF (hi * 2 ^ 49 + putMF o) = o := by
  cases o
  simp only [MF.fits, putMF, getMF, fld, MF.mk.injEq, Bool.and_eq_true, decide_eq_true_eq] at h ⊢
  omega

theorem getXF_putXF {o : XF} (h : o.fits = true) (hi : Nat) : putXF o < 2 ^ 49 ∧ getXF (hi * 2 ^ 49 + putXF o) = o := by
  cases o
  simp only [XF.fits, putXF, getXF, fld, XF.mk.injEq, Bool.and_eq_true, decide_eq_true_eq] at h ⊢
  omega

theorem getVL_putVL {o : VL} (h : o.fits = true) (hi : Nat) : putVL o < 2 ^ 49 ∧ getVL (hi * 2 ^ 49 + putVL o) = o := by
  cases o
  simp only [VL.fits, putVL, getVL, fld, VL.mk.injEq, Bool.and_eq_true, decide_eq_true_eq] at h ⊢
  omega

theorem getSR_putSR {o : SR} (h : o.fits = true) (hi : Nat) : putSR o < 2 ^ 49 ∧ getSR (hi * 2 ^ 49 + putSR o) = o := by
  cases o
  simp only [SR.fits, putSR, getSR, fld, SR.mk.injEq, Bool.and_eq_true, decide_eq_true_eq] at h ⊢
  omega

theorem getSI_putSI {o : SI} (h : o.fits = true) (hi : Nat) : putSI o < 2 ^ 49 ∧ getSI (hi * 2 ^ 49 + putSI o) = o := by
  cases o
  simp only [SI.fits, putSI, getSI, fld, SI.mk.injEq, Bool.and_eq_true, decide_eq_true_eq] at h ⊢
  omega

theorem getYF_putYF {o : YF} (h : o.fits = true) (hi : Nat) : putYF o < 2 ^ 49 ∧ getYF (hi * 2 ^ 49 + putYF o) = o := by
  cases o
  simp only [YF.fits, putYF, getYF, fld, YF.mk.injEq, Bool.and_eq_true, decide_eq_true_eq] at h ⊢
  omega

theorem getBR_putBR {o : BR} (h : o.fits = true) (hi : Nat) : putBR o < 2 ^ 49 ∧ getBR (hi * 2 ^ 49 + putBR o) = o := by
  cases o
  simp only [BR.fits, putBR, getBR, fld, BR.mk.injEq, Bool.and_eq_true, decide_eq_true_eq] at h ⊢
  omega

theorem getSP_putSP {o : SP} (h : o.fits = true) (hi : Nat) : putSP o < 2 ^ 49 ∧ getSP (hi * 2 ^ 49 + putSP o) = o := by
  cases o
  simp only [SP.fits, putSP, getSP, fld, SP.mk.injEq, Bool.and_eq_true, decide_eq_true_eq] at h ⊢
  omega

theorem getEX_putEX {o : EX} (h : o.fits = true) (hi : Nat) : putEX o < 2 ^ 49 ∧ getEX (hi * 2 ^ 49 + putEX o) = o := by
  cases o
  simp only [EX.fits, putEX, getEX, fld, EX.mk.injEq, Bool.and_eq_true, decide_eq_true_eq] at h ⊢
  omega

end Sys2Proof.Decode

/-! ## The decoder reads what the encoder writes (O44) -/

namespace Sys2Proof.Decode

/-! ### The opcode map (R192) -/

/-- The fields of every instruction that the map gives fit: at each minor of each major they are read from the word. -/
theorem table_fits (major minor w : Nat) : (table major minor w).all (fun r => r.all Instr.fits) = true := by
  unfold table
  split
  all_goals
    simp only [Option.all_some, Option.all_none, major00, major01, major02, major10, major11, major20, major21, major22, major23,
      major24, major40, major41, major50, major51, major52, major58, major60, major6C, major6D, major70, major74, major78, major7A,
      major7B, major7C, major7D]
  all_goals repeat' split
  all_goals
    simp only [Option.all_some, Option.all_none, Option.all_map, Instr.fits, getV3_fits, getVI_fits, getVS_fits, getMF_fits,
      getXF_fits, getVL_fits, getSR_fits, getSI_fits, getYF_fits, getBR_fits, getSP_fits, getEX_fits]
  all_goals cases floatTy (minor % 4) <;> rfl

/-- Instruction `x` stands in the map at a major and a minor: there its own bits give it back, whatever the bits above them. -/
structure Placed (x : Instr) (major minor : Nat) : Prop where
  major_lt : major < 127
  minor_lt : minor < 128
  body_lt : body x < 2 ^ 49
  back : ∀ hi, table major minor (hi * 2 ^ 49 + body x) = some (some x)

/-- An entry of the map that reads the fields of its format. -/
theorem Placed.of_get {F : Type} {get : Nat → F} {mk : F → Instr} {o : F} {major minor : Nat}
    (place : major < 127 ∧ minor < 128) (back : ∀ hi, body (mk o) < 2 ^ 49 ∧ get (hi * 2 ^ 49 + body (mk o)) = o)
    (entry : ∀ w, table major minor w = some (some (mk (get w)))) : Placed (mk o) major minor :=
  ⟨place.1, place.2, (back 0).1, fun hi => by rw [entry, (back hi).2]⟩

/-- A bit of CODE is the bit of the word at its place. -/
theorem getYF_code_bit (w : Nat) {k : Nat} (h : k < 32) : (getYF w).code / 2 ^ k % 2 = 1 ↔ w / 2 ^ k % 2 = 1 := by
  have code : (getYF w).code = w % 2 ^ 32 := congrArg (· % 2 ^ 32) (Nat.div_one w)
  have bit : (getYF w).code.testBit k = w.testBit k := by
    rw [code, Nat.testBit_mod_two_pow, decide_eq_true h, Bool.true_and]
  simpa [Nat.testBit_eq_decide_div_mod_eq] using bit

section
variable {set clear : YF → Instr} {o : YF} {k major minor : Nat} (fits : o.fits = true) (low : k < 32)
  (place : major < 127 ∧ minor < 128)
  (entry : ∀ w, table major minor w = some (some (if w / 2 ^ k % 2 = 1 then set (getYF w) else clear (getYF w))))
include fits low place entry

/-- An entry that bit `k` of CODE chooses. -/
theorem Placed.of_set (fields : body (set o) = putYF o) (bit : o.code / 2 ^ k % 2 = 1) : Placed (set o) major minor := by
  refine ⟨place.1, place.2, fields ▸ (getYF_putYF fits 0).1, fun hi => ?_⟩
  rw [entry, fields, if_pos ((getYF_code_bit _ low).mp (by rwa [(getYF_putYF fits hi).2])), (getYF_putYF fits hi).2]

/-- An entry that bit `k` of CODE leaves. -/
theorem Placed.of_clear (fields : body (clear o) = putYF o) (bit : o.code / 2 ^ k % 2 = 0) : Placed (clear o) major minor := by
  refine ⟨place.1, place.2, fields ▸ (getYF_putYF fits 0).1, fun hi => ?_⟩
  rw [entry, fields, if_neg (mt (getYF_code_bit _ low).mpr (by rw [(getYF_putYF fits hi).2, bit]; decide)), (getYF_putYF fits hi).2]

end

theorem table_cquiesce (w : Nat) :
    table 0x70 4 w = some (some (if w / 2 ^ 0 % 2 = 1 then .cquiesceRst (getYF w) else .cquiesce (getYF w))) := by
  rw [pow_zero, Nat.div_one]; rfl

theorem table_oclaim (w : Nat) :
    table 0x74 0 w = some (some (if w / 2 ^ 4 % 2 = 1 then .oclaimAny (getYF w) else .oclaim (getYF w))) := rfl

theorem table_mlease (w : Nat) :
    table 0x74 7 w = some (some (if w / 2 ^ 7 % 2 = 1 then .mleaseFol (getYF w) else .mlease (getYF w))) := rfl

theorem table_attnBrim (w : Nat) :
    table 0x78 0 w = some (some (if w / 2 ^ 14 % 2 = 1 then .attnBrimRes (getYF w) else .attnBrim (getYF w))) := rfl

theorem table_wdog (w : Nat) :
    table 0x7D 5 w = some (some (if w / 2 ^ 0 % 2 = 1 then .wdogQ (getYF w) else .wdog (getYF w))) := by
  rw [pow_zero, Nat.div_one]; rfl

/-- Every instruction of a program stands in the map at its opcode. The five pairs that share a minor differ in a bit of CODE. -/
theorem placed_of_opcode {x : Instr} {major minor : Nat} (fits : x.fits = true) (zero : Checks.zeroOk x = true)
    (h : opcode x = some (major, minor)) : Placed x major minor := by
  cases x with
  | sadd o | ssub o | smul o | smulh o | smulhn o | sand o | sor o | sxor o | sshl o | sshr o | ssra o | smin o | smax o | sminn o
  | smaxn o | scmp o | spopc o | sclz o | sffs o =>
    cases h
    exact .of_get (by decide) (getSR_putSR fits) (fun _ => rfl)
  | saddi o | sandi o | sori o | sxori o | sshli o | sshri o | ssrai o | sli o | slih o | scmpi o =>
    cases h
    exact .of_get (by decide) (getSI_putSI fits) (fun _ => rfl)
  | sgetv o | sballot o | vrcp o | vrsq o | vsqrt o | vexp2 o | vlog2 o | vcvt o | vpack o | vunpack o | vscl o | vdot8 o | vdot4 o
  | vdoti8 o | tmv o | vred o | vscan o | mma o | mmas o | accrd o | accwr o | kvmap o | rngc o | spawn o =>
    cases h
    exact .of_get (by decide) (getXF_putXF fits) (fun _ => rfl)
  | srd o | swr o | fmt o | wmon o | cpy o | cpyr o | bclose o | bwait o | cstat o | orel o | mzero o | smask o | kvapp o | kvreq o
  | kvsum o | kvlink o | kvtrim o | pgget o | pgput o | bdep o | bcpy o | btak o | jrec o | jack o | jtrunc o | bdset o | bdget o
  | bdclr o | glaunch o | gwait o | trap o | eret o | csrr o | csrw o | brk o =>
    cases h
    exact .of_get (by decide) (getYF_putYF fits) (fun _ => rfl)
  | br o | brx o | call o | ret o =>
    cases h
    exact .of_get (by decide) (getBR_putBR fits) (fun _ => rfl)
  | split o =>
    cases h
    exact .of_get (by decide) (getSP_putSP fits) (fun _ => rfl)
  | exit o =>
    cases h
    exact .of_get (by decide) (getEX_putEX fits) (fun _ => rfl)
  | join | ient | nop =>
    cases h
    exact ⟨by decide, by decide, by decide, fun _ => rfl⟩
  | vadd t o | vsub t o | vmul t o | vmulh t o | vmulhn t o | vand t o | vor t o | vxor t o | vshl t o | vshr t o | vsra t o
  | vmin t o | vmax t o | vminn t o | vmaxn t o | vabs t o | vneg t o | vclz t o | vpopc t o =>
    cases t with
    | i8 | i16 | i32 | i64 =>
      cases h
      exact .of_get (by decide) (getV3_putV3 fits) (fun _ => rfl)
  | vfadd t o | vfsub t o | vfmul t o | vfma t o | vfms t o | vfnma t o | vfmin t o | vfmax t o | vfabs t o | vfneg t o
  | vfclass t o =>
    cases t with
    | f32 | bf16 | f16 =>
      cases h
      exact .of_get (by decide) (getV3_putV3 fits) (fun _ => rfl)
  | vcmp c t o =>
    cases c with
    | eq | ne | lt | le | ltn | len =>
      cases t with
      | i8 | i16 | i32 | i64 =>
        cases h
        exact .of_get (by decide) (getV3_putV3 fits) (fun _ => rfl)
  | vfcmp c t o =>
    cases c with
    | eq | ne | lt | le | un =>
      cases t with
      | f32 | bf16 | f16 =>
        cases h
        exact .of_get (by decide) (getV3_putV3 fits) (fun _ => rfl)
  | pand o | por o | pxor o | pandn o | pnot o | pmov o | pset o | pclr o | ptest o | vsel o | vmov o | vperm o | vconf o
  | vcomp o =>
    cases h
    exact .of_get (by decide) (getV3_putV3 fits) (fun _ => rfl)
  | vaddi t o | vandi t o | vori t o | vxori t o | vshli t o | vshri t o | vsrai t o =>
    cases t with
    | i8 | i16 | i32 | i64 =>
      cases h
      exact .of_get (by decide) (getVI_putVI fits) (fun _ => rfl)
  | vli o =>
    cases h
    exact .of_get (by decide) (getVL_putVL fits) (fun _ => rfl)
  | vbcast o | vlane o =>
    cases h
    exact .of_get (by decide) (getVS_putVS fits) (fun _ => rfl)
  | lds o | sts o | ldx o | stx o | ldc o | vspill o | vfill o | vgth o | vsct o | aadd o | afadd o | amin o | amax o | aand o
  | aor o | axchg o | acas o | bar o | barr o | barw o | fence o | fenceOp o =>
    cases h
    exact .of_get (by decide) (getMF_putMF fits) (fun _ => rfl)
  | cquiesce o =>
    cases h
    have code : o.code = 0 := of_decide_eq_true zero
    exact .of_clear fits (by decide) (by decide) table_cquiesce rfl (by omega)
  | cquiesceRst o =>
    cases h
    have code : o.code = 1 := of_decide_eq_true zero
    exact .of_set fits (by decide) (by decide) table_cquiesce rfl (by omega)
  | oclaim o =>
    cases h
    have code : o.code / 16 = 0 := of_decide_eq_true (Bool.and_elim_right zero)
    exact .of_clear fits (by decide) (by decide) table_oclaim rfl (by omega)
  | oclaimAny o =>
    cases h
    have code : o.code = 16 := of_decide_eq_true (Bool.and_elim_right zero)
    exact .of_set fits (by decide) (by decide) table_oclaim rfl (by omega)
  | mlease o =>
    cases h
    have code : o.code / 128 = 0 := of_decide_eq_true (Bool.and_elim_right zero)
    exact .of_clear fits (by decide) (by decide) table_mlease rfl (by omega)
  | mleaseFol o =>
    cases h
    have code : o.code / 128 = 1 := of_decide_eq_true (Bool.and_elim_right zero)
    exact .of_set fits (by decide) (by decide) table_mlease rfl (by omega)
  | attnBrim o =>
    cases h
    have code : o.code / 2 ^ 14 = 0 := of_decide_eq_true (Bool.and_elim_right zero)
    exact .of_clear fits (by decide) (by decide) table_attnBrim rfl (by omega)
  | attnBrimRes o =>
    cases h
    have code : o.code / 2 ^ 14 = 1 := of_decide_eq_true (Bool.and_elim_right zero)
    exact .of_set fits (by decide) (by decide) table_attnBrim rfl (by omega)
  | wdog o =>
    cases h
    have code : o.code = 0 := of_decide_eq_true zero
    exact .of_clear fits (by decide) (by decide) table_wdog rfl (by omega)
  | wdogQ o =>
    cases h
    have code : o.code = 1 := of_decide_eq_true (Bool.and_elim_right zero)
    exact .of_set fits (by decide) (by decide) table_wdog rfl (by omega)
  | _ => cases h

/-! ### The decoder (R177, R193) -/

/-- The word that a marker, a major, a minor and bits 48:0 make has them as its fields. -/
theorem fields_of_word {sw : Bool} {major minor b w : Nat} (hM : major < 127) (hm : minor < 128) (hb : b < 2 ^ 49)
    (hw : w = (if sw then 2 ^ 63 else 0) + major * 2 ^ 56 + minor * 2 ^ 49 + b) :
    w < 2 ^ 64 ∧ fld w 56 7 = major ∧ fld w 49 7 = minor ∧ decide (fld w 63 1 = 1) = sw ∧ ∃ hi, w = hi * 2 ^ 49 + b := by
  have bit : (if sw then 2 ^ 63 else 0) = sw.toNat * 2 ^ 63 := by cases sw <;> rfl
  have one := Bool.toNat_le sw
  rw [bit] at hw
  have marker : fld w 63 1 = sw.toNat := by unfold fld; omega
  refine ⟨by omega, by unfold fld; omega, by unfold fld; omega, by simp [marker], sw.toNat * 2 ^ 14 + major * 2 ^ 7 + minor, ?_⟩
  rw [hw]
  ring

theorem reason_eq_zero {x : Instr} :
    Checks.reason x = 0 ↔ Checks.zeroOk x = true ∧ Checks.branchZero x = true ∧ Checks.rangeOk x = true := by
  unfold Checks.reason
  grind

/-- A word decodes to an entry of the map that makes up the word again and that no check refuses. -/
theorem decode_eq_ok {sw : Bool} {x : Instr} {w : Nat} (short : w < 2 ^ 64) : decode w = .ok (sw, x) ↔
    fld w 56 7 ≠ 0x7F ∧ table (fld w 56 7) (fld w 49 7) w = some (some x) ∧ decide (fld w 63 1 = 1) = sw ∧
      encode sw x = some w ∧ Checks.reason x = 0 := by
  unfold decode
  rw [Nat.mod_eq_of_lt short]
  dsimp only
  split
  case isTrue header => simp [header]
  case isFalse plain =>
    split
    case h_1 absent => simp [absent]
    case h_2 absent => simp [absent]
    case h_3 i found =>
      rw [found]
      split
      case isTrue other =>
        refine ⟨nofun, ?_⟩
        rintro ⟨-, ⟨⟩, rfl, whole, -⟩
        exact absurd whole other
      case isFalse whole =>
        split
        case h_1 legal =>
          constructor
          · rintro ⟨⟩
            exact ⟨plain, rfl, rfl, not_not.mp whole, legal⟩
          · rintro ⟨-, ⟨⟩, rfl, -, -⟩
            rfl
        case h_2 illegal =>
          refine ⟨nofun, ?_⟩
          rintro ⟨-, ⟨⟩, -, -, legal⟩
          exact absurd legal illegal

/-- A well-formed instruction of a program is what its word decodes to. -/
theorem decode_encode (sw : Bool) {x : Instr} (wf : x.wf = true) (program : (opcode x).isSome = true) :
    ∃ w, encode sw x = some w ∧ w < 2 ^ 64 ∧ decode w = .ok (sw, x) := by
  obtain ⟨⟨major, minor⟩, place⟩ := Option.isSome_iff_exists.mp program
  simp only [Instr.wf, Bool.and_eq_true] at wf
  obtain ⟨⟨⟨fits, zero⟩, branch⟩, range⟩ := wf
  have placed := placed_of_opcode fits zero place
  have word : encode sw x = some ((if sw then 2 ^ 63 else 0) + major * 2 ^ 56 + minor * 2 ^ 49 + body x) := by
    rw [encode, place]
    rfl
  obtain ⟨short, atMajor, atMinor, marker, hi, whole⟩ := fields_of_word placed.major_lt placed.minor_lt placed.body_lt rfl
  refine ⟨_, word, short, (decode_eq_ok short).mpr ⟨?_, ?_, marker, word, reason_eq_zero.mpr ⟨zero, branch, range⟩⟩⟩
  · rw [atMajor]
    exact ne_of_lt placed.major_lt
  · rw [atMajor, atMinor, whole]
    exact placed.back _

/-- A word that decodes is the word of a well-formed instruction. -/
theorem encode_of_decode {sw : Bool} {x : Instr} {w : Nat} (short : w < 2 ^ 64) (h : decode w = .ok (sw, x)) :
    x.wf = true ∧ encode sw x = some w := by
  obtain ⟨-, found, -, whole, legal⟩ := (decode_eq_ok short).mp h
  obtain ⟨zero, branch, range⟩ := reason_eq_zero.mp legal
  have fits : x.fits = true := by simpa [found] using table_fits (fld w 56 7) (fld w 49 7) w
  exact ⟨by rw [Instr.wf, fits, zero, branch, range]; rfl, whole⟩

/-- Settles O44: the opcode map has an instruction at its opcode, where the fields of its format are read back from its bits. -/
theorem decodeReadsWhatEncodeWrites : Obligations.DecodeReadsWhatEncodeWrites := by
  unfold Obligations.DecodeReadsWhatEncodeWrites
  exact ⟨fun sw _ wf program => decode_encode sw wf program, fun _ _ _ short h => encode_of_decode short h⟩

end Sys2Proof.Decode

/-! ## Words of the specification (O45) -/

namespace Sys2Proof.Decode

/-- Settles O45: the decoder is run on each word. -/
theorem specWordsDecodeToTheirInstructions : Obligations.SpecWordsDecodeToTheirInstructions := by
  unfold Obligations.SpecWordsDecodeToTheirInstructions
  decide

end Sys2Proof.Decode

/-! ## Steps (O46) -/

namespace Sys2Proof.Machine

/-! ### The split that issues (R165) -/

section
variable {s : State} {i : Issue} {w : Word} {rest : List Word}

/-- With no event scheduled, the split whose turn it is and that may issue does so. -/
theorem stepRaw_of_issuer (free : s.agenda = []) (turn : s.issuer = some i) (able : i.sp.able = true)
    (running : s.groupAble i.g = true) (word : i.sp.code = w :: rest) : stepRaw s = stepInstr (s.tick 0) i w rest.isEmpty := by
  have running' : (s.tick 0).groupAble i.g = true := by
    rw [← running, State.groupAble, State.tick_blocks]
    rfl
  have issues : (s.tick 0).issuing = some (i, w, rest.isEmpty) := by
    simp only [State.issuing, State.tick_issuer, turn, able, running', word, Bool.and_self, if_true]
  unfold stepRaw
  simp only [free, issues]

end

/-! ### Registers in the passing of time (R380) -/

/-- Counting time slices writes VFSLICE alone (R380). -/
theorem State.ctxReg_countSlices (s : State) (k c : Nat) {n : Nat} (other : n ≠ 0x16B) :
    (s.countSlices k).ctxReg c n = s.ctxReg c n := by
  unfold State.countSlices
  refine List.foldlRecOn (motive := fun (t : State) => t.ctxReg c n = s.ctxReg c n) s.ctxs _ rfl fun t same e _ => ?_
  dsimp only
  split
  · rw [State.ctxReg_setCtxReg_ne (h := Or.inr other), same]
  · exact same

/-- In the passing of time VFSLICE alone changes. -/
theorem State.ctxReg_tick (s : State) (k c : Nat) {n : Nat} (other : n ≠ 0x16B) : (s.tick k).ctxReg c n = s.ctxReg c n := by
  unfold State.tick
  dsimp only
  split
  · rfl
  · exact State.ctxReg_countSlices _ _ _ other

/-! ### A word placed to be issued -/

/-- Some class permits every major (R179). -/
theorem classOk_classFor (w : Nat) : Decode.classOk (classFor w) (Decode.fld w 56 7) = true := by
  have every : ∀ m < 128, Decode.classOk (((List.range 3).find? (fun c => Decode.classOk c m)).getD 0) m = true := by decide
  exact every _ (Nat.mod_lt _ (by decide))

/-- As the only word of a clause of that class an instruction meets none of the reasons of its place. -/
theorem decodeAt_classFor {w : Nat} {sw : Bool} {x : Instr} (h : Decode.decode w = .ok (sw, x)) :
    Decode.decodeAt (classFor w) true w = .ok (sw, x) := by
  simp [Decode.decodeAt, h, classOk_classFor]

/-- The split that stands at a word placed to be issued. -/
def loadSplit (w : Nat) : Split := { Split.blank 0 0 with hdr := 0, pc := 8, code := [w64 w], cls := classFor w }

theorem withFetchWord_issuer (s : State) {w : Nat} (short : w < 2 ^ 64) :
    (s.withFetchWord 64 w).issuer = some ⟨0, 0, loadGroup (w64 w) (classFor w), loadSplit w⟩ := by
  have whole : w % 2 ^ min 64 64 = w := Nat.mod_eq_of_lt short
  simp only [State.issuer, State.split?, State.withFetchWord, whole, Sparse.get?_set_same]
  rfl

theorem withFetchWord_groupAble (s : State) (w : Nat) :
    (s.withFetchWord 64 w).groupAble (loadGroup (w64 w) (classFor w)) = true := by
  have block : (s.withFetchWord 64 w).blocks.get? 0 = some loadBlock := Sparse.get?_set_same _ _ _
  have own : (loadGroup (w64 w) (classFor w)).bid = 0 := rfl
  rw [State.groupAble, own, block]
  rfl

/-- Settles O46: the split that issues is found again after the tick, so its decoded word is the step, as a scheduled event is; and
a placed word stands in a clause whose class permits it. -/
theorem stepRunsTheDecodedInstruction : Obligations.StepRunsTheDecodedInstruction := by
  unfold Obligations.StepRunsTheDecodedInstruction
  refine ⟨fun s i w rest free turn able running word => ?issues, fun s e rest scheduled => ?event,
    fun s w sw x short decoded => ?placed⟩
  case issues =>
    have step_eq : step s = mapNext State.retime (stepInstr (s.tick 0) i w rest.isEmpty) := by
      rw [step, stepRaw_of_issuer free turn able running word]
    refine ⟨fun sw x decoded => ⟨fun t next => ⟨?next, ?plain⟩, fun f fault => ?fault⟩, fun r illegal steady vector => ?illegal⟩
    case next =>
      rw [step_eq, stepInstr, decoded]
      simp only [next, mapNext]
    case plain =>
      rintro rfl running
      simp only [State.afterIssue, running, Bool.false_eq_true, if_false]
      refine congrArg (State.letGo · i) (congrArg (t.modGroup i.gid) (funext fun g => ?_))
      cases g.splits.get? i.sid with
      | none => rfl
      | some sp => exact if_congr List.isEmpty_iff rfl rfl
    case fault =>
      rw [step_eq, stepInstr, decoded]
      simp only [fault, mapNext]
    case illegal =>
      have vector' : traps (s.tick 0) i = true := by rw [← vector, traps, traps, State.ctxReg_tick _ _ _ (by decide)]
      rw [step_eq, stepInstr, illegal]
      exact congrArg (fun t => Host.Outcome.next (State.retime t)) ((steady_iff.mp steady).trapAt_entered vector' _ (by decide))
  case event => rw [step, stepRaw, scheduled]
  case placed =>
    exact ⟨rfl, _, withFetchWord_issuer s short, rfl, rfl, withFetchWord_groupAble s w, decodeAt_classFor decoded⟩

end Sys2Proof.Machine

/-! ## Branches, regions and the format register (O5) -/

namespace Sys2Proof.Machine

/-! ### Whether a branch is taken (R188, R222) -/

theorem holds_eq_condRule (f : CC) (cond : Nat) : f.holds cond = condRule f cond := by
  have same : (f.n == f.v) = !(f.n ^^ f.v) := by cases f.n <;> cases f.v <;> rfl
  match cond with
  | 0 | 1 | 2 | 3 | 6 | 7 | 8 | 9 | 10 | 11 | 12 => rfl
  | 4 => exact same
  | 5 => exact congrArg (!f.z && ·) same
  | _ + 13 => rfl

theorem lanesOf_any (m : Mask) (p : Nat → Bool) : (lanesOf m).any p = (List.range 32).any (fun l => m.getLsbD l && p l) :=
  List.any_filter

theorem taken_eq_takes (i : Issue) (o : BR) : i.taken o = takes i o := by
  unfold Issue.taken takes
  rw [lanesOf_any, holds_eq_condRule]
  split
  · rw [List.all_eq_not_any_not]
    simp
  · rfl

/-- A signed field of words in bytes (R187). -/
theorem words_eq (n v : Nat) : 8 * sextW n v = wordsOff n v := add_left_cancel (offset_eq (Split.blank 0 0) n v)

/-! ### The branch forms (R222) -/

section
variable {s : State} {i : Issue} {o : BR} (h : Steady s i) {needs : List Nat} {target : Issue → Word} {checked : Bool}
  {link : Option Nat}
include h

theorem Steady.branchOp_untaken (fails : takes i o = false) : branchOp o needs target checked link s i = s.goOn i i.g i.sp := by
  rw [branchOp, h.issue_scalar _ _ rfl rfl rfl rfl, taken_eq_takes, fails]
  exact h.done_self

theorem Steady.branchOp_taken (holds : takes i o = true) (aligned : checked = true → (target i).toNat % 8 = 0) :
    branchOp o needs target checked link s i =
      s.goTo i i.g (link.elim i.sp (fun k => i.sp.put k (i.sp.pc + 8))) (target i) := by
  have free : (checked && decide ((target i).toNat % 8 ≠ 0)) = false := by
    rw [Bool.and_eq_false_imp]
    exact fun check => decide_eq_false (not_not.mpr (aligned check))
  have boundary : ∀ sp : Split, sp.haltReq = false → sp.watchdog = none →
      (s.setGroup i.gid { i.g with splits := i.g.splits.set i.sid (sp.jump (target i)) }).settle i.gid =
        s.goTo i i.g sp (target i) :=
    fun sp halt dog => h.toPoised.settle (Alike.refl i) (sp := sp.jump (target i)) halt dog rfl rfl
  rw [branchOp, h.issue_scalar _ _ rfl rfl rfl rfl, taken_eq_takes, holds]
  simp only [Bool.not_true, Bool.false_eq_true, if_false, free]
  cases link with
  | none => exact boundary i.sp h.haltReq h.watchdog
  | some k =>
    simp only [State.scalClear, State.setGroup_parity, h.parity, List.isEmpty_nil, if_true]
    exact boundary (i.sp.put k (i.sp.pc + 8)) h.haltReq h.watchdog

end

/-- Settles O5: the condition is that of its rule, the branch forms differ in target and link, and the others change their split. -/
theorem branchesRegionsAndFormats : Obligations.BranchesRegionsAndFormats := by
  unfold Obligations.BranchesRegionsAndFormats
  refine ⟨fun s i o steady => ?branches, fun s i steady => ?others⟩
  case branches =>
    have h := steady_iff.mp steady
    refine ⟨fun fails x hx => ?untaken, fun holds => ⟨?br, ?call, fun x hx aligned => ?brx, fun aligned => ?ret⟩⟩
    case untaken =>
      simp only [List.mem_cons, List.not_mem_nil, or_false] at hx
      obtain rfl | rfl | rfl | rfl := hx
      all_goals exact (onIssue_of _ h.issuer).trans (congrArg _ (h.branchOp_untaken fails))
    case br =>
      rw [exec_br, execBr, onIssue_of _ h.issuer, h.branchOp_taken (checked := false) holds nofun, offset_eq]
      rfl
    case call =>
      rw [exec_call, execCall, onIssue_of _ h.issuer, h.branchOp_taken (checked := false) holds nofun, offset_eq]
      rfl
    case brx =>
      rw [← words_eq] at hx
      subst hx
      rw [exec_brx, execBrx, onIssue_of _ h.issuer, h.branchOp_taken holds fun _ => aligned]
      rfl
    case ret =>
      rw [exec_ret, execRet, onIssue_of _ h.issuer, h.branchOp_taken holds fun _ => aligned]
      rfl
  case others =>
    have h := steady_iff.mp steady
    refine ⟨?ient, fun o => ?fmt, ?nop⟩
    case ient =>
      rw [exec_ient, execIent, onIssue_of _ h.issuer, h.issue_scalar _ _ rfl rfl rfl rfl, h.putSplit _ h.haltReq h.watchdog]
    case fmt =>
      rw [exec_fmt, execFmt, onIssue_of _ h.issuer, h.issue_scalar _ _ rfl rfl rfl rfl, h.putSplit _ h.haltReq h.watchdog]
    case nop =>
      rw [exec_nop, execNop, onIssue_of _ h.issuer, h.issue_scalar _ _ rfl rfl rfl rfl, h.done_self]

end Sys2Proof.Machine

/-! ## Registers written by a vector instruction (R240) -/

namespace Sys2Proof.Machine

section
variable {s : State} {i : Issue} (h : Calm s i)
include h

/-- Without a checkpoint no register has to be kept (R360). -/
theorem Calm.keepReg (r : Nat) : s.keepReg i.gid r = s := by
  unfold State.keepReg
  simp only [(issuer_split h.issuer).1]
  split
  · rfl
  · next b live => simp only [(h.block b live).2]

/-- Without results outstanding and engine operations a register takes the values, and the split goes on (R240). -/
theorem Calm.vwrite_done (r : Nat) (vals : List (Nat × Word)) :
    (s.vwrite i r vals).done i = s.goOn i (i.g.wrote i.sid r vals) i.sp := by
  by_cases none : r = zReg ∨ vals = []
  · rw [State.vwrite, Group.wrote, if_pos none, if_pos none]
    exact h.done_self
  · have unspoilt : ∀ g : Group, g.ops = [] → g.spoil [r] = g := fun g ops => by simp [Group.spoil, ops]
    have write : s.vwrite i r vals = s.setGroup i.gid (i.g.wrote i.sid r vals) := by
      simp only [State.vwrite, Group.wrote, if_neg none, h.keepReg, (issuer_split h.issuer).1, h.outs, h.ops, List.any_nil,
        List.isEmpty_nil, Bool.not_true, Bool.false_and, Bool.or_self, Bool.false_eq_true, if_false, vputs_eq, unspoilt,
        List.foldl_map, State.setGroup_parity, h.parity, if_true, lanesMask]
    rw [write]
    refine h.done_setGroup ?_ rfl rfl
    rw [Group.wrote, if_neg none]
    exact ⟨rfl, rfl, rfl, rfl, rfl⟩

/-- A vector instruction whose registers are allocated writes its lane function in its lanes. -/
theorem Calm.vectorOp_exec {n : Issue → Needs} (m : Issue → Mask) (vd : Nat) (f : State → Issue → Nat → Word)
    (named : ∀ r ∈ (n i).wr ++ (n i).rd, i.g.names r = true) (sb : (n i).sb = none) (ret : (n i).ret = false) :
    onIssue s (vectorOp n m vd f) = .next (s.goOn i (i.g.wrote i.sid vd (onLanes (m i) (f s i))) i.sp) := by
  rw [onIssue_of _ h.issuer, vectorOp, h.issue n _ (Needs.beyond_none named) (by simp [sb]) (by simp [ret]), h.vwrite_done]

/-- The patterned operand is read in the lane that the pattern names (R184). -/
theorem Calm.vpat_eq (r kind amt l : Nat) : s.vpat i.g r kind amt l = i.g.v? r (patLane kind amt l) := by
  rw [h.vpat]
  split
  · next plain => rw [plain]; rfl
  · rfl

end

end Sys2Proof.Machine

/-! ## Integer elements (R196, R242) -/

namespace Sys2Proof.Machine

/-! ### Elements of a lane (R196) -/

/-- Elements put side by side stay apart. -/
theorem elements_sum (w : Nat) (f : Nat → Nat) (n : Nat) :
    let sum := (List.range n).foldl (fun a j => a + f j % 2 ^ w * 2 ^ (w * j)) 0
    sum < 2 ^ (w * n) ∧ ∀ j < n, sum / 2 ^ (w * j) % 2 ^ w = f j % 2 ^ w := by
  induction n with
  | zero => simp
  | succ n ih =>
    obtain ⟨short, apart⟩ := ih
    rw [List.range_succ, List.foldl_append, List.foldl_cons, List.foldl_nil]
    generalize (List.range n).foldl (fun a j => a + f j % 2 ^ w * 2 ^ (w * j)) 0 = a at short apart
    have top : f n % 2 ^ w < 2 ^ w := Nat.mod_lt _ (by positivity)
    refine ⟨?_, fun j hj => ?_⟩
    · have room : (f n % 2 ^ w + 1) * 2 ^ (w * n) ≤ 2 ^ w * 2 ^ (w * n) := Nat.mul_le_mul_right _ top
      rw [Nat.mul_succ, pow_add]
      linarith
    · rcases Nat.lt_succ_iff_lt_or_eq.mp hj with below | rfl
      · obtain ⟨k, above⟩ := Nat.exists_eq_add_of_lt below
        have shift : 2 ^ (w * n) = 2 ^ w * 2 ^ (w * k) * 2 ^ (w * j) := by
          rw [← pow_add, ← pow_add, above]
          ring
        rw [shift, ← Nat.mul_assoc, Nat.add_mul_div_right _ _ (by positivity), Nat.mul_left_comm, Nat.add_mul_mod_self_left,
          apart j below]
      · rw [Nat.add_mul_div_right _ _ (by positivity), Nat.div_eq_of_lt short, Nat.zero_add, Nat.mod_mod]

theorem getE_packE {w : Nat} (whole : w * (64 / w) = 64) (f : Nat → Nat) {j : Nat} (hj : j < 64 / w) :
    getE w j (packE w f) = f j % 2 ^ w := by
  obtain ⟨short, apart⟩ := elements_sum w f (64 / w)
  rw [whole] at short
  rw [getE, packE, w64, BitVec.toNat_ofNat, Nat.mod_eq_of_lt short, apart j hj]

theorem getE_lt (w j : Nat) (x : Word) : getE w j x < 2 ^ w := Nat.mod_lt _ (by positivity)

theorem intWidth_whole (t : IntTy) : Checks.intWidth t * (64 / Checks.intWidth t) = 64 := by cases t <;> rfl

theorem intWidth_pos (t : IntTy) : 0 < Checks.intWidth t := by cases t <;> decide

/-! ### Signed elements -/

theorem toE_cast (w : Nat) (x : Int) : (toE w x : Int) = x % 2 ^ w := Int.toNat_of_nonneg (Int.emod_nonneg _ (by positivity))

theorem sg_emod (w a : Nat) : sg w a % 2 ^ w = (a : Int) % 2 ^ w := by
  unfold sg
  split
  · rfl
  · exact Int.sub_emod_right _ _

section
variable {w a : Nat} (pos : 0 < w) (ha : a < 2 ^ w)
include pos ha

theorem sg_bounds : -2 ^ (w - 1) ≤ sg w a ∧ sg w a < 2 ^ (w - 1) := by
  have double : 2 ^ w = 2 * 2 ^ (w - 1) := by rw [← pow_succ', Nat.sub_add_cancel pos]
  have double' : (2 : Int) ^ w = 2 * 2 ^ (w - 1) := by exact_mod_cast double
  have below : (a : Int) < 2 ^ w := by exact_mod_cast ha
  unfold sg
  split
  · next low =>
    have low' : (a : Int) < 2 ^ (w - 1) := by exact_mod_cast low
    omega
  · next high =>
    have high' : (2 : Int) ^ (w - 1) ≤ a := by exact_mod_cast not_lt.mp high
    omega

/-- An arithmetic shift by the width less one or more leaves the sign alone. -/
theorem sg_shift {k : Nat} (far : w - 1 ≤ k) : sg w a / 2 ^ k = if sg w a < 0 then -1 else 0 := by
  obtain ⟨low, high⟩ := sg_bounds pos ha
  have wide : (2 : Int) ^ (w - 1) ≤ 2 ^ k := pow_le_pow_right₀ (by decide) far
  split
  · next neg =>
    rw [Int.ediv_eq_iff_of_pos (by positivity)]
    omega
  · next neg => exact Int.ediv_eq_zero_of_lt (not_lt.mp neg) (high.trans_le wide)

end

/-! ### Counts of bits (R242) -/

theorem popcount_eq (n a : Nat) : popcount n a = ((List.range n).filter a.testBit).length := by
  induction n generalizing a with
  | zero => rfl
  | succ n ih =>
    rw [popcount, ih, List.range_succ_eq_map, List.filter_cons, List.filter_map, Nat.testBit_zero]
    have tail : (Nat.testBit a ∘ Nat.succ) = (a / 2).testBit := funext fun k => Nat.testBit_succ a k
    rw [tail]
    rcases Nat.mod_two_eq_zero_or_one a with even | odd
    · simp [even]
    · simp [odd, Nat.add_comm]

theorem highestBit_eq {n a : Nat} (ha : a < 2 ^ n) : highestBit n a = if a = 0 then none else some (Nat.log2 a) := by
  induction n with
  | zero => simp_all [highestBit]
  | succ n ih =>
    have step : highestBit (n + 1) a = if a.testBit n then some n else highestBit n a := by
      rw [highestBit, List.range_succ, List.reverse_append, List.reverse_singleton, List.singleton_append, List.find?_cons]
      split
      · next bit => rw [if_pos bit]
      · next bit => rw [if_neg (by simp [bit]), highestBit]
    rw [step]
    by_cases bit : a.testBit n = true
    · have least := Nat.ge_two_pow_of_testBit bit
      have some : a ≠ 0 := by
        rintro rfl
        simp at bit
      rw [if_pos bit, if_neg some, (Nat.log2_eq_iff some).mpr ⟨least, ha⟩]
    · rw [if_neg bit, ih]
      refine Nat.lt_pow_two_of_testBit a fun k hk => ?_
      rcases Nat.eq_or_lt_of_le hk with rfl | above
      · simpa using bit
      · exact Nat.testBit_lt_two_pow (ha.trans_le (Nat.pow_le_pow_right (by decide) above))

theorem leading_eq {n a : Nat} (ha : a < 2 ^ n) : leading n a = if a = 0 then n else n - 1 - Nat.log2 a := by
  rw [leading, highestBit_eq ha]
  by_cases zero : a = 0
  · simp [zero]
  · simp [zero]

end Sys2Proof.Machine

/-! ## Integer vector instructions (O7) -/

namespace Sys2Proof.Machine

/-! ### The elements of R242, modulo 2^w -/

section
variable (w : Nat) {a b : Nat}

theorem vsubE_emod (hb : b < 2 ^ w) : (vsubE w a b : Int) % 2 ^ w = ((a : Int) - b) % 2 ^ w := by
  have cast : (vsubE w a b : Int) = (a : Int) - b + 2 ^ w := by
    rw [vsubE, Nat.cast_sub (by omega)]
    push_cast
    ring
  rw [cast, Int.add_emod_right]

theorem vmulhE_emod : (vmulhE w a b : Int) % 2 ^ w = sg w a * sg w b / 2 ^ w % 2 ^ w := by
  rw [vmulhE, toE_cast, Int.emod_emod]
  rfl

theorem vshlE_emod : (vshlE w a b : Int) % 2 ^ w = (a : Int) * 2 ^ b % 2 ^ w := by
  unfold vshlE
  split
  · next far =>
    have gone : (2 : Int) ^ w ∣ a * 2 ^ b := (pow_dvd_pow 2 far).mul_left _
    rw [Int.emod_eq_zero_of_dvd gone]
    simp
  · push_cast
    rfl

theorem vshrE_emod (ha : a < 2 ^ w) : (vshrE w a b : Int) % 2 ^ w = (a : Int) / 2 ^ b % 2 ^ w := by
  unfold vshrE
  split
  · next far =>
    have gone : a / 2 ^ b = 0 := Nat.div_eq_of_lt (ha.trans_le (Nat.pow_le_pow_right (by decide) far))
    rw [← gone]
    push_cast
    rfl
  · push_cast
    rfl

theorem vsraE_emod (pos : 0 < w) (ha : a < 2 ^ w) : (vsraE w a b : Int) % 2 ^ w = sg w a / 2 ^ b % 2 ^ w := by
  have signed : sg w a / (2 : Int) ^ min b (w - 1) = sg w a / 2 ^ b := by
    rcases Nat.le_total b (w - 1) with near | far
    · rw [min_eq_left near]
    · rw [min_eq_right far, sg_shift pos ha le_rfl, sg_shift pos ha far]
  rw [vsraE, toE_cast, Int.emod_emod]
  exact congrArg (· % 2 ^ w) signed

theorem vminE_emod : (vminE w a b : Int) % 2 ^ w = min (sg w a) (sg w b) % 2 ^ w := by
  have order : vminE w a b = if sg w a ≤ sg w b then a else b := rfl
  rw [order]
  split
  · next le => rw [min_eq_left le, sg_emod]
  · next gt => rw [min_eq_right (le_of_not_ge gt), sg_emod]

theorem vmaxE_emod : (vmaxE w a b : Int) % 2 ^ w = max (sg w a) (sg w b) % 2 ^ w := by
  have order : vmaxE w a b = if sg w a ≤ sg w b then b else a := rfl
  rw [order]
  split
  · next le => rw [max_eq_right le, sg_emod]
  · next gt => rw [max_eq_left (le_of_not_ge gt), sg_emod]

theorem vabsE_eq (ha : a < 2 ^ w) : vabsE w a b = (sg w a).natAbs := by
  have order : vabsE w a b = if sg w a < 0 then 2 ^ w - a else a := rfl
  have below : (a : Int) < 2 ^ w := by exact_mod_cast ha
  have signed : sg w a = if a < 2 ^ (w - 1) then (a : Int) else a - 2 ^ w := rfl
  rw [order, signed]
  by_cases low : a < 2 ^ (w - 1)
  · rw [if_pos low, if_neg (by omega), Int.natAbs_natCast]
  · have flip : (a : Int) - 2 ^ w = -((2 ^ w - a : Nat) : Int) := by
      rw [Nat.cast_sub ha.le]
      push_cast
      ring
    rw [if_neg low, if_pos (by omega), flip, Int.natAbs_neg, Int.natAbs_natCast]

theorem vnegE_emod (ha : a < 2 ^ w) : (vnegE w a b : Int) % 2 ^ w = -(a : Int) % 2 ^ w := by
  have cast : (vnegE w a b : Int) = -(a : Int) + 2 ^ w := by
    rw [vnegE, Nat.cast_sub ha.le]
    push_cast
    ring
  rw [cast, Int.add_emod_right]

theorem vclzE_cast (ha : a < 2 ^ w) : (vclzE w a b : Int) = if a = 0 then (w : Int) else w - 1 - Nat.log2 a := by
  rw [vclzE, leading_eq ha]
  split
  · rfl
  · next some =>
    have below := (Nat.log2_lt some).mpr ha
    omega

end

/-! ### The instructions and their element functions (R242, R243) -/

/-- Element function `F` gives the elements of rule `f`, modulo 2^w. -/
def Agrees (F : Nat → Nat → Nat → Nat) (f : Nat → Nat → Nat → Int) : Prop :=
  ∀ w a b, 0 < w → a < 2 ^ w → b < 2 ^ w → (F w a b : Int) % 2 ^ w = f w a b % 2 ^ w

/-- An instruction of two operands applies an element function of its rule. -/
theorem exec_intRule {x : Instr} {t : IntTy} {o : V3} {f : Nat → Nat → Nat → Int} (h : intRule x = some (t, o, f)) :
    ∃ F, (∀ s, exec x s = onIssue s (vint t o F)) ∧ Agrees F f := by
  unfold intRule at h
  split at h
  · cases h; exact ⟨vaddE, fun _ => rfl, fun _ _ _ _ _ _ => rfl⟩
  · cases h; exact ⟨vsubE, fun _ => rfl, fun w _ _ _ _ hb => vsubE_emod w hb⟩
  · cases h; exact ⟨vmulE, fun _ => rfl, fun _ a b _ _ _ => by rw [vmulE, Nat.cast_mul]⟩
  · cases h; exact ⟨vmulhE, fun _ => rfl, fun w _ _ _ _ _ => vmulhE_emod w⟩
  · cases h; exact ⟨vmulhnE, fun _ => rfl, fun _ _ _ _ _ _ => by rw [vmulhnE]; push_cast; rfl⟩
  · cases h; exact ⟨vandE, fun _ => rfl, fun _ _ _ _ _ _ => rfl⟩
  · cases h; exact ⟨vorE, fun _ => rfl, fun _ _ _ _ _ _ => rfl⟩
  · cases h; exact ⟨vxorE, fun _ => rfl, fun _ _ _ _ _ _ => rfl⟩
  · cases h; exact ⟨vshlE, fun _ => rfl, fun w _ _ _ _ _ => vshlE_emod w⟩
  · cases h; exact ⟨vshrE, fun _ => rfl, fun w _ _ _ ha _ => vshrE_emod w ha⟩
  · cases h; exact ⟨vsraE, fun _ => rfl, fun w _ _ pos ha _ => vsraE_emod w pos ha⟩
  · cases h; exact ⟨vminE, fun _ => rfl, fun w _ _ _ _ _ => vminE_emod w⟩
  · cases h; exact ⟨vmaxE, fun _ => rfl, fun w _ _ _ _ _ => vmaxE_emod w⟩
  · cases h; exact ⟨vminnE, fun _ => rfl, fun _ _ _ _ _ _ => by simp only [vminnE, Nat.min_def]⟩
  · cases h; exact ⟨vmaxnE, fun _ => rfl, fun _ _ _ _ _ _ => by simp only [vmaxnE, Nat.max_def]⟩
  · cases h

/-- An instruction of one operand applies an element function of its rule. -/
theorem exec_intRule1 {x : Instr} {t : IntTy} {o : V3} {f : Nat → Nat → Int} (h : intRule1 x = some (t, o, f)) :
    ∃ F, (∀ s, exec x s = onIssue s (vint1 t o F)) ∧ Agrees F (fun w a _ => f w a) := by
  unfold intRule1 at h
  split at h
  · cases h; exact ⟨vabsE, fun _ => rfl, fun w _ _ _ ha _ => by rw [vabsE_eq w ha]⟩
  · cases h; exact ⟨vnegE, fun _ => rfl, fun w _ _ _ ha _ => vnegE_emod w ha⟩
  · cases h; exact ⟨vclzE, fun _ => rfl, fun w _ _ _ ha _ => by rw [vclzE_cast w ha]⟩
  · cases h; exact ⟨vpopcE, fun _ => rfl, fun w a _ _ _ _ => by rw [vpopcE, popcount_eq]⟩
  · cases h

/-- An immediate instruction applies an element function of its rule to its immediate. -/
theorem exec_immRule {x : Instr} {t : IntTy} {o : VI} {f : Nat → Nat → Int} (h : immRule x = some (t, o, f)) :
    ∃ F b, (∀ s, exec x s = onIssue s (vimm t o b F)) ∧ ∀ a < 2 ^ Checks.intWidth t,
      (F (Checks.intWidth t) a b : Int) % 2 ^ Checks.intWidth t = f (Checks.intWidth t) a % 2 ^ Checks.intWidth t := by
  unfold immRule at h
  dsimp only at h
  split at h
  · cases h
    refine ⟨vaddE, imm19 t o.imm, fun _ => rfl, fun a _ => ?_⟩
    rw [vaddE, Nat.cast_add, imm19, toE_cast, Int.add_emod_emod]
    rfl
  · cases h; exact ⟨vandE, imm19 t o.imm, fun _ => rfl, fun _ _ => rfl⟩
  · cases h; exact ⟨vorE, imm19 t o.imm, fun _ => rfl, fun _ _ => rfl⟩
  · cases h; exact ⟨vxorE, imm19 t o.imm, fun _ => rfl, fun _ _ => rfl⟩
  · cases h; exact ⟨vshlE, o.imm, fun _ => rfl, fun _ _ => vshlE_emod _⟩
  · cases h; exact ⟨vshrE, o.imm, fun _ => rfl, fun _ ha => vshrE_emod _ ha⟩
  · cases h; exact ⟨vsraE, o.imm, fun _ => rfl, fun _ ha => vsraE_emod _ (intWidth_pos t) ha⟩
  · cases h

/-! ### Lanes (R196) -/

/-- The elements of a lane that an element function has made. -/
theorem getE_elements (t : IntTy) (F : Nat → Nat) {j : Nat} (hj : j < 64 / Checks.intWidth t) :
    (getE (Checks.intWidth t) j (packE (Checks.intWidth t) F) : Int) = (F j : Int) % 2 ^ Checks.intWidth t := by
  rw [getE_packE (intWidth_whole t) F hj]
  push_cast
  rfl

/-- The elements of a lane that an element function of a rule has made are those of the rule. -/
theorem Agrees.getE_elemwise {F : Nat → Nat → Nat → Nat} {f : Nat → Nat → Nat → Int} (agrees : Agrees F f) (t : IntTy)
    (a b : Word) {j : Nat} (hj : j < 64 / Checks.intWidth t) : (getE (Checks.intWidth t) j (elemwise t F a b) : Int) =
      f (Checks.intWidth t) (getE (Checks.intWidth t) j a) (getE (Checks.intWidth t) j b) % 2 ^ Checks.intWidth t :=
  (getE_elements t _ hj).trans (agrees _ _ _ (intWidth_pos t) (getE_lt _ _ _) (getE_lt _ _ _))

/-- Settles O7: an instruction writes the lanes that its element function makes, whose elements are those of its rule. -/
theorem integerVectorsComputeByElement : Obligations.IntegerVectorsComputeByElement := by
  unfold Obligations.IntegerVectorsComputeByElement
  refine ⟨fun s i x t o f steady _ rule vd va vb => ?two, fun s i x t f steady _ =>
    ⟨fun o rule vd va => ?one, fun o rule vd va => ?immediate⟩⟩
  case two =>
    have h := (steady_iff.mp steady).toCalm
    obtain ⟨F, means, agrees⟩ := exec_intRule rule
    refine ⟨_, (means s).trans (h.vectorOp_exec _ _ _ (by simp [v3Needs, vd, va, vb]) rfl rfl), fun l j hj => ?_⟩
    rw [h.vread, h.vpat_eq]
    exact agrees.getE_elemwise t _ _ hj
  case one =>
    have h := (steady_iff.mp steady).toCalm
    obtain ⟨F, means, agrees⟩ := exec_intRule1 rule
    refine ⟨_, (means s).trans (h.vectorOp_exec _ _ _ (by simp [v3Unary, vd, va]) rfl rfl), fun l j hj => ?_⟩
    rw [h.vread]
    exact agrees.getE_elemwise t _ _ hj
  case immediate =>
    have h := (steady_iff.mp steady).toCalm
    obtain ⟨F, b, means, agrees⟩ := exec_immRule rule
    refine ⟨_, (means s).trans (h.vectorOp_exec _ _ _ (by simp [vd, va]) rfl rfl), fun l j hj => ?_⟩
    dsimp only
    rw [h.vread]
    exact (getE_elements t _ hj).trans (agrees _ (getE_lt _ _ _))

end Sys2Proof.Machine
